-- ==== Sys2Proof/Word.lean ====
section
/-! DEFINITION. The word types: a register word, a byte, a 64-bit register or count (00_scope.md R6). -/

namespace Sys2Proof

/-- A 32-bit register field or descriptor word (R6). -/
abbrev Word := BitVec 32

/-- A 64-bit value split over two registers (R6). -/
abbrev DWord := BitVec 64

/-- A byte of memory (R6). -/
abbrev Byte := BitVec 8

end Sys2Proof
end

