-- ==== Sys2Proof/Config.lean ====
section
/-! DEFINITION. What an implementation fixes (the variants of Table 0.1) and the free values: constants without a
body that stand for what the manual leaves open. A statement about one holds for every value of it. -/

namespace Sys2Proof

/-- The three variants of Table 0.1 (R1). -/
inductive Variant where
  | kta2 | kta4 | kta8
  deriving DecidableEq, Repr

/-- Present compute dies (Table 0.1). -/
def Variant.computeDies : Variant → Nat
  | .kta2 => 1 | .kta4 => 3 | .kta8 => 6

/-- Present fabric dies (Table 0.1). -/
def Variant.fabricDies : Variant → Nat
  | .kta2 => 1 | .kta4 => 1 | .kta8 => 2

/-- Present HBM4 stacks (Table 0.1): two for each compute die. -/
def Variant.stacks (v : Variant) : Nat := 2 * v.computeDies

/-- Design power in W (Table 0.1). -/
def Variant.designPower : Variant → Nat
  | .kta2 => 1300 | .kta4 => 2500 | .kta8 => 4800

/-- PEAK_LIMIT at reset in W (R394). -/
def Variant.peakLimit : Variant → Nat
  | .kta2 => 1460 | .kta4 => 2810 | .kta8 => 5400

/-- The bit of VARIANTS in an image header (Table 17.4). -/
def Variant.imageBit : Variant → Nat
  | .kta2 => 0 | .kta4 => 1 | .kta8 => 2

/-- The variant code of the I3C provisional ID and IDENT (R460). -/
def Variant.code : Variant → Nat
  | .kta2 => 2 | .kta4 => 4 | .kta8 => 8

/-- The PCIe device ID (Table 13.9). -/
def Variant.deviceId : Variant → Nat
  | .kta2 => 0xA702 | .kta4 => 0xA704 | .kta8 => 0xA708

/-- The PCIe class code: a processing accelerator (Table 13.9). -/
def pciClass : Nat := 0x120000

/-- Functions whose tables are fixed in hardware and not given (R87, R97). -/
inductive TableFn where
  | gelu | silu | sigmoid | exp | rsqrt
  deriving DecidableEq, Repr

/-- Free value n: what the manual leaves open, drawn afresh at each use by the counter the state holds
(log entry 6). -/
opaque Config.freeNat : Nat → Nat

/-- What a hardware table gives for an FP32 argument, as m and e of m × 2^e: free inside the error bound of R87, which
`tableOf` holds it to, the same for the same input (R87; log entry 7). -/
opaque Config.tableValue : TableFn → Word → Int × Int

/-- The slack that the coarse path's own upward roundings add to β, by the terms of the output: sign, nibble with flag, unit
exponent of each operand (R56 gives β a least value only; log entry 18). -/
opaque Config.coarseSlack : List Int → Nat

/-- SHAKE256 with a 512-bit output (R418, R423, R430): named by a standard outside the manual (log entry 8). -/
opaque Config.shake256 : List Byte → BitVec 512

/-- Whether an SLH-DSA-SHAKE-256s signature verifies: public key, message, signature (R418, R423; log entry 8). -/
opaque Config.slhVerify : List Byte → List Byte → List Byte → Bool

/-- The attestation engine's SLH-DSA-SHAKE-256f signature over a report, and the certificate chain it holds
(R429, R431; log entry 8). -/
opaque Config.slhSign : List Byte → Nat → Byte

/-- Byte n of the identity certificate chain in the flash (R429; log entry 8). -/
opaque Config.certChain : Nat → Byte

/-- The length of the identity certificate chain in bytes (R429; log entry 8). -/
opaque Config.certChainLen : Nat

/-- The fused root digest (R418; log entry 5). -/
opaque Config.rootDigest : BitVec 512

/-- Measurement 0, the ROM, and measurement 3, the fuse array: owner digest, SVN minimum, serial number (R430; log
entry 8). -/
opaque Config.romDigest : BitVec 512
opaque Config.fuseDigest : List Byte → Nat → Nat → BitVec 512

/-- The vendor identifier fused for the I3C provisional ID (R460; log entry 9). -/
opaque Config.i3cVendor : Nat

/-- The fused PCIe vendor ID (Table 13.9; log entry 9). -/
opaque Config.pcieVendor : Nat

/-- The IDCODE word of a die's TAP (R462 gives no value; log entry 9). -/
opaque Config.idcode : Nat → Word

/-- A byte of what the device writes into a region whose layout is its own (R310, R350, R376; log entry 103). -/
opaque Config.ownByte : Nat → Nat → BitVec 8

/-- The HBM row a line lies in, by module-local line address (R278 names rows and gives no geometry; log
entry 10). -/
opaque Config.hbmRow : Nat → Nat

/-- Where a row lies, and where each of its parts begins (R178: the engine's choice, internal; log entry 83). -/
opaque Config.rowHome : Nat → Nat

/-- The variant in another slot of the board; none: the slot is empty (R322, R323; log entry 90). -/
opaque Config.slot : Nat → Option Variant

/-- Packets that the fabric's reorder store holds (R309 gives no size; log entry 89). -/
opaque Config.reorderStore : Nat

/-- Bytes of a job's row store in HBM and in the far tier (R178 gives no size; log entry 20). -/
opaque Config.rowStoreHbm : Nat → Nat
opaque Config.rowStoreFar : Nat → Nat

/-- What calibration record n holds, and the fused defaults: the coefficient a_s of a square, in mW at full activity; the static
power of a die, in mW; the fabric dies' power per GB/s of port traffic, in mW; the weight of a kind of event of a square's units, in
1/1,048,576 of full activity (R387, R395, R399; log entry 28). -/
opaque Config.calCoef : Nat → Nat → Nat
opaque Config.calStatic : Nat → Nat → Nat
opaque Config.calFabric : Nat → Nat
opaque Config.calWeight : Nat → Nat → Nat
opaque Config.fusedCoef : Nat → Nat
opaque Config.fusedStatic : Nat → Nat
opaque Config.fusedFabric : Nat
opaque Config.fusedWeight : Nat → Nat

/-- The estimate's share of the stacks by how many are ready, and of the optical modules by how many are accepted, in mW (R395;
log entry 28). -/
opaque Config.hbmPower : Nat → Nat
opaque Config.opticsPower : Nat → Nat

/-- The signed image that both slots hold when the part ships (R464; log entry 105). -/
opaque Config.shippedImage : List (BitVec 8)

/-- FWU_NONCE after the first reset: a fresh random value (R423, Table 17.10). -/
opaque Config.firstNonce : BitVec 64

/-- Steps of 10 MHz by which a square's fused FMAX exceeds 1,000 MHz, and the fused voltage table of a die by clock
(R401; log entry 28). -/
opaque Config.fmaxStep : Nat → Fin 26
opaque Config.vTable : Nat → Nat → Nat

end Sys2Proof
end

