-- ==== Sys2Proof/Machine/Regs.lean ====
section
/-! DEFINITION. The offsets of the registers and the bits of ERR_STATUS, under the names the register tables give them,
and the rows of those tables: offset, width, access, reset value, defined bits, counter kind, select register. -/

namespace Sys2Proof.Machine

/-! ### MXU -/
abbrev MXU.MXU_CAPS : Nat := 0x100
abbrev MXU.MXU_CTRL : Nat := 0x104
abbrev MXU.MXU_STATE : Nat := 0x108
abbrev MXU.BUSY_CYCLES : Nat := 0x110
abbrev MXU.SPREAD_CYCLES : Nat := 0x118
abbrev MXU.LOAD_STALL_CYCLES : Nat := 0x120
abbrev MXU.FLUSH_STALL_CYCLES : Nat := 0x128
abbrev MXU.RAMP_HOLD_CYCLES : Nat := 0x130
abbrev MXU.MASK_VIOLATIONS : Nat := 0x138
abbrev MXU.ACC_SPILLS : Nat := 0x13c
abbrev MXU.MATMULS_DONE : Nat := 0x140
abbrev MXU.NAN_POS : Nat := 0x144
abbrev MXU.MASK_FIRST : Nat := 0x148
abbrev MXU.E_OPERAND_UE : Nat := 0
abbrev MXU.E_DESC_INVALID : Nat := 1
abbrev MXU.E_ACC_TAG : Nat := 2

/-! ### SCS -/
abbrev SCS.SCS_CAPS : Nat := 0x100
abbrev SCS.SCS_CTRL : Nat := 0x104
abbrev SCS.SCS_CONFIG : Nat := 0x108
abbrev SCS.SCS_STATE : Nat := 0x10c
abbrev SCS.SLOT_LIMIT : Nat := 0x110
abbrev SCS.QUEUED_NOW : Nat := 0x114
abbrev SCS.UPDATES_ABSORBED : Nat := 0x118
abbrev SCS.UPDATES_QUEUED : Nat := 0x120
abbrev SCS.PROMOTION_WAIT : Nat := 0x128
abbrev SCS.QUEUE_FULL_CYCLES : Nat := 0x130
abbrev SCS.PROMOTIONS : Nat := 0x138
abbrev SCS.DEMOTIONS : Nat := 0x13c
abbrev SCS.OVERFLOW_TAGS : Nat := 0x140
abbrev SCS.POISON_DROPS : Nat := 0x144
abbrev SCS.CE_CORRECTED : Nat := 0x148
abbrev SCS.BANK_WIDE_PEAK : Nat := 0x14c
abbrev SCS.READOUTS_DONE : Nat := 0x150
abbrev SCS.E_OVERFLOW : Nat := 0
abbrev SCS.E_DESC_INVALID : Nat := 1
abbrev SCS.E_SLOT_UE : Nat := 2
abbrev SCS.E_RAW_WRITE : Nat := 3

/-! ### VXU -/
abbrev VXU.VXU_CAPS : Nat := 0x100
abbrev VXU.VXU_CTRL : Nat := 0x104
abbrev VXU.VXU_STATE : Nat := 0x108
abbrev VXU.BUSY_CYCLES : Nat := 0x110
abbrev VXU.RAMP_HOLD_CYCLES : Nat := 0x118
abbrev VXU.SR_ELEMENTS : Nat := 0x120
abbrev VXU.VX_DONE : Nat := 0x128
abbrev VXU.ZERO_BLOCKS_LAST : Nat := 0x12c
abbrev VXU.VANISHED_LAST : Nat := 0x130
abbrev VXU.TENSOR_SCALE_LAST : Nat := 0x134
abbrev VXU.NAN_POS : Nat := 0x138
abbrev VXU.EMPTY_SEGMENTS : Nat := 0x13c
abbrev VXU.BAD_INDEX : Nat := 0x140
abbrev VXU.UPDATES_SKIPPED : Nat := 0x144
abbrev VXU.RLOG_DROPPED : Nat := 0x148
abbrev VXU.RLOG_BASE : Nat := 0x150
abbrev VXU.RLOG_CONFIG : Nat := 0x158
abbrev VXU.RLOG_HEAD : Nat := 0x15c
abbrev VXU.RLOG_TAIL : Nat := 0x160
abbrev VXU.RATIO_HIGH : Nat := 0x164
abbrev VXU.RATIO_LOW : Nat := 0x168
abbrev VXU.E_DESC_INVALID : Nat := 0
abbrev VXU.E_BAD_INDEX : Nat := 1
abbrev VXU.E_NORM_NONFINITE : Nat := 2
abbrev VXU.E_RATIO_EVENT : Nat := 3
abbrev VXU.E_RLOG_OVERRUN : Nat := 4
abbrev VXU.E_OPERAND_UE : Nat := 5

/-! ### KNT -/
abbrev KNT.KNT_CAPS : Nat := 0x100
abbrev KNT.KNT_CTRL : Nat := 0x104
abbrev KNT.KNT_STATE : Nat := 0x108
abbrev KNT.STEP_SEED : Nat := 0x110
abbrev KNT.PLOG_BASE : Nat := 0x118
abbrev KNT.PLOG_SIZE : Nat := 0x120
abbrev KNT.SPLIT_THRESHOLD : Nat := 0x124
abbrev KNT.DRAWS : Nat := 0x128
abbrev KNT.RECORDS : Nat := 0x130
abbrev KNT.REMOTE_WAIT_CYCLES : Nat := 0x138
abbrev KNT.REMOTE_REQUESTS : Nat := 0x140
abbrev KNT.REMOTE_SERVED : Nat := 0x144
abbrev KNT.HEAVY_SPLITS : Nat := 0x148
abbrev KNT.HELPER_SEGMENTS : Nat := 0x14c
abbrev KNT.EMPTY_DESTS : Nat := 0x150
abbrev KNT.CAPPED_DESTS : Nat := 0x154
abbrev KNT.UNSORTED_SCANS : Nat := 0x158
abbrev KNT.CUT_EXHAUSTED : Nat := 0x15c
abbrev KNT.BAD_DEST : Nat := 0x160
abbrev KNT.ALIAS_MISSING : Nat := 0x164
abbrev KNT.ALIAS_BUILT : Nat := 0x168
abbrev KNT.BAD_WEIGHT_ROWS : Nat := 0x16c
abbrev KNT.ZERO_WEIGHT_ROWS : Nat := 0x170
abbrev KNT.KNT_DONE : Nat := 0x174
abbrev KNT.NO_SERVER : Nat := 0x178
abbrev KNT.E_DESC_INVALID : Nat := 0
abbrev KNT.E_BAD_DEST : Nat := 1
abbrev KNT.E_ALIAS_MISSING : Nat := 2
abbrev KNT.E_BAD_WEIGHT : Nat := 3
abbrev KNT.E_ADJ_UE : Nat := 4
abbrev KNT.E_NO_SERVER : Nat := 5

/-! ### ROOK -/
abbrev ROOK.ROOK_CAPS : Nat := 0x100
abbrev ROOK.ROOK_CTRL : Nat := 0x104
abbrev ROOK.ROOK_STATE : Nat := 0x108
abbrev ROOK.GWIN_CONFIG : Nat := 0x10c
abbrev ROOK.SEG_CONFIG : Nat := 0x110
abbrev ROOK.TOUCH_ADDR : Nat := 0x114
abbrev ROOK.TOUCH_MAX : Nat := 0x118
abbrev ROOK.OVF_BASE : Nat := 0x120
abbrev ROOK.OVF_SIZE : Nat := 0x128
abbrev ROOK.TOUCH_COUNT : Nat := 0x130
abbrev ROOK.GWIN_USED : Nat := 0x134
abbrev ROOK.OVF_USED : Nat := 0x138
abbrev ROOK.ROWS_GATHERED : Nat := 0x140
abbrev ROOK.MERGE_HITS : Nat := 0x148
abbrev ROOK.REMOTE_READS : Nat := 0x150
abbrev ROOK.LOCAL_WAIT_CYCLES : Nat := 0x158
abbrev ROOK.REMOTE_WAIT_CYCLES : Nat := 0x160
abbrev ROOK.STRICT_WAIT_CYCLES : Nat := 0x168
abbrev ROOK.ROWS_SENT : Nat := 0x170
abbrev ROOK.ROWS_RECEIVED : Nat := 0x178
abbrev ROOK.STALE_READS : Nat := 0x180
abbrev ROOK.OVF_RECORDS : Nat := 0x184
abbrev ROOK.OVF_LOST : Nat := 0x188
abbrev ROOK.HEAVY_SPLITS : Nat := 0x18c
abbrev ROOK.SEG_SETTLED : Nat := 0x190
abbrev ROOK.FOREIGN_SKIPS : Nat := 0x194
abbrev ROOK.BAD_RECORDS : Nat := 0x198
abbrev ROOK.BAD_ROWS : Nat := 0x19c
abbrev ROOK.UNPUBLISHED : Nat := 0x1a0
abbrev ROOK.ROOK_DONE : Nat := 0x1a4
abbrev ROOK.E_DESC_INVALID : Nat := 0
abbrev ROOK.E_BAD_ROW : Nat := 1
abbrev ROOK.E_BAD_RECORD : Nat := 2
abbrev ROOK.E_OVF_FULL : Nat := 3
abbrev ROOK.E_ROW_UE : Nat := 4

/-! ### PLC -/
abbrev PLC.PLC_CAPS : Nat := 0x100
abbrev PLC.PLC_CTRL : Nat := 0x104
abbrev PLC.PLC_CONFIG : Nat := 0x108
abbrev PLC.SKETCH_CONFIG : Nat := 0x10c
abbrev PLC.DIR_BASE0 : Nat := 0x110
abbrev PLC.DIR_BASE1 : Nat := 0x118
abbrev PLC.REPL_BASE : Nat := 0x120
abbrev PLC.REPL_SIZE : Nat := 0x128
abbrev PLC.DIR_USED : Nat := 0x130
abbrev PLC.JOB_SEL : Nat := 0x134
abbrev PLC.JOB_CONFIG : Nat := 0x138
abbrev PLC.JOB_THRESH : Nat := 0x13c
abbrev PLC.JOB_MIG : Nat := 0x140
abbrev PLC.JOB_STATE : Nat := 0x144
abbrev PLC.JOB_STEP : Nat := 0x148
abbrev PLC.UNDO_ROWS : Nat := 0x14c
abbrev PLC.JOB_NEXT_BEAT : Nat := 0x150
abbrev PLC.DIR_LOOKUPS : Nat := 0x158
abbrev PLC.DIR_MISSES : Nat := 0x160
abbrev PLC.ROUTED_ON : Nat := 0x168
abbrev PLC.REPLICAS_HELD : Nat := 0x170
abbrev PLC.REPL_GRANTED : Nat := 0x174
abbrev PLC.REPL_REFUSED : Nat := 0x178
abbrev PLC.REPL_EVICTED : Nat := 0x17c
abbrev PLC.REFRESHES_SENT : Nat := 0x180
abbrev PLC.MIG_STARTED : Nat := 0x188
abbrev PLC.MIG_TRANSFERRED : Nat := 0x18c
abbrev PLC.MIG_ABANDONED : Nat := 0x190
abbrev PLC.DUP_DISCARDED : Nat := 0x194
abbrev PLC.FAR_DEMOTED : Nat := 0x198
abbrev PLC.FAR_RAISED : Nat := 0x19c
abbrev PLC.DIR_REFUSED : Nat := 0x1a0
abbrev PLC.PLC_DONE : Nat := 0x1a4
abbrev PLC.NO_RECEIVER : Nat := 0x1a8
abbrev PLC.E_DESC_INVALID : Nat := 0
abbrev PLC.E_STEP_LATE : Nat := 1
abbrev PLC.E_DIR_FULL : Nat := 2
abbrev PLC.E_TABLE_MISMATCH : Nat := 3
abbrev PLC.E_STORE_FULL : Nat := 4
abbrev PLC.E_DIR_UE : Nat := 5
abbrev PLC.E_NO_RECEIVER : Nat := 6

/-! ### GMB -/
abbrev GMB.GMB_CAPS : Nat := 0x100
abbrev GMB.GMB_CTRL : Nat := 0x104
abbrev GMB.GMB_STATE : Nat := 0x108
abbrev GMB.GMB_THETA : Nat := 0x10c
abbrev GMB.GMB_ALARM : Nat := 0x110
abbrev GMB.COARSE_CYCLES : Nat := 0x118
abbrev GMB.FULL_CYCLES : Nat := 0x120
abbrev GMB.MAKEUP_CYCLES : Nat := 0x128
abbrev GMB.PREDICTED_ACTIVE : Nat := 0x130
abbrev GMB.CERTIFIED : Nat := 0x138
abbrev GMB.WASTED : Nat := 0x140
abbrev GMB.SKIPPED_UNCHECKED : Nat := 0x148
abbrev GMB.MISSES : Nat := 0x150
abbrev GMB.FALSE_ALARMS : Nat := 0x154
abbrev GMB.AUDITED : Nat := 0x158
abbrev GMB.AUDIT_MISSES : Nat := 0x15c
abbrev GMB.MAKEUP_FLUSHES : Nat := 0x160
abbrev GMB.MAKEUP_PEAK : Nat := 0x164
abbrev GMB.GMB_DONE : Nat := 0x168
abbrev GMB.CERT_MASK0 : Nat := 0x170
abbrev GMB.CERT_MASK1 : Nat := 0x174
abbrev GMB.CERT_MASK2 : Nat := 0x178
abbrev GMB.CERT_MASK3 : Nat := 0x17c
abbrev GMB.E_DESC_INVALID : Nat := 0
abbrev GMB.E_OPERAND_UE : Nat := 1
abbrev GMB.E_MISS_ALARM : Nat := 2

/-! ### QMG -/
abbrev QMG.QMG_CAPS : Nat := 0x100
abbrev QMG.QMG_CTRL : Nat := 0x104
abbrev QMG.QSEL : Nat := 0x108
abbrev QMG.Q_CONFIG : Nat := 0x10c
abbrev QMG.Q_BASE : Nat := 0x110
abbrev QMG.Q_HEAD : Nat := 0x118
abbrev QMG.Q_TAIL : Nat := 0x11c
abbrev QMG.Q_STATE : Nat := 0x120
abbrev QMG.Q_CMD : Nat := 0x124
abbrev QMG.CQSEL : Nat := 0x128
abbrev QMG.CQ_CONFIG : Nat := 0x12c
abbrev QMG.CQ_BASE : Nat := 0x130
abbrev QMG.CQ_HEAD : Nat := 0x138
abbrev QMG.CQ_TAIL : Nat := 0x13c
abbrev QMG.CQ_STATE : Nat := 0x140
abbrev QMG.CMDS_STARTED : Nat := 0x148
abbrev QMG.CMDS_COMPLETED : Nat := 0x150
abbrev QMG.DB_IGNORED : Nat := 0x158
abbrev QMG.CQ_DROPPED : Nat := 0x15c
abbrev QMG.REFUSED_UNBOUND : Nat := 0x160
abbrev QMG.REFUSED_STALE : Nat := 0x164
abbrev QMG.DEADLINE_ENDS : Nat := 0x168
abbrev QMG.HALTS : Nat := 0x16c
abbrev QMG.E_DESC_INVALID : Nat := 0
abbrev QMG.E_DB_INVALID : Nat := 1
abbrev QMG.E_QUEUE_HALTED : Nat := 2
abbrev QMG.E_CQ_OVERRUN : Nat := 3
abbrev QMG.E_CQ_MISROUTED : Nat := 4
abbrev QMG.E_DESC_UE : Nat := 5

/-! ### TMP -/
abbrev TMP.TMP_CONFIG : Nat := 0x100
abbrev TMP.SKEW_LIMIT : Nat := 0x104
abbrev TMP.TMP_STATE : Nat := 0x108
abbrev TMP.BEAT_NOW : Nat := 0x110
abbrev TMP.OFFSET : Nat := 0x118
abbrev TMP.SET_BEAT : Nat := 0x120
abbrev TMP.MARKS_RX : Nat := 0x128
abbrev TMP.MARKS_BAD : Nat := 0x12c
abbrev TMP.HOLDOVERS : Nat := 0x130
abbrev TMP.SKEW_ALARMS : Nat := 0x134
abbrev TMP.E_HOLDOVER : Nat := 0
abbrev TMP.E_SKEW_EXCEEDED : Nat := 1
abbrev TMP.E_MASTER_CONFLICT : Nat := 2

/-! ### ARB -/
abbrev ARB.ARB_CAPS : Nat := 0x100
abbrev ARB.ARB_CTRL : Nat := 0x104
abbrev ARB.OBJ_SEL : Nat := 0x108
abbrev ARB.OBJ_VALUE : Nat := 0x10c
abbrev ARB.OBJ_REST : Nat := 0x110
abbrev ARB.OBJ_STATE : Nat := 0x114
abbrev ARB.OBJ_WAITERS : Nat := 0x118
abbrev ARB.BUSY_NOW : Nat := 0x11c
abbrev ARB.SIGNALS : Nat := 0x120
abbrev ARB.GATED_CYCLES : Nat := 0x128
abbrev ARB.TRACKER_WAIT_CYCLES : Nat := 0x130
abbrev ARB.RELEASES : Nat := 0x138
abbrev ARB.BARRIERS_DONE : Nat := 0x13c
abbrev ARB.SATURATIONS : Nat := 0x140
abbrev ARB.SIG_DROPPED : Nat := 0x144
abbrev ARB.HDR_SKIPPED : Nat := 0x148
abbrev ARB.ORPHANINGS : Nat := 0x14c
abbrev ARB.ARB_DONE : Nat := 0x150
abbrev ARB.E_DESC_INVALID : Nat := 0
abbrev ARB.E_HDR_SKIPPED : Nat := 1
abbrev ARB.E_ORPHANED : Nat := 2
abbrev ARB.E_SIG_DROPPED : Nat := 3
abbrev ARB.E_BARRIER_MISMATCH : Nat := 4
abbrev ARB.E_SIG_SATURATED : Nat := 5

/-! ### HBM -/
abbrev HBM.HBM_CAPS : Nat := 0x100
abbrev HBM.HBM_CTRL : Nat := 0x104
abbrev HBM.HBM_STATE : Nat := 0x108
abbrev HBM.SCRUB_CONFIG : Nat := 0x10c
abbrev HBM.REPAIR_CONFIG : Nat := 0x110
abbrev HBM.LINE_READS : Nat := 0x118
abbrev HBM.LINE_WRITES : Nat := 0x120
abbrev HBM.CE_CORRECTED : Nat := 0x128
abbrev HBM.UE_COUNT : Nat := 0x12c
abbrev HBM.SCRUB_PASSES : Nat := 0x130
abbrev HBM.SCRUB_CORRECTED : Nat := 0x134
abbrev HBM.REPAIR_PENDING : Nat := 0x138
abbrev HBM.REPAIRED : Nat := 0x13c
abbrev HBM.UE_LOG0 : Nat := 0x150
abbrev HBM.UE_LOG1 : Nat := 0x158
abbrev HBM.UE_LOG2 : Nat := 0x160
abbrev HBM.UE_LOG3 : Nat := 0x168
abbrev HBM.UE_LOG4 : Nat := 0x170
abbrev HBM.UE_LOG5 : Nat := 0x178
abbrev HBM.UE_LOG6 : Nat := 0x180
abbrev HBM.UE_LOG7 : Nat := 0x188
abbrev HBM.UE_LOG8 : Nat := 0x190
abbrev HBM.UE_LOG9 : Nat := 0x198
abbrev HBM.UE_LOG10 : Nat := 0x1a0
abbrev HBM.UE_LOG11 : Nat := 0x1a8
abbrev HBM.UE_LOG12 : Nat := 0x1b0
abbrev HBM.UE_LOG13 : Nat := 0x1b8
abbrev HBM.UE_LOG14 : Nat := 0x1c0
abbrev HBM.UE_LOG15 : Nat := 0x1c8
abbrev HBM.E_STACK_FAILED : Nat := 0
abbrev HBM.E_UE : Nat := 1
abbrev HBM.E_UE_LOG_FULL : Nat := 2
abbrev HBM.E_REPAIR_EXHAUSTED : Nat := 3

/-! ### WCB -/
abbrev WCB.WCB_CAPS : Nat := 0x100
abbrev WCB.WCB_CTRL : Nat := 0x104
abbrev WCB.WCB_CONFIG : Nat := 0x108
abbrev WCB.DIRTY_NOW : Nat := 0x10c
abbrev WCB.WRITES_MERGED : Nat := 0x110
abbrev WCB.READ_HITS : Nat := 0x118
abbrev WCB.WRITEBACKS : Nat := 0x120
abbrev WCB.RMW_WRITEBACKS : Nat := 0x128
abbrev WCB.FULL_WAIT_CYCLES : Nat := 0x130
abbrev WCB.FULL_EVICTIONS : Nat := 0x138
abbrev WCB.BEAT_FLUSHES : Nat := 0x13c
abbrev WCB.FENCE_FLUSHES : Nat := 0x140
abbrev WCB.WB_UE : Nat := 0x144
abbrev WCB.DMA_DONE : Nat := 0x148
abbrev WCB.DMA_BYTES : Nat := 0x150
abbrev WCB.E_DESC_INVALID : Nat := 0
abbrev WCB.E_WB_UE : Nat := 1
abbrev WCB.E_DMA_POISON : Nat := 2

/-! ### FAR -/
abbrev FAR.FAR_CAPS : Nat := 0x100
abbrev FAR.FAR_CTRL : Nat := 0x104
abbrev FAR.FAR_STATE : Nat := 0x108
abbrev FAR.DEC_SEL : Nat := 0x10c
abbrev FAR.DEC_BASE : Nat := 0x110
abbrev FAR.DEC_SIZE : Nat := 0x118
abbrev FAR.DEC_CTRL : Nat := 0x120
abbrev FAR.FAR_READS : Nat := 0x128
abbrev FAR.FAR_WRITES : Nat := 0x130
abbrev FAR.POISON_RX : Nat := 0x138
abbrev FAR.DEC_MISSES : Nat := 0x13c
abbrev FAR.LINK_DOWNS : Nat := 0x140
abbrev FAR.E_DEC_MISS : Nat := 0
abbrev FAR.E_POISON : Nat := 1
abbrev FAR.E_LINK_DOWN : Nat := 2

/-! ### PLY -/
abbrev PLY.PLY_CAPS : Nat := 0x100
abbrev PLY.PLY_CTRL : Nat := 0x104
abbrev PLY.PLY_CONFIG : Nat := 0x108
abbrev PLY.LANE_SER_LIMIT : Nat := 0x10c
abbrev PLY.EXPECT : Nat := 0x110
abbrev PLY.PLY_STATE : Nat := 0x114
abbrev PLY.PLY_PARTNER : Nat := 0x118
abbrev PLY.LINK_DELAY : Nat := 0x11c
abbrev PLY.VC_CREDIT0 : Nat := 0x120
abbrev PLY.VC_CREDIT1 : Nat := 0x124
abbrev PLY.VC_CREDIT2 : Nat := 0x128
abbrev PLY.VC_CREDIT3 : Nat := 0x12c
abbrev PLY.VC_CREDIT4 : Nat := 0x130
abbrev PLY.VC_CREDIT5 : Nat := 0x134
abbrev PLY.VC_CREDIT6 : Nat := 0x138
abbrev PLY.VC_CREDIT7 : Nat := 0x13c
abbrev PLY.FLITS_TX : Nat := 0x140
abbrev PLY.FLITS_RX : Nat := 0x148
abbrev PLY.FEC_CORRECTED : Nat := 0x150
abbrev PLY.FEC_UNCORRECTED : Nat := 0x158
abbrev PLY.CRC_ERRORS : Nat := 0x15c
abbrev PLY.REPLAYS : Nat := 0x160
abbrev PLY.RETRAINS : Nat := 0x164
abbrev PLY.LANE_DEGRADES : Nat := 0x168
abbrev PLY.REROUTED : Nat := 0x16c
abbrev PLY.BAD_FLITS : Nat := 0x170
abbrev PLY.STOP_RX : Nat := 0x174
abbrev PLY.E_REPLAY_LIMIT : Nat := 0
abbrev PLY.E_LANE_DEGRADED : Nat := 1
abbrev PLY.E_PORT_FAILED : Nat := 2
abbrev PLY.E_MISWIRED : Nat := 3
abbrev PLY.E_STOP_RX : Nat := 4
abbrev PLY.E_LOST_DROP : Nat := 5
abbrev PLY.E_BAD_PACKET : Nat := 6
abbrev PLY.E_NO_ROUTE : Nat := 7
abbrev PLY.E_UNREACHABLE : Nat := 8
abbrev PLY.E_LOST_REFUSED : Nat := 9

/-! ### FAB -/
abbrev FAB.FAB_ID : Nat := 0x400
abbrev FAB.FAB_COORD : Nat := 0x404
abbrev FAB.FAB_DIMS : Nat := 0x408
abbrev FAB.ROUTE_BANK : Nat := 0x40c
abbrev FAB.RT_SEL : Nat := 0x410
abbrev FAB.RT_ENTRY : Nat := 0x414
abbrev FAB.E2E_CONFIG : Nat := 0x418
abbrev FAB.E2E_BASE : Nat := 0x420
abbrev FAB.E2E_SIZE : Nat := 0x428
abbrev FAB.LOST_CMD : Nat := 0x430
abbrev FAB.LOST_SUB : Nat := 0x434
abbrev FAB.LOST_COUNT : Nat := 0x438
abbrev FAB.PKTS_INJECTED : Nat := 0x440
abbrev FAB.PKTS_DELIVERED : Nat := 0x448
abbrev FAB.E2E_RESENDS : Nat := 0x450
abbrev FAB.STREAM_DUPS : Nat := 0x454
abbrev FAB.HOP_DISCARDS : Nat := 0x458
abbrev FAB.NO_ROUTE : Nat := 0x45c
abbrev FAB.BAD_PACKETS : Nat := 0x460
abbrev FAB.LOST_DROPS : Nat := 0x464
abbrev FAB.INJECT_WAIT_CYCLES : Nat := 0x468

/-! ### HXP -/
abbrev HXP.HXP_CAPS : Nat := 0x100
abbrev HXP.HXP_CTRL : Nat := 0x104
abbrev HXP.HXP_CONFIG : Nat := 0x108
abbrev HXP.HXP_STATE : Nat := 0x10c
abbrev HXP.INTR_ROUTE : Nat := 0x110
abbrev HXP.APERTURE0 : Nat := 0x120
abbrev HXP.APERTURE1 : Nat := 0x128
abbrev HXP.APERTURE2 : Nat := 0x130
abbrev HXP.APERTURE3 : Nat := 0x138
abbrev HXP.APERTURE4 : Nat := 0x140
abbrev HXP.APERTURE5 : Nat := 0x148
abbrev HXP.APERTURE6 : Nat := 0x150
abbrev HXP.APERTURE7 : Nat := 0x158
abbrev HXP.APERTURE8 : Nat := 0x160
abbrev HXP.APERTURE9 : Nat := 0x168
abbrev HXP.APERTURE10 : Nat := 0x170
abbrev HXP.APERTURE11 : Nat := 0x178
abbrev HXP.APERTURE12 : Nat := 0x180
abbrev HXP.APERTURE13 : Nat := 0x188
abbrev HXP.APERTURE14 : Nat := 0x190
abbrev HXP.APERTURE15 : Nat := 0x198
abbrev HXP.TLP_RX : Nat := 0x1a0
abbrev HXP.TLP_TX : Nat := 0x1a8
abbrev HXP.ORDER_WAIT_CYCLES : Nat := 0x1b0
abbrev HXP.APERTURE_MISS : Nat := 0x1b8
abbrev HXP.TARGET_LOST : Nat := 0x1bc
abbrev HXP.INTR_SENT : Nat := 0x1c0
abbrev HXP.INTR_DROPPED : Nat := 0x1c4
abbrev HXP.LINK_DOWNS : Nat := 0x1c8
abbrev HXP.E_LINK_DOWN : Nat := 0
abbrev HXP.E_AER_UNCORRECTABLE : Nat := 1
abbrev HXP.E_APERTURE_MISS : Nat := 2
abbrev HXP.E_TARGET_LOST : Nat := 3
abbrev HXP.E_INTR_DROPPED : Nat := 4

/-! ### RED -/
abbrev RED.RED_CAPS : Nat := 0x100
abbrev RED.RED_CTRL : Nat := 0x104
abbrev RED.CTX_SEL : Nat := 0x108
abbrev RED.CTX_CONFIG : Nat := 0x10c
abbrev RED.CTX_STATE : Nat := 0x110
abbrev RED.CTX_INST : Nat := 0x114
abbrev RED.CTX_PENDING : Nat := 0x118
abbrev RED.SPILL_BASE : Nat := 0x120
abbrev RED.SPILL_SIZE : Nat := 0x128
abbrev RED.RBUF_USED : Nat := 0x130
abbrev RED.CHUNKS_ADDED : Nat := 0x140
abbrev RED.LATE_HOLDS : Nat := 0x148
abbrev RED.SCALE_LIFTS : Nat := 0x150
abbrev RED.RED_DUPS : Nat := 0x154
abbrev RED.RED_STALE : Nat := 0x158
abbrev RED.RED_RESENDS : Nat := 0x15c
abbrev RED.ABORTS : Nat := 0x160
abbrev RED.BACKUP_DISCARDS : Nat := 0x164
abbrev RED.SPILLS : Nat := 0x168
abbrev RED.RBUF_DROPS : Nat := 0x16c
abbrev RED.NONFINITE_BLOCKS : Nat := 0x170
abbrev RED.VER_MISMATCH : Nat := 0x174
abbrev RED.RED_DONE : Nat := 0x178
abbrev RED.E_DESC_INVALID : Nat := 0
abbrev RED.E_NONFINITE : Nat := 1
abbrev RED.E_ABORTED : Nat := 2
abbrev RED.E_BAD_CONTRIB : Nat := 3
abbrev RED.E_VER_MISMATCH : Nat := 4
abbrev RED.E_SPILL_FULL : Nat := 5

/-! ### BND -/
abbrev BND.BND_CAPS : Nat := 0x100
abbrev BND.BND_CTRL : Nat := 0x104
abbrev BND.BND_STATE : Nat := 0x108
abbrev BND.CASTLE_ADDR : Nat := 0x110
abbrev BND.CASTLE_COUNT : Nat := 0x118
abbrev BND.REPORT_BASE : Nat := 0x120
abbrev BND.REPORT_MAX : Nat := 0x128
abbrev BND.CASTLE_BEAT : Nat := 0x130
abbrev BND.CASTLE_BEATS : Nat := 0x138
abbrev BND.JOB_SEL : Nat := 0x13c
abbrev BND.JOB_SHARE : Nat := 0x140
abbrev BND.MLIST_LEN : Nat := 0x144
abbrev BND.MLIST_BASE : Nat := 0x148
abbrev BND.MLIST_COUNT : Nat := 0x150
abbrev BND.MLIST_STATE : Nat := 0x154
abbrev BND.SHADOW_GEN : Nat := 0x158
abbrev BND.HOLD_GEN : Nat := 0x15c
abbrev BND.SHADOW_BASE : Nat := 0x160
abbrev BND.SHADOW_SIZE : Nat := 0x168
abbrev BND.HEARTBEAT : Nat := 0x170
abbrev BND.TWIN_CMD : Nat := 0x174
abbrev BND.HANDBACK_BEAT : Nat := 0x178
abbrev BND.RESYNC_CMD : Nat := 0x180
abbrev BND.UNIT_SEL : Nat := 0x184
abbrev BND.UNIT_EPOCH : Nat := 0x188
abbrev BND.SHADOW_BYTES : Nat := 0x190
abbrev BND.CASTLES_DONE : Nat := 0x198
abbrev BND.CASTLES_REFUSED : Nat := 0x19c
abbrev BND.ORPHANED_CMDS : Nat := 0x1a0
abbrev BND.LEFTOVERS : Nat := 0x1a4
abbrev BND.REPORT_TRUNCATED : Nat := 0x1a8
abbrev BND.STALE_EVENTS : Nat := 0x1ac
abbrev BND.RESYNCS : Nat := 0x1b0
abbrev BND.SEALS : Nat := 0x1b4
abbrev BND.JOURNAL_DISCARDS : Nat := 0x1b8
abbrev BND.SHADOW_SKIPPED : Nat := 0x1bc
abbrev BND.HB_MISSED : Nat := 0x1c0
abbrev BND.LIST_CHANGES : Nat := 0x1c4
abbrev BND.BND_DONE : Nat := 0x1c8
abbrev BND.E_DESC_INVALID : Nat := 0
abbrev BND.E_CASTLE_REFUSED : Nat := 1
abbrev BND.E_LEFTOVER : Nat := 2
abbrev BND.E_REPORT_TRUNCATED : Nat := 3
abbrev BND.E_UNIT_STALE : Nat := 4
abbrev BND.E_TWIN_SILENT : Nat := 5
abbrev BND.E_SHADOW_FULL : Nat := 6
abbrev BND.E_SHADOW_SKIPPED : Nat := 7
abbrev BND.E_RESYNC_REFUSED : Nat := 8

/-! ### PWR -/
abbrev PWR.PWR_CAPS : Nat := 0x100
abbrev PWR.PWR_CTRL : Nat := 0x104
abbrev PWR.PWR_STATE : Nat := 0x108
abbrev PWR.PWR_CONFIG : Nat := 0x10c
abbrev PWR.PEAK_LIMIT : Nat := 0x110
abbrev PWR.CURRENT_LIMIT : Nat := 0x114
abbrev PWR.DRIFT_CONFIG : Nat := 0x118
abbrev PWR.PWR_MODE : Nat := 0x11c
abbrev PWR.P_NOW : Nat := 0x120
abbrev PWR.V_IN : Nat := 0x124
abbrev PWR.I_IN : Nat := 0x128
abbrev PWR.PEAK_WINDOW : Nat := 0x12c
abbrev PWR.DIE_SEL : Nat := 0x130
abbrev PWR.DIE_CAP : Nat := 0x134
abbrev PWR.DIE_VOLT : Nat := 0x138
abbrev PWR.SQ_SEL : Nat := 0x140
abbrev PWR.SQ_POINT : Nat := 0x144
abbrev PWR.SQ_ACT : Nat := 0x148
abbrev PWR.SQ_SLACK : Nat := 0x14c
abbrev PWR.BALLAST_CYCLES : Nat := 0x150
abbrev PWR.PEAK_CAPPED_BEATS : Nat := 0x158
abbrev PWR.CURRENT_CAPPED_BEATS : Nat := 0x15c
abbrev PWR.DRIFT_EVENTS : Nat := 0x160
abbrev PWR.RECAL_DONE : Nat := 0x164
abbrev PWR.TRIM_REPLANS : Nat := 0x168
abbrev PWR.TRIM_RAISES : Nat := 0x16c
abbrev PWR.SLEEPS : Nat := 0x170
abbrev PWR.COOLANT_GLITCHES : Nat := 0x174
abbrev PWR.PWR_DONE : Nat := 0x178
abbrev PWR.CAL_CMD : Nat := 0x180
abbrev PWR.SLEEP_WAKE0 : Nat := 0x184
abbrev PWR.SLEEP_WAKE1 : Nat := 0x188
abbrev PWR.SLEEP_WAKE2 : Nat := 0x18c
abbrev PWR.SLEEP_WAKE3 : Nat := 0x190
abbrev PWR.SLEEP_WAKE4 : Nat := 0x194
abbrev PWR.SLEEP_WAKE5 : Nat := 0x198
abbrev PWR.SLEEP_WAKE6 : Nat := 0x19c
abbrev PWR.SLEEP_WAKE7 : Nat := 0x1a0
abbrev PWR.SLEEP_WAKE8 : Nat := 0x1a4
abbrev PWR.SLEEP_WAKE9 : Nat := 0x1a8
abbrev PWR.SLEEP_WAKE10 : Nat := 0x1ac
abbrev PWR.SLEEP_WAKE11 : Nat := 0x1b0
abbrev PWR.E_DESC_INVALID : Nat := 0
abbrev PWR.E_CAL_DEFAULT : Nat := 1
abbrev PWR.E_ESTIMATOR_DRIFT : Nat := 2
abbrev PWR.E_PEAK_OVER : Nat := 3
abbrev PWR.E_AGE_DERATE : Nat := 4
abbrev PWR.E_COOLANT_STOP : Nat := 5

/-! ### THM -/
abbrev THM.THM_CAPS : Nat := 0x100
abbrev THM.THM_CTRL : Nat := 0x104
abbrev THM.THM_CONFIG : Nat := 0x108
abbrev THM.THM_STATE : Nat := 0x10c
abbrev THM.THM_CAP : Nat := 0x110
abbrev THM.SENSOR_SEL : Nat := 0x114
abbrev THM.SENSOR_T : Nat := 0x118
abbrev THM.THROTTLE_BEATS : Nat := 0x120
abbrev THM.TJ_EVENTS : Nat := 0x124
abbrev THM.SENSORS_EXCLUDED : Nat := 0x128
abbrev THM.E_SENSOR_FAULT : Nat := 0
abbrev THM.E_THROTTLING : Nat := 1
abbrev THM.E_TJ_EXCEEDED : Nat := 2

/-! ### SEC -/
abbrev SEC.SEC_CAPS : Nat := 0x100
abbrev SEC.SEC_CTRL : Nat := 0x104
abbrev SEC.REGION_SEL : Nat := 0x108
abbrev SEC.REGION_ENTRY0 : Nat := 0x110
abbrev SEC.REGION_ENTRY1 : Nat := 0x114
abbrev SEC.REGION_ENTRY2 : Nat := 0x118
abbrev SEC.REGION_ENTRY3 : Nat := 0x11c
abbrev SEC.WV_COUNT : Nat := 0x120
abbrev SEC.REGION_JOB_COUNT : Nat := 0x124
abbrev SEC.WV_LAST : Nat := 0x128
abbrev SEC.ATT_NONCE0 : Nat := 0x140
abbrev SEC.ATT_NONCE1 : Nat := 0x144
abbrev SEC.ATT_NONCE2 : Nat := 0x148
abbrev SEC.ATT_NONCE3 : Nat := 0x14c
abbrev SEC.ATT_NONCE4 : Nat := 0x150
abbrev SEC.ATT_NONCE5 : Nat := 0x154
abbrev SEC.ATT_NONCE6 : Nat := 0x158
abbrev SEC.ATT_NONCE7 : Nat := 0x15c
abbrev SEC.ATT_ADDR : Nat := 0x160
abbrev SEC.ATT_CMD : Nat := 0x168
abbrev SEC.ATT_STATUS : Nat := 0x16c
abbrev SEC.SERIAL : Nat := 0x170
abbrev SEC.FUSE_STATE : Nat := 0x178
abbrev SEC.ATT_DONE : Nat := 0x17c
abbrev SEC.E_WORLD_VIOLATION : Nat := 0
abbrev SEC.E_REGION_JOB : Nat := 1
abbrev SEC.E_ATT_REFUSED : Nat := 2

/-! ### FWU -/
abbrev FWU.FWU_CAPS : Nat := 0x100
abbrev FWU.FWU_CTRL : Nat := 0x104
abbrev FWU.FWU_STATE : Nat := 0x108
abbrev FWU.FWU_CMD : Nat := 0x10c
abbrev FWU.FWU_SRC : Nat := 0x110
abbrev FWU.FWU_LEN : Nat := 0x118
abbrev FWU.FWU_NEXT0 : Nat := 0x120
abbrev FWU.FWU_NEXT1 : Nat := 0x124
abbrev FWU.FWU_NEXT2 : Nat := 0x128
abbrev FWU.FWU_NEXT3 : Nat := 0x12c
abbrev FWU.FWU_NONCE : Nat := 0x130
abbrev FWU.SLOT_STATE : Nat := 0x138
abbrev FWU.SLOT_A_SVN : Nat := 0x13c
abbrev FWU.SLOT_B_SVN : Nat := 0x140
abbrev FWU.REPORT_ADDR : Nat := 0x148
abbrev FWU.REPORT_MAX : Nat := 0x150
abbrev FWU.REPORT_COUNT : Nat := 0x154
abbrev FWU.IMAGES_RX : Nat := 0x158
abbrev FWU.IMAGES_FWD : Nat := 0x15c
abbrev FWU.REFUSALS : Nat := 0x160
abbrev FWU.VERIFY_FAILS : Nat := 0x164
abbrev FWU.E_VERIFY_FAIL : Nat := 0
abbrev FWU.E_REFUSED : Nat := 1
abbrev FWU.E_LOCK_AUTH : Nat := 2
abbrev FWU.E_OWNER_SET : Nat := 3

/-! ### MGT -/
abbrev MGT.MGT_CAPS : Nat := 0x100
abbrev MGT.MGT_CTRL : Nat := 0x104
abbrev MGT.MGT_STATE : Nat := 0x108
abbrev MGT.BOOT_COUNT : Nat := 0x10c
abbrev MGT.MGT_RESET : Nat := 0x110
abbrev MGT.I3C_STATE : Nat := 0x114
abbrev MGT.MBOX_CTRL : Nat := 0x118
abbrev MGT.MBOX_STATUS : Nat := 0x11c
abbrev MGT.MBOX0 : Nat := 0x120
abbrev MGT.MBOX1 : Nat := 0x124
abbrev MGT.MBOX2 : Nat := 0x128
abbrev MGT.MBOX3 : Nat := 0x12c
abbrev MGT.MBOX4 : Nat := 0x130
abbrev MGT.MBOX5 : Nat := 0x134
abbrev MGT.MBOX6 : Nat := 0x138
abbrev MGT.MBOX7 : Nat := 0x13c
abbrev MGT.STAGE_MS0 : Nat := 0x140
abbrev MGT.STAGE_MS1 : Nat := 0x144
abbrev MGT.STAGE_MS2 : Nat := 0x148
abbrev MGT.STAGE_MS3 : Nat := 0x14c
abbrev MGT.STAGE_MS4 : Nat := 0x150
abbrev MGT.STAGE_MS5 : Nat := 0x154
abbrev MGT.STAGE_MS6 : Nat := 0x158
abbrev MGT.STAGE_MS7 : Nat := 0x15c
abbrev MGT.STAGE_MS8 : Nat := 0x160
abbrev MGT.BOOT_FALLBACKS : Nat := 0x170
abbrev MGT.RESETS : Nat := 0x174
abbrev MGT.E_STAGE_FAILED : Nat := 0
abbrev MGT.E_BOOT_FALLBACK : Nat := 1
abbrev MGT.E_RECOVERY : Nat := 2

/-! ### SQ -/
abbrev SQ.SQ_CAPS : Nat := 0x100
abbrev SQ.SQ_STATE : Nat := 0x104
abbrev SQ.SQ_CTRL : Nat := 0x108
abbrev SQ.SQM_CORRECTED : Nat := 0x110
abbrev SQ.SQM_UE : Nat := 0x114
abbrev SQ.SQM_UE_LAST : Nat := 0x118
abbrev SQ.E_SQM_UE : Nat := 0

/-! ### The common header (Table 18.1) -/
abbrev HDR.PAGE_ID : Nat := 0x0
abbrev HDR.PAGE_VER : Nat := 0x4
abbrev HDR.STATUS : Nat := 0x8
abbrev HDR.CONTROL : Nat := 0xc
abbrev HDR.COMMIT : Nat := 0x10
abbrev HDR.COMMIT_STATUS : Nat := 0x14
abbrev HDR.ERR_STATUS : Nat := 0x18
abbrev HDR.ERR_ENABLE : Nat := 0x1c
abbrev HDR.ERR_FIRST : Nat := 0x20
abbrev HDR.EPOCH : Nat := 0x24
abbrev HDR.WORLD : Nat := 0x28
abbrev HDR.BIND_JOB : Nat := 0x2c
abbrev HDR.COMMIT_BEAT : Nat := 0x30

/-! ### The rows -/

/-- The access codes of Table 0.3 (R9); no register of this manual is RC. -/
inductive Acc where
  | rw | ro | wo | w1c | cm
  deriving DecidableEq, Repr

/-- A register of a page: its offset, width, access code, secure-world mark, reset value, the bits that are not
reserved, whether it is an event counter (1: 32 bits, saturating) or a 64-bit counter (2) (R65), and the register
that selects its window (0: none). -/
structure RegRow where
  off   : Nat
  wide  : Bool := false
  acc   : Acc := .ro
  sw    : Bool := false
  reset : Nat := 0
  mask  : Nat := 0xFFFFFFFF
  cnt   : Nat := 0
  sel   : Nat := 0
  deriving DecidableEq, Repr

/-- Registers of MXU (Table 3.5). -/
def mxuRows : List RegRow :=
  [ { off := 0x100, reset := 0x4080807f },
    { off := 0x104, acc := .rw, reset := 0x2, mask := 0x2 },
    { off := 0x108 },
    { off := 0x110, wide := true, cnt := 2 },
    { off := 0x118, wide := true, cnt := 2 },
    { off := 0x120, wide := true, cnt := 2 },
    { off := 0x128, wide := true, cnt := 2 },
    { off := 0x130, wide := true, cnt := 2 },
    { off := 0x138, cnt := 1 },
    { off := 0x13c, cnt := 1 },
    { off := 0x140, cnt := 1 },
    { off := 0x144 },
    { off := 0x148 } ]

/-- Registers of SCS (Table 4.5). -/
def scsRows : List RegRow :=
  [ { off := 0x100, reset := 0x10081000 },
    { off := 0x104, acc := .rw, reset := 0x2, mask := 0x2 },
    { off := 0x108, acc := .cm, reset := 0x80, mask := 0x3ff },
    { off := 0x10c },
    { off := 0x110, reset := 0xe000 },
    { off := 0x114 },
    { off := 0x118, wide := true, cnt := 2 },
    { off := 0x120, wide := true, cnt := 2 },
    { off := 0x128, wide := true, cnt := 2 },
    { off := 0x130, wide := true, cnt := 2 },
    { off := 0x138, cnt := 1 },
    { off := 0x13c, cnt := 1 },
    { off := 0x140, cnt := 1 },
    { off := 0x144, cnt := 1 },
    { off := 0x148, cnt := 1 },
    { off := 0x14c },
    { off := 0x150, cnt := 1 } ]

/-- Registers of VXU (Table 5.10). -/
def vxuRows : List RegRow :=
  [ { off := 0x100, reset := 0x2004000f },
    { off := 0x104, acc := .rw, reset := 0x2, mask := 0x2 },
    { off := 0x108 },
    { off := 0x110, wide := true, cnt := 2 },
    { off := 0x118, wide := true, cnt := 2 },
    { off := 0x120, wide := true, cnt := 2 },
    { off := 0x128, cnt := 1 },
    { off := 0x12c },
    { off := 0x130 },
    { off := 0x134 },
    { off := 0x138 },
    { off := 0x13c, cnt := 1 },
    { off := 0x140, cnt := 1 },
    { off := 0x144, cnt := 1 },
    { off := 0x148, cnt := 1 },
    { off := 0x150, wide := true, acc := .cm, mask := 0x3fffffffffff },
    { off := 0x158, acc := .cm, reset := 0x4, mask := 0x3f },
    { off := 0x15c },
    { off := 0x160, acc := .rw },
    { off := 0x164, acc := .rw, reset := 0x7f800000 },
    { off := 0x168, acc := .rw } ]

/-- Registers of KNT (Table 6.10). -/
def kntRows : List RegRow :=
  [ { off := 0x100, reset := 0xf0800200 },
    { off := 0x104, acc := .rw, reset := 0x2, mask := 0x2 },
    { off := 0x108 },
    { off := 0x110, wide := true, acc := .cm, mask := 0xffffffffffffffff },
    { off := 0x118, wide := true, acc := .cm, mask := 0x3fffffffffff },
    { off := 0x120, acc := .cm },
    { off := 0x124, acc := .cm, reset := 0x10000 },
    { off := 0x128, wide := true, cnt := 2 },
    { off := 0x130, wide := true, cnt := 2 },
    { off := 0x138, wide := true, cnt := 2 },
    { off := 0x140, cnt := 1 },
    { off := 0x144, cnt := 1 },
    { off := 0x148, cnt := 1 },
    { off := 0x14c, cnt := 1 },
    { off := 0x150, cnt := 1 },
    { off := 0x154, cnt := 1 },
    { off := 0x158, cnt := 1 },
    { off := 0x15c, cnt := 1 },
    { off := 0x160, cnt := 1 },
    { off := 0x164, cnt := 1 },
    { off := 0x168, cnt := 1 },
    { off := 0x16c, cnt := 1 },
    { off := 0x170, cnt := 1 },
    { off := 0x174, cnt := 1 } ] ++
  [ { off := 0x178, cnt := 1 } ]

/-- Registers of ROOK (Table 7.7). -/
def rookRows : List RegRow :=
  [ { off := 0x100, reset := 0x40010040 },
    { off := 0x104, acc := .rw, reset := 0x2, mask := 0x2 },
    { off := 0x108 },
    { off := 0x10c, acc := .cm },
    { off := 0x110, acc := .cm },
    { off := 0x114, acc := .cm, mask := 0x3fffff },
    { off := 0x118, acc := .cm, mask := 0x3ffff },
    { off := 0x120, wide := true, acc := .cm, mask := 0x3fffffffffff },
    { off := 0x128, wide := true, acc := .cm, mask := 0xffffffffffffffff },
    { off := 0x130 },
    { off := 0x134 },
    { off := 0x138, wide := true },
    { off := 0x140, wide := true, cnt := 2 },
    { off := 0x148, wide := true, cnt := 2 },
    { off := 0x150, wide := true, cnt := 2 },
    { off := 0x158, wide := true, cnt := 2 },
    { off := 0x160, wide := true, cnt := 2 },
    { off := 0x168, wide := true, cnt := 2 },
    { off := 0x170, wide := true, cnt := 2 },
    { off := 0x178, wide := true, cnt := 2 },
    { off := 0x180, cnt := 1 },
    { off := 0x184, cnt := 1 },
    { off := 0x188, cnt := 1 },
    { off := 0x18c, cnt := 1 } ] ++
  [ { off := 0x190, cnt := 1 },
    { off := 0x194, cnt := 1 },
    { off := 0x198, cnt := 1 },
    { off := 0x19c, cnt := 1 },
    { off := 0x1a0, cnt := 1 },
    { off := 0x1a4, cnt := 1 } ]

/-- Registers of PLC (Table 8.8). -/
def plcRows : List RegRow :=
  [ { off := 0x100, reset := 0x1a101304 },
    { off := 0x104, acc := .rw, reset := 0x2, mask := 0x2 },
    { off := 0x108, acc := .cm, sw := true, reset := 0x5a400100 },
    { off := 0x10c, acc := .cm, reset := 0x14, mask := 0x1f },
    { off := 0x110, wide := true, acc := .cm, sw := true, mask := 0x3fffffffffff },
    { off := 0x118, wide := true, acc := .cm, sw := true, mask := 0x3fffffffffff },
    { off := 0x120, wide := true, acc := .cm, sw := true, mask := 0x3fffffffffff },
    { off := 0x128, wide := true, acc := .cm, sw := true, mask := 0xffffffffffffffff },
    { off := 0x130 },
    { off := 0x134, acc := .rw, mask := 0xfff },
    { off := 0x138, acc := .cm, reset := 0x60000010, mask := 0xe0007fff, sel := 0x134 },
    { off := 0x13c, acc := .cm, reset := 0x1000004, sel := 0x134 },
    { off := 0x140, acc := .cm, reset := 0x8101000, sel := 0x134 },
    { off := 0x144, sel := 0x134 },
    { off := 0x148, sel := 0x134 },
    { off := 0x14c, sel := 0x134 },
    { off := 0x150, wide := true, sel := 0x134 },
    { off := 0x158, wide := true, cnt := 2 },
    { off := 0x160, wide := true, cnt := 2 },
    { off := 0x168, wide := true, cnt := 2 },
    { off := 0x170 },
    { off := 0x174, cnt := 1 },
    { off := 0x178, cnt := 1 },
    { off := 0x17c, cnt := 1 } ] ++
  [ { off := 0x180, wide := true, cnt := 2 },
    { off := 0x188, cnt := 1 },
    { off := 0x18c, cnt := 1 },
    { off := 0x190, cnt := 1 },
    { off := 0x194, cnt := 1 },
    { off := 0x198, cnt := 1 },
    { off := 0x19c, cnt := 1 },
    { off := 0x1a0, cnt := 1 },
    { off := 0x1a4, cnt := 1 },
    { off := 0x1a8, cnt := 1 } ]

/-- Registers of GMB (Table 9.5). -/
def gmbRows : List RegRow :=
  [ { off := 0x100, reset := 0x40040007 },
    { off := 0x104, acc := .rw, reset := 0x2, mask := 0x2 },
    { off := 0x108 },
    { off := 0x10c, acc := .cm },
    { off := 0x110, acc := .cm, mask := 0x8000ffff },
    { off := 0x118, wide := true, cnt := 2 },
    { off := 0x120, wide := true, cnt := 2 },
    { off := 0x128, wide := true, cnt := 2 },
    { off := 0x130, wide := true, cnt := 2 },
    { off := 0x138, wide := true, cnt := 2 },
    { off := 0x140, wide := true, cnt := 2 },
    { off := 0x148, wide := true, cnt := 2 },
    { off := 0x150, cnt := 1 },
    { off := 0x154, cnt := 1 },
    { off := 0x158, cnt := 1 },
    { off := 0x15c, cnt := 1 },
    { off := 0x160, cnt := 1 },
    { off := 0x164 },
    { off := 0x168, cnt := 1 },
    { off := 0x170 },
    { off := 0x174 },
    { off := 0x178 },
    { off := 0x17c } ]

/-- Registers of QMG (Table 10.7). -/
def qmgRows : List RegRow :=
  [ { off := 0x100, reset := 0x80001000 },
    { off := 0x104, acc := .rw, reset := 0x2, mask := 0x2 },
    { off := 0x108, acc := .rw, mask := 0x7fff },
    { off := 0x10c, acc := .cm, reset := 0x80000, mask := 0xfffe0000, sel := 0x108 },
    { off := 0x110, wide := true, acc := .cm, mask := 0x3fffffffffff, sel := 0x108 },
    { off := 0x118, acc := .rw, sel := 0x108 },
    { off := 0x11c, sel := 0x108 },
    { off := 0x120, sel := 0x108 },
    { off := 0x124, acc := .wo, mask := 0x1, sel := 0x108 },
    { off := 0x128, acc := .rw, mask := 0xfff },
    { off := 0x12c, acc := .cm, reset := 0x4, mask := 0xc7ff001f, sel := 0x128 },
    { off := 0x130, wide := true, acc := .cm, mask := 0x3fffffffffff, sel := 0x128 },
    { off := 0x138, sel := 0x128 },
    { off := 0x13c, acc := .rw, sel := 0x128 },
    { off := 0x140, sel := 0x128 },
    { off := 0x148, wide := true, cnt := 2 },
    { off := 0x150, wide := true, cnt := 2 },
    { off := 0x158, cnt := 1 },
    { off := 0x15c, cnt := 1 },
    { off := 0x160, cnt := 1 },
    { off := 0x164, cnt := 1 },
    { off := 0x168, cnt := 1 },
    { off := 0x16c, cnt := 1 } ]

/-- Registers of TMP (Table 10.11). -/
def tmpRows : List RegRow :=
  [ { off := 0x100, acc := .cm, sw := true, reset := 0xffffff, mask := 0x80ffffff },
    { off := 0x104, acc := .cm, sw := true, reset := 0x28, mask := 0xffff },
    { off := 0x108 },
    { off := 0x110, wide := true },
    { off := 0x118 },
    { off := 0x120, wide := true, acc := .cm, sw := true, mask := 0xffffffffffffffff },
    { off := 0x128, cnt := 1 },
    { off := 0x12c, cnt := 1 },
    { off := 0x130, cnt := 1 },
    { off := 0x134, cnt := 1 } ]

/-- Registers of ARB (Table 11.5). -/
def arbRows : List RegRow :=
  [ { off := 0x100, reset := 0x10000100 },
    { off := 0x104, acc := .rw, reset := 0x2, mask := 0x2 },
    { off := 0x108, acc := .rw, mask := 0xfff },
    { off := 0x10c },
    { off := 0x110 },
    { off := 0x114 },
    { off := 0x118 },
    { off := 0x11c },
    { off := 0x120, wide := true, cnt := 2 },
    { off := 0x128, wide := true, cnt := 2 },
    { off := 0x130, wide := true, cnt := 2 },
    { off := 0x138, cnt := 1 },
    { off := 0x13c, cnt := 1 },
    { off := 0x140, cnt := 1 },
    { off := 0x144, cnt := 1 },
    { off := 0x148, cnt := 1 },
    { off := 0x14c, cnt := 1 },
    { off := 0x150, cnt := 1 } ]

/-- Registers of HBM (Table 12.6). -/
def hbmRows : List RegRow :=
  [ { off := 0x100, reset := 0x40302000 },
    { off := 0x104, acc := .rw, reset := 0x2, mask := 0x2 },
    { off := 0x108 },
    { off := 0x10c, acc := .cm, sw := true, reset := 0x80000018, mask := 0x800003ff },
    { off := 0x110, acc := .cm, sw := true, reset := 0x4, mask := 0xff },
    { off := 0x118, wide := true, cnt := 2 },
    { off := 0x120, wide := true, cnt := 2 },
    { off := 0x128, cnt := 1 },
    { off := 0x12c, cnt := 1 },
    { off := 0x130, cnt := 1 },
    { off := 0x134, cnt := 1 },
    { off := 0x138 },
    { off := 0x13c },
    { off := 0x150, wide := true },
    { off := 0x158, wide := true },
    { off := 0x160, wide := true },
    { off := 0x168, wide := true },
    { off := 0x170, wide := true },
    { off := 0x178, wide := true },
    { off := 0x180, wide := true },
    { off := 0x188, wide := true },
    { off := 0x190, wide := true },
    { off := 0x198, wide := true },
    { off := 0x1a0, wide := true } ] ++
  [ { off := 0x1a8, wide := true },
    { off := 0x1b0, wide := true },
    { off := 0x1b8, wide := true },
    { off := 0x1c0, wide := true },
    { off := 0x1c8, wide := true } ]

/-- Registers of WCB (Table 12.8). -/
def wcbRows : List RegRow :=
  [ { off := 0x100, reset := 0x404080 },
    { off := 0x104, acc := .rw, reset := 0x2, mask := 0x2 },
    { off := 0x108, acc := .cm, reset := 0x6, mask := 0x1f },
    { off := 0x10c },
    { off := 0x110, wide := true, cnt := 2 },
    { off := 0x118, wide := true, cnt := 2 },
    { off := 0x120, wide := true, cnt := 2 },
    { off := 0x128, wide := true, cnt := 2 },
    { off := 0x130, wide := true, cnt := 2 },
    { off := 0x138, cnt := 1 },
    { off := 0x13c, cnt := 1 },
    { off := 0x140, cnt := 1 },
    { off := 0x144, cnt := 1 },
    { off := 0x148, cnt := 1 },
    { off := 0x150, wide := true, cnt := 2 } ]

/-- Registers of FAR (Table 12.10). -/
def farRows : List RegRow :=
  [ { off := 0x100, reset := 0x10000800 },
    { off := 0x104, acc := .rw, reset := 0x2, mask := 0x2 },
    { off := 0x108 },
    { off := 0x10c, acc := .rw, mask := 0x7 },
    { off := 0x110, wide := true, acc := .cm, sw := true, mask := 0x3fffffffffff, sel := 0x10c },
    { off := 0x118, wide := true, acc := .cm, sw := true, mask := 0xffffffffffffffff, sel := 0x10c },
    { off := 0x120, acc := .cm, sw := true, mask := 0xfc000000, sel := 0x10c },
    { off := 0x128, wide := true, cnt := 2 },
    { off := 0x130, wide := true, cnt := 2 },
    { off := 0x138, cnt := 1 },
    { off := 0x13c, cnt := 1 },
    { off := 0x140, cnt := 1 } ]

/-- Registers of PLY (Table 13.11). -/
def plyRows : List RegRow :=
  [ { off := 0x100, reset := 0x8352000 },
    { off := 0x104, acc := .rw, reset := 0x2, mask := 0x2 },
    { off := 0x108, acc := .cm, sw := true, reset := 0x40000800, mask := 0xf800ff00 },
    { off := 0x10c, acc := .cm, sw := true, reset := 0x40000, mask := 0xffffff },
    { off := 0x110, acc := .cm, sw := true, mask := 0x801f7fff },
    { off := 0x114 },
    { off := 0x118 },
    { off := 0x11c },
    { off := 0x120, acc := .cm, sw := true, reset := 0x6000600, mask := 0xfff0fff },
    { off := 0x124, acc := .cm, sw := true, reset := 0x6000600, mask := 0xfff0fff },
    { off := 0x128, acc := .cm, sw := true, reset := 0x6000600, mask := 0xfff0fff },
    { off := 0x12c, acc := .cm, sw := true, reset := 0x6000600, mask := 0xfff0fff },
    { off := 0x130, acc := .cm, sw := true, reset := 0x6000600, mask := 0xfff0fff },
    { off := 0x134, acc := .cm, sw := true, reset := 0x6000600, mask := 0xfff0fff },
    { off := 0x138, acc := .cm, sw := true, reset := 0x6000600, mask := 0xfff0fff },
    { off := 0x13c, acc := .cm, sw := true, reset := 0x6000600, mask := 0xfff0fff },
    { off := 0x140, wide := true, cnt := 2 },
    { off := 0x148, wide := true, cnt := 2 },
    { off := 0x150, wide := true, cnt := 2 },
    { off := 0x158, cnt := 1 },
    { off := 0x15c, cnt := 1 },
    { off := 0x160, cnt := 1 },
    { off := 0x164, cnt := 1 },
    { off := 0x168, cnt := 1 } ] ++
  [ { off := 0x16c, cnt := 1 },
    { off := 0x170, cnt := 1 },
    { off := 0x174, cnt := 1 } ]

/-- Registers of the fabric registers in the PLY page of P0 (Table 13.12). -/
def fabRows : List RegRow :=
  [ { off := 0x400, acc := .cm, sw := true, mask := 0x7fff },
    { off := 0x404, acc := .cm, sw := true },
    { off := 0x408, acc := .cm, sw := true, reset := 0x100401, mask := 0xbfffffff },
    { off := 0x40c, acc := .cm, sw := true, mask := 0x1 },
    { off := 0x410, acc := .rw, sw := true, mask := 0x7ff },
    { off := 0x414, acc := .rw, sw := true, mask := 0xdfdfdfdf, sel := 0x410 },
    { off := 0x418, acc := .cm, sw := true, reset := 0x8000040, mask := 0xff00ffff },
    { off := 0x420, wide := true, acc := .cm, sw := true, mask := 0x3fffffffffff },
    { off := 0x428, wide := true, acc := .cm, sw := true, mask := 0xffffffffffffffff },
    { off := 0x430, acc := .wo, sw := true, mask := 0xc0007fff },
    { off := 0x434, acc := .wo, sw := true, mask := 0x7fff },
    { off := 0x438 },
    { off := 0x440, wide := true, cnt := 2 },
    { off := 0x448, wide := true, cnt := 2 },
    { off := 0x450, cnt := 1 },
    { off := 0x454, cnt := 1 },
    { off := 0x458, cnt := 1 },
    { off := 0x45c, cnt := 1 },
    { off := 0x460, cnt := 1 },
    { off := 0x464, cnt := 1 },
    { off := 0x468, wide := true, cnt := 2 } ]

/-- Registers of HXP (Table 13.14). Before start-up writes it, HXP_CONFIG holds ROLE off and BAR2_LOG2 32 (log entry 5). -/
def hxpRows : List RegRow :=
  [ { off := 0x100, reset := 0x10408000 },
    { off := 0x104, acc := .rw, reset := 0x2, mask := 0x2 },
    { off := 0x108, acc := .cm, sw := true, reset := 0x20000000, mask := 0xff000000 },
    { off := 0x10c },
    { off := 0x110, acc := .rw, mask := 0x80000003 },
    { off := 0x120, wide := true, acc := .rw, mask := 0x8000ffffffffffff },
    { off := 0x128, wide := true, acc := .rw, mask := 0x8000ffffffffffff },
    { off := 0x130, wide := true, acc := .rw, mask := 0x8000ffffffffffff },
    { off := 0x138, wide := true, acc := .rw, mask := 0x8000ffffffffffff },
    { off := 0x140, wide := true, acc := .rw, mask := 0x8000ffffffffffff },
    { off := 0x148, wide := true, acc := .rw, mask := 0x8000ffffffffffff },
    { off := 0x150, wide := true, acc := .rw, mask := 0x8000ffffffffffff },
    { off := 0x158, wide := true, acc := .rw, mask := 0x8000ffffffffffff },
    { off := 0x160, wide := true, acc := .rw, mask := 0x8000ffffffffffff },
    { off := 0x168, wide := true, acc := .rw, mask := 0x8000ffffffffffff },
    { off := 0x170, wide := true, acc := .rw, mask := 0x8000ffffffffffff },
    { off := 0x178, wide := true, acc := .rw, mask := 0x8000ffffffffffff },
    { off := 0x180, wide := true, acc := .rw, mask := 0x8000ffffffffffff },
    { off := 0x188, wide := true, acc := .rw, mask := 0x8000ffffffffffff },
    { off := 0x190, wide := true, acc := .rw, mask := 0x8000ffffffffffff },
    { off := 0x198, wide := true, acc := .rw, mask := 0x8000ffffffffffff },
    { off := 0x1a0, wide := true, cnt := 2 },
    { off := 0x1a8, wide := true, cnt := 2 },
    { off := 0x1b0, wide := true, cnt := 2 } ] ++
  [ { off := 0x1b8, cnt := 1 },
    { off := 0x1bc, cnt := 1 },
    { off := 0x1c0, cnt := 1 },
    { off := 0x1c4, cnt := 1 },
    { off := 0x1c8, cnt := 1 } ]

/-- Registers of RED (Table 14.9). -/
def redRows : List RegRow :=
  [ { off := 0x100, reset := 0x10008018 },
    { off := 0x104, acc := .rw, reset := 0x2, mask := 0x2 },
    { off := 0x108, acc := .rw, mask := 0xfff },
    { off := 0x10c, acc := .cm, reset := 0x100000, mask := 0xc0ff7fff, sel := 0x108 },
    { off := 0x110, sel := 0x108 },
    { off := 0x114, sel := 0x108 },
    { off := 0x118, sel := 0x108 },
    { off := 0x120, wide := true, acc := .cm, sw := true, mask := 0x3fffffffffff },
    { off := 0x128, wide := true, acc := .cm, sw := true, mask := 0xffffffffffffffff },
    { off := 0x130 },
    { off := 0x140, wide := true, cnt := 2 },
    { off := 0x148, wide := true, cnt := 2 },
    { off := 0x150, cnt := 1 },
    { off := 0x154, cnt := 1 },
    { off := 0x158, cnt := 1 },
    { off := 0x15c, cnt := 1 },
    { off := 0x160, cnt := 1 },
    { off := 0x164, cnt := 1 },
    { off := 0x168, cnt := 1 },
    { off := 0x16c, cnt := 1 },
    { off := 0x170, cnt := 1 },
    { off := 0x174, cnt := 1 },
    { off := 0x178, cnt := 1 } ]

/-- Registers of BND (Table 15.8). -/
def bndRows : List RegRow :=
  [ { off := 0x100, reset := 0x1000400 },
    { off := 0x104, acc := .rw, reset := 0x2, mask := 0x2 },
    { off := 0x108 },
    { off := 0x110, wide := true, acc := .cm, mask := 0x3fffffffffff },
    { off := 0x118, acc := .cm, mask := 0x7ff },
    { off := 0x120, wide := true, acc := .cm, mask := 0x3fffffffffff },
    { off := 0x128, acc := .cm, reset := 0x100, mask := 0xffff },
    { off := 0x130, wide := true },
    { off := 0x138 },
    { off := 0x13c, acc := .rw, mask := 0xfff },
    { off := 0x140, acc := .cm, reset := 0x10, mask := 0xff, sel := 0x13c },
    { off := 0x144, sel := 0x13c },
    { off := 0x148, wide := true, acc := .cm, mask := 0x3fffffffffff, sel := 0x13c },
    { off := 0x150, acc := .cm, mask := 0xffff, sel := 0x13c },
    { off := 0x154, sel := 0x13c },
    { off := 0x158, reset := 0xffffffff, sel := 0x13c },
    { off := 0x15c, reset := 0xffffffff, sel := 0x13c },
    { off := 0x160, wide := true, acc := .cm, sw := true, mask := 0x3fffffffffff },
    { off := 0x168, wide := true, acc := .cm, sw := true, reset := 0x1800000000, mask := 0xffffffffffffffff },
    { off := 0x170, acc := .cm, sw := true, reset := 0x40040, mask := 0xffffff },
    { off := 0x174, acc := .wo, sw := true, mask := 0xc0000000 },
    { off := 0x178, wide := true, acc := .cm, sw := true, mask := 0xffffffffffffffff },
    { off := 0x180, acc := .wo, mask := 0x800001ff },
    { off := 0x184, acc := .rw, mask := 0x800001ff } ] ++
  [ { off := 0x188 },
    { off := 0x190, wide := true, cnt := 2 },
    { off := 0x198, cnt := 1 },
    { off := 0x19c, cnt := 1 },
    { off := 0x1a0, cnt := 1 },
    { off := 0x1a4, cnt := 1 },
    { off := 0x1a8, cnt := 1 },
    { off := 0x1ac, cnt := 1 },
    { off := 0x1b0, cnt := 1 },
    { off := 0x1b4, cnt := 1 },
    { off := 0x1b8, cnt := 1 },
    { off := 0x1bc, cnt := 1 },
    { off := 0x1c0, cnt := 1 },
    { off := 0x1c4, cnt := 1 },
    { off := 0x1c8, cnt := 1 } ]

/-- Registers of PWR (Table 16.4). -/
def pwrRows : List RegRow :=
  [ { off := 0x100, reset := 0x12c00078 },
    { off := 0x104, acc := .rw, reset := 0x2, mask := 0x2 },
    { off := 0x108, reset := 0x80000000 },
    { off := 0x10c, acc := .cm, sw := true, reset := 0x8010044c, mask := 0xc7ff07ff },
    { off := 0x110, acc := .cm, sw := true, reset := 0x1518, mask := 0xffff },
    { off := 0x114, acc := .cm, sw := true, reset := 0x6e, mask := 0xff },
    { off := 0x118, acc := .cm, sw := true, reset := 0xf200a00, mask := 0xffffff00 },
    { off := 0x11c, acc := .cm, mask := 0x1 },
    { off := 0x120 },
    { off := 0x124 },
    { off := 0x128 },
    { off := 0x12c },
    { off := 0x130, acc := .rw, mask := 0x7 },
    { off := 0x134 },
    { off := 0x138 },
    { off := 0x140, acc := .rw, mask := 0x1ff },
    { off := 0x144 },
    { off := 0x148 },
    { off := 0x14c },
    { off := 0x150, wide := true, cnt := 2 },
    { off := 0x158, cnt := 1 },
    { off := 0x15c, cnt := 1 },
    { off := 0x160, cnt := 1 },
    { off := 0x164, cnt := 1 } ] ++
  [ { off := 0x168, cnt := 1 },
    { off := 0x16c, cnt := 1 },
    { off := 0x170, cnt := 1 },
    { off := 0x174, cnt := 1 },
    { off := 0x178, cnt := 1 },
    { off := 0x180, acc := .wo, sw := true, mask := 0x3 },
    { off := 0x184, acc := .wo },
    { off := 0x188, acc := .wo },
    { off := 0x18c, acc := .wo },
    { off := 0x190, acc := .wo },
    { off := 0x194, acc := .wo },
    { off := 0x198, acc := .wo },
    { off := 0x19c, acc := .wo },
    { off := 0x1a0, acc := .wo },
    { off := 0x1a4, acc := .wo },
    { off := 0x1a8, acc := .wo },
    { off := 0x1ac, acc := .wo },
    { off := 0x1b0, acc := .wo } ]

/-- Registers of THM (Table 16.8). -/
def thmRows : List RegRow :=
  [ { off := 0x100, reset := 0x1000073 },
    { off := 0x104, acc := .rw, reset := 0x2, mask := 0x2 },
    { off := 0x108, acc := .cm, sw := true, reset := 0x5f695f00, mask := 0xffffff00 },
    { off := 0x10c },
    { off := 0x110, reset := 0x400 },
    { off := 0x114, acc := .rw, mask := 0xff },
    { off := 0x118 },
    { off := 0x120, cnt := 1 },
    { off := 0x124, cnt := 1 },
    { off := 0x128 } ]

/-- Registers of SEC (Table 17.9). -/
def secRows : List RegRow :=
  [ { off := 0x100, reset := 0x1000005 },
    { off := 0x104, acc := .rw, reset := 0x2, mask := 0x2 },
    { off := 0x108, acc := .rw, mask := 0xff },
    { off := 0x110, acc := .cm, sw := true, mask := 0x3fffffff, sel := 0x108 },
    { off := 0x114, acc := .cm, sw := true, mask := 0x0, sel := 0x108 },
    { off := 0x118, acc := .cm, sw := true, mask := 0x3fffffff, sel := 0x108 },
    { off := 0x11c, acc := .cm, sw := true, mask := 0xefff0000, sel := 0x108 },
    { off := 0x120, cnt := 1 },
    { off := 0x124, cnt := 1 },
    { off := 0x128, wide := true },
    { off := 0x140, acc := .rw },
    { off := 0x144, acc := .rw },
    { off := 0x148, acc := .rw },
    { off := 0x14c, acc := .rw },
    { off := 0x150, acc := .rw },
    { off := 0x154, acc := .rw },
    { off := 0x158, acc := .rw },
    { off := 0x15c, acc := .rw },
    { off := 0x160, wide := true, acc := .rw, mask := 0x3fffffffffff },
    { off := 0x168, acc := .wo, mask := 0x3 },
    { off := 0x16c },
    { off := 0x170, wide := true },
    { off := 0x178 },
    { off := 0x17c, cnt := 1 } ]

/-- Registers of FWU (Table 17.10). -/
def fwuRows : List RegRow :=
  [ { off := 0x100, reset := 0x400004 },
    { off := 0x104, acc := .rw, reset := 0x2, mask := 0x2 },
    { off := 0x108 },
    { off := 0x10c, acc := .wo, mask := 0x7fff000f },
    { off := 0x110, wide := true, acc := .rw, mask := 0x3fffffffffff },
    { off := 0x118, acc := .rw },
    { off := 0x120, acc := .rw, sw := true, mask := 0x80007fff },
    { off := 0x124, acc := .rw, sw := true, mask := 0x80007fff },
    { off := 0x128, acc := .rw, sw := true, mask := 0x80007fff },
    { off := 0x12c, acc := .rw, sw := true, mask := 0x80007fff },
    { off := 0x130, wide := true },
    { off := 0x138 },
    { off := 0x13c },
    { off := 0x140 },
    { off := 0x148, wide := true, acc := .rw, mask := 0x3fffffffffff },
    { off := 0x150, acc := .rw },
    { off := 0x154 },
    { off := 0x158, cnt := 1 },
    { off := 0x15c, cnt := 1 },
    { off := 0x160, cnt := 1 },
    { off := 0x164, cnt := 1 } ]

/-- Registers of MGT (Table 17.11). -/
def mgtRows : List RegRow :=
  [ { off := 0x100, reset := 0x9 },
    { off := 0x104, acc := .rw, reset := 0x2, mask := 0x2 },
    { off := 0x108, reset := 0x10000000 },
    { off := 0x10c },
    { off := 0x110, acc := .wo, sw := true, mask := 0xc0000007 },
    { off := 0x114 },
    { off := 0x118, acc := .rw, mask := 0x1 },
    { off := 0x11c },
    { off := 0x120, acc := .rw },
    { off := 0x124, acc := .rw },
    { off := 0x128, acc := .rw },
    { off := 0x12c, acc := .rw },
    { off := 0x130, acc := .rw },
    { off := 0x134, acc := .rw },
    { off := 0x138, acc := .rw },
    { off := 0x13c, acc := .rw },
    { off := 0x140 },
    { off := 0x144 },
    { off := 0x148 },
    { off := 0x14c },
    { off := 0x150 },
    { off := 0x154 },
    { off := 0x158 },
    { off := 0x15c } ] ++
  [ { off := 0x160 },
    { off := 0x170, cnt := 1 },
    { off := 0x174, cnt := 1 } ]

/-- Registers of SQ (Table 18.5). -/
def sqRows : List RegRow :=
  [ { off := 0x100 },
    { off := 0x104 },
    { off := 0x108, acc := .rw, reset := 0x2, mask := 0x2 },
    { off := 0x110, cnt := 1 },
    { off := 0x114, cnt := 1 },
    { off := 0x118 } ]

end Sys2Proof.Machine
end

