-- ==== Sys2Proof/Syntax.lean ====
section
/-! DEFINITION. The commands the block takes: one constructor of `Instr` per row of spec/opcode_table.json, and the
data their operands carry (descriptors, packets, sensed values). -/

namespace Sys2Proof

/-- A 64-byte descriptor as sixteen 32-bit words: the header of Table 10.1 in words 0-7, the body in words 8-15
(R222). -/
abbrev Desc := List Word

/-! ## Rows as packets carry them -/

/-- An adjacency edge (Table 6.2). -/
structure Edge where
  nbr  : Nat
  time : Nat
  eval : Nat
  deriving DecidableEq, Repr

/-- One column of a drawing table (R139): its threshold in units of 2^-32 and its other edge. -/
structure AliasCol where
  thr   : Nat
  other : Nat
  deriving DecidableEq, Repr

/-- An adjacency row: the flags of Table 6.1, its edges, its two-way draw table (R119, R139). -/
structure AdjRow where
  timeSorted : Bool := true
  aliasValid : Bool := false
  zeroWeight : Bool := false
  edges      : List Edge := []
  aliasTab   : List AliasCol := []
  deriving DecidableEq, Repr

/-- The four planes of an embedding row as element codes; an empty list stands for +0 throughout (R145, R174). -/
structure Planes where
  p0 : List Nat := []
  p1 : List Nat := []
  p2 : List Nat := []
  p3 : List Nat := []
  deriving DecidableEq, Repr

/-- A row as its owner keeps it (R178, R179, R180). -/
structure Row where
  planes  : Planes := {}
  /-- the 12-bit version of plane 0 -/
  ver     : Nat := 0
  /-- plane 0 of a held next version -/
  next    : Option (List Nat) := none
  /-- the pending mark (R185) -/
  pend    : Bool := false
  /-- modules that hold a replica, oldest first -/
  holders : List Nat := []
  adj     : AdjRow := {}
  /-- the step-start copy (R180) -/
  undo    : Option Planes := none
  /-- it takes storage: it has been loaded or stored (R174) -/
  stored  : Bool := false
  /-- held in the far tier (R197) -/
  far     : Bool := false
  /-- the step-start copy is held in the far tier (R180) -/
  undoFar : Bool := false
  /-- which of two places holds plane 0: the first, or that of the held next version (R179) -/
  alt     : Bool := false
  /-- uncorrectable words, by part and 16-byte word: planes 0 to 3, 4 an adjacency row, 5 the held next version, 8 to 11
  the step-start copies of planes 0 to 3 (R136, R152, R179, R180, R275) -/
  ue      : List (Nat × Nat) := []
  /-- an unfinished assembly of parts, and its uncorrectable words (R175) -/
  asm     : Option (List Edge × List Nat) := none
  /-- an assumed adjacency row that no load has written (R380) -/
  notLoaded : Bool := false
  deriving DecidableEq, Repr

/-- A row's name: job, table, row number. -/
structure RowKey where
  job   : Nat
  table : Nat
  row   : Nat
  deriving DecidableEq, Repr

/-- A change of a migrating row (R194); what it carries of uncorrectable words goes with it (R275). -/
inductive Change where
  | plane (p : Nat) (codes : List Nat) (ue : List (Nat × Nat))
  | version (ver : Nat) (p0 : List Nat) (next : Option (List Nat)) (ue : List (Nat × Nat))
  | mark (pend : Bool)
  | adj (a : AdjRow) (asm : Option (List Edge × List Nat)) (ue : List (Nat × Nat))
  | holders (hs : List Nat)
  | undo (u : Option Planes) (ue : List (Nat × Nat))
  | transfer
  deriving DecidableEq, Repr

/-! ## Packets -/

/-- The packet header of Table 13.4, its TYPE given by the body. -/
structure Hdr where
  dstMod : Nat := 0
  dstDie : Nat := 6
  dstSq  : Nat := 0
  srcMod : Nat := 0
  srcDie : Nat := 6
  srcSq  : Nat := 0
  hops   : Nat := 0
  job    : Nat := 0
  vc     : Nat := 0
  upper  : Bool := false
  len    : Nat := 0
  more   : Bool := false
  resent : Bool := false
  echk   : Bool := false
  seq    : Nat := 0
  epoch  : Nat := 0
  rdie   : Nat := 0
  rctx   : Nat := 0
  listVer : Nat := 0
  rank   : Nat := 0
  deriving DecidableEq, Repr

/-- Who asks: the requester's module, square and queue (Tables 6.9 and 7.3); a request passed on keeps it (R183). -/
structure Org where
  mod : Nat
  msq : Nat
  q   : Nat
  /-- the EPOCH of the request, the requester square's own, which the response copies (R375; log entry 101) -/
  epoch : Nat := 0
  deriving DecidableEq, Repr

/-- An entry of a read request (Table 7.3). -/
structure ReadEntry where
  table : Nat
  node  : Nat
  plane : Nat
  tag   : Nat
  /-- the job's setting when the read started is STRICT (R187; log entry 11) -/
  strict : Bool := true
  deriving DecidableEq, Repr

/-- A row of a read response: tag, status (Table 10.5), whether it is the version before a pending update (R187),
element codes, the bytes of an element (Table 7.3), and whether its read waited (R151). -/
structure ReadRow where
  tag    : Nat
  status : Nat
  stale  : Bool
  codes  : List Nat
  esz    : Nat := 2
  waited : Bool := false
  deriving DecidableEq, Repr

/-- The parameters of a sampling request batch (Table 6.9). -/
structure SampleParams where
  seed   : Nat
  table  : Nat
  mode   : Nat
  hop    : Nat
  fanout : Nat
  cutEn  : Bool
  /-- the requester's latched SPLIT_THRESHOLD (R133, R137) -/
  thr    : Nat
  deriving DecidableEq, Repr

/-- An entry of a sampling request (Table 6.9). -/
structure SampleEntry where
  node   : Nat
  dst    : Nat
  cutoff : Nat
  deriving DecidableEq, Repr

/-- A record a draw yields (R131) before it is placed. -/
structure DrawRec where
  src    : Nat
  time   : Nat
  edge   : Nat
  isRepeat : Bool
  capped : Bool
  split  : Bool
  seg    : Nat
  deriving DecidableEq, Repr

/-- A sampling result of one destination (Table 6.9): its records, or why there are none (R130, R135). -/
structure SampleResult where
  dst    : Nat
  recs   : List DrawRec
  flag   : Nat
  deriving DecidableEq, Repr

/-- A scatter entry (Table 7.3): the row, its elements and, for MXFP8, its scales. -/
structure ScatterEntry where
  table  : Nat
  node   : Nat
  fmt    : Nat
  codes  : List Nat
  scales : List Nat
  deriving DecidableEq, Repr

/-- A row written to its owner (R175): its elements with their size in bytes, or its edges. -/
structure StoreEntry where
  table : Nat
  node  : Nat
  plane : Nat
  part  : Nat
  codes : List Nat
  adj   : List Edge
  esz   : Nat := 2
  /-- the 16-byte words of the source that were uncorrectable (R275) -/
  ue    : List Nat := []
  deriving DecidableEq, Repr

/-- A block of a reduction chunk as the wire carries it: scale code and 32 element codes (Table 14.4). -/
structure WireBlock where
  scale : Nat
  codes : List Nat
  deriving DecidableEq, Repr

/-- A contribution chunk (Table 14.5). -/
structure RedUp where
  inst   : Nat
  chunk  : Nat
  ranks  : Nat
  lifts  : Nat
  copy   : Bool
  fmt    : Nat
  norm   : Option Nat
  blocks : List WireBlock
  deriving DecidableEq, Repr

/-- A result chunk or abort (Table 14.5). -/
structure RedDown where
  inst   : Nat
  chunk  : Nat
  kind   : Nat
  fmt    : Nat
  lifts  : Nat
  norm   : Option Nat
  blocks : List WireBlock
  deriving DecidableEq, Repr

/-- A shadow write (R376, R377, R378). -/
inductive ShadowItem where
  | planes (k : RowKey) (p1 p2 p3 : List Nat)
  | adj (k : RowKey) (a : AdjRow)
  | remove (k : RowKey)
  | moved (k : RowKey) (owner : Option Nat)
  | seal
  deriving DecidableEq, Repr

/-- What a packet carries, one constructor per TYPE of Table 13.5; the messages of PLC_MSG and MGT each have their
own. -/
inductive Body where
  | readReq (org : Org) (cmd : Nat) (es : List ReadEntry)
  | readRsp (cmd : Nat) (rows : List ReadRow)
  | sampleReq (org : Org) (cmd : Nat) (p : SampleParams) (es : List SampleEntry)
  /-- `ev`: the records carry edge values (EVAL_KIND not 0) -/
  | sampleRsp (cmd : Nat) (ev : Bool) (rs : List SampleResult)
  | scatter (org : Org) (cmd tok : Nat) (es : List ScatterEntry)
  | store (org : Org) (cmd tok : Nat) (es : List StoreEntry)
  /-- `n`: entries of the batch it covers; `bad`: those of them that were not kept -/
  | writeAck (cmd tok status n bad : Nat)
  | redUp (u : RedUp)
  | redDown (d : RedDown)
  | barArrive (obj first count ranks : Nat)
  | barRelease (obj : Nat)
  | barEnd (obj status : Nat)
  | fsignal (cmd obj n : Nat)
  | fsignalAck (cmd status : Nat)
  /-- `host`: made for a host access and for no job (R324) -/
  | boardRd (tag addr bytes : Nat) (host : Bool)
  /-- `bad`: the 16-byte words of the data that carry the poison marker (R275); `flush`: acknowledged once written back -/
  | boardWr (tag addr : Nat) (data : List Byte) (bad : List Nat) (host flush : Bool)
  | boardRsp (tag status : Nat) (data : List Byte) (bad : List Nat)
  | intr (vec : Nat)
  | pendingNotice (k : RowKey)
  | pendingNoticeAck (k : RowKey)
  /-- `bad`: the 16-byte words of plane 0 that are uncorrectable (R275) -/
  | refresh (k : RowKey) (ver : Nat) (p0 : List Nat) (bad : List Nat)
  | refreshAck (k : RowKey) (want : Nat)
  /-- `who`: the requester, kept when passed on (R183); `room`: it has room in its replica area and directory bucket
  (R191) -/
  | replicaRequest (k : RowKey) (who : Nat) (room : Bool)
  | replicaGrant (k : RowKey) (ver : Nat) (pend : Bool) (p0 : List Nat) (bad : List Nat)
  | replicaRefuse (k : RowKey)
  | replicaDrop (k : RowKey)
  /-- `byList`: a migration that a change of the member list defines (R196) -/
  | migCopy (k : RowKey) (row : Row) (byList : Bool)
  /-- `ok`: the new home has room (R193) -/
  | migCopyAck (k : RowKey) (ok : Bool)
  | migChange (k : RowKey) (n : Nat) (c : Change)
  /-- `old`: where the row is until its transfer; the new home itself once it owns the row (R195, R196; log entry 84) -/
  | flipNotice (k : RowKey) (newHome beat old : Nat)
  | aliasRequest (cmd q table first count thr : Nat)
  /-- totals over the rows the sender owns; `status`: what its reads and writes of them met (Table 10.5) -/
  | aliasReport (cmd built bad noServer status : Nat)
  | epochNotice (msq epoch : Nat)
  | shadowWrite (cmd job step : Nat) (full : Bool) (item : ShadowItem)
  | shadowAck (cmd : Nat) (full : Bool)
  | fwImage (origin : Nat) (data : List Byte)
  | fwuOutcome (outcome svn : Nat)
  | announce
  | e2eAck (ackVc upTo : Nat)
  | nack (cmd tok status : Nat)
  /-- a packet of a message that goes on in the next one: its TYPE and VC, and the command and token it names (R305) -/
  | part (type vc cmd tok : Nat)
  deriving DecidableEq, Repr

/-- A packet (R305). -/
structure Pkt where
  hdr  : Hdr
  body : Body
  /-- of a packet in transit here, the port it arrived on (R315); no part of the packet -/
  via  : Option Nat := none
  deriving DecidableEq, Repr

/-- Byte n of a packet's payload, and its words ARG0 and ARG1 where the manual does not lay them out (log entry 11). -/
opaque Config.payloadByte : Pkt → Nat → Byte
opaque Config.argWord : Pkt → Nat → Word

/-- A tempo mark (R318). -/
structure Mark where
  beat     : Nat
  master   : Nat
  hops     : Nat
  txOffset : Nat
  /-- the CRC of its flit is good (R318) -/
  crcOk    : Bool
  /-- measured offset of the local counter at the mark, in units of 0.25 ns, positive when ahead (Table 10.11) -/
  offset   : Int
  deriving DecidableEq, Repr

/-- A private transfer of the board management controller over I3C: the index, the direction, and the bytes written or as many
as are read (R460). -/
structure I3cAcc where
  index : Nat
  wr    : Bool
  data  : List Byte
  deriving DecidableEq, Repr

/-- What the sensors, the supply and the board present at a beat (R395, R405, R455, R460): the levels of COOLANT_OK, PWR_GOOD and
REFCLK, the measured input power, current and voltage, the port traffic, and of each square the events of its units that the
estimator counted in the beat that ended, kind by kind (R387). -/
structure BeatIn where
  coolantOk  : Bool
  pwrGood    : Bool
  refclk     : Bool
  measuredW  : Nat
  current10mA : Nat
  mV         : Nat
  /-- port traffic in GB/s -/
  traffic    : Nat
  events     : List (Nat × List Nat)
  /-- transfers over I3C, in order -/
  i3c        : List I3cAcc
  deriving DecidableEq, Repr

/-- The outcome of training a port (R299, R303). -/
structure TrainResult where
  /-- good lanes, bit i for lane i -/
  lanes   : Nat
  partner : Nat
  pport   : Nat
  delay   : Nat
  ok      : Bool
  deriving DecidableEq, Repr

/-- What a retraining found and exchanged (R304). -/
structure RetrainResult where
  /-- good lanes, bit i for lane i -/
  lanes : Nat
  /-- the last FSEQ the partner accepted -/
  ack   : Nat
  deriving DecidableEq, Repr

/-- An address in one of the host's windows into the board: BAR0, BAR2 or BAR4 (R322). -/
structure BarAddr where
  bar : Nat
  off : Nat
  deriving DecidableEq, Repr

/-- What finished a start-up stage: the values that stage's work produced (Table 17.2). -/
structure StageIn where
  /-- milliseconds taken (STAGE_MS) -/
  ms : Nat
  /-- stage 2: a valid calibration record per band -/
  calValid : Nat
  /-- stage 3: rows repaired per stack, and a module-local address in each row that found no spare -/
  repaired : List (Nat × Nat)
  exhausted : List Nat
  /-- stages 6 and 8: register values management firmware commits (page, register offset, window, value) -/
  firmware : List (Nat × Nat × Nat × DWord)
  deriving DecidableEq, Repr

/-- The operations and events of the part, one constructor per row of spec/opcode_table.json. -/
inductive Instr where
  -- queue commands: the queue ID (R217) and the descriptor at its head
  | nop (q : Nat) (d : Desc)
  | fence (q : Nat) (d : Desc)
  | arbInit (q : Nat) (d : Desc)
  | arbSignal (q : Nat) (d : Desc)
  | arbWaitGe (q : Nat) (d : Desc)
  | arbTake (q : Nat) (d : Desc)
  | arbBarrier (q : Nat) (d : Desc)
  | arbFbarrier (q : Nat) (d : Desc)
  | arbFsignal (q : Nat) (d : Desc)
  | dmaCopy (q : Nat) (d : Desc)
  | dmaFill (q : Nat) (d : Desc)
  | ramp (q : Nat) (d : Desc)
  | pwrSleep (q : Nat) (d : Desc)
  | matmul (q : Nat) (d : Desc)
  | scsReadout (q : Nat) (d : Desc)
  | scsClear (q : Nat) (d : Desc)
  | vxMap (q : Nat) (d : Desc)
  | vxAgg (q : Nat) (d : Desc)
  | vxConvert (q : Nat) (d : Desc)
  | vxReduce (q : Nat) (d : Desc)
  | vxUpdate (q : Nat) (d : Desc)
  | vxRatio (q : Nat) (d : Desc)
  | kntSample (q : Nat) (d : Desc)
  | aliasBuild (q : Nat) (d : Desc)
  | rookGather (q : Nat) (d : Desc)
  | rookScatter (q : Nat) (d : Desc)
  | rookStore (q : Nat) (d : Desc)
  | rookSettle (q : Nat) (d : Desc)
  | rookRelease (q : Nat) (d : Desc)
  | rookDrain (q : Nat) (d : Desc)
  | plcTable (q : Nat) (d : Desc)
  | plcLoad (q : Nat) (d : Desc)
  | plcDrop (q : Nat) (d : Desc)
  | plcStep (q : Nat) (d : Desc)
  | plcKeep (q : Nat) (d : Desc)
  | plcRollback (q : Nat) (d : Desc)
  | gmbLayer (q : Nat) (d : Desc)
  | collAllreduce (q : Nat) (d : Desc)
  | collNorm (q : Nat) (d : Desc)
  | bndResync (q : Nat) (d : Desc)
  | bndShadow (q : Nat) (d : Desc)
  | bndSeal (q : Nat) (d : Desc)
  -- queues, completion, beats
  | descriptorFetch (q : Nat)
  | prioAging (q : Nat)
  | commandComplete (cmd : Nat)
  | deadlineExpire (q : Nat)
  | beat (b : BeatIn)
  | scheduledCommit (page : Nat)
  | castleBind
  | castleComplete
  -- register accesses: page number within the register space, value, world
  | commitGo (page : Nat) (v : Word) (secure : Bool)
  | commitArm (page : Nat) (v : DWord) (wide : Bool) (secure : Bool)
  | cancel (page : Nat) (secure : Bool)
  | discard (page : Nat) (secure : Bool)
  | errStatusClear (page : Nat) (v : Word) (secure : Bool)
  | cntClear (page : Nat) (v : Word) (secure : Bool)
  | counterLatchRead (page off : Nat) (secure : Bool)
  | registerWrite (addr : Nat) (v : DWord) (width : Nat) (secure : Bool)
  | doorbellWrite (q : Nat) (v : DWord) (width : Nat)
  | qHeadWrite (die : Nat) (v : Word) (secure : Bool)
  | resume (die : Nat) (v : Word) (secure : Bool)
  | qselWrite (die : Nat) (v : Word) (secure : Bool)
  | cqselWrite (die : Nat) (v : Word) (secure : Bool)
  | cqTailWrite (die : Nat) (v : Word) (secure : Bool)
  | rlogTailWrite (msq : Nat) (v : Word) (secure : Bool)
  | plcJobSelWrite (v : Word) (secure : Bool)
  | bndJobSelWrite (v : Word) (secure : Bool)
  | ctxSelWrite (rdie : Nat) (v : Word) (secure : Bool)
  | decSelWrite (v : Word) (secure : Bool)
  | ueLogClear (stack : Nat) (v : Word) (secure : Bool)
  | scsWindowWrite (addr : Nat)
  | lostDeclare (m : Nat) (secure : Bool)
  | lostDeclareSub (m : Nat) (secure : Bool)
  | lostClear (m : Nat) (secure : Bool)
  | assume (secure : Bool)
  | refill (secure : Bool)
  | handback
  | resyncCmd (v : Word) (secure : Bool)
  | recal (secure : Bool)
  | invalidate (secure : Bool)
  | sleepWake (k : Nat) (v : Word) (secure : Bool)
  | attReport (secure : Bool)
  | attChain (secure : Bool)
  | attDone
  | fwuStart (secure : Bool)
  | lock (secure : Bool)
  | enroll (secure : Bool)
  | serveRecovery (target : Nat) (secure : Bool)
  | raiseSvn (secure : Bool)
  | fwuImageComplete
  | fwuVerifyDone
  | fwuWriteDone (flashOk : Bool)
  | mgtModuleReset (secure : Bool)
  | mgtDieReset (die : Nat) (secure : Bool)
  | regionSet (secure : Bool)
  | regionClear (secure : Bool)
  | worldSet (secure : Bool)
  -- the board management controller, JTAG, pins and supply
  | recordSubmit (rec : List Byte)
  | entdaa (addr : Nat)
  | bypass (die : Nat)
  | idcode (die : Nat)
  | samplePreload (die : Nat)
  | extest (die : Nat)
  | clamp (die : Nat)
  | highz (die : Nat)
  | trst
  | modResetAssert
  | modResetRelease
  | pwrGoodFall
  | underVoltageTrip (mV : Nat)
  | overVoltageTrip (mV : Nat)
  | reversePolarity
  | uvWarn (mV : Nat)
  | ovWarn (mV : Nat)
  | coolantStop
  | coolantClocksStop
  | coolantWcbFlush
  | coolantSelfRefresh
  | thermalTrip (die : Nat)
  | thermalTripRailsOff
  | coolantOkRise
  | holdupChange (level : Bool)
  | twinSenseChange (level : Bool)
  | twinWaitTimeout
  | refclkLoss (port : Nat)
  | hostLinkDown (port : Nat)
  | cxlLinkDown (port : Nat)
  | opticalInsert (port : Nat) (accepted : Bool)
  | opticalRemove (port : Nat)
  -- start-up and recovery
  | bootStageDone (r : StageIn)
  | stageBudgetExpire (ms : Nat)
  | recoveryAnnounce
  | recoveryImageDone (image : List Byte)
  -- links
  | portTrainDone (port : Nat) (r : TrainResult)
  | laneFault (port lane : Nat)
  | retrainDone (port : Nat) (r : RetrainResult)
  | dataFlitRx (port : Nat) (flit : List Byte)
  | nakRx (port ack : Nat)
  | markSend
  | markRx (port : Nat) (m : Mark)
  | tempoHoldover
  | stopFlitRx (port m reason : Nat)
  | packetForward (port : Option Nat) (p : Pkt)
  -- packet arrivals
  | readReq (p : Pkt)
  | readRsp (p : Pkt)
  | replicaRequest (p : Pkt)
  | replicaGrant (p : Pkt)
  | sampleReq (p : Pkt)
  | sampleRsp (p : Pkt)
  | scatter (p : Pkt)
  | pendingNotice (p : Pkt)
  | refresh (p : Pkt)
  | writeAck (p : Pkt)
  | store (p : Pkt)
  | redUp (p : Pkt)
  | redDown (p : Pkt)
  | barArrive (p : Pkt)
  | barRelease (p : Pkt)
  | fsignal (p : Pkt)
  | fsignalAck (p : Pkt)
  | boardRd (p : Pkt)
  | boardWr (p : Pkt)
  | boardRsp (p : Pkt)
  | intr (p : Pkt)
  /-- `bar`: 0 the register pages, 2 the apertures, 4 the MSI-X table (R322) -/
  | hostApertureAccess (port : Nat) (a : BarAddr) (wr : Bool) (data : List Byte)
  | migrationChange (p : Pkt)
  | flipNotice (p : Pkt)
  | epochNotice (p : Pkt)
  | fwImage (p : Pkt)
  | fwuOutcome (p : Pkt)
  | e2eAck (p : Pkt)
  | e2eAckTimer (srcMod vc : Nat)
  | nack (p : Pkt)
  | e2eResend (dstMod vc : Nat)
  | redResend (rdie rctx chunk : Nat)
  | redDeadlineAbort (rdie rctx : Nat)
  | abortGraceExpire (rdie rctx : Nat)
  | kntBatchTimeout (cmd target : Nat)
  | rookReadBatchTimeout (cmd target : Nat)
  | rookScatterBatchTimeout (cmd target : Nat)
  | barrierTrackerGrant
  | clockGate (msq cycles : Nat)
  | sleepEnter (msq : Nat)
  | wakeBeat (msq : Nat)
  | wakeComplete (msq : Nat)
  | scsAddend (msq slot : Nat) (fmt code scale : Nat)
  | scsQueueAbsorb (msq bank : Nat)
  | promotionResume (msq bank cycles : Nat)
  | strictReadResume (k : RowKey)
  | plcBoundary (job : Nat)
  | migrationPrepare (k : RowKey)
  | flipNoticeSend (k : RowKey)
  | migrationTransfer (k : RowKey)
  | retire (k : RowKey)
  | sketchDecay
  | scrubRewrite (line : Nat)
  | patrolScrub (line : Nat)
  | wcbEvict (pc : Nat) (cycles : Nat)
  | wcbFullWriteback (line : Nat)
  | wcbBeatFlush (die : Nat)
  | wcbIdleWriteback (line : Nat)
  | driftPeriod (measuredW estimatedW : Nat)
  | recalComplete
  | thermalSample (die : Nat) (temps : List Int)
  | hbmTempReport (stack : Nat) (temp : Int)
  | trimRaise (die msq : Nat) (slack : Int)
  | railSettled (die : Nat)
  | heartbeatSend
  | heartbeatRx (port state assumed : Nat)
  | heartbeatTimeout
  | shadowWrite (p : Pkt)
  | foldComplete (job : Nat)
  | idleFlit (port : Nat) (flit : List Byte)
  | pendingNoticeAck (p : Pkt)
  | refreshAck (p : Pkt)
  | migrationCopyAck (p : Pkt)
  | replicaDrop (p : Pkt)
  | aliasBuildRequest (p : Pkt)
  | aliasBuildReport (p : Pkt)
  | shadowWriteAck (p : Pkt)
  | stageFailed (reason : Nat)
  | hostLinkUp (port width rate : Nat)
  | cxlLinkUp (port : Nat)
  | conventionalReset (port : Nat)
  | stackContentsLost (stack : Nat)
  | returnToService (isStack : Bool) (unit : Nat)
  | startThreshold (mV : Nat)
  | msixVectorUnmask (vec : Nat)
  deriving DecidableEq, Repr

end Sys2Proof
end

