-- ==== Sys2Proof/Machine/State.lean ====
section
/-! DEFINITION. The machine's state as plain data, what a step may stop with, and the state after reset. Every
sub-structure's fields default to their reset values, so `State.reset` is every default together. Sparse tables are
lists of (key, value) pairs in ascending key order; an unlisted key holds the table's default. -/

namespace Sys2Proof.Machine

/-- The status codes of Table 10.5 (R231). -/
inductive Status where
  | ok | empty | nanSeen | epochStale | orphan | unbound | abortStep | linkLost | deadline
  | guardUncorrectable | worldViolation | configInvalid
  deriving DecidableEq, Repr

/-! ## Registers (18_register_pages.md) -/

/-- A scheduled commit: page, beat, and the world that armed it (R442, R443). -/
structure Arm where
  page   : Nat
  beat   : Nat
  secure : Bool
  /-- COMMIT_BEAT was already past when armed -/
  late   : Bool := false
  deriving DecidableEq, Repr

/-- The registers of every page, keyed by (page, window, offset); an unlisted live register holds its reset value, an
unlisted shadow equals the live value (R441). -/
structure RegState where
  live   : List (Nat × DWord) := []
  shadow : List (Nat × DWord) := []
  /-- upper words latched by reads of lower words (R65) -/
  latch  : List (Nat × Word) := []
  armed  : List Arm := []
  deriving DecidableEq, Repr

/-! ## Memory (12_memory_system.md) -/

/-- An entry of a write-combining buffer: line address, the bytes its mask covers, and the words of the line (0 to 3)
whose written data is marked poisoned (R275, R279). -/
structure WcbEntry where
  line : Nat
  data : List (Option Byte)
  bad  : List Nat
  deriving DecidableEq, Repr

/-- The state of an HBM stack (Table 12.6). -/
inductive StackState where
  | untrained | training | ready | selfRefresh | failed
  deriving DecidableEq, Repr

/-- The memories of the module. -/
structure MemState where
  /-- bytes at module-local addresses: HBM arrays, far tier, square memories -/
  cells   : List Host.Cell := []
  /-- per 16-byte word (address / 16): stored check symbols XOR those of the stored data, s0 + 256 × s1 (R274) -/
  ecc     : List (Nat × Nat) := []
  /-- the write-combining buffers' entries, oldest first (R279) -/
  wcb     : List WcbEntry := []
  /-- lines queued for the scrubber (R276) -/
  scrubQ  : List Nat := []
  /-- the line at which the patrol stands, per stack (R277) -/
  patrol  : List (Nat × Nat) := []
  /-- corrections per HBM row in this scrub period (R278) -/
  rowCe   : List (Nat × Nat) := []
  /-- rows on the repair lists (R278) -/
  repair  : List Nat := []
  stackSt : List (Nat × StackState) := []
  /-- region entries unbound from a job (R290) -/
  regUnbound : List Nat := []
  /-- beat of the last beat flush, per die (R282) -/
  flushed : List (Nat × Nat) := []
  /-- a die's FLUSH_LOG2 before its last change, and the beat from which the new one counts (R295) -/
  flushNew : List (Nat × Nat × Nat) := []
  deriving DecidableEq, Repr

/-! ## Queues and commands (10_commands_queues_tempo.md) -/

/-- A queue's state beside its registers (R221, R225, R235). -/
structure QState where
  /-- descriptors read and not started, oldest first -/
  fetched : List Desc := []
  halted  : Bool := false
  /-- treated as PRIO 3 until it starts (R225) -/
  aged    : Bool := false
  /-- the command started or refused last, by its id (R224) -/
  last    : Option Nat := none
  deriving DecidableEq, Repr

/-! ## Placement (08_embedding_placement.md) -/

/-- A directory entry (Table 8.3): KIND 1 MOVED, 2 REPLICA, 3 OUT, 4 IN. -/
structure DirEntry where
  kind  : Nat
  key   : RowKey
  owner : Nat
  ver   : Nat := 0
  slot  : Nat := 0
  deriving DecidableEq, Repr

/-- Where a migration stands at its old home (Table 8.5): selected, copy sent, FORWARD, flip notice sent, transferred. -/
inductive MigPhase where
  | chosen | prepare | forward | flip | sent
  deriving DecidableEq, Repr

/-- A migration at its old home. -/
structure MigOut where
  key   : RowKey
  dest  : Nat
  phase : MigPhase := .chosen
  /-- number of the last change sent (R194) -/
  seq   : Nat := 0
  /-- an affinity migration: MIG_LIMIT counts it (R193) -/
  affinity : Bool := true
  /-- beat FORWARD began -/
  since : Nat := 0
  /-- the flip beat, once known -/
  flip  : Option Nat := none
  /-- beat of the transfer -/
  sentAt : Nat := 0
  deriving DecidableEq, Repr

/-- A migration at its new home: the copy, the last change applied, changes held early, the mark set here before the
transfer, whether the transfer has been applied (R194). -/
structure MigIn where
  key     : RowKey
  old     : Nat
  row     : Row
  applied : Nat := 0
  held    : List (Nat × Change) := []
  ownMark : Bool := false
  owner   : Bool := false
  /-- defined by a change of the member list: no directory entry (R196) -/
  byList  : Bool := false
  deriving DecidableEq, Repr

/-- A row a gather fetches: its tag (the first output row that takes it), table, node, and every output row it
fills (R149). -/
structure Fetch where
  tag   : Nat
  table : Nat
  node  : Nat
  outs  : List Nat
  /-- merge hits among the indices between this fetching one and the next -/
  hits  : Nat := 0
  /-- the job's setting when its read started, in STRICT or not; none before that (R187) -/
  strict : Option Bool := none
  deriving DecidableEq, Repr

/-- Who waits for a row: a gather here, a request from elsewhere, a store by its command or batch. -/
inductive RowWaiter where
  | fetch (cmd : Nat) (f : Fetch)
  | read (org : Org) (cmd tag : Nat)
  | store (id : Nat) (e : StoreEntry)
  deriving DecidableEq, Repr

/-- A wait for a row: for its mark to clear, or for a transfer; a read that waits does so in STRICT (R187, Table 8.5). -/
structure RowWait where
  key    : RowKey
  plane  : Nat
  /-- the job's setting when the read started (R187) -/
  strict : Bool
  who    : RowWaiter
  deriving DecidableEq, Repr

/-- A batch of entries received and not yet acknowledged: its requester, the entries it covers, those not kept, entries
still waiting, and the rows whose pending notices it awaits (R159, R186). -/
structure InBatch where
  id    : Nat
  job   : Nat
  org   : Org
  cmd   : Nat
  tok   : Nat
  n     : Nat
  bad   : Nat := 0
  left  : Nat := 0
  keys  : List RowKey := []
  /-- the region table refused a write of it; a directory bucket of it was uncorrectable in both copies -/
  world : Bool := false
  cfg   : Bool := false
  ue    : Bool := false
  deriving DecidableEq, Repr

/-- An ALIAS_BUILD request that waits for rows whose transfer to this module has not come: the request (none: the command
runs here), the command, its queue and threshold, the rows awaited, and what has been built so far (R139; log entry 48). -/
structure AliasJob where
  req   : Option Pkt
  cmd   : Nat
  q     : Nat
  thr   : Nat
  wait  : List RowKey
  built : Nat
  bad   : Nat
  nos   : Nat
  ue    : Bool
  world : Bool
  cfg   : Bool
  deriving DecidableEq, Repr

/-- The placement engine. -/
structure PlcState where
  /-- table definitions by job × 4,096 + table: the eight body words (R172) -/
  tables  : List (Nat × List Nat) := []
  /-- rows that take storage here (R174, R178) -/
  rows    : List (RowKey × Row) := []
  /-- directory entries by bucket × 4 + place (R182) -/
  dir     : List (Nat × DirEntry) := []
  /-- replicas held here that are marked pending (R186) -/
  rpend   : List RowKey := []
  out     : List MigOut := []
  inn     : List MigIn := []
  /-- flips noticed and not yet in effect: row, new home, beat (R194) -/
  flips   : List (RowKey × Nat × Nat) := []
  /-- of the last flip noticed of a row: its new home and its old one (R195, R196) -/
  back    : List (RowKey × Nat × Nat) := []
  /-- the receiving square of a row, from its first arrival until its touch entry is released (R160) -/
  recv    : List (RowKey × Nat) := []
  /-- the halves of the heat sketch: counters by row × 2^19 + column (R189) -/
  want    : List (Nat × Nat) := []
  serve   : List (Nat × Nat) := []
  /-- beat of the last decay -/
  decayed : Option Nat := none
  /-- pending notices sent and not acknowledged: row, holder (R186) -/
  notices : List (RowKey × Nat) := []
  /-- refreshes sent and not acknowledged (Table 8.5) -/
  refreshes : List (RowKey × Nat) := []
  waits   : List RowWait := []
  batches : List InBatch := []
  /-- ALIAS_BUILD requests that wait for rows on their way here (R139) -/
  aliasJobs : List AliasJob := []
  /-- last declared boundary reached, per job (R190) -/
  lastB   : List (Nat × Nat) := []
  /-- JOB_THRESH and JOB_MIG as they apply since the last boundary, per job (R199) -/
  eff     : List (Nat × Nat × Nat) := []
  /-- WANT estimates holders reported: row, holder, estimate (R193) -/
  wants   : List (RowKey × Nat × Nat) := []
  /-- consecutive boundaries at which a holder's want exceeded the affinity rule: row, holder, count -/
  aff     : List (RowKey × Nat × Nat) := []
  /-- consecutive boundaries at which a row was cold -/
  cold    : List (RowKey × Nat) := []
  deriving DecidableEq, Repr

/-! ## The receiving squares (07_gather_and_scatter.md) -/

/-- A touch entry (Table 7.5), with its segment squares, the next in turn, and whether its segments are settled
(R163, R164). -/
structure TouchEnt where
  key       : RowKey
  slot      : Nat
  len       : Nat
  arrivals  : Nat := 0
  split     : Bool := false
  drained   : Bool := false
  published : Bool := false
  segs      : List Nat := []
  turn      : Nat := 0
  deriving DecidableEq, Repr

/-- A segment held for a receiving square (R163). -/
structure SegHeld where
  key  : RowKey
  base : Nat
  slot : Nat
  len  : Nat
  deriving DecidableEq, Repr

/-- An entry held while a drain runs: the batch or command that waits for it, the queue ID of the command concerned, its row
(R166). -/
structure HeldEntry where
  id    : Nat
  q     : Nat
  key   : RowKey
  entry : ScatterEntry
  deriving DecidableEq, Repr

/-- The receiving part of a square's Rook: touch list, window slots in use, overflow records in order with their job,
segments held for other squares. -/
structure RookSt where
  ents : List TouchEnt := []
  used : Nat := 0
  ovf  : List (Nat × ScatterEntry) := []
  segs : List SegHeld := []
  /-- entries that arrived while a drain runs, oldest first (R166) -/
  held : List HeldEntry := []
  /-- the square that ran the segment of a logged record, by the record's address in the path log, where it is not the
  square that holds the log's work (R137, R157) -/
  ran  : List (Nat × Nat) := []
  deriving DecidableEq, Repr

/-! ## What running sampler and Rook commands carry -/

/-- A KNT_SAMPLE in progress: what it latched (R133), its parameter record, its destinations with their cutoffs, the
next one, results by destination (true for those drawn on another module), the open request batches by target, and the
batches sent: target and the local indices not yet answered. -/
structure SampleCtx where
  seed  : Nat
  plog  : Nat
  thr   : Nat
  base  : Nat
  off   : Nat
  nodes : List Nat
  cuts  : List Nat
  todo  : Nat := 0
  res   : List (Nat × Bool × SampleResult) := []
  open_ : List (Nat × List SampleEntry) := []
  sent  : List (Nat × List Nat) := []
  /-- the squares beside this one that ran the segments of a split destination drawn here, from segment 1 on (R137) -/
  ran   : List (Nat × List Nat) := []
  deriving DecidableEq, Repr

/-- A ROOK_GATHER in progress: rows still to fetch, open batches, remote reads outstanding with their targets, local
reads that wait, output rows written and merge hits so far. -/
structure GatherCtx where
  todo  : List Fetch
  open_ : List (Nat × List Fetch) := []
  sent  : List (Nat × Fetch) := []
  wait  : List Fetch := []
  rows  : Nat := 0
  hits  : Nat := 0
  deriving DecidableEq, Repr

/-- A batch sent and unacknowledged: its token, its target, its entries left, and the square that sent it. -/
structure SentBatch where
  tok    : Nat
  target : Nat
  left   : Nat
  sq     : Nat
  deriving DecidableEq, Repr

/-- A ROOK_SCATTER in progress: the path log it latched, the next record and their count, open batches by target × 512 +
sending square, batches sent and unacknowledged, entries sent, records skipped, rows whose notices it awaits, entries held
while a drain runs (R166). -/
structure ScatterCtx where
  plog  : Nat
  n     : Nat
  todo  : Nat := 0
  open_ : List (Nat × List ScatterEntry) := []
  sent  : List SentBatch := []
  tok   : Nat := 0
  count : Nat := 0
  skip  : Nat := 0
  keys  : List RowKey := []
  held  : Nat := 0
  deriving DecidableEq, Repr

/-- A ROOK_STORE or PLC_LOAD in progress: entries still to write, open batches as a scatter's, batches unacknowledged, entries that
wait here, rows written and not written. -/
structure StoreCtx where
  todo  : List StoreEntry
  /-- every entry of the command: the rows it targets (R243) -/
  targets : List StoreEntry := []
  open_ : List (Nat × List StoreEntry) := []
  sent  : List SentBatch := []
  tok   : Nat := 0
  wait  : Nat := 0
  rows  : Nat := 0
  bad   : Nat := 0
  deriving DecidableEq, Repr

/-! ## Exact accumulator values and entries (04_scoresheet_and_epilogue.md) -/

/-- The tags of an exact accumulator value (R68). -/
inductive EaTag where
  | none | nan | pinf | ninf
  deriving DecidableEq, Repr

/-- An exact accumulator value: its tag and its value in units of 2^-312 (R67, R68). -/
structure Ea where
  tag : EaTag := .none
  v   : Int := 0
  deriving DecidableEq, Repr

/-- What a Scoresheet entry holds (R71, R72, R84): narrow with its base, wide with its group, or poisoned. -/
inductive Entry where
  | narrow (tag : EaTag) (base : Int) (v : Int)
  | wide (tag : EaTag) (g : Nat) (v : Int)
  | poisoned
  deriving DecidableEq, Repr

/-- What a running command carries beyond its descriptor. -/
inductive CmdCtx where
  | none
  /-- FENCE: the lines dirty when it started and not yet written back (R282) -/
  | fence (lines : List Nat)
  /-- DMA with FLUSH: the lines it wrote and that are not yet written back (R283) -/
  | flush (lines : List Nat)
  /-- DMA over the board's links: outstanding accesses (tag, destination, bytes; 0 bytes for a write), and with FLUSH
  the local lines it wrote (R283, R285) -/
  | dma (wait : List (Nat × Nat × Nat)) (lines : List Nat)
  /-- waiting until the Scoresheet has absorbed the command's updates (R63) -/
  | scsWait
  /-- reads or clears Scoresheet slots, each at its moment of R82: the slots served, with what each held -/
  | scsRead (got : List (Nat × Entry))
  /-- waiting on an Arbiter object (key): WAIT_GE, TAKE, BARRIER, FBARRIER (R255) -/
  | waitObj (obj : Nat)
  /-- ARB_FSIGNAL waiting for its acknowledgement (R254): target module -/
  | fsignal (target : Nat)
  /-- COLL_*: waiting for its result: context, rank, whether its contribution has been sent, and its parameter record
  (R338, R351) -/
  | coll (ctx rank : Nat) (copy sent : Bool) (record : List Byte)
  | sample (x : SampleCtx)
  /-- ALIAS_BUILD: members not yet reported; rows built, rows with an invalid weight (R139) -/
  | aliasWait (mods : List Nat) (built bad : Nat)
  | gather (x : GatherCtx)
  | scatter (x : ScatterCtx)
  | store (x : StoreCtx)
  /-- ROOK_SETTLE: slots of segments not yet read: row, segment square, place in the segment; rows settled (R164) -/
  | settle (left : List (RowKey × Nat × Nat)) (rows : Nat)
  /-- ROOK_RELEASE: the places of the window cleared so far, each at its moment of R82 -/
  | release (done : List Nat)
  /-- RAMP with WAIT: its FLOOR (R391) -/
  | ramp (floor : Nat)
  /-- BND_SHADOW and BND_SEAL: writes unacknowledged, rows shadowed and skipped (R377) -/
  | shadow (left rows skipped : Nat)
  deriving DecidableEq, Repr

/-- What a GMB_LAYER that waits for the Scoresheet still needs (R212, R214): the misses counted against MISS_ALARM, the
neuron-groups they are a share of, and its groups. -/
structure LayerEnd where
  misses : Nat
  outOf  : Nat
  groups : Nat
  deriving DecidableEq, Repr

/-- A command that has been started or refused and has not completed (R224, R227, R232). -/
structure Cmd where
  id    : Nat
  /-- queue ID (R217) -/
  q     : Nat
  /-- module square number -/
  msq   : Nat
  desc  : Desc
  /-- every effect is in place: the command may complete (R227) -/
  done  : Bool := false
  /-- the status of a failed check of R223 or of an ending event (R232) -/
  ended : Option Status := none
  /-- conditions recorded during the run (R232) -/
  ue    : Bool := false
  world : Bool := false
  cfg   : Bool := false
  nan   : Bool := false
  info0 : Nat := 0
  info1 : Nat := 0
  /-- registers that report on the last completed command, set at completion: page, offset, value (R39, R116) -/
  posts : List (Nat × Nat × Nat) := []
  /-- HALT_ON_ERR of its queue when it started (R245) -/
  halt  : Bool := false
  layer : Option LayerEnd := none
  /-- a MATMUL that issued spills (R52) -/
  spilled : Bool := false
  ctx   : CmdCtx := .none
  deriving DecidableEq, Repr

/-! ## Arbiter (11_synchronization.md) -/

/-- STATE of an Arbiter object (Table 11.1). -/
inductive ObjState where
  | uninit | active | orphaned
  deriving DecidableEq, Repr

/-- An Arbiter object (Table 11.1). -/
structure ArbObj where
  value : Nat := 0
  rest  : Nat := 0
  /-- KIND: waited on by TAKE -/
  take  : Bool := false
  state : ObjState := .uninit
  owner : Nat := 0
  /-- waiting WAIT_GEs: command and threshold -/
  ges   : List (Nat × Nat) := []
  /-- the TAKE queue, head first -/
  takes : List Nat := []
  deriving DecidableEq, Repr

/-- A local barrier in progress: object key, mask, the arrivals (square, command) of the present and of the next
instance of it (R259). -/
structure Barrier where
  obj     : Nat
  mask    : Nat
  arrived : List (Nat × Nat)
  later   : List (Nat × Nat)
  deriving DecidableEq, Repr

/-- A fabric barrier in progress on this module: fabric object, list version, first position, count, its command
(R260, R261). -/
structure FBarrier where
  obj   : Nat
  ver   : Nat
  first : Nat
  count : Nat
  cmd   : Nat
  deriving DecidableEq, Repr

/-- A node of a fabric barrier's tree served by this module: job, object, set, version, the positions that have
arrived and those passed on, and arrivals held for the next instance (R260). -/
structure FNode where
  job   : Nat
  obj   : Nat
  first : Nat
  count : Nat
  ver   : Nat
  got   : List (Nat × Nat)
  /-- the ranges already passed up -/
  passed : List (Nat × Nat) := []
  /-- the module that made each arrival taken -/
  src   : List ((Nat × Nat) × Nat) := []
  later : List Pkt
  deriving DecidableEq, Repr

structure ArbState where
  /-- objects by die × 4,096 + number; die 6 for fabric objects -/
  objs     : List (Nat × ArbObj) := []
  barriers : List Barrier := []
  /-- arrivals that wait for a tracker, with their masks, oldest first (R259) -/
  trackerWait : List (Nat × Nat) := []
  fbars    : List FBarrier := []
  fnodes   : List FNode := []
  /-- fabric barriers aborted before this module's command has started: job, object, status (R261) -/
  stopped  : List (Nat × Nat × Status) := []
  deriving DecidableEq, Repr

/-! ## Scoresheet (04_scoresheet_and_epilogue.md) -/

/-- An update waiting in a conflict queue: slot, addend, the command whose update it is, the queue ID for error
records, and whether it replaces the entry (an ACC_SET flush, R54). -/
structure ScsUpd where
  slot : Nat
  add  : Ea
  cmd  : Option Nat := none
  q    : Nat := 0
  set  : Bool := false
  deriving DecidableEq, Repr

/-- A square's Scoresheet: its 65,536 slots of 128 bits as stored, the error syndrome of each slot's word, which home
slot holds each pool group (bank × 512 + group), and the banks' conflict queues, oldest update first; updates beyond
the 32nd of a bank are those its held sources still offer (R79, log entry 12). -/
structure ScsState where
  slots  : List (Nat × Nat) := []
  ecc    : List (Nat × Nat) := []
  groups : List (Nat × Nat) := []
  queue  : List ScsUpd := []
  deriving DecidableEq, Repr

/-- A castle-list entry (Table 15.2). -/
structure CastleEntry where
  kind   : Nat
  unbind : Bool
  job    : Nat
  first  : Nat
  count  : Nat
  arg    : Nat
  deriving DecidableEq, Repr

/-- A castling in progress (R367): its beat, its entries, whether the bindings have been changed, the ended commands
of the old jobs with the responses they still await. -/
structure Castle where
  beat    : Nat
  entries : List CastleEntry
  bound   : Bool := false
  waiting : List (Nat × Nat) := []
  /-- the world that committed it, and where the report lies -/
  secure  : Bool := false
  base    : Nat := 0
  deriving DecidableEq, Repr

/-! ## Power (16_power_and_thermal.md) -/

/-- The sleep of a square (R392): KEEP, WAKE_ON_DB, WAKE_BEAT; a waking square and the beat its wake began. -/
inductive Sleep where
  | awake
  | entering (keep onDb : Bool) (wake : Nat)
  | asleep (keep onDb : Bool) (wake : Nat)
  | waking (keep : Bool) (since : Nat)
  deriving DecidableEq, Repr

/-- What the module keeps of a job beside its registers: the live member list and LIST_VER (R371). -/
structure JobInfo where
  members : List Nat := []
  ver     : Nat := 0
  /-- the list before the last change, and the beat of that change (R196) -/
  prev    : List Nat := []
  since   : Nat := 0
  /-- the list of an armed commit (R196) -/
  next    : List Nat := []
  deriving DecidableEq, Repr

/-! ## Reduction (14_in_fabric_reduction.md) -/

/-- A block in an adder's window: scale code and 32 window integers (R346). -/
structure WinBlock where
  s : Nat
  w : List Int
  deriving DecidableEq, Repr

/-- A contribution held by a node for an earlier rank: its first rank, its chunk, and whether it lies in the spill
area (R350). -/
structure RedHeld where
  rank    : Nat
  up      : RedUp
  spilled : Bool
  deriving DecidableEq, Repr

/-- A chunk at a node: the group's first rank and count, the accumulator, the next rank it takes, what it holds, and
whether it has been sent on (R347, R350). -/
structure RedChunk where
  first  : Nat
  count  : Nat
  chunk  : Nat
  next   : Nat
  blocks : List WinBlock := []
  norm   : Option Nat := none
  lifts  : Nat := 0
  held   : List RedHeld := []
  sent   : Bool := false
  deriving DecidableEq, Repr

/-- A chunk of one copy of a rank in BACKUP mode: rank, COPY, the module it came from, and whether it lies in the spill
area (R350, R357). -/
structure RedCopy where
  rank : Nat
  copy : Bool
  src  : Nat
  up   : RedUp
  spilled : Bool := false
  deriving DecidableEq, Repr

/-- A packet of an instance not started here yet, and whether it lies in the spill area (R336, R350). -/
structure RedEarly where
  pkt     : Pkt
  spilled : Bool := false
  deriving DecidableEq, Repr

/-- State of a bound reduction context (Table 14.1); UNBOUND is the want of a binding. -/
inductive RedSt where
  | idle | active | done | aborted
  deriving DecidableEq, Repr

/-- A reduction context on this module (R335 to R359). -/
structure RedCtx where
  st      : RedSt := .idle
  /-- last instance (R337) -/
  last    : Nat := 0
  ver     : Nat := 0
  /-- the members of the list in force at the start, by rank -/
  members : List Nat := []
  /-- CTX_CONFIG at the start -/
  cfg     : Nat := 0
  /-- FMT of Table 14.5 -/
  fmt     : Nat := 3
  count   : Nat := 0
  norm    : Bool := false
  deadline : Option Nat := none
  /-- the instance's commands on this module, with their ranks -/
  cmds    : List (Nat × Nat) := []
  chunks  : List RedChunk := []
  /-- RED_UPs sent and not answered: chunk, packet, beat last sent (R358) -/
  ups     : List (Nat × Pkt × Nat) := []
  /-- results made or received (R358) -/
  downs   : List RedDown := []
  /-- KIND of the abort, once aborted -/
  abort   : Option Nat := none
  copies  : List RedCopy := []
  /-- the copy taken for a rank: rank, COPY, module (R357) -/
  taken   : List (Nat × Bool × Nat) := []
  /-- backups that also receive each RED_DOWN (R356) -/
  backups : List Nat := []
  /-- packets of an instance not started here yet (R336) -/
  early   : List RedEarly := []
  deriving DecidableEq, Repr

/-- The binding table (R365, R370, R373, R375). -/
structure BndState where
  /-- job bound to a resource, by KIND × 2^24 + number -/
  bound    : List (Nat × Nat) := []
  /-- epochs of units: squares 0-383, stacks 384-395 -/
  epoch    : List (Nat × Nat) := []
  /-- STALE units -/
  stale    : List Nat := []
  /-- cause for which a unit is STALE (Table 15.8) -/
  cause    : List (Nat × Nat) := []
  /-- epochs learned of members' squares, by module × 512 + module square number (R375) -/
  learned  : List (Nat × Nat) := []
  castle   : Option Castle := none
  /-- bound jobs with their member lists -/
  jobs     : List (Nat × JobInfo) := []
  deriving DecidableEq, Repr

/-! ## Fabric (13_fabric_links_and_host.md) -/

/-- Port states (Table 13.2). -/
inductive PortSt where
  | off | training | active | degraded | retraining | failed | miswired | stopped
  deriving DecidableEq, Repr

/-- Consecutive units of a packet in a flit, its header two units long (R300, R305). -/
structure FlitPart where
  pkt   : Pkt
  first : Nat
  count : Nat
  deriving DecidableEq, Repr

/-- A flit (Table 13.1): FTYPE, FSEQ, ACK, the credit returns by VC × 2 + CLASS, the units of packets it carries, and what a
MARK or STOP flit holds instead. Its bytes with their CRC are `Flit.bytes`. -/
structure Flit where
  ftype : Nat := 0
  fseq  : Nat
  ack   : Nat
  creds : List (Nat × Nat) := []
  parts : List FlitPart := []
  data  : List Byte := []
  deriving DecidableEq, Repr

/-- A Ply port (R299 to R308). -/
structure Port where
  st       : PortSt := .off
  width    : Nat := 0
  /-- good lanes, bit i for lane i -/
  lanes    : Nat := 0
  /-- failed training attempts (Table 13.2) -/
  attempts : Nat := 0
  /-- partner module and port (R299) -/
  partner  : Option (Nat × Nat) := none
  delay    : Nat := 0
  /-- FSEQ of the next DATA flit -/
  txNext   : Nat := 0
  /-- units of packets started and not yet in a flit (R300) -/
  txPart   : List FlitPart := []
  /-- the retry buffer: the DATA flits not yet acknowledged, oldest first (R302) -/
  retry    : List Flit := []
  /-- the last ACK a flit has carried -/
  ackSent  : Nat := 4095
  /-- FSEQ expected next from the partner -/
  rxNext   : Nat := 0
  /-- a NAK has been sent and no flit accepted since (R302) -/
  nakSent  : Bool := false
  /-- the ACK of the last NAK received and how many NAKs in a row carried it -/
  nakAck   : Nat := 4096
  nakRun   : Nat := 0
  /-- packets waiting, oldest first -/
  queue    : List Pkt := []
  /-- units of the partner's buffer in use, by VC × 2 + CLASS (R307) -/
  used     : List (Nat × Nat) := []
  /-- units freed here and not yet returned, by VC × 2 + CLASS -/
  owed     : List (Nat × Nat) := []
  /-- bytes sent per VC, for the byte-weighted round robin; an idle VC gains none over those served (R308; log entry 14) -/
  sent     : List (Nat × Nat) := []
  /-- bytes injected here per VC × 4,096 + job; a job with nothing waiting is brought level with those that wait (R370; log
  entry 14) -/
  injected : List (Nat × Nat) := []
  /-- payload bytes received of a packet not yet complete (R300) -/
  rxPart   : List Byte := []
  /-- the width before the retraining in progress (R304) -/
  before   : Nat := 0
  /-- the width the retraining in progress may reach: only a commit of TARGET_LANES raises it (R304) -/
  cap      : Nat := 8
  deriving DecidableEq, Repr

/-- A stream this module sends on (R309, R310). -/
structure TxStream where
  next    : Nat := 0
  /-- unacknowledged copies: SEQ, the packet, the beat it was last sent -/
  copies  : List (Nat × Pkt × Nat) := []
  tries   : Nat := 0
  deriving DecidableEq, Repr

/-- A stream this module receives (R309). -/
structure RxStream where
  next : Nat := 0
  held : List Pkt := []
  /-- packets delivered and not yet acknowledged -/
  due  : Nat := 0
  deriving DecidableEq, Repr

/-- A region of HBM whose layout is the device's own: the twin's shadow (R376), a fabric die's spill area (R350), the
resend store (R310). -/
inductive OwnRegion where
  | shadow
  | spill (rdie : Nat)
  | resend
  deriving DecidableEq, Repr

/-- An access of the device to such a region: its direction and its bytes. -/
structure OwnAcc where
  region : OwnRegion
  write  : Bool
  bytes  : Nat
  deriving DecidableEq, Repr

structure FabState where
  /-- accesses of the device to its own regions that are still to be made (log entry 103) -/
  own     : List OwnAcc := []
  ports   : List (Nat × Port) := []
  /-- by destination module × 8 + VC -/
  tx      : List (Nat × TxStream) := []
  /-- by source module × 8 + VC -/
  rx      : List (Nat × RxStream) := []
  /-- packets that wait for room in the resend store (R310) -/
  waiting : List Pkt := []
  /-- packets this module sent to itself, delivered by the command of their arrival -/
  loop    : List Pkt := []
  /-- modules declared lost, with the substitute (R312) -/
  lost    : List (Nat × Option Nat) := []
  deriving DecidableEq, Repr

/-- Something that left the module: the model's own record of its outputs. -/
inductive Out where
  /-- a packet started on a port; flits carry it (R308) -/
  | packet (port : Nat) (p : Pkt)
  /-- a flit sent on a port (R300, R302, R318, R319) -/
  | flit (port : Nat) (f : Flit)
  /-- an MSI-X message for a vector, written with its table entry's address and data (R327) -/
  | msix (vec addr data : Nat)
  /-- a heartbeat on a twin port with the TWIN state and the assumed module (R380) -/
  | heartbeat (port state assumed : Nat)
  /-- an in-band interrupt or a level on a side-band pin (R455, R414) -/
  | pin (name : String) (level : Bool)
  /-- the management core is informed -/
  | inform (what : String) (n : Nat)
  /-- bytes read over I3C (R460) -/
  | i3c (data : List Byte)
  /-- an answer of the JTAG port (R462) -/
  | jtag (die : Nat) (what : String) (v : Word)
  /-- the completion of a host access (R323, R324): data and how it completes -/
  | host (data : List Byte) (how : String)
  deriving DecidableEq, Repr

/-- Per-square power state (R387 to R392); its cap is the lower of its die's thermal cap and the
governor's (R394, R395). -/
structure SqPwr where
  /-- allowance L -/
  l     : Nat := 0
  /-- floor F -/
  f     : Nat := 0
  /-- demand D of the last beat -/
  d     : Nat := 0
  sleep : Sleep := .awake
  deriving DecidableEq, Repr

/-- The governor's view of the drift of its estimate (R396, R397): the response in force, consecutive periods in
disagreement and in agreement, whether recalibration has written a record since. -/
structure DriftSt where
  on      : Bool := false
  off     : Nat := 0
  agree   : Nat := 0
  written : Bool := false
  deriving DecidableEq, Repr

/-- The power, thermal and voltage state of the module. -/
structure PwrState where
  sq : List (Nat × SqPwr) := []
  /-- the beat in which the device itself last set RECOVERY (R393) -/
  recBeat : Option Nat := none
  /-- measured W, current in 10 mA, estimated mW of the last 2,000 beats, newest first (R386, R394, R395) -/
  win     : List (Nat × Nat × Nat) := []
  drift   : DriftSt := {}
  /-- the drift response begins at the next beat boundary (R396) -/
  driftDue : Bool := false
  /-- a recalibration: its band and the periods gathered (R400) -/
  recal   : Option (Nat × Nat) := none
  /-- number of the calibration record each band holds (R399); none written: 0 -/
  records : List (Nat × Nat) := []
  /-- measured average of the last completed period, in W (R396, R398) -/
  lastAvg : Nat := 0
  /-- the cap the governor sets on every square, and why: 0 none, 2 peak, 3 current, 4 drift (R395, DIE_CAP [31:28]) -/
  cap     : Nat := 1024
  why     : Nat := 0
  /-- the cap of every compute die while a measured average over its limit makes every cap fall (R395) -/
  caps    : List (Nat × Nat) := []
  /-- beat of the last period's end -/
  lastPeriod : Option Nat := none
  /-- sensor readings of a die in units of 0.125 °C (R403), and of a stack -/
  temps   : List (Nat × List Int) := []
  /-- dies whose hottest valid sensor was at or above TJ_MAX at their last sample (R403) -/
  tj      : List Nat := []
  stackT  : List (Nat × Int) := []
  /-- trims in mV per compute die (R402) -/
  trim    : List (Nat × Int) := []
  /-- lowest monitor slack last reported per square, in ps (R402) -/
  slack   : List (Nat × Int) := []
  /-- clock lost to ageing per square, in MHz (R402) -/
  derate  : List (Nat × Nat) := []
  /-- dies whose trim a change of FREQ_MODE sets at their next idle beat (R408) -/
  modeDue : List Nat := []
  /-- the FREQ_LIMIT the clocks of each compute die follow, and dies whose rail has still to settle (R401) -/
  clock   : List (Nat × Nat) := []
  settling : List Nat := []
  /-- beats in which a die's trim was last raised (R402) -/
  raised  : List (Nat × Nat) := []
  /-- compute dies of which a square has worked in the present beat (R402) -/
  worked  : List Nat := []
  /-- COOLANT_OK of the last sample low, and its beat (R405) -/
  coolLow : Option Nat := none
  /-- beat C of a coolant stop or thermal trip (Table 16.3) -/
  stopC   : Option Nat := none
  /-- squares clock-gated while they wait (R258) -/
  gated   : List Nat := []
  deriving DecidableEq, Repr

/-- Tempo beside its registers (R238, R239): consecutive marks within SKEW_LIMIT, the beat of the last valid mark, per
port the master, hop count and beat of its last mark, and the last beat marked as master. -/
structure TempoState where
  good  : Nat := 0
  last  : Nat := 0
  ports : List (Nat × Nat × Nat × Nat) := []
  sent  : Option Nat := none
  deriving DecidableEq, Repr

/-! ## Twin shadows (15_jobs_binding_twin.md) -/

/-- What the shadow region holds of a row: planes 1 to 3, or a row image (R376). -/
structure ShadowRow where
  planes : Planes := {}
  adj    : AdjRow := {}
  deriving DecidableEq, Repr

/-- A generation of a job in the journal, or written into the image when FULL (R376). -/
structure ShadowGen where
  job    : Nat
  step   : Nat
  full   : Bool
  items  : List ShadowItem := []
  isSealed : Bool := false
  /-- a write found the region full: it records no more and can no longer be sealed (R377) -/
  dead   : Bool := false
  deriving DecidableEq, Repr

/-- A generation this module has open at its twin (R377). -/
structure OpenGen where
  job  : Nat
  step : Nat
  full : Bool
  dead : Bool := false
  deriving DecidableEq, Repr

/-- The twin's shard held here, the generations open at the twin, the heartbeat, the move back of assumed rows. -/
structure TwinState where
  image   : List (RowKey × ShadowRow) := []
  moved   : List (RowKey × Nat) := []
  /-- jobs of which a valid image is held -/
  valid   : List Nat := []
  gens    : List ShadowGen := []
  own     : List OpenGen := []
  /-- changes of placement that await the next generation of their job (R378) -/
  later   : List (Nat × ShadowItem) := []
  /-- shadow writes that wait for a fold of their job (R376) -/
  held    : List Pkt := []
  /-- commands and batches that await the acknowledgement of an image write of a load, one item per write (R378) -/
  adjWaits : List Nat := []
  /-- beat of the last heartbeat received on P0 or P1, and of the last sent -/
  lastHb  : Nat := 0
  sentHb  : Option Nat := none
  /-- heartbeats missed in a row -/
  missed  : Nat := 0
  /-- counted level of TWIN_SENSE, and whether it fell since the last beat boundary (R455, R457) -/
  sense   : Bool := false
  fell    : Bool := false
  /-- stage 8 waits for a heartbeat until this beat (R456) -/
  waitTo  : Option Nat := none
  /-- rows taken over from the twin (R380) -/
  assumed : List RowKey := []
  /-- steps of the FULL image written to a newcomer and not yet sealed there (R381) -/
  refill  : Bool := false
  deriving DecidableEq, Repr

/-! ## Start-up, firmware, security, interface (17 and 19) -/

/-- The boot record (R416). -/
structure BootRec where
  seq    : Nat := 0
  next   : Nat := 0
  lock   : Bool := false
  count  : Nat := 0
  deriving DecidableEq, Repr

/-- Fuses and flash: what a reset keeps (R412). The bytes of the two copies of the boot record and of the slots; the stored calibration records by band. -/
structure KeepState where
  ownerDigest : Option (List Byte) := none
  svn     : Nat := 0
  serial  : Nat := 0
  rec0    : List Byte := []
  rec1    : List Byte := []
  slotA   : List Byte := Config.shippedImage.take 0x4000000
  slotB   : List Byte := Config.shippedImage.take 0x4000000
  cal     : List (Nat × Nat) := []
  /-- STOP_CAUSE of the I3C target (Table 19.8) -/
  cause   : Nat := 0
  /-- rows repaired since manufacture, per stack (Table 12.6) -/
  repaired : List (Nat × Nat) := []
  deriving DecidableEq, Repr

/-- The update chain (R420 to R423). -/
structure FwuSt where
  /-- bytes received of an image, or the image, and whether its last piece has come -/
  image  : List Byte := []
  whole  : Bool := false
  origin : Nat := 0
  /-- the module it is received from -/
  src    : Nat := 0
  /-- the image last written whole: its digest and SVN -/
  staged : Option (List Byte × Nat) := none
  /-- outcome of a refusal condition that arose during WRITING; 0 none (R422) -/
  stop   : Nat := 0
  deriving DecidableEq, Repr

/-- Start-up, attestation, the supply, the side band, the I3C target, JTAG and the cages. -/
structure BootState where
  fwu     : FwuSt := {}
  /-- READY has been reached since the last reset (R393) -/
  opened  : Bool := false
  /-- a mailbox request waits for the beat of its commit (R428) -/
  mboxRun : Bool := false
  /-- the slot that runs -/
  running : Option Nat := none
  /-- milliseconds the present stage has taken -/
  stageMs : Nat := 0
  /-- pages of units that failed start-up (R428) -/
  failed  : List Nat := []
  /-- measurements 1 and 2: the slots (R430) -/
  meas    : List (Nat × List Byte) := []
  /-- attestation running: 1 REPORT, 2 CHAIN; where it goes, and bytes 0-511 of the report -/
  att     : Nat := 0
  attAddr : Nat := 0
  attBody : List Byte := []
  /-- the module record and its control bits (R461) -/
  record  : List Byte := []
  accepted : Bool := false
  refused : Bool := false
  submitted : Bool := false
  /-- counted levels of the side band (Table 19.6); REFCLK valid -/
  resetN  : Bool := true
  pwrGood : Bool := true
  coolant : Bool := false
  holdupN : Bool := true
  refclk  : Bool := false
  /-- the input switch is closed; the input is back in range since the last trip; an over-voltage trip is latched, and
  MOD_RESET_N has been low since (R449) -/
  switch_ : Bool := true
  inputOk : Bool := true
  ovLatch : Bool := false
  ovLow   : Bool := false
  /-- instruction of each die's TAP, IDCODE after a TAP reset: 0 BYPASS, 1 IDCODE, 2 SAMPLE/PRELOAD, 3 EXTEST, 4 CLAMP, 5 HIGHZ (R462) -/
  tap     : List (Nat × Nat) := []
  /-- cages with an optical module, and whether it was accepted (R453) -/
  cages   : List (Nat × Bool) := []
  deriving DecidableEq, Repr

/-- An access of the host: at a host port through a BAR, or at a register page of this module; a read's `data` has the length it
asks for (R322, R325). -/
structure HostAcc where
  /-- the port; none for a register access that the bridge hands to this module's pages -/
  port : Option Nat
  /-- 0, 2 or 4 -/
  bar  : Nat
  off  : Nat
  wr   : Bool
  data : List Byte
  deriving DecidableEq, Repr

/-- An entry of the MSI-X table: message address and data, and whether the vector is masked (R321, R322). -/
structure MsixEntry where
  addr   : Nat := 0
  data   : Nat := 0
  masked : Bool := true
  deriving DecidableEq, Repr

/-- MSI-X and the host port (R320 to R327). -/
structure HostState where
  /-- host ports whose CXL link has gone down and has not been trained again (R288) -/
  cxlDown  : List Nat := []
  /-- endpoint ports that train with separate reference clocks: no valid REFCLK at stage 6, or a loss of it since (R457) -/
  sris     : List Nat := []
  /-- the MSI-X table by vector: every vector is masked at reset (R321) -/
  msix     : List (Nat × MsixEntry) := []
  /-- vectors whose pending bit is set -/
  waiting  : List Nat := []
  /-- host reads of other slots whose completion is awaited, and posted writes not yet performed there: tag, module and
  address (R324, R325) -/
  reads    : List (Nat × Nat × Nat) := []
  posted   : List (Nat × Nat × Nat) := []
  nextTag  : Nat := 0
  /-- accesses held for earlier posted writes, oldest first (R325) -/
  held     : List HostAcc := []
  /-- the BAR2 size in force per host port, log2 (R334) -/
  bar2     : List (Nat × Nat) := []
  deriving DecidableEq, Repr

/-- The module's state. -/
structure State where
  /-- the commands waiting, first in, first out: the model's host interface -/
  pending : List Instr := []
  /-- what has left the module, oldest first: the model's own record -/
  outbox  : List Out := []
  /-- data of the last register read or other answer: the model's own record -/
  rsp     : DWord := 0
  /-- notices to the management firmware of ERR_STATUS bits that ERR_ENABLE enables, page and bit, oldest first (R439) -/
  told    : List (Nat × Nat) := []
  /-- draws of free values so far: the model's own field (log entry 6) -/
  free    : Nat := 0
  variant : Variant := .kta8
  regs    : RegState := {}
  mem     : MemState := {}
  queues  : List (Nat × QState) := []
  cmds    : List Cmd := []
  /-- the id of the next command; 0 names none -/
  nextCmd : Nat := 1
  /-- the queue that started last, by square × 4 + PRIO: the round-robin position (R225) -/
  served  : List (Nat × Nat) := []
  beat    : Nat := 0
  arb     : ArbState := {}
  bnd     : BndState := {}
  fab     : FabState := {}
  pwr     : PwrState := {}
  host    : HostState := {}
  tempo   : TempoState := {}
  twinSt  : TwinState := {}
  keep    : KeepState := {}
  boot    : BootState := {}
  plc     : PlcState := {}
  /-- receiving squares by module square number -/
  rook    : List (Nat × RookSt) := []
  /-- reduction contexts by RDIE × 4,096 + RCTX -/
  red     : List (Nat × RedCtx) := []
  /-- Scoresheets by module square number -/
  scs     : List (Nat × ScsState) := []
  deriving DecidableEq, Repr

/-- Why the machine stops. -/
inductive Fault where
  /-- an input above 65 V, whose effect R449 does not specify: raised by OVER_VOLTAGE_TRIP only; safe -/
  | inputAboveMaximum
  deriving DecidableEq, Repr

/-- Why a command has no meaning. -/
inductive Refusal where
  /-- an instruction that this model gives no meaning yet: raised by its arm of `exec` only; safe -/
  | notModelled (mnemonic : String)
  deriving DecidableEq, Repr

/-- The module right after reset (R8): every field at its default, the queue of commands empty. -/
def State.reset : State := {}

end Sys2Proof.Machine
end

