-- ==== Sys2Proof/Machine/Ops.lean ====
section
/-! DEFINITION. Operations shared by every meaning: sparse tables, free values, the register pages of
18_register_pages.md with their counters, error flags and shadows. -/

namespace Sys2Proof.Machine

/-! ## Sparse tables -/

/-- The value at a key, `d` where none is listed. -/
def SMap.get {α : Type} (d : α) (k : Nat) : List (Nat × α) → α
  | [] => d
  | (a, v) :: r => if a = k then v else SMap.get d k r

/-- The entry at a key, if listed. -/
def SMap.find {α : Type} (k : Nat) : List (Nat × α) → Option α
  | [] => none
  | (a, v) :: r => if a = k then some v else SMap.find k r

/-- Remove a key. -/
def SMap.del {α : Type} (k : Nat) : List (Nat × α) → List (Nat × α)
  | [] => []
  | (a, v) :: r => if a = k then SMap.del k r else (a, v) :: SMap.del k r

/-- Insert or replace a key, in ascending order. -/
def SMap.put {α : Type} (k : Nat) (v : α) : List (Nat × α) → List (Nat × α)
  | [] => [(k, v)]
  | (a, w) :: r =>
    if k < a then (k, v) :: (a, w) :: r
    else if k = a then (k, v) :: r
    else (a, w) :: SMap.put k v r

/-- Set a key; the default is not listed. -/
def SMap.set {α : Type} [DecidableEq α] (d : α) (k : Nat) (v : α) (m : List (Nat × α)) : List (Nat × α) :=
  if v = d then SMap.del k m else SMap.put k v m

/-- Bits [hi:lo] of a number. -/
def bits (n hi lo : Nat) : Nat := n / 2 ^ lo % 2 ^ (hi + 1 - lo)

/-- Bit i of a number. -/
def bit (n i : Nat) : Bool := n.testBit i

/-- A Boolean as 0 or 1. -/
def b2n (b : Bool) : Nat := if b then 1 else 0

/-! ## Free values (log entry 6) -/

/-- Draw a free value. -/
def State.draw (s : State) : Nat × State := (Config.freeNat s.free, { s with free := s.free + 1 })

/-- Draw n free values. -/
def State.drawN (s : State) (n : Nat) : List Nat × State :=
  ((List.range n).map fun i => Config.freeNat (s.free + i), { s with free := s.free + n })

/-- Choose one of several eligible items: the only one when there is one, otherwise whichever the free value names
(log entry 6). -/
def State.choose {α : Type} (s : State) (l : List α) : Option α × State :=
  match l with
  | [] => (none, s)
  | [a] => (some a, s)
  | l => let (n, s') := s.draw; (l[n % l.length]?, s')

/-! ## Pages (R434 to R437, R446) -/

/-- Page types (Table 18.3). -/
inductive PT where
  | sq | mxu | vxu | scs | knt | rook | gmb | qmg | arb | hbm | wcb | thm
  | tmp | plc | bnd | pwr | far | sec | fwu | mgt | red | hxp | ply
  deriving DecidableEq, Repr

/-- Type codes (Table 18.3). -/
def PT.code : PT → Nat
  | .sq => 0x01 | .mxu => 0x02 | .vxu => 0x03 | .scs => 0x04 | .knt => 0x05 | .rook => 0x06 | .gmb => 0x07
  | .qmg => 0x10 | .arb => 0x11 | .hbm => 0x12 | .wcb => 0x13 | .thm => 0x14
  | .tmp => 0x20 | .plc => 0x21 | .bnd => 0x22 | .pwr => 0x23 | .far => 0x24 | .sec => 0x25 | .fwu => 0x26
  | .mgt => 0x27 | .red => 0x28 | .hxp => 0x29 | .ply => 0x2A

/-- How many ERR_STATUS bits a page defines, from bit 0 up (the error-flag tables of the chapters); of the PLY pages
only that of P0 has [9:5] (R332). -/
def PT.errBits (inst : Nat) : PT → Nat
  | .sq => 1 | .mxu => 3 | .scs => 4 | .vxu => 6 | .knt => 6 | .rook => 5 | .plc => 7 | .gmb => 3 | .qmg => 6
  | .tmp => 3 | .arb => 6 | .hbm => 4 | .wcb => 3 | .far => 3
  | .ply => if inst = 0 then 10 else 5
  | .hxp => 5 | .red => 6 | .bnd => 9
  | .pwr => 6 | .thm => 3 | .sec => 3 | .fwu => 4 | .mgt => 3

/-- A page's identity: type, die, instance number (Table 18.2). -/
structure PageInfo where
  pt   : PT
  die  : Nat
  inst : Nat
  deriving DecidableEq, Repr

/-- Whether a die is present (R2): compute dies 0-5, fabric dies 6 and 7. -/
def diePresent (v : Variant) (d : Nat) : Bool :=
  decide (d < v.computeDies) || (decide (6 ≤ d) && decide (d < 6 + v.fabricDies))

/-- Whether a Ply port is present: P0-P7 and P16-P19 on F0, P8-P15 and P20-P23 on F1 (R446). -/
def portPresent (v : Variant) (p : Nat) : Bool :=
  if p < 8 ∨ (16 ≤ p ∧ p < 20) then true
  else decide (p < 24) && decide (v.fabricDies = 2)

/-- The page at a 4 KiB slot of the register space: 16,384 slots a die (R434, R436, R437, Table 18.3); none where no
page is mapped. -/
def pageInfo (v : Variant) (page : Nat) : Option PageInfo :=
  let die := page / 16384
  let o := page % 16384
  let blk := o / 256
  let slot := o % 256
  if !(diePresent v die) then none
  else if 0x3080 ≤ o ∧ o < 0x3100 then
    let q := o - 0x3080
    if die < 6 then
      match q with
      | 0 => some ⟨.qmg, die, 0⟩
      | 1 => some ⟨.arb, die, 0⟩
      | 2 => some ⟨.hbm, die, 2 * die⟩
      | 3 => some ⟨.hbm, die, 2 * die + 1⟩
      | 4 => some ⟨.wcb, die, 0⟩
      | 5 => some ⟨.thm, die, 0⟩
      | _ => none
    else
      let f0 := die = 6
      if q = 5 then some ⟨.thm, die, 0⟩
      else if q = 10 then some ⟨.red, die, 0⟩
      else if q = 11 then some ⟨.hxp, die, die - 6⟩
      else if 16 ≤ q ∧ q < 24 then some ⟨.ply, die, (if f0 then 0 else 8) + (q - 16)⟩
      else if 24 ≤ q ∧ q < 28 then some ⟨.ply, die, (if f0 then 16 else 20) + (q - 24)⟩
      else if f0 then
        match q with
        | 0 => some ⟨.tmp, die, 0⟩
        | 1 => some ⟨.arb, die, 0⟩
        | 2 => some ⟨.plc, die, 0⟩
        | 3 => some ⟨.bnd, die, 0⟩
        | 4 => some ⟨.pwr, die, 0⟩
        | 6 => some ⟨.far, die, 0⟩
        | 7 => some ⟨.sec, die, 0⟩
        | 8 => some ⟨.fwu, die, 0⟩
        | 9 => some ⟨.mgt, die, 0⟩
        | _ => none
      else none
  else if die < 6 ∧ blk < 64 then
    match slot with
    | 0 => some ⟨.sq, die, blk⟩
    | 1 => some ⟨.mxu, die, blk⟩
    | 2 => some ⟨.vxu, die, blk⟩
    | 3 => some ⟨.scs, die, blk⟩
    | 4 => some ⟨.knt, die, blk⟩
    | 5 => some ⟨.rook, die, blk⟩
    | 6 => some ⟨.gmb, die, blk⟩
    | _ => none
  else none

/-- The page of a square: module square number and slot (R436). -/
def sqPage (msq slot : Nat) : Nat := msq / 64 * 16384 + msq % 64 * 256 + slot

abbrev sqPg (msq : Nat) : Nat := sqPage msq 0
abbrev mxuPg (msq : Nat) : Nat := sqPage msq 1
abbrev vxuPg (msq : Nat) : Nat := sqPage msq 2
abbrev scsPg (msq : Nat) : Nat := sqPage msq 3
abbrev kntPg (msq : Nat) : Nat := sqPage msq 4
abbrev rookPg (msq : Nat) : Nat := sqPage msq 5
abbrev gmbPg (msq : Nat) : Nat := sqPage msq 6

/-- A die-level page (R437). -/
def diePage (die slot : Nat) : Nat := die * 16384 + 0x3080 + slot

abbrev qmgPg (die : Nat) : Nat := diePage die 0
abbrev arbPg (die : Nat) : Nat := diePage die 1
/-- The page of stack i (R446). -/
abbrev hbmPg (stack : Nat) : Nat := diePage (stack / 2) (2 + stack % 2)
abbrev wcbPg (die : Nat) : Nat := diePage die 4
abbrev thmPg (die : Nat) : Nat := diePage die 5
abbrev tmpPg : Nat := diePage 6 0
abbrev plcPg : Nat := diePage 6 2
abbrev bndPg : Nat := diePage 6 3
abbrev pwrPg : Nat := diePage 6 4
abbrev farPg : Nat := diePage 6 6
abbrev secPg : Nat := diePage 6 7
abbrev fwuPg : Nat := diePage 6 8
abbrev mgtPg : Nat := diePage 6 9
/-- The RED page of a fabric die: 0 for F0, 1 for F1. -/
abbrev redPg (rdie : Nat) : Nat := diePage (6 + rdie) 10
/-- The page of host port HX0 or HX1. -/
abbrev hxpPg (hx : Nat) : Nat := diePage (6 + hx) 11
/-- The page of a Ply port (R446). -/
def plyPg (p : Nat) : Nat :=
  if p < 8 then diePage 6 (16 + p) else if p < 16 then diePage 7 (16 + (p - 8))
  else if p < 20 then diePage 6 (24 + (p - 16)) else diePage 7 (24 + (p - 20))
/-- The fabric registers lie in the page of P0 (Table 13.12). -/
abbrev fabPg : Nat := plyPg 0

/-! ## The register table -/

/-- The common header (Table 18.1). -/
def hdrRows (pt : PT) (inst : Nat) : List RegRow :=
  [ { off := HDR.PAGE_ID },
    { off := HDR.PAGE_VER, reset := 1 },
    { off := HDR.STATUS },
    { off := HDR.CONTROL, acc := .wo, mask := 3 },
    { off := HDR.COMMIT, acc := .wo, mask := 1 },
    { off := HDR.COMMIT_STATUS },
    { off := HDR.ERR_STATUS, acc := .w1c, mask := 2 ^ pt.errBits inst - 1 },
    { off := HDR.ERR_ENABLE, acc := .rw, reset := 2 ^ pt.errBits inst - 1, mask := 2 ^ pt.errBits inst - 1 },
    { off := HDR.ERR_FIRST },
    { off := HDR.EPOCH },
    { off := HDR.WORLD, acc := .rw, sw := true, mask := 1,
      reset := if pt = .sec ∨ pt = .fwu ∨ pt = .mgt then 1 else 0 },
    { off := HDR.BIND_JOB },
    { off := HDR.COMMIT_BEAT, wide := true, acc := .rw, mask := 0xFFFFFFFFFFFFFFFF } ]

/-- The block registers of a page. -/
def pageRows (pt : PT) (inst : Nat) : List RegRow :=
  match pt with
  | .sq => sqRows | .mxu => mxuRows | .vxu => vxuRows | .scs => scsRows | .knt => kntRows | .rook => rookRows
  | .gmb => gmbRows | .qmg => qmgRows | .arb => arbRows | .hbm => hbmRows | .wcb => wcbRows | .thm => thmRows
  | .tmp => tmpRows | .plc => plcRows | .bnd => bndRows | .pwr => pwrRows | .far => farRows | .sec => secRows
  | .fwu => fwuRows | .mgt => mgtRows | .red => redRows | .hxp => hxpRows
  | .ply => if inst = 0 then plyRows ++ fabRows else plyRows

/-- The row that covers an offset: its own, or the upper half of a 64-bit register. -/
def rowAt (off : Nat) : List RegRow → Option RegRow
  | [] => none
  | r :: rs => if r.off = off ∨ (r.wide = true ∧ r.off + 4 = off) then some r else rowAt off rs

/-- The register row at an offset of a page. -/
def pageRow (v : Variant) (page off : Nat) : Option RegRow :=
  match pageInfo v page with
  | none => none
  | some i => if off < 0x100 then rowAt off (hdrRows i.pt i.inst) else rowAt off (pageRows i.pt i.inst)

/-- The reset value of a register (R8), with the variant's figures where they differ (R394). -/
def regReset (v : Variant) (page off : Nat) : Nat :=
  match pageRow v page off with
  | none => 0
  | some r => if page = pwrPg ∧ off = PWR.PEAK_LIMIT then v.peakLimit else r.reset

/-- The key of a register: page, window, offset of its lower word. -/
def regKey (page win off : Nat) : Nat := (page * 2 ^ 20 + win) * 4096 + off

/-- The live value of a register. -/
def State.reg (s : State) (page off : Nat) (win : Nat := 0) : Nat :=
  match SMap.find (regKey page win off) s.regs.live with
  | some v => v.toNat
  | none => regReset s.variant page off

/-- Set the live value of a register. -/
def State.setReg (s : State) (page off v : Nat) (win : Nat := 0) : State :=
  let k := regKey page win off
  let live := if v = regReset s.variant page off then SMap.del k s.regs.live
    else SMap.put k (BitVec.ofNat 64 v) s.regs.live
  { s with regs := { s.regs with live := live } }

/-- The shadow value of a CM register: what was written, else the live value (R9, R441). -/
def State.shadow (s : State) (page off : Nat) (win : Nat := 0) : Nat :=
  match SMap.find (regKey page win off) s.regs.shadow with
  | some v => v.toNat
  | none => s.reg page off win

/-- Write a shadow: it holds every bit written (R10). -/
def State.setShadow (s : State) (page off v : Nat) (win : Nat := 0) : State :=
  { s with regs := { s.regs with shadow := SMap.put (regKey page win off) (BitVec.ofNat 64 v) s.regs.shadow } }

/-- Forget a pending shadow: it reads as the live value again. -/
def State.dropShadow (s : State) (page off : Nat) (win : Nat := 0) : State :=
  { s with regs := { s.regs with shadow := SMap.del (regKey page win off) s.regs.shadow } }

/-- The window a register of a page now shows: the value of its select register (0 where it has none). -/
def State.winOf (s : State) (page : Nat) (r : RegRow) : Nat :=
  if r.sel = 0 then 0 else s.reg page r.sel

/-- Whether a page's counters advance: COUNT_EN, [1] of its control register (R65); the TMP page has none. -/
def State.countEn (s : State) (page : Nat) : Bool :=
  match pageInfo s.variant page with
  | none => false
  | some i => if i.pt = .tmp then true else bit (s.reg page (if i.pt = .sq then 0x108 else 0x104)) 1

/-- Advance an event counter by n: it saturates at 0xFFFF_FFFF (R65). -/
def State.count (s : State) (page off n : Nat) : State :=
  if n = 0 ∨ s.countEn page = false then s
  else s.setReg page off (min (s.reg page off + n) 0xFFFFFFFF)

/-- Advance a 64-bit counter by n: it wraps at 2^64 (R65). -/
def State.count64 (s : State) (page off n : Nat) : State :=
  if n = 0 ∨ s.countEn page = false then s
  else s.setReg page off ((s.reg page off + n) % 2 ^ 64)

/-- Wait for cycles that the model does not time: the counter advances by a free value (log entry 6). -/
def State.countFree (s : State) (pg off : Nat) : State :=
  let (n, s) := s.draw
  s.count64 pg off n

/-- An event sets its ERR_STATUS bit, the management firmware is told where ERR_ENABLE enables it, and ERR_FIRST captures it
while it holds no capture (R439, R440). -/
def State.err (s : State) (page b info : Nat) : State :=
  let s := s.setReg page HDR.ERR_STATUS (s.reg page HDR.ERR_STATUS ||| 2 ^ b)
  let s : State := if bit (s.reg page HDR.ERR_ENABLE) b then { s with told := s.told ++ [(page, b)] } else s
  if bit (s.reg page HDR.ERR_FIRST) 31 then s
  else s.setReg page HDR.ERR_FIRST (2 ^ 31 + b * 2 ^ 26 + info % 2 ^ 26)

/-- Where the block's chapter names an address, INFO holds its bits [45:20] (R440). -/
def addrInfo (a : Nat) : Nat := bits a 45 20

/-- Whether a page is secure to the requester's world: NS 0 and a non-secure access (R427). -/
def State.pageClosed (s : State) (page : Nat) (secure : Bool) : Bool :=
  !secure && !(bit (s.reg page HDR.WORLD) 0)

/-- Log a world violation in the SEC page: source 0 host, 1 command, 2 board-level; bit 63 marks a register page
(R9, R290, R431). -/
def State.violation (s : State) (isReg : Bool) (src addr : Nat) : State :=
  let s := s.count secPg SEC.WV_COUNT 1
  let s := s.setReg secPg SEC.WV_LAST (b2n isReg * 2 ^ 63 + src * 2 ^ 54 + addr % 2 ^ 46)
  s.err secPg SEC.E_WORLD_VIOLATION (addrInfo addr)

/-- The module-local address of a page offset (R434). -/
def pageAddr (page off : Nat) : Nat := 0x3F0000000000 + page * 4096 + off

/-- Append to the record of what leaves the module. -/
def State.emit (s : State) (o : Out) : State := { s with outbox := s.outbox ++ [o] }

/-! ## Bindings and units (R365, R373) -/

/-- The job a resource is bound to: KIND and number of Table 15.1. -/
def State.jobOf (s : State) (kind n : Nat) : Option Nat := SMap.find (kind * 2 ^ 24 + n) s.bnd.bound

/-- Whether a resource is bound to a job. -/
def State.boundTo (s : State) (kind n job : Nat) : Bool := s.jobOf kind n == some job

/-- A unit's epoch: squares 0-383, stacks 384 + i (R373). -/
def State.unitEpoch (s : State) (u : Nat) : Nat := SMap.get 0 u s.bnd.epoch

/-- Whether a unit is STALE. -/
def State.isStale (s : State) (u : Nat) : Bool := s.bnd.stale.contains u

/-- Whether a square exists on this variant (R2). -/
def State.squarePresent (s : State) (msq : Nat) : Bool := decide (msq < 64 * s.variant.computeDies)

end Sys2Proof.Machine
end

