-- ==== Sys2Proof/Machine/Guard.lean ====
section
/-! DEFINITION. The Guard-144 code over a 128-bit word (R273 to R275). -/

namespace Sys2Proof.Machine

/-- Rotate a byte left. -/
def rotl8 (x b : Nat) : Nat := (x * 2 ^ (b % 8) ||| x / 2 ^ (8 - b % 8)) % 256

/-- How many of the low n bits are set. -/
def popcount : Nat → Nat → Nat
  | 0, _ => 0
  | n + 1, x => x % 2 + popcount n (x / 2)

/-- The symbol multiplier gt(i) of R273. -/
def guardTab (i : Nat) : Nat := ((i + 1) * 2 ||| popcount 8 (i + 1) % 2) % 256

/-- XOR over a range of symbol contributions. -/
def xorFold (f : Nat → Nat) : Nat → Nat
  | 0 => 0
  | n + 1 => xorFold f n ^^^ f n

/-- Check symbol c0 of a 128-bit word. -/
def guardC0 (w : Nat) : Nat := xorFold (fun i => bits w (8 * i + 7) (8 * i)) 16

/-- Check symbol c1 of a 128-bit word. -/
def guardC1 (w : Nat) : Nat :=
  xorFold (fun n => if w.testBit n then rotl8 (guardTab (n / 8)) (n % 8) else 0) 128

/-- Outcome of decoding (Table 12.2). -/
inductive GuardOut where
  | good
  /-- an error in the check symbols was corrected -/
  | fixCheck
  /-- an error in data bit n was corrected -/
  | fixData (n : Nat)
  | bad
  deriving DecidableEq, Repr

/-- Index of the one set bit of a byte, if exactly one is set. -/
def oneBit (x : Nat) : Option Nat := (List.range 8).find? fun b => decide (x = 2 ^ b)

/-- Decode a syndrome s0 + 256 × s1 (Table 12.2). -/
def guardDecode (syn : Nat) : GuardOut :=
  let s0 := syn % 256
  let s1 := syn / 256
  if s0 = 0 ∧ s1 = 0 then .good
  else match oneBit s0, oneBit s1 with
    | none, some _ => if s0 = 0 then .fixCheck else .bad
    | some b, _ =>
      if s1 = 0 then .fixCheck
      else match (List.range 16).find? fun i => decide (rotl8 (guardTab i) b = s1) with
        | some i => .fixData (8 * i + b)
        | none => .bad
    | none, none => .bad

/-- The syndrome the poison marker leaves (R275). -/
def poisonSyn : Nat := 0x03

/-- A word read through the code: corrected data, whether a correction was made, whether it is uncorrectable. -/
def guardRead (w syn : Nat) : Nat × Bool × Bool :=
  match guardDecode syn with
  | .good => (w, false, false)
  | .fixCheck => (w, true, false)
  | .fixData n => (w ^^^ 2 ^ n, true, false)
  | .bad => (w, false, true)

end Sys2Proof.Machine
end

