-- ==== Sys2Proof/Machine/Num.lean ====
section
/-! DEFINITION. Number formats, roundings, conversions and block scales (02_number_formats.md). -/

namespace Sys2Proof

/-- The element formats of Table 2.1 (R25). -/
inductive Fmt where
  | e4m3 | e5m2 | fp16 | bf16 | fp32 | km48
  deriving DecidableEq, Repr

/-- Exponent bits (Table 2.1). -/
def Fmt.ebits : Fmt → Nat
  | .e4m3 => 4 | .e5m2 => 5 | .fp16 => 5 | .bf16 => 8 | .fp32 => 8 | .km48 => 8

/-- Fraction bits (Table 2.1). -/
def Fmt.fbits : Fmt → Nat
  | .e4m3 => 3 | .e5m2 => 2 | .fp16 => 10 | .bf16 => 7 | .fp32 => 23 | .km48 => 39

/-- Exponent bias (Table 2.1). -/
def Fmt.bias : Fmt → Nat
  | .e4m3 => 7 | .e5m2 => 15 | .fp16 => 15 | .bf16 => 127 | .fp32 => 127 | .km48 => 127

/-- Bytes of an element in memory (R28, Table 2.1). -/
def Fmt.bytes : Fmt → Nat
  | .e4m3 => 1 | .e5m2 => 1 | .fp16 => 2 | .bf16 => 2 | .fp32 => 4 | .km48 => 6

/-- The code of the largest finite magnitude (Table 2.2). -/
def Fmt.maxCode : Fmt → Nat
  | .e4m3 => 0x7E | .e5m2 => 0x7B | .fp16 => 0x7BFF | .bf16 => 0x7F7F | .fp32 => 0x7F7FFFFF | .km48 => 0x7F7FFFFFFFFF

/-- The canonical NaN (Table 2.2). -/
def Fmt.nanCode : Fmt → Nat
  | .e4m3 => 0x7F | .e5m2 => 0x7E | .fp16 => 0x7E00 | .bf16 => 0x7FC0 | .fp32 => 0x7FC00000 | .km48 => 0x7FC000000000

/-- The code of +infinity (Table 2.2); E4M3 has none and its NaN stands in its place (R33). -/
def Fmt.infCode : Fmt → Nat
  | .e4m3 => 0x7F | .e5m2 => 0x7C | .fp16 => 0x7C00 | .bf16 => 0x7F80 | .fp32 => 0x7F800000 | .km48 => 0x7F8000000000

/-- The weight of the sign bit. -/
def Fmt.signBit (f : Fmt) : Nat := 2 ^ (f.ebits + f.fbits)

/-- A value: NaN, an infinity, or the exact number (−1)^neg × mag × 2^exp (R26). -/
inductive Val where
  | nan
  | inf (neg : Bool)
  | num (neg : Bool) (mag : Nat) (exp : Int)
  deriving DecidableEq, Repr

/-- The value a code stands for (R26, R27). -/
def Fmt.decode (f : Fmt) (code : Nat) : Val :=
  let neg := code / f.signBit % 2 == 1
  let m := code % f.signBit
  let e := m / 2 ^ f.fbits
  let frac := m % 2 ^ f.fbits
  if f = .e4m3 then
    if m = 0x7F then .nan
    else if e = 0 then .num neg frac (1 - 7 - 3) else .num neg (8 + frac) ((e : Int) - 7 - 3)
  else if e = 2 ^ f.ebits - 1 then
    if frac = 0 then .inf neg else .nan
  else if e = 0 then .num neg frac (1 - (f.bias : Int) - f.fbits)
  else .num neg (2 ^ f.fbits + frac) ((e : Int) - f.bias - f.fbits)

/-- `mag × 2^-s` rounded to nearest, ties to even (R31). -/
def rneShift (mag s : Nat) : Nat :=
  let q := mag / 2 ^ s
  let r := mag % 2 ^ s
  if 2 * r > 2 ^ s ∨ (2 * r = 2 ^ s ∧ q % 2 = 1) then q + 1 else q

/-- Scale a magnitude by a power of two, rounding to nearest even when bits fall off. -/
def rneScale (mag : Nat) (sh : Int) : Nat :=
  if sh ≥ 0 then mag * 2 ^ sh.toNat else rneShift mag (-sh).toNat

/-- The magnitude code nearest to `mag × 2^exp`, as though the exponent had no upper limit (R31). -/
def Fmt.roundMag (f : Fmt) (mag : Nat) (exp : Int) : Nat :=
  if mag = 0 then 0 else
  let e : Int := (Nat.log2 mag : Int) + exp
  let emin : Int := 1 - (f.bias : Int)
  let eq : Int := if e < emin then emin else e
  let m := rneScale mag (exp - (eq - f.fbits))
  if e < emin then m else (e - emin + 1).toNat * 2 ^ f.fbits + m - 2 ^ f.fbits

/-- A finite magnitude code with its sign, clamped or made special when it overflows (R32). -/
def Fmt.finish (f : Fmt) (sat neg : Bool) (m : Nat) : Nat :=
  let sg := if neg then f.signBit else 0
  if m ≤ f.maxCode then sg + m
  else if sat then sg + f.maxCode
  else if f = .e4m3 then f.nanCode else sg + f.infCode

/-- Convert a value to a format, rounding once to nearest even (R31 to R33). -/
def Fmt.encode (f : Fmt) (sat : Bool) (v : Val) : Nat :=
  match v with
  | .nan => f.nanCode
  | .inf neg => if f = .e4m3 then f.nanCode else (if neg then f.signBit else 0) + f.infCode
  | .num neg mag exp => f.finish sat neg (f.roundMag mag exp)

/-- The kind of a written code for Table 2.4: 0 neither NaN nor infinity, 1 NaN, 2 +infinity, 3 −infinity (R40). -/
def Fmt.kind (f : Fmt) (code : Nat) : Nat :=
  match f.decode code with
  | .nan => 1
  | .inf false => 2
  | .inf true => 3
  | .num _ _ _ => 0

/-! ## Exact arithmetic on values -/

/-- Whether a value is zero of either sign. -/
def Val.isZero : Val → Bool
  | .num _ m _ => m == 0
  | _ => false

/-- The signed integer a number is in units of 2^u, for u at or below its exponent. -/
def signedAt (neg : Bool) (mag : Nat) (exp u : Int) : Int :=
  let m : Int := (mag : Int) * 2 ^ (exp - u).toNat
  if neg then -m else m

/-- The negation of a value. -/
def Val.neg : Val → Val
  | .nan => .nan
  | .inf n => .inf (!n)
  | .num n m e => .num (!n) m e

/-- The magnitude of a value. -/
def Val.abs : Val → Val
  | .nan => .nan
  | .inf _ => .inf false
  | .num _ m e => .num false m e

/-- The value of an integer times 2^e, +0 for zero. -/
def Val.ofInt (m : Int) (e : Int) : Val := .num (m < 0) m.natAbs e

/-- Exact sum; the sum of opposite infinities is NaN, an exact zero of unlike signs is +0 (IEEE 754). -/
def Val.add : Val → Val → Val
  | .nan, _ => .nan
  | _, .nan => .nan
  | .inf a, .inf b => if a = b then .inf a else .nan
  | .inf a, _ => .inf a
  | _, .inf b => .inf b
  | .num na ma ea, .num nb mb eb =>
    let u := min ea eb
    let t := signedAt na ma ea u + signedAt nb mb eb u
    if t = 0 then .num (na && nb) 0 u else .ofInt t u

/-- Exact product; zero times infinity is NaN (IEEE 754). -/
def Val.mul : Val → Val → Val
  | .nan, _ => .nan
  | _, .nan => .nan
  | .inf a, .inf b => .inf (a != b)
  | .inf a, .num nb mb _ => if mb = 0 then .nan else .inf (a != nb)
  | .num na ma _, .inf b => if ma = 0 then .nan else .inf (na != b)
  | .num na ma ea, .num nb mb eb => .num (na != nb) (ma * mb) (ea + eb)

/-- Scale by a power of two, exactly. -/
def Val.scale (v : Val) (k : Int) : Val :=
  match v with
  | .num n m e => .num n m (e + k)
  | w => w

/-- Whether a magnitude is at most another, both times powers of two. -/
def magLe (ma : Nat) (ea : Int) (mb : Nat) (eb : Int) : Bool :=
  let u := min ea eb
  decide (ma * 2 ^ (ea - u).toNat ≤ mb * 2 ^ (eb - u).toNat)

/-- `a < b` on values; false when either is NaN; −0 equals +0 (R26). -/
def Val.lt : Val → Val → Bool
  | .nan, _ => false
  | _, .nan => false
  | .inf a, .inf b => a && !b
  | .inf a, .num _ _ _ => a
  | .num _ _ _, .inf b => !b
  | .num na ma ea, .num nb mb eb =>
    let u := min ea eb
    decide (signedAt na ma ea u < signedAt nb mb eb u)

/-- `a ≤ b` on values; false when either is NaN. -/
def Val.le (a b : Val) : Bool :=
  match a, b with
  | .nan, _ => false
  | _, .nan => false
  | _, _ => !(Val.lt b a)

/-- Quotient with enough bits that one later rounding to any format is exact: the lowest bit records whether a
remainder is left. A finite non-zero divided by zero is infinity, zero by zero and infinity by infinity NaN
(IEEE 754). -/
def Val.div : Val → Val → Val
  | .nan, _ => .nan
  | _, .nan => .nan
  | .inf _, .inf _ => .nan
  | .inf a, .num nb _ _ => .inf (a != nb)
  | .num na _ _, .inf b => .num (na != b) 0 0
  | .num na ma ea, .num nb mb eb =>
    if mb = 0 then (if ma = 0 then .nan else .inf (na != nb))
    else
      let k := Nat.log2 mb + 64
      let q := ma * 2 ^ k / mb
      let r := ma * 2 ^ k % mb
      .num (na != nb) (2 * q + (if r = 0 then 0 else 1)) (ea - eb - k - 1)

/-- Integer square root by bits, from bit k down. -/
def isqrtFrom (n : Nat) : Nat → Nat → Nat
  | 0, acc => if (acc + 1) * (acc + 1) ≤ n then acc + 1 else acc
  | k + 1, acc =>
    let t := acc + 2 ^ (k + 1)
    isqrtFrom n k (if t * t ≤ n then t else acc)

/-- The integer square root. -/
def isqrt (n : Nat) : Nat := isqrtFrom n (Nat.log2 n / 2 + 1) 0

/-- Square root with a remainder bit, as `Val.div`; of a negative number NaN, of −0 −0 (IEEE 754). -/
def Val.sqrt : Val → Val
  | .nan => .nan
  | .inf false => .inf false
  | .inf true => .nan
  | .num neg m e =>
    if m = 0 then .num neg 0 e
    else if neg then .nan
    else
      let odd : Nat := (e % 2).toNat
      let n := m * 2 ^ (128 + odd)
      let r := isqrt n
      .num false (2 * r + (if r * r = n then 0 else 1)) ((e - odd - 128) / 2 - 1)

/-- FP32 rounding of an exact result, overflow to infinity. -/
def fp32Of (v : Val) : Val := Fmt.fp32.decode (Fmt.fp32.encode false v)

/-! ## Block scales (R29, R35 to R38) -/

/-- Multiply a value by an E8M0 scale; code 0xFF reads as NaN (R29). -/
def applyScale (v : Val) (code : Nat) : Val :=
  if code = 0xFF then .nan else v.scale ((code : Int) - 127)

/-- The exponent of two of the largest finite element value 7 × 2^k: 448 or 57,344. -/
def Fmt.maxfinExp : Fmt → Int
  | .e4m3 => 6
  | _ => 13

/-- The scale code of R35 for amax = m × 2^x, m > 0. -/
def chooseScale (f : Fmt) (m : Nat) (x : Int) : Nat :=
  let l := Nat.log2 m
  let t : Int := if 4 * m ≤ 7 * 2 ^ l then (l : Int) - 2 else (l : Int) - 1
  let e := t + x - f.maxfinExp
  let e := if e < -127 then -127 else if e > 127 then 127 else e
  (e + 127).toNat

/-- The largest magnitude of a list of values, as (mag, exp); none when a NaN or an infinity is among them. -/
def amaxOf : List Val → Option (Nat × Int)
  | [] => some (0, 0)
  | v :: vs =>
    match v, amaxOf vs with
    | .num _ m e, some (m2, e2) => if magLe m e m2 e2 then some (m2, e2) else some (m, e)
    | _, _ => none

/-- A written block: its scale code, its element codes (padding included), whether it is a zero block, and how many
elements vanished. -/
structure BlockOut where
  scale    : Nat
  codes    : List Nat
  zero     : Bool
  vanished : Nat
  deriving DecidableEq, Repr

/-- Whether a conversion of `v` to `code` vanished: non-zero and finite in, ±0 out (R37). -/
def vanishes (f : Fmt) (v : Val) (code : Nat) : Bool :=
  match v with
  | .num _ m _ => m != 0 && code % f.signBit == 0
  | _ => false

/-- Pad a list with a value up to n items. -/
def padTo {α : Type} (n : Nat) (z : α) (l : List α) : List α := l ++ List.replicate (n - l.length) z

/-- Convert one block of at most 32 values to MXFP8 (R35 to R38). -/
def blockConvert (f : Fmt) (sat : Bool) (vs : List Val) : BlockOut :=
  match amaxOf vs with
  | none => { scale := 0xFF, codes := List.replicate 32 f.nanCode, zero := false, vanished := 0 }
  | some (m, x) =>
    if m = 0 then
      { scale := 0, codes := padTo 32 0 (vs.map (f.encode sat)), zero := true, vanished := 0 }
    else
      let k := chooseScale f m x
      let cs := vs.map fun v => f.encode sat (v.scale (127 - (k : Int)))
      { scale := k, codes := padTo 32 0 cs, zero := false,
        vanished := ((vs.zip cs).filter fun p => vanishes f p.1 p.2).length }

/-- Cut a list into pieces of n items, with fuel. -/
def chunksFuel {α : Type} (n : Nat) : Nat → List α → List (List α)
  | 0, _ => []
  | k + 1, l => if l.isEmpty then [] else l.take n :: chunksFuel n k (l.drop n)

/-- Cut a list into pieces of n items. -/
def chunks {α : Type} (n : Nat) (l : List α) : List (List α) := chunksFuel n l.length l

/-- Convert one row (the innermost dimension) to MXFP8 blocks (R30). -/
def rowConvert (f : Fmt) (sat : Bool) (vs : List Val) : List BlockOut := (chunks 32 vs).map (blockConvert f sat)

/-- The first-special value of Table 2.4 from the kinds of the elements in row-major order (R40). -/
def nanPosFrom (i : Nat) : List Nat → Nat
  | [] => 0
  | k :: ks => if k = 0 then nanPosFrom (i + 1) ks else k * 2 ^ 30 + i % 2 ^ 30

/-- The first-special value of a tile (R40). -/
def nanPosOf (kinds : List Nat) : Nat := nanPosFrom 0 kinds

end Sys2Proof
end

