-- ==== Sys2Proof/Machine/Scs.lean ====
section
/-! DEFINITION. The Scoresheet: slots, exact addition, promotion, conflict queues and clears
(04_scoresheet_and_epilogue.md R67 to R85). -/

namespace Sys2Proof.Machine

/-! ## Exact accumulator values -/

/-- The exact accumulator value of a number: a multiple of 2^-312 (R67). -/
def Ea.ofVal : Val → Ea
  | .nan => { tag := .nan }
  | .inf true => { tag := .ninf }
  | .inf false => { tag := .pinf }
  | .num n m e => { v := let t : Int := ((m * 2 ^ (e + 312).toNat : Nat) : Int) / 2 ^ (-(e + 312)).toNat; if n then -t else t }

/-- The value of an exact accumulator for readout (R88). -/
def Ea.toVal (a : Ea) : Val :=
  match a.tag with
  | .nan => .nan
  | .pinf => .inf false
  | .ninf => .inf true
  | .none => Val.ofInt a.v (-312)

/-- Tags combine: NaN wins, and +infinity with −infinity becomes NaN (R68). -/
def EaTag.join : EaTag → EaTag → EaTag
  | .none, t => t
  | t, .none => t
  | .pinf, .pinf => .pinf
  | .ninf, .ninf => .ninf
  | _, _ => .nan

/-! ## Slot geometry (R69, R70) -/

/-- Bank of a slot (R69). -/
def scsBank (a : Nat) : Nat := (a ^^^ a / 16 ^^^ a / 256 ^^^ a / 4096) % 16

/-- The slot in row r of bank b: the inverse of R69. -/
def scsSlotAt (b r : Nat) : Nat := r * 16 + (b ^^^ r ^^^ r / 16 ^^^ r / 256) % 16

/-- Promotion groups per bank: live POOL_GROUPS (R70). -/
def State.poolGroups (s : State) (msq : Nat) : Nat := s.reg (scsPg msq) SCS.SCS_CONFIG % 1024

/-- The number of slots commands may name (R70). -/
def State.slotLimit (s : State) (msq : Nat) : Nat := 16 * (4096 - 4 * s.poolGroups msq)

/-- The q-th slot of a pool group (R70). -/
def State.poolSlot (s : State) (msq bank g q : Nat) : Nat :=
  scsSlotAt bank (4096 - 4 * s.poolGroups msq + 4 * g + q)

/-- A square's Scoresheet. -/
def State.sheet (s : State) (msq : Nat) : ScsState := SMap.get {} msq s.scs

/-- Replace a square's Scoresheet. -/
def State.setSheet (s : State) (msq : Nat) (x : ScsState) : State := { s with scs := SMap.set {} msq x s.scs }

/-! ## Slot images (R71, R72) -/

/-- Two's complement of an integer in n bits. -/
def twos (n : Nat) (i : Int) : Nat := (i % (2 ^ n : Int)).toNat

/-- The integer a two's-complement field of n bits holds. -/
def ofTwos (n x : Nat) : Int := if 2 * x ≥ 2 ^ n then (x : Int) - 2 ^ n else x

/-- The tag bits [124:122] of a slot (Table 4.1). -/
def tagBits : EaTag → Nat
  | .none => 0 | .nan => 4 | .pinf => 2 | .ninf => 1

/-- The tag a slot's bits [124:122] hold. -/
def tagOf (b : Nat) : EaTag :=
  if b.testBit 2 then .nan
  else if b.testBit 1 && b.testBit 0 then .nan
  else if b.testBit 1 then .pinf
  else if b.testBit 0 then .ninf
  else .none

/-- A narrow slot (Table 4.1): window × 2^base. -/
def narrowImage (tag : EaTag) (base : Int) (window : Int) : Nat :=
  tagBits tag * 2 ^ 122 + twos 10 base * 2 ^ 112 + twos 112 window

/-- The home slot of a wide entry (Table 4.2). -/
def wideHome (tag : EaTag) (g : Nat) (v : Int) : Nat :=
  2 ^ 125 + tagBits tag * 2 ^ 122 + g * 2 ^ 112 + twos 624 v % 2 ^ 112

/-- Pool slot q of a wide entry (Table 4.2). -/
def widePool (q : Nat) (v : Int) : Nat := twos 624 v / 2 ^ (112 + 128 * q) % 2 ^ 128

/-- STATE of a slot image. -/
def slotState (w : Nat) : Nat := w / 2 ^ 125 % 8

/-- The exact value a narrow image holds. -/
def narrowValue (w : Nat) : Int :=
  ofTwos 112 (w % 2 ^ 112) * 2 ^ (ofTwos 10 (w / 2 ^ 112 % 1024) + 312).toNat

/-! ## Slot storage under Guard-144 (R84) -/

/-- Store a slot's word with good check bits. -/
def ScsState.put (x : ScsState) (slot w : Nat) : ScsState :=
  { x with slots := SMap.set 0 slot w x.slots, ecc := SMap.del slot x.ecc }

/-- Read one slot under Guard-144: its data, and whether it is uncorrectable; a correction is rewritten and counted
(R84). -/
def State.slotRead (s : State) (msq slot : Nat) : State × Nat × Bool :=
  let x := s.sheet msq
  let w := SMap.get 0 slot x.slots
  match guardRead w (SMap.get 0 slot x.ecc) with
  | (w', true, _) => ((s.setSheet msq (x.put slot w')).count (scsPg msq) SCS.CE_CORRECTED 1, w', false)
  | (w', false, b) => (s, w', b)

/-- Poison an entry: its home slot is rewritten with STATE 0b111 (R84). DESIGN CHOICE: a wide one keeps its pool group until it is
cleared (log entry 81). -/
def State.slotPoison (s : State) (msq slot : Nat) : State :=
  let x := s.sheet msq
  let w := SMap.get 0 slot x.slots
  (s.setSheet msq (x.put slot (7 * 2 ^ 125 + w % 2 ^ 125))).err (scsPg msq) SCS.E_SLOT_UE slot

/-- Read the pool slots of a group, lowest first, as one number; true when any is uncorrectable. -/
def State.poolRead (s : State) (msq bank g : Nat) : Nat → State × Nat × Bool
  | 0 => (s, 0, false)
  | q + 1 =>
    let (s, acc, u) := s.poolRead msq bank g q
    let (s, w, u') := s.slotRead msq (s.poolSlot msq bank g q)
    (s, acc + w * 2 ^ (112 + 128 * q), u || u')

/-- Read the entry whose home is `slot` (R84): an uncorrectable slot of it poisons it. -/
def State.entryRead (s : State) (msq slot : Nat) : State × Entry :=
  let (s, w, u) := s.slotRead msq slot
  if u then (s.slotPoison msq slot, .poisoned)
  else if slotState w = 0 then
    (s, .narrow (tagOf (w / 2 ^ 122 % 8)) (ofTwos 10 (w / 2 ^ 112 % 1024)) (narrowValue w))
  else if slotState w = 1 then
    let g := w / 2 ^ 112 % 512
    let (s, hi, u) := s.poolRead msq (scsBank slot) g 4
    if u then (s.slotPoison msq slot, .poisoned)
    else (s, .wide (tagOf (w / 2 ^ 122 % 8)) g (ofTwos 624 (w % 2 ^ 112 + hi)))
  else (s, .poisoned)

/-- The value an entry reads as: NaN when poisoned (R84). -/
def Entry.ea : Entry → Ea
  | .narrow t _ v => { tag := t, v := v }
  | .wide t _ v => { tag := t, v := v }
  | .poisoned => { tag := .nan }

/-- Write a narrow image into a home slot. -/
def State.writeNarrow (s : State) (msq slot : Nat) (tag : EaTag) (base window : Int) : State :=
  s.setSheet msq ((s.sheet msq).put slot (narrowImage tag base window))

/-- Write a wide entry's home and pool slots. -/
def State.writeWide (s : State) (msq slot g : Nat) (tag : EaTag) (v : Int) : State :=
  let b := scsBank slot
  let x := (s.sheet msq).put slot (wideHome tag g v)
  let x := (List.range 4).foldl (fun x q => x.put (s.poolSlot msq b g q) (widePool q v)) x
  s.setSheet msq x

/-- Release the group an entry holds, if any; DEMOTIONS counts it (R81). -/
def State.releaseGroup (s : State) (msq slot : Nat) : State :=
  let x := s.sheet msq
  if x.groups.any (fun p => p.2 == slot) then
    (s.setSheet msq { x with groups := x.groups.filter (fun p => p.2 != slot) }).count (scsPg msq) SCS.DEMOTIONS 1
  else s

/-- Set an entry to narrow zero with BASE 0 (R81, R82); a poisoned state ends (R84). -/
def State.scsZero (s : State) (msq slot : Nat) : State :=
  (s.releaseGroup msq slot).writeNarrow msq slot .none 0 0

/-- Every slot of the square becomes narrow zero and every group free; queued updates are lost with the slots
(R83). -/
def State.scsReset (s : State) (msq : Nat) : State := { s with scs := SMap.del msq s.scs }

/-- Groups in use in a bank. -/
def ScsState.wideIn (x : ScsState) (bank : Nat) : Nat :=
  (x.groups.filter fun p => p.1 / 512 == bank).length

/-- The lowest-numbered free group of a bank (R75). -/
def State.freeGroup (s : State) (msq bank : Nat) : Option Nat :=
  (List.range (s.poolGroups msq)).find? fun g => (SMap.find (bank * 512 + g) (s.sheet msq).groups).isNone

/-- Raise BANK_WIDE_PEAK to the present occupancy of a bank (R93). -/
def State.widePeak (s : State) (msq bank : Nat) : State :=
  s.setReg (scsPg msq) SCS.BANK_WIDE_PEAK
    (max (s.reg (scsPg msq) SCS.BANK_WIDE_PEAK) ((s.sheet msq).wideIn bank))

/-! ## Adding into an entry (R68, R74, R75) -/

/-- Weight exponent, above 2^-312, of the lowest 1 bit of a positive number, by trial from bit i up. -/
def lowBitFrom (n : Nat) : Nat → Nat → Nat
  | 0, i => i
  | k + 1, i => if n.testBit i then i else lowBitFrom n k (i + 1)

/-- The lowest 1 bit of a positive number. -/
def lowBit (n : Nat) : Nat := lowBitFrom n (Nat.log2 n + 1) 0

/-- What an addition into a narrow entry asks for (R74). -/
inductive AddOut where
  | keep (base window : Int)
  | tag (t : EaTag)
  | promote
  deriving DecidableEq, Repr

/-- The decision of R74 for an exact non-zero or zero result r in units of 2^-312 at base b. -/
def addDecide (b r : Int) : AddOut :=
  if r = 0 then .keep b 0
  else
    let n := r.natAbs
    let h : Int := (Nat.log2 n : Int) - 312
    let l : Int := (lowBit n : Int) - 312
    if h ≥ 311 then .tag (if r < 0 then .ninf else .pinf)
    else if l ≥ b ∧ h ≤ b + 110 then .keep b (r / 2 ^ (b + 312).toNat)
    else if h - l ≤ 110 then
      let nb := max (-312) (min 200 (min l (h - 88)))
      .keep nb (r / 2 ^ (nb + 312).toNat)
    else .promote

/-- Set an entry's tag by overflow: counted and flagged (R68, R95). -/
def State.overflowTag (s : State) (msq q : Nat) : State :=
  (s.count (scsPg msq) SCS.OVERFLOW_TAGS 1).err (scsPg msq) SCS.E_OVERFLOW q

/-- Add one addend into an entry; false when it needs a pool group and none is free: then the entry is unchanged
(R74, R75, R80). -/
def State.scsAbsorb (s : State) (msq slot : Nat) (a : Ea) (q : Nat) : State × Bool :=
  let (s, e) := s.entryRead msq slot
  let pg := scsPg msq
  let done (s : State) : State × Bool := (s.count64 pg SCS.UPDATES_ABSORBED 1, true)
  match e with
  | .poisoned => ((s.count pg SCS.POISON_DROPS 1), true)
  | .narrow t b v =>
    if a.tag ≠ .none then
      done (s.writeNarrow msq slot (t.join a.tag) b (v / 2 ^ (b + 312).toNat))
    else if t ≠ .none ∨ a.v = 0 then done s
    else match addDecide b (v + a.v) with
      | .keep nb w => done (s.writeNarrow msq slot .none nb w)
      | .tag nt => done ((s.writeNarrow msq slot nt b (v / 2 ^ (b + 312).toNat)).overflowTag msq q)
      | .promote =>
        let bank := scsBank slot
        match s.freeGroup msq bank with
        | none => (s, false)
        | some g =>
          let x := s.sheet msq
          let s := s.setSheet msq { x with groups := SMap.put (bank * 512 + g) slot x.groups }
          let s := s.writeWide msq slot g .none (v + a.v)
          done ((s.count pg SCS.PROMOTIONS 1).widePeak msq bank)
  | .wide t g v =>
    if a.tag ≠ .none then done (s.writeWide msq slot g (t.join a.tag) v)
    else if t ≠ .none then done s
    else
      let r := v + a.v
      if r.natAbs ≥ 2 ^ 623 then
        done ((s.writeWide msq slot g (if r < 0 then .ninf else .pinf) v).overflowTag msq q)
      else done (s.writeWide msq slot g .none r)

/-- The base of an accumulator's window: 0 where the value fits there, else the base that R74 re-bases to (R54 takes the
accumulator's own base, whose choice R52 leaves open; log entry 13). -/
def accBase (v : Int) : Int :=
  let h : Int := (Nat.log2 v.natAbs : Int) - 312
  let l : Int := (lowBit v.natAbs : Int) - 312
  if v = 0 ∨ (l ≥ 0 ∧ h ≤ 110) then 0 else max (-312) (min 200 (min l (h - 88)))

/-- An ACC_SET flush replaces an entry: a narrow entry with the accumulator's window, base and tags (R54, R81). The flush
counts as an addend absorbed (log entry 13). -/
def State.scsReplace (s : State) (msq slot : Nat) (a : Ea) : State :=
  let b := accBase a.v
  ((s.releaseGroup msq slot).writeNarrow msq slot a.tag b (a.v / 2 ^ (b + 312).toNat)).count64 (scsPg msq)
    SCS.UPDATES_ABSORBED 1

/-! ## Conflict queues (R79, R80) -/

/-- Whether an update waits in a queue for a slot. -/
def State.slotQueued (s : State) (msq slot : Nat) : Bool := (s.sheet msq).queue.any fun u => u.slot == slot

/-- Updates of a bank that lie in its conflict queue or wait behind it. -/
def ScsState.bankQueue (x : ScsState) (bank : Nat) : List ScsUpd :=
  x.queue.filter fun u => scsBank u.slot == bank

/-- Enter an update at the tail of its bank's queue: it counts when it takes one of the 32 entries; beyond them its
source is held, for bank-cycles that QUEUE_FULL_CYCLES counts (R79). -/
def State.scsEnqueue (s : State) (msq : Nat) (u : ScsUpd) : State :=
  let x := s.sheet msq
  let n := (x.bankQueue (scsBank u.slot)).length
  let s := s.setSheet msq { x with queue := x.queue ++ [u] }
  if n < 32 then s.count64 (scsPg msq) SCS.UPDATES_QUEUED 1 else s.countFree (scsPg msq) SCS.QUEUE_FULL_CYCLES

/-- The first update of a list that is ready: no earlier one names its slot. -/
def firstReady (seen : List Nat) (bank : Nat) (ok : ScsUpd → Bool) : List ScsUpd → Option ScsUpd
  | [] => none
  | u :: us =>
    if scsBank u.slot == bank && !(seen.contains u.slot) && ok u then some u
    else firstReady (u.slot :: seen) bank ok us

/-- Whether adding into an entry would need a group now: the entry is narrow and the sum does not fit (R74). -/
def State.needsGroup (s : State) (msq : Nat) (u : ScsUpd) : Bool :=
  if u.set then false
  else match (s.entryRead msq u.slot).2 with
    | .narrow .none b v => u.add.tag == .none && addDecide b (v + u.add.v) == .promote
    | _ => false

/-- The oldest waiting promotion of a bank. -/
def State.waitingPromotion (s : State) (msq bank : Nat) : Option ScsUpd :=
  firstReady [] bank (fun u => s.needsGroup msq u) (s.sheet msq).queue

/-- Whether an arriving update is queued: an earlier one of its slot waits, or it needs a group for which an older promotion
of its bank waits (R78, R79, R80). -/
def State.scsBehind (s : State) (msq : Nat) (u : ScsUpd) : Bool :=
  s.slotQueued msq u.slot || (s.needsGroup msq u && (s.waitingPromotion msq (scsBank u.slot)).isSome)

/-- An addend arrives (R74, R79, R80): absorbed at once, or queued behind an earlier update or for want of a group. -/
def State.scsAdd (s : State) (msq slot : Nat) (a : Ea) (cmd : Option Nat) (q : Nat) : State :=
  let u : ScsUpd := { slot := slot, add := a, cmd := cmd, q := q }
  if s.scsBehind msq u then s.scsEnqueue msq u
  else match s.scsAbsorb msq slot a q with
    | (s', true) => s'
    | (s', false) => s'.scsEnqueue msq u

/-- An ACC_SET flush arrives (R54, R82): it takes effect after the queued updates of its slot. -/
def State.scsSet (s : State) (msq slot : Nat) (a : Ea) (cmd : Option Nat) (q : Nat) : State :=
  if s.slotQueued msq slot then s.scsEnqueue msq { slot := slot, add := a, cmd := cmd, q := q, set := true }
  else s.scsReplace msq slot a

/-- Remove the first update equal to `u`. -/
def dropUpd (u : ScsUpd) : List ScsUpd → List ScsUpd
  | [] => []
  | v :: vs => if v = u then vs else v :: dropUpd u vs

/-- Take one update out of the queue and absorb it; when it leaves, one held behind a full queue takes an entry. -/
def State.scsTake (s : State) (msq : Nat) (u : ScsUpd) : State :=
  let x := s.sheet msq
  let n := (x.bankQueue (scsBank u.slot)).length
  if u.set then
    let s := s.setSheet msq { x with queue := dropUpd u x.queue }
    (s.scsReplace msq u.slot u.add).count64 (scsPg msq) SCS.UPDATES_QUEUED (if n > 32 then 1 else 0)
  else match s.scsAbsorb msq u.slot u.add u.q with
    | (s', true) =>
      let x := s'.sheet msq
      (s'.setSheet msq { x with queue := dropUpd u x.queue }).count64 (scsPg msq) SCS.UPDATES_QUEUED
        (if n > 32 then 1 else 0)
    | (_, false) => s

/-- Whether an update can be absorbed now: it needs no group, or its bank has one free (R78, R80). -/
def State.updReady (s : State) (msq : Nat) (u : ScsUpd) : Bool :=
  !(s.needsGroup msq u) || (s.freeGroup msq (scsBank u.slot)).isSome

/-- The oldest ready update of a bank's queue is absorbed; one that promotes has waited for its group for cycles that
PROMOTION_WAIT counts, a free value (R78 to R80). -/
def State.scsQueueStep (s : State) (msq bank : Nat) : State :=
  match firstReady [] bank (fun u => s.updReady msq u) (s.sheet msq).queue with
  | some u =>
    let s := if s.needsGroup msq u then s.countFree (scsPg msq) SCS.PROMOTION_WAIT else s
    s.scsTake msq u
  | none => s

/-- The oldest waiting promotion of a bank proceeds when a group is free (R80). -/
def State.scsPromoteStep (s : State) (msq bank : Nat) : State :=
  match s.waitingPromotion msq bank with
  | some u => if (s.freeGroup msq bank).isSome then s.scsTake msq u else s
  | none => s

/-- Whether a command's flushes or spills are held by a full queue: some lie beyond the 32 entries of a bank (R53, R79). -/
def State.scsStalls (s : State) (msq cmd : Nat) : Bool :=
  (List.range 16).any fun b => (((s.sheet msq).bankQueue b).drop 32).any fun u => u.cmd == some cmd

/-- Whether a command has updates waiting on a square. -/
def State.scsBusy (s : State) (msq cmd : Nat) : Bool :=
  (s.sheet msq).queue.any fun u => u.cmd == some cmd

end Sys2Proof.Machine
end

