-- ==== Sys2Proof/Machine/Memory.lean ====
section
/-! DEFINITION. The module's memories: address map, Guard-144 words, write-combining buffers, far tier, region checks
(12_memory_system.md). -/

namespace Sys2Proof.Machine

/-! ## Canonical byte memory -/

/-- The byte an address reads as, 0 where none is listed (log entry 4). -/
def memGet (m : List Host.Cell) (a : Nat) : Byte := SMap.get 0 a m

/-- Write a byte, keeping the canonical form: writing what an unlisted address reads as removes the entry. -/
def memSet (m : List Host.Cell) (a : Nat) (b : Byte) : List Host.Cell := SMap.set 0 a b m

/-- Addresses strictly rise from `lo`, and no byte is 0. -/
def memWfFrom (lo : Nat) : List Host.Cell → Bool
  | [] => true
  | (a, b) :: r => decide (lo ≤ a) && (b != 0) && memWfFrom (a + 1) r

/-- The canonical form of a memory. -/
def Memory.wf (m : List Host.Cell) : Bool := memWfFrom 0 m

/-- Write bytes at successive addresses. -/
def memSetAll (m : List Host.Cell) (a : Nat) : List Byte → List Host.Cell
  | [] => m
  | b :: bs => memSetAll (memSet m a b) (a + 1) bs

/-- n bytes from an address. -/
def memGetAll (m : List Host.Cell) (a n : Nat) : List Byte := (List.range n).map fun i => memGet m (a + i)

/-! ## Byte order (R6) -/

/-- The number little-endian bytes spell. -/
def leNat : List Byte → Nat
  | [] => 0
  | b :: bs => b.toNat + 256 * leNat bs

/-- n little-endian bytes of a number. -/
def leBytes (n x : Nat) : List Byte := (List.range n).map fun i => BitVec.ofNat 8 (x / 256 ^ i)

/-! ## The module-local map (Table 12.1) -/

/-- What lies at a module-local address. -/
inductive Area where
  /-- HBM: the stack -/
  | hbm (stack : Nat)
  | far
  /-- square memory: the module square and the offset in it -/
  | sqm (msq off : Nat)
  /-- the Scoresheet window: the module square and the slot -/
  | scs (msq slot : Nat)
  | regs
  | unmapped
  deriving DecidableEq, Repr

/-- The area of an address (R2, R269). -/
def areaOf (v : Variant) (a : Nat) : Area :=
  if a < 0x009000000000 then
    (if a / 0xC00000000 < v.stacks then .hbm (a / 0xC00000000) else .unmapped)
  else if 0x100000000000 ≤ a ∧ a < 0x140000000000 then .far
  else if 0x3E0000000000 ≤ a ∧ a < 0x3E00C0000000 then
    let w := (a - 0x3E0000000000) / 0x800000
    let o := (a - 0x3E0000000000) % 0x800000
    if w ≥ 64 * v.computeDies then .unmapped
    else if o < 0x400000 then .sqm w o
    else if o < 0x500000 then .scs w ((o - 0x400000) / 16)
    else .unmapped
  else if 0x3F0000000000 ≤ a ∧ a < 0x3F0020000000 then .regs
  else .unmapped

/-- The module-local address of an offset in a square's memory (Table 12.1). -/
def sqmAddr (msq off : Nat) : Nat := 0x3E0000000000 + msq * 0x800000 + off

/-- The pseudo-channel of an offset within a stack (R271). -/
def hbmPc (o : Nat) : Nat :=
  let blk := o / 256
  (blk ^^^ blk / 64 ^^^ blk / 4096) % 64

/-! ## Lines of the row store

The engine chooses where a row lies, and the place is internal (R178): the model names the lines of stored rows by
numbers beyond the module-local map; where a row lies, and where each of its parts begins, is a free value (log entry 83).
The lines of a part lie one after another (R119), all parts of a row on one stack (R178). -/

/-- The first address beyond the module-local map (R269). -/
def rowSpace : Nat := 0x400000000000

/-- The names of lines of rows in the far tier begin here. -/
def farSpace : Nat := 2 ^ 110

/-- Line i of a stored part of a row: planes 0 to 3, 4 for an adjacency row, 5 for the held next version of plane 0, 6 for a
drawing table, 8 to 11 for the step-start copies of planes 0 to 3. -/
def rowLine (far : Bool) (k : RowKey) (p i : Nat) : Nat :=
  (if far then farSpace else rowSpace) + ((((k.job * 4096 + k.table) * 2 ^ 40 + k.row) * 16 + p) * 2 ^ 32 + i) * 64

/-- A line of a row by its name, among the lines of its tier's rows: the row's number, and the line's place after a free value
for its part. -/
def lineRow (n : Nat) : Nat := n / 2 ^ 36
def linePlace (n : Nat) : Nat := Config.rowHome (2 * (n / 2 ^ 32) + 1) + n % 2 ^ 32

/-- The module-local address of a line of HBM. -/
def State.lineAddr (s : State) (line : Nat) : Nat :=
  if line < rowSpace then line
  else
    let n := (line - rowSpace) / 64
    Config.rowHome (2 * lineRow n) % s.variant.stacks * 0xC00000000 + linePlace n % 0x30000000 * 64

/-- What the enabled far decoders cover: base and lines of each (R287). -/
def State.farSpans (s : State) : List (Nat × Nat) :=
  (List.range 8).filterMap fun k =>
    if (s.reg farPg FAR.DEC_CTRL k).testBit 31 ∧ 64 ≤ s.reg farPg FAR.DEC_SIZE k then
      some (s.reg farPg FAR.DEC_BASE k, s.reg farPg FAR.DEC_SIZE k / 64) else none

/-- Line n of a list of spans; beyond them the start of the far window, which they do not cover. -/
def spanLine : List (Nat × Nat) → Nat → Nat
  | [], _ => 0x100000000000
  | (b, z) :: r, n => if n < z then b + 64 * n else spanLine r (n - z)

/-- The far-window address of a line of a row in the far tier: a place that the decoders cover, if they cover any. -/
def State.farAddr (s : State) (line : Nat) : Nat :=
  spanLine s.farSpans (linePlace ((line - farSpace) / 64) % s.farSpans.foldl (fun n x => n + x.2) 0)

/-- The stack of a line. -/
def State.lineStack (s : State) (line : Nat) : Nat := s.lineAddr line / 0xC00000000

/-- The pseudo-channel of a line, across the module. -/
def State.linePc (s : State) (line : Nat) : Nat :=
  s.lineStack line * 64 + hbmPc (s.lineAddr line % 0xC00000000)

/-! ## Who asks (R426) -/

/-- A requester: its world, the job of the command it acts for, the source code of WV_LAST (0 host, 1 command,
2 board-level), and the queue ID of the command where it is known here. -/
structure Req where
  secure : Bool := false
  job    : Option Nat := none
  src    : Nat := 0
  q      : Nat := 0
  deriving DecidableEq, Repr

/-- The device's own secure accesses (R426). -/
def Req.device : Req := { secure := true }

/-- An access made for a command of a job. -/
def Req.command (job : Nat) (q : Nat := 0) : Req := { job := some job, src := 1, q := q }

/-- An access made here for a command of a job on another module. -/
def Req.board (job : Nat) (q : Nat := 0) : Req := { job := some job, src := 2, q := q }

/-! ## Regions (R289, R290) -/

/-- A region entry's four words as one 128-bit number (Table 12.5). -/
def State.regionEntry (s : State) (n : Nat) : Nat :=
  s.reg secPg SEC.REGION_ENTRY0 n + s.reg secPg SEC.REGION_ENTRY1 n * 2 ^ 32 +
    s.reg secPg SEC.REGION_ENTRY2 n * 2 ^ 64 + s.reg secPg SEC.REGION_ENTRY3 n * 2 ^ 96

/-- The enabled entries: those whose word 3 is listed with ENABLE set (its reset value is 0). -/
def State.enabledRegions (s : State) : List Nat :=
  s.regs.live.filterMap fun p =>
    if p.1 % 4096 = SEC.REGION_ENTRY3 ∧ p.1 / 4096 / 2 ^ 20 = secPg ∧ p.2.toNat.testBit 31 then
      some (p.1 / 4096 % 2 ^ 20) else none

/-- The outcome of a region check. -/
inductive RegionOut where
  | pass | world | job
  deriving DecidableEq, Repr

/-- Whether an entry covers an address. -/
def regionCovers (e a : Nat) : Bool := decide (bits e 29 0 ≤ a / 65536) && decide (a / 65536 ≤ bits e 93 64)

/-- Check an access to HBM or the far tier at an address (R290). -/
def State.regionCheck (s : State) (r : Req) (a : Nat) : RegionOut :=
  if r.secure then .pass
  else match s.enabledRegions.find? fun n => regionCovers (s.regionEntry n) a with
    | none => .world
    | some n =>
      let e := s.regionEntry n
      if !(e.testBit 126) then .world
      else match r.job with
        | none => .pass
        | some j =>
          if e.testBit 125 then .pass
          else if s.mem.regUnbound.contains n then .job
          else if bits e 123 112 = j then .pass else .job

/-! ## Array words -/

/-- The stored 128 bits of the word at word address wa. -/
def State.wordRaw (s : State) (wa : Nat) : Nat := leNat (memGetAll s.mem.cells (wa * 16) 16)

/-- Store a word with the given syndrome. -/
def State.wordStore (s : State) (wa w syn : Nat) : State :=
  { s with mem := { s.mem with
      cells := memSetAll s.mem.cells (wa * 16) (leBytes 16 w), ecc := SMap.set 0 wa syn s.mem.ecc } }

/-- A stored word through the code: data, corrected, uncorrectable (R274). -/
def State.wordRead (s : State) (wa : Nat) : Nat × Bool × Bool :=
  guardRead (s.wordRaw wa) (SMap.get 0 wa s.mem.ecc)

/-- Store bytes into one word, the other bytes kept; a poisoned store, or a partial store into an uncorrectable word,
leaves the word uncorrectable (R275, R281). The Boolean tells that a partial store met an uncorrectable word. -/
def State.wordMerge (s : State) (wa : Nat) (data : List (Option Byte)) (poison : Bool) : State × Bool :=
  let full := data.all Option.isSome
  let (old, _, ue) := s.wordRead wa
  let bytes := (data.zip (leBytes 16 old)).map fun p => p.1.getD p.2
  let bad := poison || (!full && ue)
  (s.wordStore wa (leNat bytes) (if bad then poisonSyn else 0), !full && ue)

/-! ## Stacks: logs and repair (R276 to R278, R292) -/

/-- The 64-bit UE_LOG entries in use. -/
def State.ueLogUsed (s : State) (stack : Nat) : Nat :=
  ((List.range 16).filter fun k => (s.reg (hbmPg stack) (HBM.UE_LOG0 + 8 * k)).testBit 63).length

/-- The HBM row of a line, numbered within its stack (log entry 10). -/
def hbmRowOf (line : Nat) : Nat := line / 0xC00000000 * 2 ^ 48 + Config.hbmRow line % 2 ^ 48

/-- Add an HBM row to its stack's repair list; REPAIR_PENDING counts it (R278). -/
def State.addRepair (s : State) (line : Nat) : State :=
  let row := hbmRowOf line
  if s.mem.repair.contains row then s
  else
    let pg := hbmPg (line / 0xC00000000)
    { (s.setReg pg HBM.REPAIR_PENDING (s.reg pg HBM.REPAIR_PENDING + 1)) with
      mem := { s.mem with repair := s.mem.repair ++ [row] } }

/-- Record an uncorrectable word read by a demand read or the scrubber: UE_COUNT, UE_LOG, ERR_STATUS, repair list. -/
def State.hbmUe (s : State) (addr : Nat) (scrub : Bool) : State :=
  let st := addr / 0xC00000000
  let pg := hbmPg st
  let s := s.count pg HBM.UE_COUNT 1
  let s := s.err pg HBM.E_UE (addrInfo addr)
  let n := s.ueLogUsed st
  let s := if n < 16 then
      s.setReg pg (HBM.UE_LOG0 + 8 * n) (2 ^ 63 + b2n scrub * 2 ^ 62 + addr % 2 ^ 46)
    else s.err pg HBM.E_UE_LOG_FULL (addrInfo addr)
  s.addRepair (addr / 64 * 64)

/-- Count a correction in an HBM row toward CE_ROW_LIMIT (R278). -/
def State.rowCorrected (s : State) (line : Nat) : State :=
  let row := hbmRowOf line
  let n := SMap.get 0 row s.mem.rowCe + 1
  let s : State := { s with mem := { s.mem with rowCe := SMap.put row n s.mem.rowCe } }
  if n ≥ s.reg (hbmPg (line / 0xC00000000)) HBM.REPAIR_CONFIG % 256 then s.addRepair line else s

/-! ## The write-combining buffers (R279 to R282) -/

/-- The entry for a line. -/
def State.wcbFind (s : State) (line : Nat) : Option WcbEntry := s.mem.wcb.find? fun e => e.line == line

/-- Put an entry in the place of the one for its line. -/
def wcbReplace (e : WcbEntry) (l : List WcbEntry) : List WcbEntry := l.map fun x => if x.line = e.line then e else x

/-- A line has been written back: commands waiting for it wait for one line fewer, and are done with none left
(R282, R283). -/
def lineFlushed (line : Nat) (c : Cmd) : Cmd :=
  match c.ctx with
  | .fence ls => let r := ls.filter (· != line); { c with ctx := .fence r, done := c.done || r.isEmpty }
  | .dma w ls => { c with ctx := .dma w (ls.filter (· != line)) }
  | .flush ls => let r := ls.filter (· != line); { c with ctx := .flush r, done := c.done || r.isEmpty }
  | _ => c

/-- Write the four words of an entry into the array; tells whether a read-modify-write happened and how many merges met
an uncorrectable word (R281). -/
def State.writebackWords (s : State) (e : WcbEntry) : State × Bool × Nat :=
  (List.range 4).foldl (fun (acc : State × Bool × Nat) k =>
    let (s, rmw, ue) := acc
    let d := (e.data.drop (16 * k)).take 16
    if d.all Option.isNone then acc
    else
      let (s, u) := s.wordMerge (e.line / 16 + k) d (e.bad.contains k)
      (s, rmw || d.any Option.isNone, ue + b2n u)) (s, false, 0)

/-- Write an entry back and free it (R281); a merge that meets an uncorrectable word puts its HBM row on the repair list
(R278). -/
def State.writeback (s : State) (e : WcbEntry) : State :=
  let st := s.lineStack e.line
  let wp := wcbPg (st / 2)
  let (s, rmw, ue) := s.writebackWords e
  let s := s.count64 wp WCB.WRITEBACKS 1
  let s := s.count64 (hbmPg st) HBM.LINE_WRITES 1
  let s := if rmw then (s.count64 wp WCB.RMW_WRITEBACKS 1).count64 (hbmPg st) HBM.LINE_READS 1 else s
  let s := if ue = 0 then s
    else ((s.count wp WCB.WB_UE ue).err wp WCB.E_WB_UE (addrInfo (s.lineAddr e.line))).addRepair (s.lineAddr e.line)
  { s with mem := { s.mem with wcb := s.mem.wcb.filter fun x => x.line != e.line },
           cmds := s.cmds.map (lineFlushed e.line) }

/-- Write back every entry of a list. -/
def State.writebackAll (s : State) (es : List WcbEntry) : State := es.foldl State.writeback s

/-- Place bytes over a line's bytes at an offset. -/
def overlay (old : List (Option Byte)) (off : Nat) (new : List Byte) : List (Option Byte) :=
  (List.range old.length).map fun i =>
    if off ≤ i ∧ i < off + new.length then new[i - off]? else (old[i]?).getD none

/-- The words of a line that a write of n bytes at an offset touches. -/
def touchedWords (off n : Nat) : List Nat := (List.range 4).filter fun k => decide (16 * k < off + n ∧ off < 16 * k + 16)

/-- The words of a line that a write of n bytes at an offset covers whole. -/
def coveredWords (off n : Nat) : List Nat := (List.range 4).filter fun k => decide (off ≤ 16 * k ∧ 16 * k + 16 ≤ off + n)

/-- Write bytes within one HBM line: they enter the buffer of the line's pseudo-channel; with no free entry the
oldest is written back first (R279). `bad`: the words of the line whose data carries the poison marker. -/
def State.wcbWrite (s : State) (addr : Nat) (data : List Byte) (bad : List Nat) : State :=
  let line := addr / 64 * 64
  let off := addr % 64
  let wp := wcbPg (s.lineStack line / 2)
  match s.wcbFind line with
  | some e =>
    let bad := (e.bad.filter fun k => !((coveredWords off data.length).contains k)) ++ bad
    let e' : WcbEntry := { line := line, data := overlay e.data off data, bad := bad.eraseDups }
    ({ s with mem := { s.mem with wcb := wcbReplace e' s.mem.wcb } }).count64 wp WCB.WRITES_MERGED 1
  | none =>
    let pc := s.linePc line
    let mine := s.mem.wcb.filter fun e => s.linePc e.line == pc
    let s := if mine.length ≥ 64 then
        match mine with
        | e :: _ => ((s.writeback e).count wp WCB.FULL_EVICTIONS 1).countFree wp WCB.FULL_WAIT_CYCLES
        | [] => s
      else s
    let e : WcbEntry := { line := line, data := overlay (List.replicate 64 none) off data, bad := bad }
    { s with mem := { s.mem with wcb := s.mem.wcb ++ [e] } }

/-! ## Reading one piece of at most a line -/

/-- The result of a read: the state after it, the bytes, the word addresses (address / 16) that were uncorrectable,
and whether the world or the job check refused any of it. -/
structure MemRes where
  st    : State
  data  : List Byte := []
  ue    : List Nat := []
  world : Bool := false
  cfg   : Bool := false

/-- The bytes a line's buffer entry holds, none where the array is read. -/
def State.lineMask (s : State) (line : Nat) : List (Option Byte) :=
  match s.wcbFind line with
  | some e => e.data
  | none => List.replicate 64 none

/-- A read of a line passes its buffer: a hit is counted, and an entry with a full mask saves the array read (R280). -/
def State.lineVisit (s : State) (line : Nat) : State :=
  let st := s.lineStack line
  let hit := (s.wcbFind line).isSome
  let full := (s.lineMask line).all Option.isSome
  let s := if hit then s.count64 (wcbPg (st / 2)) WCB.READ_HITS 1 else s
  if full then s else s.count64 (hbmPg st) HBM.LINE_READS 1

/-- Read bytes of one HBM line through its buffer, those that `want` picks; every uncorrectable word it delivers, and each of
`marked`, is counted and logged, whether it comes from the array or from the entry (R276, R280). -/
def State.hbmLine (s : State) (line : Nat) (want : Nat → Bool) (marked : List Nat) : MemRes :=
  let st := s.lineStack line
  let at_ := s.lineAddr line
  let mask := s.lineMask line
  let badW : List Nat := match s.wcbFind line with
    | some e => e.bad
    | none => []
  let s := s.lineVisit line
  let touched := (List.range 4).filter fun k => (List.range 16).any fun i => want (16 * k + i)
  -- words from which some wanted byte comes out of the array
  let rd := (touched.filter fun k =>
    (List.range 16).any fun i => want (16 * k + i) && ((mask[16 * k + i]?).getD none).isNone).map fun k =>
      (k, s.wordRead (line / 16 + k))
  let bytes := ((List.range 64).filter want).map fun i =>
    match (mask[i]?).getD none with
    | some b => b
    | none =>
      match rd.find? fun p => p.1 == i / 16 with
      | some (_, w, _, _) => BitVec.ofNat 8 (w / 256 ^ (i % 16))
      | none => 0
  let wasFixed := rd.any fun p => p.2.2.1
  let s := if wasFixed then
      let s := (s.count (hbmPg st) HBM.CE_CORRECTED 1).rowCorrected at_
      { s with mem := { s.mem with scrubQ := if s.mem.scrubQ.contains at_ then s.mem.scrubQ else s.mem.scrubQ ++ [at_] } }
    else s
  let ueA := (rd.filter fun p => p.2.2.2).map (·.1)
  let ue := (ueA ++ touched.filter fun k => badW.contains k || marked.contains k).eraseDups
  { st := ue.foldl (fun s k => s.hbmUe (at_ + 16 * k) false) s, data := bytes, ue := ue.map fun k => line / 16 + k }

/-- Read n bytes of one HBM line. -/
def State.hbmRead (s : State) (addr n : Nat) : MemRes :=
  s.hbmLine (addr / 64 * 64) (fun i => decide (addr % 64 ≤ i ∧ i < addr % 64 + n)) []

/-- Read n bytes of square memory lying in one line (R466). -/
def State.sqmRead (s : State) (msq off n : Nat) : MemRes :=
  let a := sqmAddr msq off
  let words := (List.range 5).filterMap fun k =>
    let wa := a / 16 + k
    if wa * 16 < a + n then some wa else none
  words.foldl (fun (r : MemRes) wa =>
    let (w, fixed, ue) := r.st.wordRead wa
    let s := if fixed then (r.st.wordStore wa w 0).count (sqPg msq) SQ.SQM_CORRECTED 1 else r.st
    let o := wa * 16 - sqmAddr msq 0
    let s := if ue then
        ((s.count (sqPg msq) SQ.SQM_UE 1).setReg (sqPg msq) SQ.SQM_UE_LAST (2 ^ 31 + o % 2 ^ 22)).err
          (sqPg msq) SQ.E_SQM_UE o
      else s
    let bs := (List.range 16).filterMap fun i =>
      if a ≤ wa * 16 + i ∧ wa * 16 + i < a + n then some (BitVec.ofNat 8 (w / 256 ^ i)) else none
    { st := s, data := r.data ++ bs, ue := if ue then r.ue ++ [wa] else r.ue }) { st := s }

/-- Bytes of a Scoresheet slot as stored (R85). -/
def State.scsWindowRead (s : State) (msq off n : Nat) : MemRes :=
  { st := s, data := (List.range n).map fun i =>
      BitVec.ofNat 8 (SMap.get 0 ((off + i) / 16) (s.sheet msq).slots / 256 ^ ((off + i) % 16)) }

/-- The far decoder that covers an address, and the host port it sends the line to (R287). -/
def State.farPort (s : State) (a : Nat) : Option Nat :=
  (List.range 8).findSome? fun k =>
    let c := s.reg farPg FAR.DEC_CTRL k
    let b := s.reg farPg FAR.DEC_BASE k
    let z := s.reg farPg FAR.DEC_SIZE k
    if c.testBit 31 ∧ b ≤ a ∧ a < b + z then
      match bits c 30 29 with
      | 0 => some 0
      | 1 => some 1
      | _ => some ((a - b) / (256 * 2 ^ bits c 28 26) % 2)
    else none

/-- Whether a host port's CXL link carries accesses: ROLE 2 and up (R286, R288). -/
def State.cxlReady (s : State) (hx : Nat) : Bool :=
  bits (s.reg (hxpPg hx) HXP.HXP_CONFIG) 31 30 == 2 && bits (s.reg (hxpPg hx) HXP.HXP_STATE) 31 28 == 2

/-- Read n bytes of one far-tier line (R287, R288). -/
def State.farRead (s : State) (a n : Nat) : MemRes :=
  match s.farPort a with
  | none => { st := (s.count farPg FAR.DEC_MISSES 1).err farPg FAR.E_DEC_MISS (addrInfo a), data := List.replicate n 0 }
  | some hx =>
    let words := (List.range 5).filterMap fun k => if (a / 16 + k) * 16 < a + n then some (a / 16 + k) else none
    if s.cxlReady hx then
      let s := s.count64 farPg FAR.FAR_READS 1
      let bad := words.filter fun wa => (s.wordRead wa).2.2
      let s := if bad.isEmpty then s else (s.count farPg FAR.POISON_RX 1).err farPg FAR.E_POISON (addrInfo a)
      { st := s, data := (List.range n).map fun i =>
          BitVec.ofNat 8 ((s.wordRead ((a + i) / 16)).1 / 256 ^ ((a + i) % 16)), ue := bad }
    else { st := s.err farPg FAR.E_LINK_DOWN (addrInfo a), data := List.replicate n 0, ue := words }

/-- Log a refused region access (R290). -/
def State.regionLog (s : State) (r : Req) (a : Nat) : RegionOut → State
  | .pass => s
  | .world => s.violation false r.src a
  | .job => (s.count secPg SEC.REGION_JOB_COUNT 1).err secPg SEC.E_REGION_JOB (addrInfo a)

/-- Read n bytes lying within one aligned line of this module (R269, R290). -/
def State.pieceRead (s : State) (r : Req) (a n : Nat) : MemRes :=
  let checked (k : State → MemRes) : MemRes :=
    match s.regionCheck r a with
    | .pass => k s
    | o => { st := s.regionLog r a o, data := List.replicate n 0, world := o == .world, cfg := o == .job }
  match areaOf s.variant a with
  | .hbm _ => checked fun s => s.hbmRead a n
  | .far => checked fun s => s.farRead a n
  | .sqm q o => s.sqmRead q o n
  | .scs q _ => s.scsWindowRead q ((a - 0x3E0000000000) % 0x800000 - 0x400000) n
  | .regs => { st := s, data := List.replicate n 0 }
  | .unmapped => { st := s, data := List.replicate n 0 }

/-- Cut a range into pieces that stay within aligned 64-byte lines (R272). -/
def linePieces (a n : Nat) : List (Nat × Nat) :=
  if n = 0 then []
  else (List.range ((a + n - 1) / 64 - a / 64 + 1)).map fun k =>
    let lo := max a ((a / 64 + k) * 64)
    (lo, min (a + n) ((a / 64 + k + 1) * 64) - lo)

/-- Read n bytes of this module's memory (R272). -/
def State.memRead (s : State) (r : Req) (a n : Nat) : MemRes :=
  (linePieces a n).foldl (fun (m : MemRes) p =>
    let x := m.st.pieceRead r p.1 p.2
    { st := x.st, data := m.data ++ x.data, ue := m.ue ++ x.ue, world := m.world || x.world, cfg := m.cfg || x.cfg })
    { st := s }

/-- What is recorded of a write: the state and the refusals. -/
structure WrRes where
  st    : State
  world : Bool := false
  cfg   : Bool := false

/-- Write bytes into the words of plain storage (square memory, far tier); the words of `ue` (address / 16) carry the
poison marker (R275). -/
def State.plainWrite (s : State) (a : Nat) (data : List Byte) (ue : List Nat) : State :=
  let n := data.length
  ((List.range 5).filterMap fun k => if (a / 16 + k) * 16 < a + n then some (a / 16 + k) else none).foldl
    (fun s wa =>
      (s.wordMerge wa ((List.range 16).map fun i =>
        if a ≤ wa * 16 + i ∧ wa * 16 + i < a + n then data[wa * 16 + i - a]? else none) (ue.contains wa)).1) s

/-- Write bytes lying within one aligned line of this module; the words of `ue` (address / 16) carry the poison marker
(R275, R279, R290). -/
def State.pieceWrite (s : State) (r : Req) (a : Nat) (data : List Byte) (ue : List Nat) : WrRes :=
  let checked (k : State → State) : WrRes :=
    match s.regionCheck r a with
    | .pass => { st := k s }
    | o => { st := s.regionLog r a o, world := o == .world, cfg := o == .job }
  match areaOf s.variant a with
  | .hbm _ => checked fun s =>
    s.wcbWrite a data ((touchedWords (a % 64) data.length).filter fun k => ue.contains (a / 64 * 4 + k))
  | .far => checked fun s =>
    match s.farPort a with
    | none => (s.count farPg FAR.DEC_MISSES 1).err farPg FAR.E_DEC_MISS (addrInfo a)
    | some hx =>
      if s.cxlReady hx then (s.plainWrite a data ue).count64 farPg FAR.FAR_WRITES 1
      else s.err farPg FAR.E_LINK_DOWN (addrInfo a)
  | .sqm _ _ => { st := s.plainWrite a data ue }
  | .scs q _ => { st := s.err (scsPg q) SCS.E_RAW_WRITE r.q }
  | .regs => { st := s }
  | .unmapped => { st := s }

/-- Write bytes to this module's memory, one line at a time (R290); the words of `ue` (address / 16) are written with the
poison marker. -/
def State.memWrite (s : State) (r : Req) (a : Nat) (data : List Byte) (ue : List Nat := []) : WrRes :=
  (linePieces a data.length).foldl (fun (m : WrRes) p =>
    let x := m.st.pieceWrite r p.1 ((data.drop (p.1 - a)).take p.2) ue
    { st := x.st, world := m.world || x.world, cfg := m.cfg || x.cfg }) { st := s }

/-- The state that a write leaves. -/
def State.memPut (s : State) (r : Req) (a : Nat) (data : List Byte) : State := (s.memWrite r a data).st

/-- Read square memory of a square. -/
def State.sqRead (s : State) (msq off n : Nat) : MemRes := s.memRead Req.device (sqmAddr msq off) n

/-- Write square memory of a square. -/
def State.sqWrite (s : State) (msq off : Nat) (data : List Byte) : State :=
  (s.memWrite Req.device (sqmAddr msq off) data).st

/-! ## Accesses to stored rows (R168, R178, R279, R280, R288, R290) -/

/-- What an access to part of a row meets: the words delivered as uncorrectable, the lines that were not served, and why
the region table refused any of them. -/
structure RowAcc where
  st    : State
  bad   : List Nat := []
  no    : List Nat := []
  world : Bool := false
  cfg   : Bool := false

/-- Line i of part p of a row is checked against the region table where it lies (R290), then accessed. -/
def RowAcc.line (m : RowAcc) (r : Req) (far : Bool) (line i : Nat) (k : RowAcc → RowAcc) : RowAcc :=
  let a := if far then m.st.farAddr line else m.st.lineAddr line
  match m.st.regionCheck r a with
  | .pass => k m
  | o => { m with st := m.st.regionLog r a o, no := m.no ++ [i], world := m.world || o == .world, cfg := m.cfg || o == .job }

/-- One line of a row in the far tier: through the port that its decoder names, or a miss (R287, R288). -/
def RowAcc.farLine (m : RowAcc) (line i : Nat) (k : RowAcc → RowAcc) (down : List Nat) : RowAcc :=
  let a := m.st.farAddr line
  match m.st.farPort a with
  | none => { m with st := (m.st.count farPg FAR.DEC_MISSES 1).err farPg FAR.E_DEC_MISS (addrInfo a), no := m.no ++ [i] }
  | some hx =>
    if m.st.cxlReady hx then k m
    else { m with st := m.st.err farPg FAR.E_LINK_DOWN (addrInfo a), no := if down.isEmpty then m.no ++ [i] else m.no
                  bad := m.bad ++ down }

/-- Read 16-byte words of part p of a row from its tier, a line once; `bad`: the words of it that are marked. Errors count as
R276 states; lines in the far tier whose link is down return as uncorrectable (R288), those that no decoder covers read zero
(R287). -/
def State.rowWords (s : State) (r : Req) (far : Bool) (key : RowKey) (p : Nat) (want bad : List Nat) : RowAcc :=
  ((want.map (· / 4)).eraseDups).foldl (fun (m : RowAcc) i =>
    let line := rowLine far key p i
    let ws := want.filter fun w => w / 4 == i
    let marked := ws.filter bad.contains
    m.line r far line i fun m =>
      if !far then
        let x := m.st.hbmLine line (fun b => ws.contains (4 * i + b / 16)) (marked.map (· % 4))
        { m with st := x.st, bad := m.bad ++ x.ue.map fun wa => 4 * i + wa % 4 }
      else m.farLine line i (fun m =>
        let ue := ws.filter fun w => marked.contains w || (m.st.wordRead (line / 16 + w % 4)).2.2
        let s := m.st.count64 farPg FAR.FAR_READS 1
        let s := if ue.isEmpty then s else (s.count farPg FAR.POISON_RX 1).err farPg FAR.E_POISON (addrInfo (s.farAddr line))
        { m with st := s, bad := m.bad ++ ue }) ws)
    { st := s }

/-- Read n bytes of part p of a row. -/
def State.rowGet (s : State) (r : Req) (far : Bool) (key : RowKey) (p n : Nat) (bad : List Nat) : RowAcc :=
  s.rowWords r far key p (List.range ((n + 15) / 16)) bad

/-- Write the first bytes of part p of a row into its tier: each line enters the buffer of its pseudo-channel (R168, R279), or
goes to the expander as one write (R286); a line not written is among `no`. `bad`: the words that carry the poison marker. -/
def State.rowSet (s : State) (r : Req) (far : Bool) (key : RowKey) (p : Nat) (data : List Byte) (bad : List Nat := []) :
    RowAcc :=
  (List.range ((data.length + 63) / 64)).foldl (fun (m : RowAcc) i =>
    let line := rowLine far key p i
    let b := (data.drop (64 * i)).take 64
    let marked := ((List.range 4).filter fun k => bad.contains (4 * i + k))
    m.line r far line i fun m =>
      if !far then { m with st := m.st.wcbWrite line b (marked.filter fun k => decide (16 * k < b.length)) }
      else m.farLine line i (fun m =>
        { m with st := (m.st.plainWrite line b (marked.map fun k => line / 16 + k)).count64 farPg FAR.FAR_WRITES 1 }) [])
    { st := s }

/-- Bytes over bytes, line by line: those of `no` keep what they held. -/
def keepLines (no : List Nat) (old new : List Byte) : List Byte :=
  (List.range new.length).map fun i => if no.contains (i / 64) then (old[i]?).getD 0 else (new[i]?).getD 0

/-! ## The device's own regions (R279, R280; log entry 103) -/

/-- The device is to write or read n bytes of one of its own regions. -/
def State.owe (s : State) (g : OwnRegion) (write : Bool) (n : Nat) : State :=
  if n = 0 then s else { s with fab := { s.fab with own := s.fab.own ++ [{ region := g, write := write, bytes := n }] } }

/-- Base and size of a region of the device's own. -/
def State.ownRegion (s : State) : OwnRegion → Nat × Nat
  | .shadow => (s.reg bndPg BND.SHADOW_BASE, s.reg bndPg BND.SHADOW_SIZE)
  | .spill r => (s.reg (redPg r) RED.SPILL_BASE, s.reg (redPg r) RED.SPILL_SIZE)
  | .resend => (s.reg fabPg FAB.E2E_BASE, s.reg fabPg FAB.E2E_SIZE)

/-- One such access, at a place of the region that the device chooses: it passes the write-combining buffers like any other. What
the bytes mean is the device's own; the model keeps the contents as state beside the memory. -/
def State.ownAccess (s : State) (o : OwnAcc) : State :=
  let (base, size) := s.ownRegion o.region
  if size < o.bytes then s
  else
    let (v, s) := s.draw
    let a := base + v % (size - o.bytes + 1) / 16 * 16
    if o.write then
      let (w, s) := s.draw
      (s.memWrite Req.device a ((List.range o.bytes).map (Config.ownByte w))).st
    else (s.memRead Req.device a o.bytes).st

/-- The accesses still to be made, in order. -/
def State.ownTraffic (s : State) : State :=
  s.fab.own.foldl State.ownAccess { s with fab := { s.fab with own := [] } }

/-- Whether a range of square memory lies in it: 4 MiB (Table 12.1). -/
def inSqm (off n : Nat) : Bool := decide (off + n ≤ 0x400000)

/-- Whether a range lies wholly in present HBM. -/
def inHbm (v : Variant) (a n : Nat) : Bool := decide (a + n ≤ v.stacks * 0xC00000000)

/-- Whether a range lies wholly in the far window. -/
def inFar (a n : Nat) : Bool := decide (0x100000000000 ≤ a) && decide (a + n ≤ 0x140000000000)

end Sys2Proof.Machine
end

