-- ==== Sys2Proof/Machine/Links.lean ====
section
/-! DEFINITION. Packets between modules: sending on a stream, routes, port queues and the retry buffer, arrival in
sequence (13_fabric_links_and_host.md R305 to R316). -/

namespace Sys2Proof

/-! ## Types, virtual channels and lengths -/

/-- The virtual channel of a packet's TYPE (Table 13.5). -/
def Body.vc : Body → Nat
  | .readReq .. => 0 | .readRsp .. => 1 | .sampleReq .. => 0 | .sampleRsp .. => 1
  | .scatter .. => 2 | .writeAck .. => 1 | .store .. => 2
  | .redUp .. => 3 | .redDown .. => 4
  | .barArrive .. => 5 | .barRelease .. => 5 | .barEnd .. => 5 | .fsignal .. => 5 | .fsignalAck .. => 1
  | .boardRd .. => 6 | .boardWr .. => 6 | .boardRsp .. => 1 | .intr .. => 6
  | .pendingNotice .. => 7 | .pendingNoticeAck .. => 7 | .refresh .. => 7 | .refreshAck .. => 7
  | .replicaRequest .. => 7 | .replicaGrant .. => 7 | .replicaRefuse .. => 7 | .replicaDrop .. => 7
  | .migCopy .. => 7 | .migCopyAck .. => 7 | .migChange .. => 7 | .flipNotice .. => 7
  | .aliasRequest .. => 7 | .aliasReport .. => 7 | .epochNotice .. => 7 | .shadowWrite .. => 7 | .shadowAck .. => 7
  | .fwImage .. => 7 | .fwuOutcome .. => 7 | .announce => 7
  | .e2eAck .. => 1 | .nack .. => 1
  | .part _ v _ _ => v

/-- The TYPE of a packet (Table 13.5); a message of the placement engine that the table does not name is a PLC_MSG, one of
management firmware a MGT (log entry 11). -/
def Body.type : Body → Nat
  | .readReq .. => 0x01 | .readRsp .. => 0x02 | .sampleReq .. => 0x03 | .sampleRsp .. => 0x04
  | .scatter .. => 0x05 | .writeAck .. => 0x06 | .store .. => 0x07
  | .redUp .. => 0x10 | .redDown .. => 0x11
  | .barArrive .. => 0x18 | .barRelease .. => 0x19 | .barEnd .. => 0x19 | .fsignal .. => 0x1A | .fsignalAck .. => 0x1B
  | .boardRd .. => 0x20 | .boardWr .. => 0x21 | .boardRsp .. => 0x22 | .intr .. => 0x24
  | .pendingNotice .. => 0x28 | .pendingNoticeAck .. => 0x28 | .refresh .. => 0x28 | .refreshAck .. => 0x28
  | .replicaRequest .. => 0x28 | .replicaGrant .. => 0x28 | .replicaRefuse .. => 0x28 | .replicaDrop .. => 0x28
  | .migCopy .. => 0x28 | .migCopyAck .. => 0x28 | .migChange .. => 0x28 | .flipNotice .. => 0x28
  | .aliasRequest .. => 0x28 | .aliasReport .. => 0x28 | .epochNotice .. => 0x28 | .shadowWrite .. => 0x28
  | .shadowAck .. => 0x28 | .fwImage .. => 0x31 | .fwuOutcome .. => 0x30 | .announce => 0x30
  | .e2eAck .. => 0x38 | .nack .. => 0x3F
  | .part t _ _ _ => t

/-- TYPE and VC of Table 13.5: whether a header's are assigned to one another (R306). -/
def typeVc (t v : Nat) : Bool :=
  match t with
  | 0x01 => v == 0 | 0x02 => v == 1 | 0x03 => v == 0 | 0x04 => v == 1 | 0x05 => v == 2 | 0x06 => v == 1 | 0x07 => v == 2
  | 0x10 => v == 3 | 0x11 => v == 4 | 0x18 => v == 5 | 0x19 => v == 5 | 0x1A => v == 5 | 0x1B => v == 1
  | 0x20 => v == 6 | 0x21 => v == 6 | 0x22 => v == 1 | 0x24 => v == 6 | 0x28 => v == 7 | 0x30 => v == 7 | 0x31 => v == 7
  | 0x38 => v == 1 | 0x3F => v == 1
  | _ => false

/-- Whether a packet is one of a message of a TYPE that goes on in the next packet (R305). -/
def Body.partOf (type : Nat) : Body → Bool
  | .part t v _ _ => t == type && typeVc t v
  | _ => false

/-- Whether packets of a TYPE belong to a stream (R309). -/
def Body.streamed : Body → Bool
  | .redUp .. => false | .redDown .. => false | .e2eAck .. => false
  | _ => true

/-- The id that names no command: a message that no command waits for. -/
abbrev noCmd : Nat := 2 ^ 128

/-- The command and token a request names at its sender; the tags of board accesses hold both. -/
def Body.ids : Body → Nat × Nat
  | .readReq _ c es => (c, (es.head?.map (·.tag)).getD 0)
  | .sampleReq _ c _ es => (c, (es.head?.map (·.dst)).getD 0)
  | .scatter _ c t _ => (c, t) | .store _ c t _ => (c, t)
  | .fsignal c _ _ => (c, 0) | .boardRd t .. => (t / 2 ^ 32, t % 2 ^ 32) | .boardWr t .. => (t / 2 ^ 32, t % 2 ^ 32)
  | .aliasRequest c .. => (c, 0) | .shadowWrite c .. => (c, 0)
  -- no single command sends an arrival: its object is named, above every command
  | .barArrive o .. => (noCmd + 1, o)
  | .part _ _ c t => (c, t)
  | _ => (noCmd, 0)

/-- Bytes of an element of a format code, 7 being KM48 (Table 3.4). -/
def wireSize (fc : Nat) : Nat := if fc < 4 then 1 else if fc < 6 then 2 else if fc = 6 then 4 else 6

/-- A number of bytes padded to whole payload units. -/
def pad16 (n : Nat) : Nat := (n + 15) / 16 * 16

/-- The units of a reduction chunk: a scale unit and the blocks' elements, and the norm unit (Table 14.4). -/
def chunkUnits (fmt : Nat) (norm : Option Nat) (blocks : List WireBlock) : Nat :=
  (if blocks.isEmpty then 0 else 1 + (if fmt = 0 then 4 else 2) * blocks.length) + (if norm.isSome then 1 else 0)

/-- Payload bytes of a packet, by Tables 6.9, 7.3 and 14.4; a packet that the spec gives no layout counts 16 bytes and its data
(log entry 11). -/
def Body.bytes : Body → Nat
  | .readReq _ _ es => 32 + 16 * es.length
  | .readRsp _ rs => rs.foldl (fun n r => n + 8 + pad16 (r.esz * r.codes.length)) 32
  | .sampleReq _ _ _ es => 32 + 16 * es.length
  | .sampleRsp _ ev rs => rs.foldl (fun n r => n + 8 + (if ev then 10 else 6) * r.recs.length) 32
  | .scatter _ _ _ es => es.foldl (fun n e => n + 16 + pad16 (wireSize e.fmt * e.codes.length + e.scales.length)) 32
  | .store _ _ _ es => es.foldl (fun n e => n + 16 + pad16 (e.esz * e.codes.length) + 16 * e.adj.length) 32
  | .redUp u => 16 * chunkUnits u.fmt u.norm u.blocks
  | .redDown u => 16 * chunkUnits u.fmt u.norm u.blocks
  | .boardWr _ _ d .. => d.length
  | .boardRsp _ _ d _ => d.length
  | .fwImage _ d => d.length
  | .refresh _ _ p _ => 16 + 2 * p.length
  | .replicaGrant _ _ _ p _ => 16 + 2 * p.length
  | .part .. => 16 * 511
  | _ => 16

/-- Payload units of 16 bytes of a message (R305). -/
def Body.units (b : Body) : Nat := (b.bytes + 15) / 16

/-- Units of a packet: its header and its payload (R305). -/
def Pkt.units (p : Pkt) : Nat := p.hdr.len + 2

/-- The packets of a message: at most 511 payload units each, every one but the last carrying MORE (R305). -/
def Pkt.packets (p : Pkt) : List Pkt :=
  let n := (p.body.units - 1) / 511
  let (c, t) := p.body.ids
  List.replicate n { hdr := { p.hdr with len := 511, more := true }, body := .part p.body.type p.body.vc c t } ++
    [{ p with hdr := { p.hdr with len := p.body.units - 511 * n } }]

/-- The buffer class index of a packet. -/
def Pkt.cls (p : Pkt) : Nat := p.hdr.vc * 2 + (if p.hdr.upper then 1 else 0)

end Sys2Proof

namespace Sys2Proof.Machine

/-- This module's ID (R21). -/
def State.modId (s : State) : Nat := s.reg fabPg FAB.FAB_ID % 2 ^ 15

/-- Pod, rack, board and slot of a module ID (R21). -/
def modRack (m : Nat) : Nat := m / 32
def modBoard (m : Nat) : Nat := m / 4 % 8
def modSlot (m : Nat) : Nat := m % 4

/-! ## Ports -/

def State.port (s : State) (p : Nat) : Port := SMap.get {} p s.fab.ports
def State.setPort (s : State) (p : Nat) (x : Port) : State :=
  { s with fab := { s.fab with ports := SMap.set {} p x s.fab.ports } }

/-- Whether a module is declared lost here (R312). -/
def State.isLost (s : State) (m : Nat) : Bool := (SMap.find m s.fab.lost).isSome

/-- Whether a port carries packets (Table 13.2), its partner not declared lost (R312). -/
def State.portUp (s : State) (p : Nat) : Bool :=
  portPresent s.variant p &&
  (match (s.port p).st with
    | .active => true
    | .degraded => true
    | _ => false) &&
  (match (s.port p).partner with
    | some (m, _) => !(s.isLost m)
    | none => true)

/-- Whether packets may queue for a port: it carries packets, or it is retraining and they wait (Table 13.2). -/
def State.portTakes (s : State) (p : Nat) : Bool :=
  s.portUp p || (portPresent s.variant p && (s.port p).st == .retraining &&
    (match (s.port p).partner with
      | some (m, _) => !(s.isLost m)
      | none => true))

/-! ## Routes (R315, R316) -/

/-- The port of the rack rule toward a module of the same rack (R315). -/
def rackPort (v : Variant) (me dst vc : Nat) : Nat :=
  let j := modBoard me ^^^ modBoard dst
  let x := modSlot me ^^^ modSlot dst
  let slotPort := if x = 1 then vc % 2 else if x = 2 then 2 else 3
  if v = .kta8 then
    if j = 0 then slotPort
    else if x = 0 then 3 + j
    else if x = 2 ∧ j ≤ 5 then 10 + j
    else 3 + j
  else
    if j = 0 then slotPort
    else if j ≤ 4 then 3 + j
    else 7

/-- The port and class of a packet for another module, none of the ports in `but` (R311, R315, R316); none: no route. -/
def State.route (s : State) (but : List Nat) (dst vc : Nat) (upper : Bool) : Option (Nat × Bool) :=
  let me := s.modId
  let ok (p : Nat) : Bool := !(but.contains p)
  if modRack me = modRack dst then
    let p := rackPort s.variant me dst vc
    if s.portTakes p && ok p then some (p, upper)
    else match [0, 1, 2, 3].find? fun a => a != p && s.portUp a && ok a with
      | some a => some (a, true)
      | none => none
  else
    let bank := s.reg fabPg FAB.ROUTE_BANK % 2
    let e := s.reg fabPg FAB.RT_ENTRY (bank * 1024 + modRack dst % 1024)
    (List.range 4).findSome? fun h =>
      let hop := e / 256 ^ h % 256
      let p := hop % 32
      if hop.testBit 7 && s.portTakes p && ok p then some (p, upper || hop.testBit 6) else none

/-! ## Transmission (R302, R307, R308) -/

/-- Units of the partner's buffer that VC_CREDIT gives a VC and class (R307); the partner's division is taken as
this port's own (log entry 14). -/
def State.creditOf (s : State) (p vc : Nat) (upper : Bool) : Nat :=
  let r := s.reg (plyPg p) (PLY.VC_CREDIT0 + 4 * vc)
  if upper then bits r 27 16 else bits r 11 0

/-- Units of a list of parts. -/
def partUnits (l : List FlitPart) : Nat := l.foldl (fun n p => n + p.count) 0

/-- The first n units of a list of parts, and the rest. -/
def takeUnits (n : Nat) : List FlitPart → List FlitPart × List FlitPart
  | [] => ([], [])
  | p :: ps =>
    if n = 0 then ([], p :: ps)
    else if p.count ≤ n then
      let (a, b) := takeUnits (n - p.count) ps
      (p :: a, b)
    else ([{ p with count := n }], { p with first := p.first + n, count := p.count - n } :: ps)

/-- Whether a port may start a packet now: credits for all of it, and room in the retry buffer (R302, R307). -/
def State.canStart (s : State) (port : Nat) (p : Pkt) : Bool :=
  let x := s.port port
  decide (SMap.get 0 p.cls x.used + p.units ≤ s.creditOf port p.hdr.vc p.hdr.upper) &&
  decide (x.retry.length + (partUnits x.txPart + p.units + 30) / 31 ≤ 4095)

/-- The order of the VCs at a flit boundary (R308): 5, 7, 1, then the others by fewest bytes sent. -/
def vcBefore (sent : List (Nat × Nat)) (a b : Nat) : Bool :=
  let rank (v : Nat) : Nat := if v = 5 then 0 else if v = 7 then 1 else if v = 1 then 2 else 3
  if rank a ≠ rank b then decide (rank a < rank b)
  else if rank a < 3 then false
  else
    let x := SMap.get 0 a sent
    let y := SMap.get 0 b sent
    decide (x < y) || (decide (x = y) && decide (a < b))

/-- The bytes sent after a packet: its VC's rise, and a VC that has nothing queued is level with it at least, so that it saves
no turns (R308; log entry 14). -/
def sentAfter (x : Port) (p : Pkt) : List (Nat × Nat) :=
  let own := SMap.get 0 p.hdr.vc x.sent
  let idle := [0, 2, 3, 4, 6].filter fun v => v != p.hdr.vc && !(x.queue.any fun q => q.hdr.vc == v)
  SMap.set 0 p.hdr.vc (own + 16 * p.units) (idle.foldl (fun l v => SMap.set 0 v (max own (SMap.get 0 v l)) l) x.sent)

/-- SHARE of a job (R370). -/
def State.share (s : State) (job : Nat) : Nat := s.reg bndPg BND.JOB_SHARE job

/-- Bytes that a port has injected for a job on a VC. -/
def Port.jobBytes (x : Port) (vc job : Nat) : Nat := SMap.get 0 (vc * 4096 + job) x.injected

/-- The jobs with packets of this module waiting on a VC of a port. -/
def Port.jobsOn (x : Port) (vc : Nat) : List Nat :=
  ((x.queue.filter fun p => p.hdr.vc == vc && p.via.isNone).map (·.hdr.job)).eraseDups

/-- In place of a packet of this module, the oldest of its VC that may start of the job furthest behind its SHARE; a packet in
transit is not weighted again (R370). -/
def State.injectNext (s : State) (port : Nat) (p : Pkt) : Pkt :=
  let x := s.port port
  if p.via.isSome then p
  else (x.queue.filter fun q => q.hdr.vc == p.hdr.vc && q.via.isNone && s.canStart port q).foldl (fun b q =>
    if x.jobBytes p.hdr.vc q.hdr.job * s.share b.hdr.job < x.jobBytes p.hdr.vc b.hdr.job * s.share q.hdr.job then q else b) p

/-- The next packet of a port's queue: the best VC first, the oldest packet of it that may start, by the shares of the jobs where
it is one of this module's (R308, R370). -/
def State.nextPkt (s : State) (port : Nat) : Option Pkt :=
  let x := s.port port
  ((x.queue.filter fun p => s.canStart port p).foldl (fun (best : Option Pkt) p =>
    match best with
    | none => some p
    | some q => if vcBefore x.sent p.hdr.vc q.hdr.vc then some p else some q) none).map (s.injectNext port)

/-- The bytes injected as a packet of this module begins to wait: a job that had nothing waiting on the VC is brought level with
the one that is furthest behind of those that had (R370; log entry 14). -/
def State.jobJoins (s : State) (x : Port) (p : Pkt) : List (Nat × Nat) :=
  let js := x.jobsOn p.hdr.vc
  if p.via.isSome || js.contains p.hdr.job then x.injected
  else
    let level := (js.map fun j => x.jobBytes p.hdr.vc j * s.share p.hdr.job / max 1 (s.share j)).foldl
      (fun (m : Option Nat) n => some (min n (m.getD n))) none
    match level with
    | some n => SMap.set 0 (p.hdr.vc * 4096 + p.hdr.job) (max n (x.jobBytes p.hdr.vc p.hdr.job)) x.injected
    | none => x.injected

/-- Remove the first packet equal to p. -/
def dropPkt (p : Pkt) : List Pkt → List Pkt
  | [] => []
  | q :: qs => if q = p then qs else q :: dropPkt p qs

/-- Whether received entries are held here, by a square that drains its overflow area or behind a full conflict queue: the units of
VC2 are not returned meanwhile (R79, R166). -/
def State.fabricHeld (s : State) : Bool :=
  (s.rook.any fun p => !p.2.held.isEmpty) ||
  (s.scs.any fun p => (List.range 16).any fun b => decide (32 < (p.2.queue.filter fun u => scsBank u.slot == b).length))

/-- The credits a port has to return, at most four a flit: VC × 2 + CLASS, units (R307, Table 13.1). -/
def State.creditsDue (s : State) (x : Port) : List (Nat × Nat) :=
  ((x.owed.filter fun c => c.2 != 0 && !(s.fabricHeld && c.1 / 2 == 2)).map fun c => (c.1, min c.2 4095)).take 4

/-- The last FSEQ accepted from the partner. -/
def Port.lastRx (x : Port) : Nat := (x.rxNext + 4095) % 4096

/-- A flit of a port with the link unit of the moment; FSEQ of the last DATA flit sent (Table 13.1). -/
def Port.ctrl (x : Port) (ftype : Nat) : Flit := { ftype := ftype, fseq := (x.txNext + 4095) % 4096, ack := x.lastRx }

/-- Send a flit on a port, with the credits due if it is a DATA or an IDLE flit: they are returned with it (R300, R307). -/
def State.sendFlit (s : State) (port : Nat) (f : Flit) : State :=
  let x := s.port port
  let creds := if f.ftype ≤ 1 then s.creditsDue x else []
  let owed := creds.foldl (fun l c => SMap.set 0 c.1 (SMap.get 0 c.1 l - c.2) l) x.owed
  (s.setPort port { x with owed := owed, ackSent := f.ack }).emit (.flit port { f with creds := creds })

/-- Send the units that wait as one DATA flit, which the retry buffer keeps (R300, R302). -/
def State.sendData (s : State) (port : Nat) : State :=
  let x := s.port port
  let (now, later) := takeUnits 31 x.txPart
  let f : Flit := { fseq := x.txNext, ack := x.lastRx, creds := s.creditsDue x, parts := now }
  ((s.setPort port { x with txPart := later, txNext := (x.txNext + 1) % 4096, retry := x.retry ++ [f] }).sendFlit port f).count64
    (plyPg port) PLY.FLITS_TX 1

/-- Send DATA flits while more than n units wait. -/
def State.sendFull (s : State) (port n : Nat) : Nat → State
  | 0 => s
  | k + 1 => if partUnits (s.port port).txPart > n then (s.sendData port).sendFull port n k else s

/-- Start one packet on a port: its units follow those that wait for a flit (R300). -/
def State.startPkt (s : State) (port : Nat) (p : Pkt) : State :=
  let x := s.port port
  let x' := { x with
    queue := dropPkt p x.queue
    txPart := x.txPart ++ [{ pkt := p, first := 0, count := p.units }]
    used := SMap.set 0 p.cls (SMap.get 0 p.cls x.used + p.units) x.used
    sent := sentAfter x p
    injected := if p.via.isSome then x.injected
      else SMap.set 0 (p.hdr.vc * 4096 + p.hdr.job) (x.jobBytes p.hdr.vc p.hdr.job + 16 * p.units) x.injected }
  ((s.setPort port x').emit (.packet port { p with via := none })).sendFull port 30 (p.units / 31 + 1)

/-- Send whatever may be sent on a port. -/
def State.pumpFuel (s : State) (port : Nat) : Nat → State
  | 0 => s
  | n + 1 =>
    if s.portUp port then
      match s.nextPkt port with
      | some p => (s.startPkt port p).pumpFuel port n
      | none => s
    else s

/-- An IDLE flit carries credits and an ACK that no DATA flit has carried (R300, R307). -/
def State.sendIdle (s : State) (port : Nat) : Nat → State
  | 0 => s
  | n + 1 =>
    let x := s.port port
    if s.portUp port && (!(s.creditsDue x).isEmpty || x.ackSent != x.lastRx) then
      (s.sendFlit port (x.ctrl 1)).sendIdle port n
    else s

/-- Send whatever may be sent on a port; a flit not full leaves when no packet can follow (R300). -/
def State.pump (s : State) (port : Nat) : State :=
  ((s.pumpFuel port (s.port port).queue.length).sendFull port 0 2).sendIdle port 5

/-- Route a packet onto none of the ports in `but` and queue it on its port; without a route it is discarded (R315). -/
def State.forwardBut (s : State) (but : List Nat) (p : Pkt) : State :=
  match s.route but p.hdr.dstMod p.hdr.vc p.hdr.upper with
  | none => (s.count fabPg FAB.NO_ROUTE 1).err fabPg PLY.E_NO_ROUTE p.hdr.dstMod
  | some (port, up) =>
    let x := s.port port
    (s.setPort port { x with
      queue := x.queue ++ [{ p with hdr := { p.hdr with upper := up } }], injected := s.jobJoins x p }).pump port

/-- Route a packet of this module, or one that arrived on a port, which it never leaves by (R315). -/
def State.forward (s : State) (from_ : Option Nat) (p : Pkt) : State := s.forwardBut from_.toList { p with via := from_ }

/-! ## Sending (R306, R309, R310, R312) -/

/-- The stream toward a module on a VC. -/
def State.txStream (s : State) (dst vc : Nat) : TxStream := SMap.get {} (dst * 8 + vc) s.fab.tx
def State.setTx (s : State) (dst vc : Nat) (x : TxStream) : State :=
  { s with fab := { s.fab with tx := SMap.set {} (dst * 8 + vc) x s.fab.tx } }

/-- Bytes of the resend store in use: streamed packets and RED_UPs not yet answered (R310, R358). -/
def State.e2eUsed (s : State) : Nat :=
  s.fab.tx.foldl (fun n t => n + t.2.copies.foldl (fun m c => m + 32 + 16 * c.2.1.hdr.len) 0) 0 +
  s.red.foldl (fun n x => n + x.2.ups.foldl (fun m u => m + 32 + 16 * u.2.1.hdr.len) 0) 0

/-- E2E_TIMEOUT in beats, and E2E_TRIES (Table 13.12). -/
def State.e2eTimeout (s : State) : Nat := bits (s.reg fabPg FAB.E2E_CONFIG) 15 0
def State.e2eTries (s : State) : Nat := bits (s.reg fabPg FAB.E2E_CONFIG) 31 24

/-- Whether the resend store has room for a packet. -/
def State.e2eRoom (s : State) (p : Pkt) : Bool :=
  decide (s.e2eUsed + 32 + 16 * p.hdr.len ≤ s.reg fabPg FAB.E2E_SIZE)

/-- Put a packet on its stream and route it. -/
def State.inject (s : State) (p : Pkt) : State :=
  let dst := p.hdr.dstMod
  let s := s.count64 fabPg FAB.PKTS_INJECTED 1
  if p.body.streamed then
    let t := s.txStream dst p.hdr.vc
    let p := { p with hdr := { p.hdr with seq := t.next } }
    let s := s.setTx dst p.hdr.vc
      { t with next := (t.next + 1) % 2 ^ 24, copies := t.copies ++ [(t.next, p, s.beat)] }
    (s.owe .resend true (32 + 16 * p.hdr.len)).forward none p
  else s.forward none p

/-- The final destination after substitution (R312): none when the packet is dropped for a lost module. -/
def State.substitute (s : State) (dst : Nat) : Option Nat :=
  match SMap.find dst s.fab.lost with
  | none => some dst
  | some (some m) => if s.isLost m then none else some m
  | some none => none

/-- Send one packet of this module to a module that is not lost; a streamed one waits while the resend store is full (R310). -/
def State.sendOne (s : State) (d : Nat) (p : Pkt) : State :=
  if d = s.modId then { s with fab := { s.fab with loop := s.fab.loop ++ [p] } }
  else if p.body.streamed && (!(s.e2eRoom p) || !(s.fab.waiting.isEmpty)) then
    ({ s with fab := { s.fab with waiting := s.fab.waiting ++ [p] } } : State).countFree fabPg FAB.INJECT_WAIT_CYCLES
  else s.inject p

/-- Send a message from this module, in as many packets as it needs (R305). One addressed to the module itself waits in
`fab.loop`; one for a lost module goes to its substitute, or is dropped with a NACK to its sender (R312). -/
def State.sendPkt (s : State) (p : Pkt) : State :=
  let p := { p with hdr := { p.hdr with vc := p.body.vc } }
  match s.substitute p.hdr.dstMod with
  | none =>
    let s := (s.count fabPg FAB.LOST_DROPS 1).err fabPg PLY.E_LOST_DROP p.hdr.dstMod
    let (c, t) := p.body.ids
    let nk : Pkt := { hdr := { p.hdr with dstMod := s.modId, dstDie := p.hdr.srcDie, dstSq := p.hdr.srcSq,
                                          srcMod := s.modId, vc := 1, len := 1, echk := false },
                      body := .nack c t 0x0021 }
    { s with fab := { s.fab with loop := s.fab.loop ++ [nk] } }
  | some d => ({ p with hdr := { p.hdr with dstMod := d } } : Pkt).packets.foldl (fun s p => s.sendOne d p) s

/-- Send what waited for the resend store, oldest first, while it fits (R310). -/
def State.drainWaiting (s : State) : Nat → State
  | 0 => s
  | n + 1 =>
    match s.fab.waiting with
    | [] => s
    | p :: ps =>
      if s.e2eRoom p then (({ s with fab := { s.fab with waiting := ps } } : State).inject p).drainWaiting n
      else s

/-- Who asks, for a command of a queue: the response will copy its square's epoch (R375). -/
def State.orgOf (s : State) (msq q : Nat) : Org := { mod := s.modId, msq := msq, q := q, epoch := s.unitEpoch msq }

/-- The epoch last learned of a member's square (R375); a square of this module has its own. -/
def State.epochFor (s : State) (m msq : Nat) : Nat :=
  if m = s.modId then s.unitEpoch msq else SMap.get 0 (m * 512 + msq) s.bnd.learned

/-- Send a message from a unit of this module: from die and square, to a module's die and square (R305, R306). -/
def State.send (s : State) (srcDie srcSq dst dstDie dstSq job : Nat) (b : Body) : State :=
  let sq := decide (dstDie < 6)
  s.sendPkt
    { hdr := { dstMod := dst, dstDie := dstDie, dstSq := dstSq, srcMod := s.modId, srcDie := srcDie, srcSq := srcSq,
               job := job, echk := sq,
               epoch := if sq then s.epochFor dst (dstDie * 64 + dstSq)
                 else if srcDie < 6 then s.unitEpoch (srcDie * 64 + srcSq) else 0 },
      body := b }

/-- Send from a square to a fabric die F0 of a module. -/
def State.sendF0 (s : State) (msq dst job : Nat) (b : Body) : State := s.send (msq / 64) (msq % 64) dst 6 0 job b

/-- A response to a request's square: it copies the request's EPOCH (R375). -/
def State.respond (s : State) (org : Org) (job : Nat) (b : Body) : State :=
  s.sendPkt
    { hdr := { dstMod := org.mod, dstDie := org.msq / 64, dstSq := org.msq % 64, srcMod := s.modId, srcDie := 6, srcSq := 0,
               job := job, echk := true, epoch := org.epoch },
      body := b }

/-- Answer a packet's sender; a response copies EPOCH from its request (R375). -/
def State.reply (s : State) (p : Pkt) (b : Body) : State :=
  s.sendPkt
    { hdr := { dstMod := p.hdr.srcMod, dstDie := p.hdr.srcDie, dstSq := p.hdr.srcSq, srcMod := s.modId,
               srcDie := p.hdr.dstDie, srcSq := p.hdr.dstSq, job := p.hdr.job, echk := decide (p.hdr.srcDie < 6),
               epoch := p.hdr.epoch },
      body := b }

/-- Refuse a packet with a status code (R306). -/
def State.nackPkt (s : State) (p : Pkt) (status : Nat) : State :=
  let (c, t) := p.body.ids
  s.reply p (.nack c t status)

/-! ## Arrival (R306, R309) -/

def State.rxStream (s : State) (src vc : Nat) : RxStream := SMap.get {} (src * 8 + vc) s.fab.rx
def State.setRx (s : State) (src vc : Nat) (x : RxStream) : State :=
  { s with fab := { s.fab with rx := SMap.set {} (src * 8 + vc) x s.fab.rx } }

/-- Acknowledge a stream cumulatively (R309). -/
def State.ackStream (s : State) (src vc : Nat) : State :=
  let x := s.rxStream src vc
  let s := s.setRx src vc { x with due := 0 }
  s.sendPkt { hdr := { dstMod := src, srcMod := s.modId }, body := .e2eAck vc ((x.next + 2 ^ 24 - 1) % 2 ^ 24) }

/-- Whether a packet's fields are well formed for this module (R306). -/
def State.pktGood (s : State) (p : Pkt) : Bool :=
  decide (p.hdr.vc = p.body.vc) && diePresent s.variant p.hdr.dstDie &&
  (decide (p.hdr.dstDie ≥ 6 → p.hdr.dstSq = 0)) && decide (p.hdr.dstSq < 64) && typeVc p.body.type p.body.vc

/-- Whether the destination square refuses the packet for its epoch (R306, R374). -/
def State.epochBad (s : State) (p : Pkt) : Bool :=
  decide (p.hdr.dstDie < 6) &&
  (s.isStale (p.hdr.dstDie * 64 + p.hdr.dstSq) ||
    (p.hdr.echk && decide (s.unitEpoch (p.hdr.dstDie * 64 + p.hdr.dstSq) ≠ p.hdr.epoch)))

/-- Discard a malformed packet (R306). -/
def State.badPacket (s : State) (p : Pkt) : State :=
  (s.count fabPg FAB.BAD_PACKETS 1).err fabPg PLY.E_BAD_PACKET p.hdr.srcMod

/-- Hand a packet to its unit, or refuse it for its epoch; a NACK is not refused again. -/
def State.handOver (s : State) (handle : State → Pkt → State) (p : Pkt) : State :=
  if s.epochBad p then
    match p.body with
    | .nack .. => s
    | _ => s.nackPkt p 0x0010
  else handle s p

/-- A packet from another module is delivered. -/
def State.accept (s : State) (handle : State → Pkt → State) (p : Pkt) : State :=
  (s.count64 fabPg FAB.PKTS_DELIVERED 1).handOver handle p

/-- Deliver, in order, the held packets that have become next; every 64 deliveries the stream is acknowledged. -/
def State.drainHeld (s : State) (handle : State → Pkt → State) (src vc : Nat) : Nat → State
  | 0 => s
  | n + 1 =>
    let x := s.rxStream src vc
    match x.held.find? fun p => p.hdr.seq == x.next with
    | none => s
    | some p =>
      let s := s.setRx src vc { next := (x.next + 1) % 2 ^ 24, held := dropPkt p x.held, due := x.due + 1 }
      let s := s.accept handle p
      let s := if (s.rxStream src vc).due ≥ 64 then s.ackStream src vc else s
      s.drainHeld handle src vc n

/-- A packet arrives at its destination module: streamed packets are delivered once each and in SEQ order (R309). One this
module sent to itself waits in `fab.loop` and crosses no link. -/
def State.arrive (s : State) (handle : State → Pkt → State) (p : Pkt) : State :=
  if p.hdr.dstMod ≠ s.modId then s
  else if p.hdr.srcMod = s.modId then
    if s.fab.loop.contains p then
      ({ s with fab := { s.fab with loop := dropPkt p s.fab.loop } } : State).handOver handle p
    else s
  else if !(s.pktGood p) then s.badPacket p
  else if !(p.body.streamed) then s.accept handle p
  else
    let x := s.rxStream p.hdr.srcMod p.hdr.vc
    let ahead := (p.hdr.seq + 2 ^ 24 - x.next % 2 ^ 24) % 2 ^ 24
    if ahead ≥ 2 ^ 23 then (s.count fabPg FAB.STREAM_DUPS 1)
    else if ahead > 4096 then s
    else if x.held.any fun h => h.hdr.seq == p.hdr.seq then s.count fabPg FAB.STREAM_DUPS 1
    else if ahead ≠ 0 ∧ (s.fab.rx.foldl (fun n r => n + r.2.held.length) 0) ≥ Config.reorderStore then s
    else
      let s := s.setRx p.hdr.srcMod p.hdr.vc { x with held := x.held ++ [p] }
      s.drainHeld handle p.hdr.srcMod p.hdr.vc (x.held.length + 1)

end Sys2Proof.Machine
end

