-- ==== Sys2Proof/Machine/Operands.lean ====
section
/-! DEFINITION. Descriptor fields (Table 10.1), and reading and writing arrays of elements in square memory. -/

namespace Sys2Proof

/-- Word i of a descriptor. -/
def Desc.w (d : Desc) (i : Nat) : Nat := ((d[i]?).getD 0).toNat

/-- Word i of a descriptor's body: words 8-15 (R222). -/
def Desc.b (d : Desc) (i : Nat) : Nat := d.w (8 + i)

/-- Bits [hi:lo] of header word i. -/
def Desc.hf (d : Desc) (i hi lo : Nat) : Nat := d.w i / 2 ^ lo % 2 ^ (hi + 1 - lo)

/-- Bits [hi:lo] of body word i. -/
def Desc.f (d : Desc) (i hi lo : Nat) : Nat := d.b i / 2 ^ lo % 2 ^ (hi + 1 - lo)

/-- Bit n of body word i. -/
def Desc.bitB (d : Desc) (i n : Nat) : Bool := (d.b i).testBit n

/-! ### The header (Table 10.1) -/

def Desc.job (d : Desc) : Nat := d.hf 0 27 16
def Desc.sigEn (d : Desc) : Bool := (d.w 0).testBit 15
def Desc.cqEn (d : Desc) : Bool := (d.w 0).testBit 14
def Desc.cqErrOnly (d : Desc) : Bool := (d.w 0).testBit 13
def Desc.dep (d : Desc) : Bool := (d.w 0).testBit 12
def Desc.dlEn (d : Desc) : Bool := (d.w 0).testBit 11
def Desc.opcode (d : Desc) : Nat := d.hf 0 7 0
def Desc.epoch (d : Desc) : Nat := d.hf 1 31 16
def Desc.cq (d : Desc) : Nat := d.hf 1 11 0
def Desc.sigFabric (d : Desc) : Bool := (d.w 2).testBit 31
def Desc.sigDie (d : Desc) : Nat := d.hf 2 30 28
def Desc.sigObj (d : Desc) : Nat := d.hf 2 11 0
def Desc.tag (d : Desc) : Nat := d.hf 3 23 0
def Desc.notBefore (d : Desc) : Nat := d.w 4 + d.w 5 * 2 ^ 32
def Desc.deadline (d : Desc) : Nat := d.w 6 + d.w 7 * 2 ^ 32

/-- Whether a reserved header bit is set (Table 10.1). -/
def Desc.rsvHeader (d : Desc) : Bool :=
  d.hf 0 31 28 != 0 || d.hf 0 10 8 != 0 || d.hf 1 15 12 != 0 || d.hf 2 27 12 != 0 || d.hf 3 31 24 != 0

/-- The opcodes that are assigned (Table 10.2 and the chapters' own lists). -/
def opcodeKnown (o : Nat) : Bool :=
  decide (o ≤ 1) || (decide (8 ≤ o) && decide (o ≤ 0x0E)) || o == 0x10 || o == 0x11 || o == 0x18 || o == 0x19 ||
  o == 0x20 || o == 0x28 || o == 0x29 || (decide (0x30 ≤ o) && decide (o ≤ 0x35)) || o == 0x40 || o == 0x41 ||
  (decide (0x50 ≤ o) && decide (o ≤ 0x55)) || (decide (0x60 ≤ o) && decide (o ≤ 0x65)) || o == 0x70 ||
  o == 0x80 || o == 0x81 || (decide (0x90 ≤ o) && decide (o ≤ 0x92))

/-- Whether every one of the body words of a list is zero. -/
def Desc.zeroWords (d : Desc) (l : List Nat) : Bool := l.all fun i => d.b i == 0

end Sys2Proof

namespace Sys2Proof.Machine

/-! ### Arrays of elements -/

/-- Cut bytes into little-endian numbers of n bytes. -/
def elems (n : Nat) (bs : List Byte) : List Nat := (chunks n bs).map leNat

/-- Bytes of a list of codes of n bytes each. -/
def elemBytes (n : Nat) (cs : List Nat) : List Byte := (cs.map (leBytes n)).flatten

/-- Element codes read from square memory, and the indices of those that lie in an uncorrectable word. -/
structure ElemRes where
  st    : State
  codes : List Nat := []
  ue    : List Nat := []

/-- Indices i < count for which element i of n bytes at address a touches a word of the list. -/
def ueElems (a n count : Nat) (ue : List Nat) : List Nat :=
  if ue.isEmpty then [] else
  (List.range count).filter fun i =>
    ue.any fun w => decide (w * 16 < a + i * n + n ∧ a + i * n < w * 16 + 16)

/-- Read `count` elements of n bytes from a square's memory. -/
def State.readElems (s : State) (msq off n count : Nat) : ElemRes :=
  let r := s.sqRead msq off (n * count)
  { st := r.st, codes := elems n r.data, ue := ueElems (sqmAddr msq off) n count r.ue }

end Sys2Proof.Machine
end

