-- ==== Sys2Proof/WellFormed.lean ====
section
/-! DEFINITION. When a command is well formed: its operands lie in the ranges the manual gives them. What the part does
with an operand out of range is the meaning's own affair; these are checks on the term. -/

namespace Sys2Proof

/-- A descriptor is sixteen words (R222). -/
def Desc.wf (d : Desc) : Bool := d.length == 16

/-- A queue ID: die × 32,768 + queue number, on a compute die (R217). -/
def qWf (q : Nat) : Bool := decide (q < 6 * 32768)

/-- A descriptor command: queue and descriptor, with the opcodes its row stands for. -/
def cmdWf (q : Nat) (d : Desc) (ops : List Nat) : Bool :=
  qWf q && d.wf && ops.contains ((d.head?.getD 0).toNat % 256)

/-- A page of the register space: eight dies of 16,384 pages (R434). -/
def pageWf (page : Nat) : Bool := decide (page < 8 * 16384)

/-- A module ID: 15 bits (R21). -/
def modWf (m : Nat) : Bool := decide (m < 2 ^ 15)

/-- A Ply port (R446), a host port, a compute die, any die, a module square number, a stack. -/
def portWf (p : Nat) : Bool := decide (p < 24)
def hxWf (p : Nat) : Bool := decide (p < 2)
def cdieWf (d : Nat) : Bool := decide (d < 6)
def dieWf (d : Nat) : Bool := decide (d < 8)
def msqWf (m : Nat) : Bool := decide (m < 384)
def stackWf (k : Nat) : Bool := decide (k < 12)

/-- A line of HBM: its address is a multiple of 64 (R272). -/
def lineWf (a : Nat) : Bool := a % 64 == 0 && decide (a < 12 * 0xC00000000)

/-- A 64-byte flit, or the 256 bytes a flit occupies on the wire (R300). -/
def flitWf (f : List Byte) : Bool := decide (f.length ≤ 512)

/-- A packet header's fields fit Table 13.4. -/
def Hdr.wf (h : Hdr) : Bool :=
  modWf h.dstMod && modWf h.srcMod && dieWf h.dstDie && dieWf h.srcDie && decide (h.dstSq < 64) &&
  decide (h.srcSq < 64) && decide (h.vc < 8) && decide (h.len < 512) && decide (h.job < 4096) &&
  decide (h.seq < 2 ^ 24) && decide (h.epoch < 65536)

/-- A packet of one of the TYPEs its row stands for, or a part of a message of that TYPE. -/
def pktWf (p : Pkt) (type : Nat) (types : Body → Bool) : Bool := p.hdr.wf && p.via.isNone && (types p.body || p.body.partOf type)

/-- A row's name: 12-bit job, table number, 40-bit row number. -/
def RowKey.wf (k : RowKey) : Bool := decide (k.job < 4096) && decide (k.table < 4096) && decide (k.row < 2 ^ 40)

/-- Whether a command is well formed. -/
def Instr.wf : Instr → Bool
  | .nop q d => qWf q && d.wf && (d.opcode == 0 || !(opcodeKnown d.opcode))
  | .fence q d => cmdWf q d [0x01]
  | .arbInit q d => cmdWf q d [0x08]
  | .arbSignal q d => cmdWf q d [0x09]
  | .arbWaitGe q d => cmdWf q d [0x0A]
  | .arbTake q d => cmdWf q d [0x0B]
  | .arbBarrier q d => cmdWf q d [0x0C]
  | .arbFbarrier q d => cmdWf q d [0x0D]
  | .arbFsignal q d => cmdWf q d [0x0E]
  | .dmaCopy q d => cmdWf q d [0x10]
  | .dmaFill q d => cmdWf q d [0x11]
  | .ramp q d => cmdWf q d [0x18]
  | .pwrSleep q d => cmdWf q d [0x19]
  | .matmul q d => cmdWf q d [0x20]
  | .scsReadout q d => cmdWf q d [0x28]
  | .scsClear q d => cmdWf q d [0x29]
  | .vxMap q d => cmdWf q d [0x30]
  | .vxAgg q d => cmdWf q d [0x31]
  | .vxConvert q d => cmdWf q d [0x32]
  | .vxReduce q d => cmdWf q d [0x33]
  | .vxUpdate q d => cmdWf q d [0x34]
  | .vxRatio q d => cmdWf q d [0x35]
  | .kntSample q d => cmdWf q d [0x40]
  | .aliasBuild q d => cmdWf q d [0x41]
  | .rookGather q d => cmdWf q d [0x50]
  | .rookScatter q d => cmdWf q d [0x51]
  | .rookStore q d => cmdWf q d [0x52]
  | .rookSettle q d => cmdWf q d [0x53]
  | .rookRelease q d => cmdWf q d [0x54]
  | .rookDrain q d => cmdWf q d [0x55]
  | .plcTable q d => cmdWf q d [0x60]
  | .plcLoad q d => cmdWf q d [0x61]
  | .plcDrop q d => cmdWf q d [0x62]
  | .plcStep q d => cmdWf q d [0x63]
  | .plcKeep q d => cmdWf q d [0x64]
  | .plcRollback q d => cmdWf q d [0x65]
  | .gmbLayer q d => cmdWf q d [0x70]
  | .collAllreduce q d => cmdWf q d [0x80]
  | .collNorm q d => cmdWf q d [0x81]
  | .bndResync q d => cmdWf q d [0x90]
  | .bndShadow q d => cmdWf q d [0x91]
  | .bndSeal q d => cmdWf q d [0x92]
  | .descriptorFetch q => qWf q
  | .prioAging q => qWf q
  | .commandComplete _ => true
  | .deadlineExpire q => qWf q
  | .beat _ => true
  | .scheduledCommit page => pageWf page
  | .castleBind => true
  | .castleComplete => true
  | .commitGo page _ _ => pageWf page
  | .commitArm page _ _ _ => pageWf page
  | .cancel page _ => pageWf page
  | .discard page _ => pageWf page
  | .errStatusClear page _ _ => pageWf page
  | .cntClear page _ _ => pageWf page
  | .counterLatchRead page off _ => pageWf page && decide (off < 4096) && off % 4 == 0
  | .registerWrite addr _ width _ => decide (addr < 2 ^ 48) && (width == 4 || width == 8)
  | .doorbellWrite q _ width => qWf q && (width == 4 || width == 8)
  | .qHeadWrite die _ _ => cdieWf die
  | .resume die _ _ => cdieWf die
  | .qselWrite die _ _ => cdieWf die
  | .cqselWrite die _ _ => cdieWf die
  | .cqTailWrite die _ _ => cdieWf die
  | .rlogTailWrite msq _ _ => msqWf msq
  | .plcJobSelWrite _ _ => true
  | .bndJobSelWrite _ _ => true
  | .ctxSelWrite rdie _ _ => decide (rdie < 2)
  | .decSelWrite _ _ => true
  | .ueLogClear stack _ _ => stackWf stack
  | .scsWindowWrite addr => decide (addr < 2 ^ 46)
  | .lostDeclare m _ => modWf m
  | .lostDeclareSub m _ => modWf m
  | .lostClear m _ => modWf m
  | .assume _ => true
  | .refill _ => true
  | .handback => true
  | .resyncCmd _ _ => true
  | .recal _ => true
  | .invalidate _ => true
  | .sleepWake k _ _ => decide (k < 64)
  | .attReport _ => true
  | .attChain _ => true
  | .attDone => true
  | .fwuStart _ => true
  | .lock _ => true
  | .enroll _ => true
  | .serveRecovery target _ => modWf target
  | .raiseSvn _ => true
  | .fwuImageComplete => true
  | .fwuVerifyDone => true
  | .fwuWriteDone _ => true
  | .mgtModuleReset _ => true
  | .mgtDieReset die _ => dieWf die
  | .regionSet _ => true
  | .regionClear _ => true
  | .worldSet _ => true
  | .recordSubmit rec => decide (rec.length ≤ 65536)
  | .entdaa addr => decide (addr < 128)
  | .bypass die => dieWf die
  | .idcode die => dieWf die
  | .samplePreload die => dieWf die
  | .extest die => dieWf die
  | .clamp die => dieWf die
  | .highz die => dieWf die
  | .trst => true
  | .modResetAssert => true
  | .modResetRelease => true
  | .pwrGoodFall => true
  | .underVoltageTrip _ => true
  | .overVoltageTrip _ => true
  | .reversePolarity => true
  | .uvWarn _ => true
  | .ovWarn _ => true
  | .coolantStop => true
  | .coolantClocksStop => true
  | .coolantWcbFlush => true
  | .coolantSelfRefresh => true
  | .thermalTrip die => dieWf die
  | .thermalTripRailsOff => true
  | .coolantOkRise => true
  | .holdupChange _ => true
  | .twinSenseChange _ => true
  | .twinWaitTimeout => true
  | .refclkLoss port => portWf port
  | .hostLinkDown port => hxWf port
  | .cxlLinkDown port => hxWf port
  | .opticalInsert port _ => portWf port
  | .opticalRemove port => portWf port
  | .bootStageDone _ => true
  | .stageBudgetExpire _ => true
  | .recoveryAnnounce => true
  | .recoveryImageDone _ => true
  | .portTrainDone port r => portWf port && modWf r.partner && portWf r.pport
  | .laneFault port lane => portWf port && decide (lane < 8)
  | .retrainDone port r => portWf port && decide (r.lanes < 256) && decide (r.ack < 4096)
  | .dataFlitRx port flit => portWf port && flitWf flit
  | .nakRx port ack => portWf port && decide (ack < 4096)
  | .markSend => true
  | .markRx port m => portWf port && modWf m.master
  | .tempoHoldover => true
  | .stopFlitRx port m _ => portWf port && modWf m
  | .packetForward port p => (match port with | some x => portWf x | none => true) && p.hdr.wf
  | .readReq p => pktWf p 0x01 fun | .readReq .. => true | _ => false
  | .readRsp p => pktWf p 0x02 fun | .readRsp .. => true | _ => false
  | .replicaRequest p => pktWf p 0x28 fun | .replicaRequest .. => true | _ => false
  | .replicaGrant p => pktWf p 0x28 fun | .replicaGrant .. => true | .replicaRefuse .. => true | _ => false
  | .sampleReq p => pktWf p 0x03 fun | .sampleReq .. => true | _ => false
  | .sampleRsp p => pktWf p 0x04 fun | .sampleRsp .. => true | _ => false
  | .scatter p => pktWf p 0x05 fun | .scatter .. => true | _ => false
  | .pendingNotice p => pktWf p 0x28 fun | .pendingNotice .. => true | _ => false
  | .refresh p => pktWf p 0x28 fun | .refresh .. => true | _ => false
  | .writeAck p => pktWf p 0x06 fun | .writeAck .. => true | _ => false
  | .store p => pktWf p 0x07 fun | .store .. => true | _ => false
  | .redUp p => pktWf p 0x10 fun | .redUp .. => true | _ => false
  | .redDown p => pktWf p 0x11 fun | .redDown .. => true | _ => false
  | .barArrive p => pktWf p 0x18 fun | .barArrive .. => true | _ => false
  | .barRelease p => pktWf p 0x19 fun | .barRelease .. => true | .barEnd .. => true | _ => false
  | .fsignal p => pktWf p 0x1A fun | .fsignal .. => true | _ => false
  | .fsignalAck p => pktWf p 0x1B fun | .fsignalAck .. => true | _ => false
  | .boardRd p => pktWf p 0x20 fun | .boardRd .. => true | _ => false
  | .boardWr p => pktWf p 0x21 fun | .boardWr .. => true | _ => false
  | .boardRsp p => pktWf p 0x22 fun | .boardRsp .. => true | _ => false
  | .intr p => pktWf p 0x24 fun | .intr .. => true | _ => false
  | .hostApertureAccess port a _ data => hxWf port && [0, 2, 4].contains a.bar && decide (data.length ≤ 4096)
  | .migrationChange p => pktWf p 0x28 fun | .migChange .. => true | .migCopy .. => true | _ => false
  | .flipNotice p => pktWf p 0x28 fun | .flipNotice .. => true | _ => false
  | .epochNotice p => pktWf p 0x28 fun | .epochNotice .. => true | _ => false
  | .fwImage p => pktWf p 0x31 fun | .fwImage .. => true | _ => false
  | .fwuOutcome p => pktWf p 0x30 fun | .fwuOutcome .. => true | .announce => true | _ => false
  | .e2eAck p => pktWf p 0x38 fun | .e2eAck .. => true | _ => false
  | .e2eAckTimer srcMod vc => modWf srcMod && decide (vc < 8)
  | .nack p => pktWf p 0x3F fun | .nack .. => true | _ => false
  | .e2eResend dstMod vc => modWf dstMod && decide (vc < 8)
  | .redResend rdie rctx _ => decide (rdie < 2) && decide (rctx < 4096)
  | .redDeadlineAbort rdie rctx => decide (rdie < 2) && decide (rctx < 4096)
  | .abortGraceExpire rdie rctx => decide (rdie < 2) && decide (rctx < 4096)
  | .kntBatchTimeout _ _ => true
  | .rookReadBatchTimeout _ _ => true
  | .rookScatterBatchTimeout _ _ => true
  | .barrierTrackerGrant => true
  | .clockGate msq _ => msqWf msq
  | .sleepEnter msq => msqWf msq
  | .wakeBeat msq => msqWf msq
  | .wakeComplete msq => msqWf msq
  | .scsAddend msq slot fmt _ _ => msqWf msq && decide (slot < 65536) && decide (fmt < 8)
  | .scsQueueAbsorb msq bank => msqWf msq && decide (bank < 16)
  | .promotionResume msq bank _ => msqWf msq && decide (bank < 16)
  | .strictReadResume k => k.wf
  | .plcBoundary job => decide (job < 4096)
  | .migrationPrepare k => k.wf
  | .flipNoticeSend k => k.wf
  | .migrationTransfer k => k.wf
  | .retire k => k.wf
  | .sketchDecay => true
  | .scrubRewrite line => lineWf line
  | .patrolScrub line => lineWf line
  | .wcbEvict pc _ => decide (pc < 768)
  | .wcbFullWriteback line => lineWf line
  | .wcbBeatFlush die => cdieWf die
  | .wcbIdleWriteback line => lineWf line
  | .driftPeriod _ _ => true
  | .recalComplete => true
  | .thermalSample die _ => dieWf die
  | .hbmTempReport stack _ => stackWf stack
  | .trimRaise die msq _ => cdieWf die && msqWf msq
  | .railSettled die => dieWf die
  | .heartbeatSend => true
  | .heartbeatRx port _ _ => portWf port
  | .heartbeatTimeout => true
  | .shadowWrite p => pktWf p 0x28 fun | .shadowWrite .. => true | _ => false
  | .foldComplete job => decide (job < 4096)
  | .idleFlit port flit => portWf port && flitWf flit
  | .pendingNoticeAck p => pktWf p 0x28 fun | .pendingNoticeAck .. => true | _ => false
  | .refreshAck p => pktWf p 0x28 fun | .refreshAck .. => true | _ => false
  | .migrationCopyAck p => pktWf p 0x28 fun | .migCopyAck .. => true | _ => false
  | .replicaDrop p => pktWf p 0x28 fun | .replicaDrop .. => true | _ => false
  | .aliasBuildRequest p => pktWf p 0x28 fun | .aliasRequest .. => true | _ => false
  | .aliasBuildReport p => pktWf p 0x28 fun | .aliasReport .. => true | _ => false
  | .shadowWriteAck p => pktWf p 0x28 fun | .shadowAck .. => true | _ => false
  | .stageFailed _ => true
  | .hostLinkUp port _ _ => hxWf port
  | .cxlLinkUp port => hxWf port
  | .conventionalReset port => hxWf port
  | .stackContentsLost stack => stackWf stack
  | .returnToService isStack unit => if isStack then stackWf unit else msqWf unit
  | .startThreshold _ => true
  | .msixVectorUnmask vec => decide (vec < 2048)

end Sys2Proof
end

