-- ==== Sys2Proof/Decode.lean ====
section
/-! DEFINITION. The command a word of the opcode table's bits spells. No row of spec/opcode_table.json gives bits: a
command is no encoded word, it arrives with its operands. -/

namespace Sys2Proof

/-- The command a table word spells: none, since the table's rows give no bits. -/
def decodeTableWord (_nbits _w : Nat) : Option Instr := none

end Sys2Proof
end

