-- ==== Sys2Proof/Machine/Arbiter.lean ====
section
/-! DEFINITION. Arbiter objects: additions with their releases and grants, waits, barriers, orphaning
(11_synchronization.md). -/

namespace Sys2Proof.Machine

/-- Key of a local object of a die, and of a fabric object. -/
def localObj (die n : Nat) : Nat := die * 4096 + n
def fabricObj (n : Nat) : Nat := 6 * 4096 + n

/-- The ARB page that shows an object (R267). -/
def objPage (key : Nat) : Nat := arbPg (key / 4096)

def State.obj (s : State) (key : Nat) : ArbObj := SMap.get {} key s.arb.objs
def State.setObj (s : State) (key : Nat) (o : ArbObj) : State :=
  { s with arb := { s.arb with objs := SMap.set {} key o s.arb.objs } }

/-- The job an object is bound to: KIND 3 local, KIND 4 fabric (Table 15.1). -/
def State.objJob (s : State) (key : Nat) : Option Nat :=
  if key / 4096 = 6 then s.jobOf 4 (key % 4096) else s.jobOf 3 key

/-! ## Commands in flight -/

/-- Change the command with an id. -/
def State.mapCmd (s : State) (id : Nat) (f : Cmd → Cmd) : State :=
  { s with cmds := s.cmds.map fun c => if c.id = id then f c else c }

/-- The command with an id. -/
def State.cmd? (s : State) (id : Nat) : Option Cmd := s.cmds.find? fun c => c.id == id

/-- Whether a command has started and has not ended. -/
def State.cmdLive (s : State) (id : Nat) : Bool := s.cmds.any fun c => c.id == id && !c.done

/-! ## Waiters (Table 11.1) -/

/-- The arrivals at an object's barrier that wait for a tracker, with their masks, oldest first (R259). -/
def State.trackerWaits (s : State) (key : Nat) : List (Nat × Nat) :=
  s.arb.trackerWait.filter fun w => (s.cmd? w.1).any fun c => c.ctx == .waitObj key

/-- Waiters now held on an object: WAIT_GEs, TAKEs and barrier arrivals whose commands have not ended (Table 11.1). -/
def State.objWaiters (s : State) (key : Nat) : List Nat :=
  ((s.obj key).ges.map (·.1) ++ (s.obj key).takes ++
    ((s.arb.barriers.filter fun b => b.obj == key).flatMap fun b => b.arrived.map (·.2) ++ b.later.map (·.2)) ++
    ((s.arb.fbars.filter fun b => fabricObj b.obj == key).map fun b => b.cmd) ++
    (s.trackerWaits key).map (·.1)).filter s.cmdLive

/-- Whether a barrier instance is in progress on an object; a fabric one ends here with its command (R259, R261). -/
def State.barrierOn (s : State) (key : Nat) : Bool :=
  (s.arb.barriers.any fun b => b.obj == key) || (s.arb.fbars.any fun b => fabricObj b.obj == key && s.cmdLive b.cmd)

/-- A command's effects are in place (R227). -/
def State.finish (s : State) (id : Nat) : State := s.mapCmd id fun c => { c with done := true }

/-- An ending event stops a command; the first such event counts (R232). -/
def State.endCmd (s : State) (id : Nat) (st : Status) : State :=
  s.mapCmd id fun c => if c.done then c else { c with done := true, ended := some (c.ended.getD st) }

/-- A gated square wakes (R258). -/
def State.ungate (s : State) (msq : Nat) : State :=
  { s with pwr := { s.pwr with gated := s.pwr.gated.filter (· != msq) } }

/-- A held wait is released: its effects are in place, and its square wakes (R255, R258). -/
def State.finishWait (s : State) (id : Nat) : State :=
  let s := match s.cmd? id with
    | some c => s.ungate c.msq
    | none => s
  s.finish id

/-- Release every wait of a list. -/
def State.finishAll (s : State) (ids : List Nat) : State := ids.foldl State.finishWait s

/-- Release the waits of a list that have not ended, which RELEASES of a page counts (R267). -/
def State.releaseLive (s : State) (pg : Nat) (ids : List Nat) : State :=
  let live := ids.filter s.cmdLive
  (s.finishAll live).count pg ARB.RELEASES live.length

/-! ## Additions (R251, R256, R257) -/

/-- Release every WAIT_GE the value meets (R256). -/
def State.releaseGes (s : State) (key : Nat) : State :=
  let o := s.obj key
  let met := o.ges.filter fun w => decide (w.2 ≤ o.value)
  let s := s.setObj key { o with ges := o.ges.filter fun w => !(decide (w.2 ≤ o.value)) }
  s.releaseLive (objPage key) (met.map (·.1))

/-- Grant units to waiting TAKEs from the head, one each, up to n (R256). -/
def State.grantTakes (s : State) (key n : Nat) : State :=
  let o := s.obj key
  let k := min (min n o.value) o.takes.length
  let s := s.setObj key { o with takes := o.takes.drop k, value := o.value - k }
  s.releaseLive (objPage key) (o.takes.take k)

/-- Add n to an object, saturating, and decide its releases and grants (R251, R256, R257). -/
def State.objAdd (s : State) (key n q : Nat) : State :=
  let o := s.obj key
  let pg := objPage key
  let v := o.value + n
  let s := s.setObj key { o with value := min v 0xFFFFFFFF }
  let s := s.count64 pg ARB.SIGNALS 1
  let s := if v > 0xFFFFFFFF then (s.count pg ARB.SATURATIONS 1).err pg ARB.E_SIG_SATURATED q else s
  if o.take then s.grantTakes key n else s.releaseGes key

/-! ## Barriers (R259) -/

/-- Release the barrier instances all of whose squares have arrived; the arrivals of the next instance then begin it
(R259). -/
def State.releaseBarrier (s : State) (key : Nat) : State :=
  match s.arb.barriers.find? fun b => b.obj == key with
  | none => s
  | some b =>
    let full := (List.range 384).all fun n => !(b.mask.testBit n) || (b.arrived.any fun a => a.1 == n)
    if !full then s
    else
      let rest := s.arb.barriers.filter fun x => x.obj != key
      -- the first later arrival of each square begins the next instance
      let first := b.later.foldl (fun (acc : List (Nat × Nat)) a => if acc.any (fun x => x.1 == a.1) then acc else acc ++ [a]) []
      let later := b.later.filter fun a => !(first.contains a)
      let bars := if first.isEmpty then rest else rest ++ [{ obj := key, mask := b.mask, arrived := first, later := later }]
      let s : State := { s with arb := { s.arb with barriers := bars } }
      let s := (s.releaseLive (objPage key) (b.arrived.map (·.2))).count (objPage key) ARB.BARRIERS_DONE 1
      -- the release adds one to VALUE, as every addition does (R251)
      let q := ((b.arrived.getLast?).bind fun a => (s.cmd? a.2).map fun (c : Cmd) => c.q).getD 0
      s.objAdd key 1 q

/-- A square's arrival joins the instance in progress on an object, or the next one when it has arrived already (R259). -/
def State.barrierJoin (s : State) (key msq id : Nat) (b : Barrier) : State :=
  let b' := if b.arrived.any (fun a => a.1 == msq) then { b with later := b.later ++ [(msq, id)] }
    else { b with arrived := b.arrived ++ [(msq, id)] }
  let s : State := { s with arb := { s.arb with barriers := s.arb.barriers.map fun x => if x.obj = key then b' else x } }
  s.releaseBarrier key

/-- An arrival that waited for a tracker needs none any more: an instance of its object is in progress. One with another
mask ends (R259). TRACKER_WAIT_CYCLES counts its cycles, which are a free value (log entry 6). -/
def State.trackerJoin (s : State) (key : Nat) (w : Nat × Nat) : State :=
  match s.cmd? w.1, s.arb.barriers.find? fun b => b.obj == key with
  | some c, some b =>
    let t : State := { s with arb := { s.arb with trackerWait := s.arb.trackerWait.filter (· != w) } }
    let t := t.countFree (arbPg 6) ARB.TRACKER_WAIT_CYCLES
    if b.mask ≠ w.2 then (t.err (objPage key) ARB.E_BARRIER_MISMATCH c.q).endCmd w.1 .configInvalid
    else t.barrierJoin key c.msq w.1 b
  | _, _ => s

/-- An instance begins with an arrival; those of its object that wait for a tracker join it (R259). -/
def State.barrierBegin (s : State) (key mask msq id : Nat) : State :=
  let s : State := { s with arb := { s.arb with
    barriers := s.arb.barriers ++ [{ obj := key, mask := mask, arrived := [(msq, id)], later := [] }] } }
  (s.trackerWaits key).foldl (fun s w => s.trackerJoin key w) (s.releaseBarrier key)

/-- A square arrives at a local barrier: it joins the instance in progress, or begins one when a tracker is free, or waits
for a tracker (R259). The mask has been checked. -/
def State.barrierArrive (s : State) (key mask msq id : Nat) : State :=
  match s.arb.barriers.find? fun b => b.obj == key with
  | some b => s.barrierJoin key msq id b
  | none =>
    if s.arb.barriers.length < 256 then s.barrierBegin key mask msq id
    else { s with arb := { s.arb with trackerWait := s.arb.trackerWait ++ [(id, mask)] } }

/-! ## Orphaning (R262) -/

/-- End every waiter of a list with ORPHAN. -/
def State.orphanAll (s : State) (ids : List Nat) : State := ids.foldl (fun s i => s.endCmd i .orphan) s

/-- No barrier is in progress on an object any more, and no arrival waits to begin one. -/
def State.clearBarriers (s : State) (key : Nat) : State :=
  { s with arb := { s.arb with
    barriers := s.arb.barriers.filter fun b => b.obj != key
    fbars := s.arb.fbars.filter fun b => fabricObj b.obj != key
    trackerWait := s.arb.trackerWait.filter fun w => !((s.trackerWaits key).contains w) } }

/-- An object becomes ORPHANED: its waiters end, its tracker is freed, VALUE stays (R262). -/
def State.orphan (s : State) (key : Nat) : State :=
  let ws := s.objWaiters key
  let pg := objPage key
  let o := s.obj key
  let s := (s.clearBarriers key).setObj key { o with state := .orphaned, ges := [], takes := [] }
  let s := s.orphanAll ws
  let s := s.count pg ARB.ORPHANINGS 1
  if ws.isEmpty then s else s.err pg ARB.E_ORPHANED (key % 4096)

/-- Orphan the local objects a square owns: it was reset, found STALE or castled away (R262). -/
def State.orphanOwned (s : State) (msq : Nat) : State :=
  (s.arb.objs.filter fun p => decide (p.1 < 6 * 4096) && p.2.owner == msq && p.2.state == .active).foldl
    (fun s p => s.orphan p.1) s

/-- An object returns to UNINIT with VALUE and REST zero and no waiters: a command of another square that waited on it ends
with ORPHAN (R249, R262). -/
def State.uninit (s : State) (key : Nat) : State :=
  let s := (s.clearBarriers key).orphanAll (s.objWaiters key)
  { s with arb := { s.arb with
    objs := SMap.del key s.arb.objs
    fnodes := s.arb.fnodes.filter fun n => fabricObj n.obj != key
    stopped := s.arb.stopped.filter fun x => fabricObj x.2.1 != key } }

/-- Take a command that ended before its release out of every object's queues; a barrier arrival stays counted
(R258, R259). -/
def State.unwait (s : State) (id : Nat) : State :=
  { s with arb := { s.arb with
    objs := s.arb.objs.map fun p => (p.1, { p.2 with ges := p.2.ges.filter fun w => w.1 != id, takes := p.2.takes.filter (· != id) })
    trackerWait := s.arb.trackerWait.filter fun w => w.1 != id } }

/-! ## Header signals (R223, R234, R263) -/

/-- The signal bump of a completion: one unit to the object the header names. An object not bound to the queue's job
is skipped and counted; an ORPHANED one drops the bump (R223, R234, R263). -/
def State.headerBump (s : State) (d : Desc) (q : Nat) (job : Option Nat) : State :=
  let key := if d.sigFabric then fabricObj d.sigObj else localObj d.sigDie d.sigObj
  let absent := !d.sigFabric && !(decide (d.sigDie < s.variant.computeDies))
  if absent then (s.count (arbPg (q / 32768)) ARB.HDR_SKIPPED 1).err (arbPg (q / 32768)) ARB.E_HDR_SKIPPED q
  else if job.isNone || s.objJob key ≠ job then
    (s.count (objPage key) ARB.HDR_SKIPPED 1).err (objPage key) ARB.E_HDR_SKIPPED q
  else if (s.obj key).state = .orphaned then
    (s.count (objPage key) ARB.SIG_DROPPED 1).err (objPage key) ARB.E_SIG_DROPPED (key % 4096)
  else s.objAdd key 1 q

end Sys2Proof.Machine
end

