-- ==== Sys2Proof/Machine/Queues.lean ====
section
/-! DEFINITION. Queues: reading descriptors, starting a command under the checks of R223, completing it, doorbells
(10_commands_queues_tempo.md R217 to R235). -/

namespace Sys2Proof.Machine

/-- What a meaning answers. -/
abbrev Res := Host.Outcome State Fault Refusal

/-! ## Queue registers -/

def qDie (q : Nat) : Nat := q / 32768
def qNum (q : Nat) : Nat := q % 32768

/-- A register of a queue's window. -/
def State.qreg (s : State) (q off : Nat) : Nat := s.reg (qmgPg (qDie q)) off (qNum q)
def State.setQreg (s : State) (q off v : Nat) : State := s.setReg (qmgPg (qDie q)) off v (qNum q)

def State.qEnabled (s : State) (q : Nat) : Bool := (s.qreg q QMG.Q_CONFIG).testBit 31
def State.qHaltOnErr (s : State) (q : Nat) : Bool := (s.qreg q QMG.Q_CONFIG).testBit 30
def State.qLog2 (s : State) (q : Nat) : Nat := bits (s.qreg q QMG.Q_CONFIG) 21 17
def State.qHead (s : State) (q : Nat) : Nat := s.qreg q QMG.Q_HEAD
def State.qTail (s : State) (q : Nat) : Nat := s.qreg q QMG.Q_TAIL

/-- The module square that serves a queue (R219). -/
def State.qSquare (s : State) (q : Nat) : Nat := qDie q * 64 + bits (s.qreg q QMG.Q_CONFIG) 27 22

def State.qst (s : State) (q : Nat) : QState := SMap.get {} q s.queues
def State.setQst (s : State) (q : Nat) (x : QState) : State := { s with queues := SMap.set {} q x s.queues }

/-- PRIO now: 3 for an aged queue (R225). -/
def State.qPrio (s : State) (q : Nat) : Nat := if (s.qst q).aged then 3 else bits (s.qreg q QMG.Q_CONFIG) 29 28

/-- Descriptors available and not yet started (R218). -/
def State.qAvail (s : State) (q : Nat) : Nat := (s.qTail q + 2 ^ 32 - s.qHead q % 2 ^ 32) % 2 ^ 32

/-- Halt a queue: HALTS counts it and QUEUE_HALTED is set (R235). -/
def State.haltQueue (s : State) (q : Nat) : State :=
  let s := s.setQst q { s.qst q with halted := true }
  (s.count (qmgPg (qDie q)) QMG.HALTS 1).err (qmgPg (qDie q)) QMG.E_QUEUE_HALTED q

/-! ## Units -/

/-- The units of a square that run commands (Table 10.2). -/
inductive CUnit where
  | ctl | dma | pwr | mxu | scs | vxu | knt | rook | plc | gmb | coll | bnd
  deriving DecidableEq, Repr

/-- The unit an opcode runs on; signals, waits, NOP and FENCE occupy none. A GMB_LAYER holds the matrix unit (R205);
PLC_LOAD runs on the Rook (R175). -/
def unitOf (o : Nat) : CUnit :=
  if o < 0x10 then .ctl else if o < 0x18 then .dma else if o < 0x1C then .pwr
  else if o = 0x20 then .mxu else if o = 0x28 ∨ o = 0x29 then .scs
  else if 0x30 ≤ o ∧ o ≤ 0x35 then .vxu else if o = 0x40 ∨ o = 0x41 then .knt
  else if 0x50 ≤ o ∧ o ≤ 0x55 then .rook else if o = 0x61 then .rook else if 0x60 ≤ o ∧ o ≤ 0x65 then .plc
  else if o = 0x70 then .mxu else if 0x80 ≤ o ∧ o < 0x90 then .coll else if 0x90 ≤ o ∧ o < 0xA0 then .bnd else .ctl

/-- Whether a unit of a square takes one command at a time: those that issue work over many cycles. Signals, waits,
power, placement, collective and binding commands occupy no unit of the square. -/
def CUnit.exclusive : CUnit → Bool
  | .dma => true | .mxu => true | .scs => true | .vxu => true | .knt => true | .rook => true
  | _ => false

/-- Whether a command has left the matrix array and only waits for the Scoresheet to absorb its updates: the array is held
only by a full conflict queue (R53, R63). -/
def State.drained (s : State) (c : Cmd) : Bool :=
  unitOf c.desc.opcode == .mxu && c.ctx == .scsWait && !(s.scsStalls c.msq c.id)

/-- Whether the unit of a square can accept a command with an opcode (R63, R224, R225). -/
def State.unitFree (s : State) (msq o : Nat) : Bool :=
  !(unitOf o).exclusive ||
  !(s.cmds.any fun c => c.msq == msq && !c.done && unitOf c.desc.opcode == unitOf o && !(s.drained c))

/-- Whether every unit of a square is idle (R258, R392). -/
def State.squareIdle (s : State) (msq : Nat) : Bool :=
  !(s.cmds.any fun c => c.msq == msq && !c.done && (unitOf c.desc.opcode).exclusive)

/-! ## Starting (R223 to R225, R241, R242) -/

/-- The module's state code in MGT_STATE (Table 17.1). -/
def State.mgtState (s : State) : Nat := bits (s.reg mgtPg MGT.MGT_STATE) 31 28

/-- Whether the module is READY: commands are accepted (Table 17.1). -/
def State.ready (s : State) : Bool := s.mgtState == 2

def State.sqp (s : State) (msq : Nat) : SqPwr := SMap.get {} msq s.pwr.sq
def State.setSqp (s : State) (msq : Nat) (x : SqPwr) : State :=
  { s with pwr := { s.pwr with sq := SMap.set {} msq x s.pwr.sq } }

/-- Whether a resource is held by a castling: named by it, its bindings not yet in effect (R367). -/
def State.castled (s : State) (kind n : Nat) : Bool :=
  match s.bnd.castle with
  | some c => !c.bound && c.entries.any fun e => e.kind == kind && decide (e.first ≤ n) && decide (n < e.first + e.count)
  | none => false

/-- Whether a wait command of a queue is in progress (R255). -/
def State.qWaiting (s : State) (q : Nat) : Bool :=
  s.cmds.any fun c => c.q == q && decide (0x0A ≤ c.desc.opcode) && decide (c.desc.opcode ≤ 0x0D)

/-- Whether a command must end at step 3 of R241: its DEADLINE has begun and it is not complete. One that a check or an event
has ended already keeps that status, a wait that has been released completes (R258), and a collective's instance times its own
deadline (R353). -/
def State.overdue (s : State) (c : Cmd) : Bool :=
  c.desc.dlEn && unitOf c.desc.opcode != .coll && decide (c.desc.deadline ≤ s.beat) &&
  (!c.done || (c.ended.isNone && !(decide (0x0A ≤ c.desc.opcode) && decide (c.desc.opcode ≤ 0x0D))))

/-- Whether something due at the present beat before step 4 of R241 is outstanding: a scheduled commit or an expired
DEADLINE. -/
def State.beatBusy (s : State) : Bool :=
  (s.regs.armed.any fun a => decide (a.beat ≤ s.beat)) || s.cmds.any s.overdue

/-- Whether a queue's head command has come to its checks: it has been read, the queue runs, NOT_BEFORE has come, and the
sequencer of its square is awake and not held by a castling (R223, R242, R367, R392). -/
def State.atHead (s : State) (q : Nat) : Bool :=
  let x := s.qst q
  match x.fetched with
  | [] => false
  | d :: _ =>
    s.ready && s.qEnabled q && !x.halted && decide (d.notBefore ≤ s.beat) &&
    ((s.sqp (s.qSquare q)).sleep == .awake || (match (s.sqp (s.qSquare q)).sleep with | .entering .. => true | _ => false)) &&
    !(s.castled 0 (s.qSquare q)) && !(s.castled 1 q)

/-- Whether a queue's head command may start: DEP or FENCE is satisfied, no wait holds the queue, and its unit is free
(R225, R228, R255). -/
def State.qReady (s : State) (q : Nat) : Bool :=
  let x := s.qst q
  match x.fetched with
  | [] => false
  | d :: _ =>
    s.atHead q && !(s.qWaiting q) &&
    (!d.dep || !(s.cmds.any fun c => some c.id == x.last)) &&
    (d.opcode != 1 || !(s.cmds.any fun c => c.q == q)) &&
    s.unitFree (s.qSquare q) d.opcode

/-- The ready queues of a square, in ascending order. -/
def State.readyQueues (s : State) (msq : Nat) : List Nat :=
  (s.queues.map (·.1)).filter fun q => s.qSquare q == msq && s.qReady q

/-- The queue the sequencer serves next: the highest PRIO, round robin among equals, each PRIO with its own turn (R225). -/
def State.nextQueue (s : State) (msq : Nat) : Option Nat :=
  let l := s.readyQueues msq
  let top := l.foldl (fun m q => max m (s.qPrio q)) 0
  let l := l.filter fun q => s.qPrio q == top
  match SMap.find (msq * 4 + top) s.served with
  | some p => match l.find? fun q => decide (p < q) with
    | some q => some q
    | none => l.head?
  | none => l.head?

/-- Whether the descriptor d is the head of queue q and has come to its checks (R223). -/
def State.checkable (s : State) (q : Nat) (d : Desc) : Bool :=
  (s.qst q).fetched.head? == some d && !s.beatBusy && s.atHead q

/-- Whether the descriptor d is the head of queue q and the sequencer starts it now. -/
def State.startable (s : State) (q : Nat) (d : Desc) : Bool :=
  s.checkable q d && s.nextQueue (s.qSquare q) == some q

/-- Take the head of a queue: Q_HEAD passes it (R218). The new command is not yet in flight. -/
def State.takeHead (s : State) (q : Nat) (d : Desc) : State × Cmd :=
  let x := s.qst q
  let id := s.nextCmd
  let msq := s.qSquare q
  let halt := s.qHaltOnErr q
  let s := s.setQreg q QMG.Q_HEAD ((s.qHead q + 1) % 2 ^ 32)
  let s := s.setQst q { x with fetched := x.fetched.tail, aged := false, last := some id }
  ({ s with nextCmd := id + 1 }, { id := id, q := q, msq := msq, desc := d, halt := halt })

/-- The sequencer of a square serves a queue in its turn among those of its PRIO (R225). -/
def State.takeTurn (s : State) (q : Nat) : State :=
  { s with served := SMap.put (s.qSquare q * 4 + s.qPrio q) q s.served }

/-- Put a command in flight. -/
def State.addCmd (s : State) (c : Cmd) : State := { s with cmds := s.cmds ++ [c] }

/-- Steps 1 to 4 of R223. -/
def State.headerCheck (s : State) (c : Cmd) : Option Status :=
  let d := c.desc
  if s.jobOf 1 c.q ≠ some d.job ∨ s.jobOf 0 c.msq ≠ some d.job then some .unbound
  else if s.isStale c.msq || decide (s.unitEpoch c.msq ≠ d.epoch) then some .epochStale
  else if !(opcodeKnown d.opcode) || d.rsvHeader || (d.dlEn && decide (d.deadline ≤ d.notBefore)) ||
      (d.sigEn && !d.sigFabric && !(decide (d.sigDie < s.variant.computeDies))) then some .configInvalid
  else if d.dlEn && decide (d.deadline ≤ s.beat) then some .deadline
  else none

/-- Count and flag a refusal of R223 on the QMG page. -/
def State.refusal (s : State) (c : Cmd) (st : Status) : State :=
  let pg := qmgPg (qDie c.q)
  match st with
  | .unbound => s.count pg QMG.REFUSED_UNBOUND 1
  | .epochStale => s.count pg QMG.REFUSED_STALE 1
  | .configInvalid => s.err pg QMG.E_DESC_INVALID c.q
  | _ => s

/-- The checks of steps 5 and 6 of R223: `none` when the command runs, else the status it completes with (EMPTY or OK
under R229, CONFIG_INVALID, ORPHAN under R263). `body` is what the body alone decides; `rest` is what the command's records in
memory decide and what commands before it make, with the state that reading them leaves. -/
structure Check where
  body : State → Cmd → Option Status
  rest : State → Cmd → State × Option Status

/-- Start the command d of queue q in its turn, its header and body checked: the rest of R223, then its own effect. -/
def State.start (s : State) (q : Nat) (d : Desc) (check : Check) (run : State → Cmd → State) : State :=
  let (s, c) := (s.takeTurn q).takeHead q d
  match check.rest s c with
  | (s, some st) => s.addCmd { c with done := true, ended := some st }
  | (s, none) => run (s.count64 (qmgPg (qDie q)) QMG.CMDS_STARTED 1) c

/-- A command is about to start: its square's clocks run (R258), and a beat in which a unit works is no idle beat of its die
(R402). -/
def State.beginWork (s : State) (q : Nat) (d : Desc) : State :=
  let die := s.qSquare q / 64
  { s with pwr := { s.pwr with
      gated := s.pwr.gated.filter (· != s.qSquare q)
      worked := if !(unitOf d.opcode).exclusive || s.pwr.worked.contains die then s.pwr.worked else s.pwr.worked ++ [die] } }

/-- The command d of queue q: once it is the head and its NOT_BEFORE has come, the checks of R223 of its header and its body may
refuse it, whatever holds it back; one that passes them starts when its turn comes, under the checks that depend on what the
commands before it leave (log entry 82). Where neither may happen now nothing changes (log entry 1). `check` is steps 5 and 6,
`run` the command's own effect, which puts it in flight. A square that starts a command is awake (R258). -/
def State.command (s : State) (q : Nat) (d : Desc) (check : Check) (run : State → Cmd → State) : State :=
  if s.checkable q d then
    let (t, c) := s.takeHead q d
    match t.headerCheck c with
    | some st => (t.refusal c st).addCmd { c with done := true, ended := some st }
    | none =>
      match check.body t c with
      | some st => t.addCmd { c with done := true, ended := some st }
      | none => if s.startable q d then (s.beginWork q d).start q d check run else s
  else s

/-- A check of the body alone. -/
def pureCheck (f : State → Cmd → Option Status) : Check := { body := f, rest := fun s _ => (s, none) }

/-- A check that also asks what the commands before it have made; it reads no memory. -/
def lateCheck (f g : State → Cmd → Option Status) : Check := { body := f, rest := fun s c => (s, g s c) }

/-- The first status a list of conditions gives. -/
def firstOf : List (Bool × Status) → Option Status
  | [] => none
  | (b, st) :: r => if b then some st else firstOf r

/-! ## Interrupts (R327) -/

/-- The module ID of a slot of this board (R21, R22). -/
def State.slotMod (s : State) (slot : Nat) : Nat := s.modId / 4 * 4 + slot

/-- The host port of this module in the PCIe endpoint role, if any. -/
def State.endpointPort (s : State) : Option Nat :=
  (List.range s.variant.fabricDies).find? fun h => bits (s.reg (hxpPg h) HXP.HXP_CONFIG) 31 30 == 1

/-- Drop an interrupt (R327). -/
def State.intrDrop (s : State) (vec : Nat) : State :=
  (s.count (hxpPg 0) HXP.INTR_DROPPED 1).err (hxpPg 0) HXP.E_INTR_DROPPED vec

/-- Send the MSI-X message of a vector from a host port: a TLP (R327). -/
def State.sendMsix (s : State) (h vec : Nat) : State :=
  let e := SMap.get ({} : MsixEntry) vec s.host.msix
  ((s.count (hxpPg h) HXP.INTR_SENT 1).count64 (hxpPg h) HXP.TLP_TX 1).emit (.msix vec e.addr e.data)

/-- Raise an MSI-X vector: its message is sent, or its pending bit set while it is masked (R327). -/
def State.raiseMsix (s : State) (vec : Nat) : State :=
  match s.endpointPort with
  | none => s.intrDrop vec
  | some h =>
    if !(SMap.get ({} : MsixEntry) vec s.host.msix).masked then s.sendMsix h vec
    else if s.host.waiting.contains vec then s
    else { s with host := { s.host with waiting := s.host.waiting ++ [vec] } }

/-- An MSI-X table entry is written; a vector no longer masked whose pending bit is set is sent (R322, R327). -/
def State.setMsix (s : State) (vec : Nat) (e : MsixEntry) : State :=
  let s : State := { s with host := { s.host with msix := SMap.set {} vec e s.host.msix } }
  if !e.masked && s.host.waiting.contains vec then
    ({ s with host := { s.host with waiting := s.host.waiting.filter (· != vec) } } : State).raiseMsix vec
  else s

/-! ## Completions of host accesses (R323 to R325) -/

/-- The tags of host accesses lie above those of commands, and name the port they came through (log entry 11). -/
def hostTag : Nat := 2 ^ 96
def hostTagOf (port n : Nat) : Nat := hostTag + port * 2 ^ 64 + n
def hostPortOf (tag : Nat) : Nat := (tag - hostTag) / 2 ^ 64

/-- The completion of a host read leaves the port (R323, R324). -/
def State.hostAnswer (s : State) (port : Nat) (data : List Byte) (how : String) : State :=
  (s.count64 (hxpPg port) HXP.TLP_TX 1).emit (.host data how)

/-- An access that completes as Unsupported Request or with Completer Abort is an uncorrectable error that the port's AER logs
(Table 13.9; log entry 91). -/
def State.aerLog (s : State) (port a : Nat) : State := s.err (hxpPg port) HXP.E_AER_UNCORRECTABLE (addrInfo a)

/-- A host access meets a lost slot: a read completes with Completer Abort, a write is dropped (R324). -/
def State.hostLost (s : State) (port : Nat) (wr : Bool) (a : Nat) : State :=
  let s := ((if wr then s else s.aerLog port a).count (hxpPg port) HXP.TARGET_LOST 1).err (hxpPg port) HXP.E_TARGET_LOST (addrInfo a)
  if wr then s else s.hostAnswer port [] "completer abort"

/-- A host access meets no valid aperture: Unsupported Request (R323). -/
def State.hostMiss (s : State) (port : Nat) (wr : Bool) (off n : Nat) : State :=
  let s := ((s.aerLog port off).count (hxpPg port) HXP.APERTURE_MISS 1).err (hxpPg port) HXP.E_APERTURE_MISS (addrInfo off)
  if wr then s else s.hostAnswer port (List.replicate n 0xFF) "unsupported request"

/-- The accesses of the host that wait on a module now declared lost end (R324). -/
def State.hostGone (s : State) (m : Nat) : State :=
  let rs := s.host.reads.filter fun x => x.2.1 == m
  let ws := s.host.posted.filter fun x => x.2.1 == m
  let s : State := { s with host := { s.host with
    reads := s.host.reads.filter fun x => x.2.1 != m, posted := s.host.posted.filter fun x => x.2.1 != m } }
  let s := ws.foldl (fun s x => s.hostLost (hostPortOf x.1) true x.2.2) s
  rs.foldl (fun s x => s.hostLost (hostPortOf x.1) false x.2.2) s

/-- Whether an access of the host must wait for earlier posted writes (R325). -/
def State.hostHolds (s : State) : Bool := !s.host.posted.isEmpty || !s.host.held.isEmpty

/-- The bridge holds an access; ORDER_WAIT_CYCLES counts the wait (R325). -/
def State.hostHold (s : State) (a : HostAcc) : State :=
  ({ s with host := { s.host with held := s.host.held ++ [a] } } : State).countFree
    (hxpPg (a.port.getD (s.endpointPort.getD 0))) HXP.ORDER_WAIT_CYCLES

/-- Send an interrupt to the slot in INTR_ROUTE (R327). -/
def State.sendIntr (s : State) (vec : Nat) : State :=
  let r := s.reg (hxpPg 0) HXP.INTR_ROUTE
  let m := s.slotMod (r % 4)
  if !(r.testBit 31) || s.isLost m then s.intrDrop vec
  else if m = s.modId then s.raiseMsix vec
  else s.send 6 0 m 6 0 0 (.intr vec)

/-! ## Completion (R227, R230 to R235) -/

/-- The status code of Table 10.5. -/
def Status.code : Status → Nat
  | .ok => 0x0000 | .empty => 0x0001 | .nanSeen => 0x0002 | .epochStale => 0x0010 | .orphan => 0x0011
  | .unbound => 0x0012 | .abortStep => 0x0020 | .linkLost => 0x0021 | .deadline => 0x0022
  | .guardUncorrectable => 0x0030 | .worldViolation => 0x0031 | .configInvalid => 0x0040

/-- The status a code names; codes the device does not write read as CONFIG_INVALID (R231). -/
def Status.ofCode (n : Nat) : Status :=
  match [Status.ok, .empty, .nanSeen, .epochStale, .orphan, .unbound, .abortStep, .linkLost, .deadline,
    .guardUncorrectable, .worldViolation].find? fun s => s.code == n with
  | some s => s
  | none => .configInvalid

/-- The one status a command reports (R232). -/
def Cmd.status (c : Cmd) : Status :=
  match c.ended with
  | some st => st
  | none =>
    if c.ue then .guardUncorrectable else if c.world then .worldViolation
    else if c.cfg then .configInvalid else if c.nan then .nanSeen else .ok

/-- The counter of completed commands of a unit, its page, and the page's DESC_INVALID bit (Table 10.2 and the
register tables). -/
def doneCounter (c : Cmd) : Option (Nat × Option Nat × Nat) :=
  let die := c.msq / 64
  let o := c.desc.opcode
  if 8 ≤ o ∧ o < 0x10 then some (arbPg die, some ARB.ARB_DONE, ARB.E_DESC_INVALID)
  else if 0x10 ≤ o ∧ o < 0x18 then some (wcbPg die, some WCB.DMA_DONE, WCB.E_DESC_INVALID)
  else if 0x18 ≤ o ∧ o < 0x1C then some (pwrPg, some PWR.PWR_DONE, PWR.E_DESC_INVALID)
  else if o = 0x20 then some (mxuPg c.msq, some MXU.MATMULS_DONE, MXU.E_DESC_INVALID)
  else if o = 0x28 then some (scsPg c.msq, some SCS.READOUTS_DONE, SCS.E_DESC_INVALID)
  else if o = 0x29 then some (scsPg c.msq, none, SCS.E_DESC_INVALID)
  else if 0x30 ≤ o ∧ o ≤ 0x35 then some (vxuPg c.msq, some VXU.VX_DONE, VXU.E_DESC_INVALID)
  else if o = 0x40 ∨ o = 0x41 then some (kntPg c.msq, some KNT.KNT_DONE, KNT.E_DESC_INVALID)
  else if 0x50 ≤ o ∧ o ≤ 0x55 ∨ o = 0x61 then some (rookPg c.msq, some ROOK.ROOK_DONE, ROOK.E_DESC_INVALID)
  else if 0x60 ≤ o ∧ o ≤ 0x65 then some (plcPg, some PLC.PLC_DONE, PLC.E_DESC_INVALID)
  else if o = 0x70 then some (gmbPg c.msq, some GMB.GMB_DONE, GMB.E_DESC_INVALID)
  else if o = 0x80 ∨ o = 0x81 then
    some (redPg (c.desc.f 0 24 24), some RED.RED_DONE, RED.E_DESC_INVALID)
  else if 0x90 ≤ o ∧ o < 0xA0 then some (bndPg, some BND.BND_DONE, BND.E_DESC_INVALID)
  else none

/-- Count a completed command on its unit's page, and flag CONFIG_INVALID there. -/
def State.countDone (s : State) (c : Cmd) : State :=
  match doneCounter c with
  | none => s
  | some (pg, off, b) =>
    let s := match off with
      | some o => s.count pg o 1
      | none => s
    -- a collective's flag names its context (R362)
    if c.status = .configInvalid then s.err pg b (if c.desc.opcode / 2 = 0x40 then c.desc.f 0 23 12 else c.q) else s

/-- The words of a completion record (Table 10.3). -/
def recordWords (c : Cmd) (phase : Nat) : List Nat :=
  [ phase * 2 ^ 31 + qNum c.q * 2 ^ 16 + c.status.code,
    c.desc.opcode * 2 ^ 24 + c.desc.tag,
    min c.info0 0xFFFFFFFF, min c.info1 0xFFFFFFFF ]

/-- A register of a completion queue's window. -/
def State.cqreg (s : State) (die cq off : Nat) : Nat := s.reg (qmgPg die) off cq
def State.setCqreg (s : State) (die cq off v : Nat) : State := s.setReg (qmgPg die) off v cq

/-- Write a completion record, or drop it on a full, disabled or foreign ring (R233). -/
def State.writeRecord (s : State) (c : Cmd) : State :=
  let die := qDie c.q
  let cq := c.desc.cq
  let pg := qmgPg die
  let cfg := s.cqreg die cq QMG.CQ_CONFIG
  let job := s.jobOf 1 c.q
  if !(cfg.testBit 31) || job.isNone || s.jobOf 2 (die * 4096 + cq) ≠ job then
    (s.count pg QMG.CQ_DROPPED 1).err pg QMG.E_CQ_MISROUTED c.q
  else
    let l := bits cfg 4 0
    let head := s.cqreg die cq QMG.CQ_HEAD
    let tail := s.cqreg die cq QMG.CQ_TAIL
    if (head + 2 ^ 32 - tail) % 2 ^ 32 = 2 ^ l then (s.count pg QMG.CQ_DROPPED 1).err pg QMG.E_CQ_OVERRUN c.q
    else
      let phase := 1 - head / 2 ^ l % 2
      let a := s.cqreg die cq QMG.CQ_BASE + 16 * (head % 2 ^ l)
      let s := (s.memWrite (Req.command (job.getD 0)) a (elemBytes 4 (recordWords c phase))).st
      let s := s.setCqreg die cq QMG.CQ_HEAD ((head + 1) % 2 ^ 32)
      if cfg.testBit 30 then s.sendIntr (bits cfg 26 16) else s

/-- Whether a status is one that CQ_ERR_ONLY suppresses (Table 10.1). -/
def Status.quiet : Status → Bool
  | .ok => true | .empty => true | .nanSeen => true
  | _ => false

/-- The registers that report on the last completed command of its kind: zero where it wrote nothing (R39, R88, R116),
then what its run left. TENSOR_SCALE_LAST is among them only where a scale was chosen (log entry 45). -/
def Cmd.reports (c : Cmd) : List (Nat × Nat × Nat) :=
  let o := c.desc.opcode
  let v := vxuPg c.msq
  (if o = 0x28 ∨ o = 0x30 ∨ o = 0x32 ∨ o = 0x34 then [(v, VXU.ZERO_BLOCKS_LAST, 0), (v, VXU.VANISHED_LAST, 0)] else []) ++
  (if 0x30 ≤ o ∧ o ≤ 0x35 then [(v, VXU.NAN_POS, 0)] else []) ++
  (if o = 0x28 ∨ (o = 0x20 ∧ c.desc.f 1 30 29 = 1) then [(mxuPg c.msq, MXU.NAN_POS, 0)] else []) ++ c.posts

/-- MISS_ALARM at a layer's completion, by the GMB_ALARM then live (R212). -/
def State.missAlarm (s : State) (c : Cmd) : State :=
  match c.layer with
  | none => s
  | some l =>
    let reg := s.reg (gmbPg c.msq) GMB.GMB_ALARM
    if reg.testBit 31 && decide (0 < l.outOf) && decide (l.misses * 65536 > reg % 65536 * l.outOf) then
      s.err (gmbPg c.msq) GMB.E_MISS_ALARM c.q
    else s

/-- A command whose effects are in place completes: its record, the interrupt, the signal bump, and the halt of its
queue (R227, R233 to R235). -/
def State.complete (s : State) (c : Cmd) : State :=
  let pg := qmgPg (qDie c.q)
  let d := c.desc
  let job := s.jobOf 1 c.q
  let s : State := { s with cmds := s.cmds.filter fun x => x.id != c.id }
  let s := s.countDone c
  let s := c.reports.foldl (fun s p => s.setReg p.1 p.2.1 p.2.2) s
  let s := s.missAlarm c
  let s := if d.cqEn && !(d.cqErrOnly && c.status.quiet) then s.writeRecord c else s
  let s := if d.sigEn then s.headerBump d c.q job else s
  let s := s.count64 pg QMG.CMDS_COMPLETED 1
  let s := if c.status = .deadline then s.count pg QMG.DEADLINE_ENDS 1 else s
  let s := s.ungate c.msq
  if c.halt && decide (c.status.code ≥ 0x0010) then s.haltQueue c.q else s

/-- A square that a wake condition reaches wakes, or cancels the sleep it was about to enter (R392). -/
def State.wakeSquare (s : State) (msq : Nat) : State :=
  let x := s.sqp msq
  match x.sleep with
  | .entering .. => s.setSqp msq { x with sleep := .awake }
  | .asleep keep _ _ => s.setSqp msq { x with sleep := .waking keep s.beat }
  | _ => s

/-! ## Doorbells (R220) -/

/-- A 4-byte doorbell write to a queue. -/
def State.doorbell (s : State) (q v : Nat) : State :=
  let pg := qmgPg (qDie q)
  let room := 2 ^ s.qLog2 q - s.qAvail q
  if s.qEnabled q && decide ((v + 2 ^ 32 - s.qTail q % 2 ^ 32) % 2 ^ 32 ≤ room) then
    let s := s.setQreg q QMG.Q_TAIL v
    match (s.sqp (s.qSquare q)).sleep with
    | .entering _ true _ => s.wakeSquare (s.qSquare q)
    | .asleep _ true _ => s.wakeSquare (s.qSquare q)
    | _ => s
  else (s.count pg QMG.DB_IGNORED 1).err pg QMG.E_DB_INVALID q

end Sys2Proof.Machine
end

