-- ==== Sys2Proof/Machine/Jobs.lean ====
section
/-! DEFINITION. Member lists, ranks and the trees that barriers and reductions use (15_jobs_binding_twin.md R371,
14_in_fabric_reduction.md R341 to R344). -/

namespace Sys2Proof.Machine

/-- What the module keeps of a job. -/
def State.job (s : State) (j : Nat) : JobInfo := SMap.get {} j s.bnd.jobs
def State.setJob (s : State) (j : Nat) (x : JobInfo) : State :=
  { s with bnd := { s.bnd with jobs := SMap.set {} j x s.bnd.jobs } }

/-- Whether a job is bound on the module: at least one resource is bound to it (R364). -/
def State.jobBound (s : State) (j : Nat) : Bool := s.bnd.bound.any fun p => p.2 == j

/-- The twin's module ID (R22). -/
def State.twinId (s : State) : Nat := s.modId ^^^ 1

/-- TWIN in BND_STATE (Table 15.6). -/
def State.twin (s : State) : Nat := bits (s.reg bndPg BND.BND_STATE) 27 24
def State.setTwin (s : State) (t : Nat) : State :=
  let r := s.reg bndPg BND.BND_STATE
  s.setReg bndPg BND.BND_STATE (r - bits r 27 24 * 2 ^ 24 + t * 2 ^ 24)

/-- Whether this module carries its twin's position and shard: ASSUMED, and REFILLING until the hand-back (Table 15.6,
R381). -/
def State.carries (s : State) : Bool := s.twin == 3 || s.twin == 4

/-- Whether the twin takes shadow writes (R377, Table 15.6). -/
def State.shadowTwin (s : State) : Bool := s.twin == 0 || s.twin == 2 || s.twin == 4

/-- The module that holds a position: the member, or the substitute of a lost one (R312, R341). -/
def State.holder (s : State) (m : Nat) : Nat :=
  match SMap.find m s.fab.lost with
  | some (some x) => x
  | _ => if s.carries ∧ m = s.twinId then s.modId else m

/-- Index of the first item equal to x. -/
def indexOf (x : Nat) : List Nat → Option Nat
  | [] => none
  | y :: ys => if y = x then some 0 else (indexOf x ys).map (· + 1)

/-- This module's own position in a list (R371). -/
def State.ownRank (s : State) (l : List Nat) : Option Nat := indexOf s.modId l

/-- The ranks a list assigns to this module: its own position and, after ASSUME, its twin's (R341). -/
def State.ownRanks (s : State) (l : List Nat) : List Nat :=
  (s.ownRank l).toList ++ (if s.carries then (indexOf s.twinId l).toList else [])

/-- The ranks of a set that count as this module's: positions whose member it is, or whose lost member it substitutes
(R261, R341). -/
def State.heldRanks (s : State) (l : List Nat) : List Nat :=
  (List.range l.length).filter fun r => s.holder ((l[r]?).getD 0) == s.modId

/-- The device sets RECOVERY itself (R393). -/
def State.setRecovery (s : State) : State :=
  let s := s.setReg pwrPg PWR.PWR_MODE (s.reg pwrPg PWR.PWR_MODE ||| 1)
  { s with pwr := { s.pwr with recBeat := some s.beat } }

/-! ## Trees (R342, R343) -/

/-- A group of a tree: its range of ranks, the rank whose module is its node, its children's ranges. -/
structure Group where
  first : Nat
  count : Nat
  node  : Nat
  kids  : List (Nat × Nat)
  deriving DecidableEq, Repr

/-- Join consecutive ranges with equal keys into runs. -/
def runsOf (key : Nat → Nat) : List (Nat × Nat) → List (List (Nat × Nat))
  | [] => []
  | r :: rs =>
    match runsOf key rs with
    | (q :: qs) :: more => if key q.1 = key r.1 then (r :: q :: qs) :: more else [r] :: (q :: qs) :: more
    | other => [r] :: other

/-- The range a run covers. -/
def runRange (l : List (Nat × Nat)) : Nat × Nat :=
  ((l.head?.map (·.1)).getD 0, l.foldl (fun n r => n + r.2) 0)

/-- One level: every run of more than one range becomes a group; a group with a single child is skipped (R342). -/
def treeLevel (key : Nat → Nat) (ranges : List (Nat × Nat)) : List (Nat × Nat) × List Group :=
  let runs := runsOf key ranges
  (runs.map runRange,
   runs.filterMap fun l =>
    if l.length > 1 then
      let r := runRange l
      some { first := r.1, count := r.2, node := r.1, kids := l }
    else none)

/-- The groups of the tree over the ranks of a list, lowest level first; the last is the root. A set of one rank is a
group of itself. -/
def treeGroups (l : List Nat) : List Group :=
  let m (r : Nat) : Nat := (l[r]?).getD 0
  let r0 := (List.range l.length).map fun r => (r, 1)
  let (r1, g1) := treeLevel (fun r => m r / 32) r0
  let (r2, g2) := treeLevel (fun r => m r / 512) r1
  let (r3, g3) := treeLevel (fun r => m r / 4096) r2
  let (_, g4) := treeLevel (fun _ => 0) r3
  let gs := g1 ++ g2 ++ g3 ++ g4
  if gs.isEmpty then [{ first := 0, count := 1, node := 0, kids := [(0, 1)] }] else gs

/-- The chain of R343 as groups: node r adds rank r to the sum of ranks 0 to r − 1. -/
def ringGroups (n : Nat) : List Group :=
  if n ≤ 1 then [{ first := 0, count := 1, node := 0, kids := [(0, 1)] }]
  else (List.range (n - 1)).map fun i =>
    { first := 0, count := i + 2, node := i + 1, kids := [(0, i + 1), (i + 1, 1)] }

/-- The group that has a range as a child. -/
def parentOf (gs : List Group) (r : Nat × Nat) : Option Group := gs.find? fun g => g.kids.contains r

/-- The parent of a group: none for the root. -/
def Group.parent (g : Group) (gs : List Group) : Option Group :=
  gs.find? fun p => p.kids.contains (g.first, g.count) && !(p.first == g.first && p.count == g.count)

/-- The module that serves a group (R342). -/
def State.groupNode (s : State) (l : List Nat) (g : Group) : Nat := s.holder ((l[g.node]?).getD 0)

/-- The group one of whose children is a range of a group's own node chain: the node module of a child range. -/
def State.kidModule (s : State) (l : List Nat) (gs : List Group) (r : Nat × Nat) : Nat :=
  match gs.find? fun g => g.first == r.1 && g.count == r.2 with
  | some g => s.groupNode l g
  | none => s.holder ((l[r.1]?).getD 0)

end Sys2Proof.Machine
end

