-- ==== Sys2Proof/Machine/Dma.lean ====
section
/-! DEFINITION. Local DMA and board-level accesses (12_memory_system.md R270, R283 to R285). -/

namespace Sys2Proof.Machine

/-! ## The DMA body (Table 12.4) -/

def dmaSrc (d : Desc) : Nat := d.b 0 + d.f 1 15 0 * 2 ^ 32
def dmaDst (d : Desc) : Nat := d.b 2 + d.f 3 15 0 * 2 ^ 32
def dmaLen (d : Desc) : Nat := d.b 4
def dmaFlush (d : Desc) : Bool := d.bitB 6 0
def dmaIsFill (d : Desc) : Bool := d.opcode == 0x11

/-- The module that serves a board physical address, and the module-local address (R270). -/
def State.boardMod (s : State) (a : Nat) : Nat := s.slotMod (a / 2 ^ 46 % 4)
def boardLocal (a : Nat) : Nat := a % 2 ^ 46

/-- Whether a range is one a command may name: HBM, the far tier, or the square windows of this module; HBM and the far
tier of another slot, whose present stacks only it knows (R270, R284). -/
def State.dmaRange (s : State) (a n : Nat) : Bool :=
  let l := boardLocal a
  if s.boardMod a = s.modId then
    inHbm s.variant l n || inFar l n ||
    (decide (0x3E0000000000 ≤ l) && decide (l + n ≤ 0x3E0000000000 + 64 * s.variant.computeDies * 0x800000))
  else decide (l + n ≤ 0x009000000000) || inFar l n

/-- The checks of R284. -/
def dmaCheck : Check := pureCheck fun s c =>
  let d := c.desc
  let n := dmaLen d
  let fill := dmaIsFill d
  firstOf [(n == 0, .empty),
    (d.f 1 31 16 != 0 || d.f 3 31 16 != 0 || d.f 6 31 1 != 0 || d.b 7 != 0 ||
      n % 16 != 0 || dmaDst d % 16 != 0 || (!fill && dmaSrc d % 16 != 0) ||
      !(s.dmaRange (dmaDst d) n) || (!fill && !(s.dmaRange (dmaSrc d) n)) ||
      (!fill && decide (dmaSrc d < dmaDst d + n ∧ dmaDst d < dmaSrc d + n)), .configInvalid)]

/-- The HBM lines of a written range that are dirty in a buffer. -/
def State.dirtyLines (s : State) (a n : Nat) : List Nat :=
  (s.mem.wcb.map (·.line)).filter fun l => decide (l < a + n ∧ a < l + 64)

/-- Record on a command what a memory access met (R232, R290). -/
def State.recordMem (s : State) (id : Nat) (ue world cfg : Bool) : State :=
  s.mapCmd id fun c => { c with ue := c.ue || ue, world := c.world || world, cfg := c.cfg || cfg }

/-- Bytes of one board-level transfer packet (log entry 11). -/
def boardPiece : Nat := 4096

/-- Cut a range into transfer pieces: offset and bytes. -/
def boardPieces (n : Nat) : List (Nat × Nat) :=
  (List.range ((n + boardPiece - 1) / boardPiece)).map fun k => (k * boardPiece, min boardPiece (n - k * boardPiece))

/-- The PATTERN repeated over n bytes (R283). -/
def fillBytes (pattern n : Nat) : List Byte := (List.replicate (n / 4) (leBytes 4 pattern)).flatten

/-- A DMA command with nothing outstanding is done once its lines are written back, where FLUSH asks for it. -/
def dmaSettled (c : Cmd) (wait : List (Nat × Nat × Nat)) (lines : List Nat) : Cmd :=
  if !wait.isEmpty then { c with ctx := .dma wait lines }
  else { c with ctx := .flush lines, done := lines.isEmpty }

/-- Write data at a DMA destination of this module: the state, the refusals recorded, the lines to flush. -/
def State.dmaPut (s : State) (c : Cmd) (dst : Nat) (data : List Byte) (bad : List Nat) : State × List Nat :=
  let a := boardLocal dst
  let r := s.memWrite (Req.command c.desc.job c.q) a data (bad.map (· + a / 16))
  (r.st.recordMem c.id false r.world r.cfg,
   if dmaFlush c.desc then r.st.dirtyLines a data.length else [])

/-- Read data at a DMA source of this module, with the words that are uncorrectable counted from its start; they set
DMA_POISON and are recorded (R285). -/
def State.dmaGet (s : State) (c : Cmd) (src n : Nat) : State × List Byte × List Nat :=
  let a := boardLocal src
  let r := s.memRead (Req.command c.desc.job) a n
  let s := r.st.recordMem c.id (!r.ue.isEmpty) r.world r.cfg
  let s := if r.ue.isEmpty then s else s.err (wcbPg (c.msq / 64)) WCB.E_DMA_POISON c.q
  (s, r.data, r.ue.map (· - a / 16))

/-- Send a board-level access for a command (R270). -/
def State.sendBoard (s : State) (c : Cmd) (m : Nat) (b : Body) : State := s.sendF0 c.msq m c.desc.job b

/-- The tag of a command's board-level access. -/
def dmaTag (id k : Nat) : Nat := id * 2 ^ 32 + k

/-- Write one piece of a transfer at its destination, `here` when that lies in this module: its outstanding accesses
and lines to flush. -/
def State.dmaWrite (s : State) (c : Cmd) (off : Nat) (here : Bool) (data : List Byte) (bad : List Nat) :
    State × List (Nat × Nat × Nat) × List Nat :=
  let dst := dmaDst c.desc + off
  if here then let r := s.dmaPut c dst data bad; (r.1, [], r.2)
  else
    let t := dmaTag c.id (2 * (off / boardPiece) + 1)
    (s.sendBoard c (s.boardMod dst) (.boardWr t (boardLocal dst) data bad false (dmaFlush c.desc)), [(t, dst, 0)], [])

/-- One piece of a transfer: its outstanding accesses and lines to flush. -/
def State.dmaPiece (s : State) (c : Cmd) (off n : Nat) : State × List (Nat × Nat × Nat) × List Nat :=
  let here := decide (s.boardMod (dmaDst c.desc + off) = s.modId)
  if dmaIsFill c.desc then s.dmaWrite c off here (fillBytes (c.desc.b 5) n) []
  else
    let src := dmaSrc c.desc + off
    let sm := s.boardMod src
    if sm = s.modId then let g := s.dmaGet c src n; g.1.dmaWrite c off here g.2.1 g.2.2
    else
      let t := dmaTag c.id (2 * (off / boardPiece))
      (s.sendBoard c sm (.boardRd t (boardLocal src) n false), [(t, dmaDst c.desc + off, n)], [])

/-- Fill memory with one free value: what the manual calls undefined (log entry 6). -/
def State.freeMem (s : State) (job a n : Nat) : State :=
  let (v, s) := s.draw
  (s.memWrite (Req.command job) a (leBytes n v)).st

/-- The destination of a DMA command that was ended is undefined (R285). -/
def State.dmaSpoil (s : State) (d : Desc) : State :=
  if s.boardMod (dmaDst d) = s.modId then s.freeMem d.job (boardLocal (dmaDst d)) (dmaLen d) else s

/-- Run a DMA command: it moves LENGTH bytes, board-level pieces over the links (R283, R285). -/
def State.dmaRun (s : State) (c : Cmd) : State :=
  let d := c.desc
  let n := dmaLen d
  let lost := s.isLost (s.boardMod (dmaDst d)) || (!(dmaIsFill d) && s.isLost (s.boardMod (dmaSrc d)))
  if lost then (s.dmaSpoil d).addCmd { c with done := true, ended := some .linkLost }
  else
    let s := (s.addCmd c).count64 (wcbPg (c.msq / 64)) WCB.DMA_BYTES n
    let (s, wait, lines) := (boardPieces n).foldl (fun (acc : State × List (Nat × Nat × Nat) × List Nat) p =>
      let (s, w, l) := acc.1.dmaPiece c p.1 p.2
      (s, acc.2.1 ++ w, acc.2.2 ++ l)) (s, [], [])
    -- an eviction during the transfer may have written some lines back already
    let lines := lines.filter fun l => (s.wcbFind l).isSome
    s.mapCmd c.id fun c => dmaSettled c wait lines.eraseDups

/-- DMA_COPY copies LENGTH bytes from SRC to DST (R283). -/
def execDmaCopy (q : Nat) (d : Desc) (s : State) : Res := .next (s.command q d dmaCheck State.dmaRun)

/-- DMA_FILL writes the PATTERN over LENGTH bytes at DST (R283). -/
def execDmaFill (q : Nat) (d : Desc) (s : State) : Res := .next (s.command q d dmaCheck State.dmaRun)

/-! ## Board-level accesses (R270, R290, R324) -/

/-- The requester of a board-level access: a host's is made for no job, a command's for its job. -/
def boardReq (p : Pkt) (host : Bool) : Req := { job := if host then none else some p.hdr.job, src := 2 }

/-- Whether another slot may reach an address here: HBM and the far tier, a host also the square windows (R270). -/
def State.boardReach (s : State) (host : Bool) (a : Nat) : Bool :=
  match areaOf s.variant a with
  | .hbm _ => true
  | .far => true
  | .sqm _ _ => host
  | .scs _ _ => host
  | _ => false

/-- The status code of a refused access in a response. -/
def boardStatus (world cfg : Bool) : Nat := if world then 0x0031 else if cfg then 0x0040 else 0

/-- A board-level read is served: register pages are read by hosts through their own operation; an address out of
reach reads zero (R270, R435). -/
def State.onBoardRd (s : State) (p : Pkt) : State :=
  match p.body with
  | .boardRd tag a n host =>
    if s.boardReach host a then
      let r := s.memRead (boardReq p host) a n
      r.st.reply p (.boardRsp tag (boardStatus r.world r.cfg) r.data (r.ue.map (· - a / 16)))
    else s.reply p (.boardRsp tag 0 (List.replicate n 0) [])
  | _ => s

/-- A board-level write is performed and answered; with the flush flag its lines are written back first (R283). -/
def State.onBoardWr (s : State) (p : Pkt) : State :=
  match p.body with
  | .boardWr tag a data bad host flush =>
    if s.boardReach host a then
      let r := s.memWrite (boardReq p host) a data (bad.map (· + a / 16))
      let s := if flush then r.st.writebackAll
          (r.st.mem.wcb.filter fun e => decide (e.line < a + data.length ∧ a < e.line + 64)) else r.st
      s.reply p (.boardRsp tag (boardStatus r.world r.cfg) [] [])
    else s.reply p (.boardRsp tag 0 [] [])
  | _ => s

/-- A response to a board-level access of a DMA command. -/
def State.onBoardRsp (s : State) (p : Pkt) : State :=
  match p.body with
  | .boardRsp tag st data bad =>
    if tag ≥ hostTag then s
    else
      let id := tag / 2 ^ 32
      match s.cmd? id with
      | none => s
      | some c =>
        match c.ctx with
        | .dma wait lines =>
          match wait.find? fun w => w.1 == tag with
          | none => s
          | some (_, dst, n) =>
            let s := s.recordMem id (!bad.isEmpty) (st == 0x0031) (st == 0x0040)
            let rest := wait.filter fun w => w.1 != tag
            if n = 0 then s.mapCmd id fun c => dmaSettled c rest lines
            else
              let s := if bad.isEmpty then s else s.err (wcbPg (c.msq / 64)) WCB.E_DMA_POISON c.q
              let dm := s.boardMod dst
              if dm = s.modId then
                let (s, ls) := s.dmaPut c dst data bad
                s.mapCmd id fun c => dmaSettled c rest (lines ++ ls).eraseDups
              else
                let t := tag + 1
                (s.sendBoard c dm (.boardWr t (boardLocal dst) data bad false (dmaFlush c.desc))).mapCmd id fun c =>
                  dmaSettled c (rest ++ [(t, dst, 0)]) lines
        | _ => s
  | _ => s

end Sys2Proof.Machine
end

