-- ==== Sys2Proof/Machine/Matrix.lean ====
section
/-! DEFINITION. The matrix unit: operands as pieces, passes, column partials, accumulators and flushes, coarse mode,
2:4 sparsity, the MATMUL command (03_matrix_unit.md, 02_number_formats.md R42, R43). -/

namespace Sys2Proof.Machine

/-! ## Operands (Table 3.4, R42) -/

/-- Bytes of an element of format code fc: 0 E4M3, 1 E5M2, 2 and 3 MXFP8, 4 BF16, 5 FP16, 6 FP32. -/
def mxSize (fc : Nat) : Nat := if fc < 4 then 1 else if fc < 6 then 2 else 4

/-- Whether a format code has block scales. -/
def mxScaled (fc : Nat) : Bool := fc == 2 || fc == 3

/-- The element format of a format code. -/
def mxFmt (fc : Nat) : Fmt :=
  if fc = 0 ∨ fc = 2 then .e4m3 else if fc = 1 ∨ fc = 3 then .e5m2 else if fc = 4 then .bf16
  else if fc = 5 then .fp16 else .fp32

/-- Pieces of a format: n of R47. -/
def mxPieceCount (fc : Nat) : Nat := if fc = 5 then 2 else if fc = 6 then 3 else 1

/-- An operand at a cell: sign, tag, its pieces (magnitude, exponent), whether its code is non-zero, and its nibble, unit
exponent and low flag for coarse mode (R42, R55). -/
structure MxOp where
  neg    : Bool := false
  tag    : EaTag := .none
  pieces : List (Nat × Int) := []
  nz     : Bool := false
  nib    : Nat := 0
  ue     : Int := 0
  low    : Bool := false
  deriving DecidableEq, Repr

/-- Cut an element into pieces (R42, Table 2.5) and take its nibble (R55); `sc` is its scale code, 127 where it has
none. -/
def mxOp (fc code sc : Nat) : MxOp :=
  let f := mxFmt fc
  let neg := code / f.signBit % 2 == 1
  let nz := code % f.signBit != 0
  if sc = 0xFF then { neg := neg, tag := .nan, nz := nz }
  else match f.decode code with
    | .nan => { neg := neg, tag := .nan, nz := nz }
    | .inf n => { neg := n, tag := if n then .ninf else .pinf, nz := nz }
    | .num n m x =>
      -- x is the exponent of the significand's lowest bit: e − fbits
      let es : Int := x + ((sc : Int) - 127)
      match f with
      | .fp16 => { neg := n, nz := nz, pieces := [(m / 8, es + 3), (m % 8, es)],
                   nib := m / 128, ue := es + 7, low := m % 128 != 0 }
      | .fp32 => { neg := n, nz := nz, pieces := [(m / 2 ^ 16, es + 16), (m / 2 ^ 8 % 256, es + 8), (m % 256, es)],
                   nib := m / 2 ^ 20, ue := es + 20, low := m % 2 ^ 20 != 0 }
      | .bf16 => { neg := n, nz := nz, pieces := [(m, es)], nib := m / 16, ue := es + 4, low := m % 16 != 0 }
      | .e5m2 => { neg := n, nz := nz, pieces := [(m, es)], nib := m * 2, ue := es - 1 }
      | _ => { neg := n, nz := nz, pieces := [(m, es)], nib := m, ue := es }

/-- Whether an operand is a zero. -/
def MxOp.zero (o : MxOp) : Bool := o.tag == .none && !o.nz

/-- The tag of a product (R51). -/
def prodTag (a b : MxOp) : EaTag :=
  if a.tag = .none ∧ b.tag = .none then .none
  else if a.tag = .nan ∨ b.tag = .nan ∨ a.zero ∨ b.zero then .nan
  else if a.neg = b.neg then .pinf else .ninf

/-! ## Passes and partials (R47 to R51) -/

/-- The piece pairs of a schedule in pass order: W piece first, then A piece (R47, R48). -/
def passPairs (na nw : Nat) : List (Nat × Nat) :=
  (List.range nw).flatMap fun j =>
    ((List.range na).filter fun i => decide (i + j + 2 ≤ 1 + max na nw)).map fun i => (i, j)

/-- The non-zero product of piece i of a and piece j of w: exponent, and signed value in units of 2^-312. -/
def pieceProd (i j : Nat) (a w : MxOp) : Option (Int × Int) :=
  match a.pieces[i]?, w.pieces[j]? with
  | some (p, e), some (q, g) =>
    if p * q = 0 then none
    else
      let m : Int := (p * q : Nat) * 2 ^ (e + g + 312).toNat
      some (e + g, if a.neg = w.neg then m else -m)
  | _, _ => none

/-- The partials of a column, largest exponents first: each takes every remaining product whose exponent is at least
E_max − 89 (R49, R50). -/
def columnParts : Nat → List (Int × Int) → List Int
  | 0, _ => []
  | _ + 1, [] => []
  | f + 1, p :: ps =>
    let emax := ps.foldl (fun m x => max m x.1) p.1
    let inside := (p :: ps).filter fun x => decide (x.1 ≥ emax - 89)
    let below := (p :: ps).filter fun x => !(decide (x.1 ≥ emax - 89))
    inside.foldl (fun t x => t + x.2) 0 :: columnParts f below

/-- What a column emits in one pass: a tag, or its partials (R49 to R51). -/
def columnSum (i j : Nat) (a w : List MxOp) : EaTag × List Int :=
  let pairs := a.zip w
  let t := pairs.foldl (fun t p => t.join (prodTag p.1 p.2)) EaTag.none
  if t ≠ .none then (t, [])
  else
    let l := pairs.filterMap fun p => pieceProd i j p.1 p.2
    (.none, columnParts l.length l)

/-! ## Accumulators (R52) -/

/-- Whether two values fit one 112-bit window: the span of their non-zero bits and a sign (R52). A sum that carries out of
the window does not fit it either (log entry 76). -/
def accFits (a b : Int) : Bool :=
  a == 0 || b == 0 ||
  (let hi := max (Nat.log2 a.natAbs) (Nat.log2 b.natAbs)
   let lo := min (lowBit a.natAbs) (lowBit b.natAbs)
   let r := (a + b).natAbs
   decide (hi - lo + 2 ≤ 112) && (r == 0 || decide (Nat.log2 r - lowBit r + 2 ≤ 112)))

/-- Add a partial into an accumulator: the accumulator, and the operand spilled (R52). -/
def accAdd (acc : Ea) (p : Int) : Ea × Option Int :=
  if accFits acc.v p then ({ acc with v := acc.v + p }, none)
  else if Nat.log2 p.natAbs > Nat.log2 acc.v.natAbs then ({ acc with v := p }, some acc.v)
  else (acc, some p)

/-- Add what a column emits into its accumulator, with the spills in order. -/
def accTake (acc : Ea) (c : EaTag × List Int) : Ea × List Int :=
  if c.1 ≠ .none then ({ acc with tag := acc.tag.join c.1 }, [])
  else c.2.foldl (fun (r : Ea × List Int) p =>
    match accAdd r.1 p with
    | (a, some x) => (a, r.2 ++ [x])
    | (a, none) => (a, r.2)) (acc, [])

/-! ## Reading operands (R63) -/

/-- A segment of an operand row: n elements from position k0. The Boolean tells of an uncorrectable word. -/
def State.mxSeg (s : State) (msq fc base scBase stride scRow row k0 n : Nat) : State × List MxOp × Bool :=
  let z := mxSize fc
  let r := s.readElems msq (base + row * stride + k0 * z) z n
  if mxScaled fc then
    let q := r.st.readElems msq (scBase + row * scRow + k0 / 32) 1 ((k0 + n + 31) / 32 - k0 / 32)
    (q.st, (List.range n).map fun i =>
      mxOp fc ((r.codes[i]?).getD 0) ((q.codes[(k0 + i) / 32 - k0 / 32]?).getD 0), !r.ue.isEmpty || !q.ue.isEmpty)
  else (r.st, r.codes.map fun c => mxOp fc c 127, !r.ue.isEmpty)

/-- The operand fields of a matrix command. -/
structure MxArgs where
  aFmt : Nat
  aAddr : Nat
  aScale : Nat
  aStride : Nat
  rows : Nat
  wFmt : Nat
  wAddr : Nat
  wScale : Nat
  wStride : Nat
  cols : Nat
  k : Nat
  trans : Bool
  sparse : Bool
  /-- the rows of W that the columns take, where they are chosen (R205); empty: row j for column j -/
  sel : List Nat := []
  /-- a tile that costs as much as one of 16 rows and 128 columns, whatever it holds (09 Cost) -/
  wide : Bool := false
  deriving DecidableEq, Repr

/-- The row of W that column j takes. -/
def MxArgs.wRow (a : MxArgs) (j : Nat) : Nat := (a.sel[j]?).getD j

/-- Bytes of the scale array per row: ceil(K / 32). -/
def MxArgs.scRow (a : MxArgs) : Nat := (a.k + 31) / 32

/-- Row m of A, positions k0 to k0 + n − 1. -/
def State.mxRowA (s : State) (msq : Nat) (a : MxArgs) (m k0 n : Nat) : State × List MxOp × Bool :=
  s.mxSeg msq a.aFmt a.aAddr a.aScale (a.aStride * 32) a.scRow m k0 n

/-- A weight block, by output column: positions k0 to k0 + n − 1 of each (R44, R45). -/
def State.mxBlock (s : State) (msq : Nat) (a : MxArgs) (k0 n : Nat) : State × List (List MxOp) × Bool :=
  if a.trans then
    let (s, rows, u) := (List.range n).foldl (fun (acc : State × List (List MxOp) × Bool) i =>
      let (s, r, u) := acc.1.mxSeg msq a.wFmt a.wAddr a.wScale (a.wStride * 32) 0 (k0 + i) 0 a.cols
      (s, acc.2.1 ++ [r], acc.2.2 || u)) (s, [], false)
    (s, (List.range a.cols).map fun j => rows.map fun r => (r[j]?).getD {}, u)
  else
    (List.range a.cols).foldl (fun (acc : State × List (List MxOp) × Bool) j =>
      let (s, r, u) := acc.1.mxSeg msq a.wFmt a.wAddr a.wScale (a.wStride * 32) a.scRow (a.wRow j) k0 n
      (s, acc.2.1 ++ [r], acc.2.2 || u)) (s, [], false)

/-! ## Sparsity (R58, R59) -/

/-- Whether the 4 × 4 group (rg, cg) of a block conforms. -/
def groupOk (blk : List (List MxOp)) (rg cg : Nat) : Bool :=
  let nz (i j : Nat) : Bool := (((blk[4 * cg + j]?).getD [])[4 * rg + i]?).getD {} |>.nz
  (List.range 4).all (fun i => decide (((List.range 4).filter fun j => nz i j).length ≤ 2)) &&
  (List.range 4).all (fun j => decide (((List.range 4).filter fun i => nz i j).length ≤ 2))

/-- The first failing group of a block of up to 128 positions: lowest reduction group, then lowest column group. -/
def firstBadGroup (blk : List (List MxOp)) (cols : Nat) : Option (Nat × Nat) :=
  (List.range 32).findSome? fun rg =>
    ((List.range ((cols + 3) / 4)).find? fun cg => !(groupOk blk rg cg)).map fun cg => (rg, cg)

/-! ## A normal-mode command (R44 to R54) -/

/-- What a normal-mode command has done so far: the accumulators by row, the updates issued to the Scoresheet in
order (output, addend, whether it replaces), spills held until a SET flush, and its counts. -/
structure MxRun where
  st     : State
  accs   : List (List Ea)
  out    : List (Nat × Ea × Bool) := []
  held   : List (Nat × Ea) := []
  spread : Nat := 0
  spills : Nat := 0
  tagged : Bool := false
  mask   : Nat := 0
  first  : Option (Nat × Nat) := none
  cycles : Nat := 0
  stall  : Nat := 0
  stop   : Bool := false
  /-- the row segments of A read for the block in progress -/
  segs   : List (List MxOp) := []

/-- One row in one pass: partials into the accumulators, spills out, and the flush when it is the last (R52, R53). -/
def MxRun.row (r : MxRun) (a : MxArgs) (set last : Bool) (blk : List (List MxOp)) (pair : Nat × Nat) (m : Nat)
    (seg : List MxOp) : MxRun :=
  let sums := blk.map fun w => columnSum pair.1 pair.2 seg w
  let g := sums.foldl (fun g c => max g c.2.length) 1
  let old := (r.accs[m]?).getD []
  let taken := (old.zip sums).map fun p => accTake p.1 p.2
  let accs := r.accs.set m (taken.map (·.1))
  let sp := (List.range taken.length).flatMap fun j =>
    (((taken[j]?).map (·.2)).getD []).map fun x => (m * a.cols + j, ({ v := x } : Ea))
  let r := { r with accs := accs, spread := r.spread + (g - 1), spills := r.spills + sp.length,
                    tagged := r.tagged || sums.any fun c => c.1 != EaTag.none }
  let r := if set then { r with held := r.held ++ sp } else { r with out := r.out ++ sp.map fun p => (p.1, p.2, false) }
  if last then
    let fl := (List.range a.cols).map fun j => (m * a.cols + j, ((taken[j]?).map (·.1)).getD {}, set)
    let mine (p : Nat × Ea) : Bool := decide (p.1 / a.cols = m)
    { r with out := r.out ++ fl ++ (r.held.filter mine).map (fun p => (p.1, p.2, false)),
             held := r.held.filter fun p => !(mine p) }
  else r

/-- One pass over every row. In a block's first pass each row's segment is read; an uncorrectable word stops the array
(R63). -/
def MxRun.pass (r : MxRun) (msq : Nat) (a : MxArgs) (set last first : Bool) (blk : List (List MxOp)) (k0 n : Nat)
    (pair : Nat × Nat) : MxRun :=
  (List.range a.rows).foldl (fun r m =>
    if r.stop then r
    else if first then
      let (s, seg, u) := r.st.mxRowA msq a m k0 n
      if u then { r with st := s, stop := true }
      else ({ r with st := s, segs := r.segs ++ [seg] }).row a set last blk pair m seg
    else r.row a set last blk pair m ((r.segs[m]?).getD [])) r

/-- Every pass of a piece of a weight block: positions k0 to k0 + n − 1. -/
def MxRun.part (r : MxRun) (msq : Nat) (a : MxArgs) (set last : Bool) (blk : List (List MxOp)) (k0 n : Nat) : MxRun :=
  let pairs := passPairs (mxPieceCount a.aFmt) (mxPieceCount a.wFmt)
  (List.range pairs.length).foldl (fun r i =>
    if r.stop then r
    else r.pass msq a set (last && i + 1 == pairs.length) (i == 0) blk k0 n ((pairs[i]?).getD (0, 0))) { r with segs := [] }

/-- Positions per weight block (R45). -/
def MxArgs.kb (a : MxArgs) : Nat := if a.sparse then 128 else 64

/-- Cycles of a weight block's load: L (R45). -/
def MxArgs.load (a : MxArgs) (kb : Nat) : Nat := (kb * (if a.wide then 128 else a.cols) * mxSize a.wFmt + 2047) / 2048

/-- Blocks b, b + 1, … of a command. The load of block b + 1 runs while block b is computed, and a bad word in it stops
the array before block b's passes (R45, R63; log entry 17). -/
def MxRun.blocks (msq : Nat) (a : MxArgs) (set : Bool) : Nat → Nat → List (List MxOp) → MxRun → MxRun
  | 0, _, _, r => r
  | f + 1, b, blk, r =>
    let kb := a.kb
    let k0 := b * kb
    let n := min kb (a.k - k0)
    let isLast := f == 0
    let nextN := min kb (a.k - (k0 + kb))
    let (s, nblk, u) := if isLast then (r.st, [], false) else r.st.mxBlock msq a (k0 + kb) nextN
    if u then { r with st := s, stop := true }
    else
      let r := { r with st := s }
      let bad := if a.sparse then firstBadGroup blk a.cols else none
      let passes := (passPairs (mxPieceCount a.aFmt) (mxPieceCount a.wFmt)).length
      let v := if bad.isSome then 2 else 1
      let work := v * passes * (if a.wide then 16 else a.rows)
      let r : MxRun := match bad with
        | none => r.part msq a set isLast blk k0 n
        | some (rg, cg) =>
          let r : MxRun := { r with mask := r.mask + 1, first := some (r.first.getD (k0 / 4 + rg, cg)) }
          let h := min 64 n
          let r := r.part msq a set (isLast && n ≤ 64) (blk.map (List.take 64)) k0 h
          if n ≤ 64 || r.stop then r
          else
            let y := r.part msq a set isLast (blk.map (List.drop 64)) (k0 + 64) (n - 64)
            { y with cycles := y.cycles + (if y.stop then work / 2 else 0) }
      if r.stop then { r with cycles := r.cycles + r.segs.length }
      else MxRun.blocks msq a set f (b + 1) nblk { r with
        cycles := r.cycles + max work (a.load kb)
        stall := r.stall + (if isLast then 0 else a.load kb - work) }

/-- A normal-mode product: its updates and counts. -/
def State.mxNormal (s : State) (msq : Nat) (a : MxArgs) (set : Bool) : MxRun :=
  let (s, blk, u) := s.mxBlock msq a 0 (min a.kb a.k)
  let r : MxRun := { st := s, accs := List.replicate a.rows (List.replicate a.cols {}), stop := u }
  if u then r else MxRun.blocks msq a set ((a.k + a.kb - 1) / a.kb) 0 blk r

/-! ## Coarse mode (R55 to R57) -/

/-- An output of coarse mode so far: its tag, ṽ and β in units of 2^-312, and the terms it has taken: sign, nibble with flag,
and unit exponent of each operand. -/
structure Coarse where
  tag   : EaTag := .none
  v     : Int := 0
  b     : Nat := 0
  terms : List Int := []
  deriving DecidableEq, Repr

/-- An operand as coarse mode sees it (R55). -/
def MxOp.coarse (o : MxOp) : List Int := [b2n o.neg, 2 * o.nib + b2n o.low, o.ue]

/-- One block of 64 positions of one output: products within the window add into ṽ, those below it into β (R56). -/
def coarseBlock (c : Coarse) (a w : List MxOp) : Coarse :=
  let pairs := a.zip w
  let t := pairs.foldl (fun t p => t.join (prodTag p.1 p.2)) c.tag
  let c := { c with terms := c.terms ++ pairs.flatMap fun (p : MxOp × MxOp) => p.1.coarse ++ p.2.coarse }
  let es := (pairs.filter fun p => p.1.nib * p.2.nib != 0).map fun p => p.1.ue + p.2.ue
  match es with
  | [] =>
    pairs.foldl (fun c p =>
      let u : Nat := 2 ^ (p.1.ue + p.2.ue + 312).toNat
      { c with b := c.b + (p.1.nib * b2n p.2.low + b2n p.1.low * p.2.nib + b2n p.1.low * b2n p.2.low) * u }) { c with tag := t }
  | e :: rest =>
    let emax := rest.foldl max e
    pairs.foldl (fun c p =>
      let x := p.1.ue + p.2.ue
      let u : Nat := 2 ^ (x + 312).toNat
      let na := p.1.nib
      let nb := p.2.nib
      let da := b2n p.1.low
      let db := b2n p.2.low
      if na * nb ≠ 0 ∧ x < emax - 44 then { c with b := c.b + (na + da) * (nb + db) * u }
      else
        let m : Int := (na * nb * u : Nat)
        { c with v := c.v + (if p.1.neg = p.2.neg then m else -m), b := c.b + (na * db + da * nb + da * db) * u })
      { c with tag := t }

/-- The least FP32 code at or above n × 2^-312; +infinity beyond the range. -/
def fp32Up (n : Nat) : Nat :=
  let c := Fmt.fp32.encode false (.num false n (-312))
  match Fmt.fp32.decode c with
  | .num _ m e => if (m : Int) * 2 ^ (e + 312).toNat < n then c + 1 else c
  | _ => c

/-- The value of an FP32 code in units of 2^-312; 0 for specials. -/
def fp32Fix (code : Nat) : Int :=
  match Fmt.fp32.decode code with
  | .num n m e => let x : Int := (m : Int) * 2 ^ (e + 312).toNat; if n then -x else x
  | _ => 0

/-- The two FP32 words of a coarse output: ṽ rounded once; β rounded upward, with ṽ's rounding error and the slack that its own
upward roundings add, a free value fixed by the operands (R56, R115; log entry 18). -/
def Coarse.words (c : Coarse) : Nat × Nat :=
  match c.tag with
  | .nan => (Fmt.fp32.nanCode, Fmt.fp32.infCode)
  | .pinf => (Fmt.fp32.infCode, Fmt.fp32.infCode)
  | .ninf => (Fmt.fp32.signBit + Fmt.fp32.infCode, Fmt.fp32.infCode)
  | .none =>
    let v := Fmt.fp32.encode false (Val.ofInt c.v (-312))
    if v % Fmt.fp32.signBit = Fmt.fp32.infCode then (v, Fmt.fp32.infCode)
    else (v, min Fmt.fp32.infCode (fp32Up (c.b + (c.v - fp32Fix v).natAbs) + Config.coarseSlack c.terms))

/-- A coarse product: its outputs by row, how many rows finished, whether a bad word stopped the array (R63), and the weight
blocks loaded and computed. -/
structure CoarseRun where
  st     : State
  rows   : List (List Coarse)
  fin    : Nat := 0
  stop   : Bool := false
  loaded : Nat := 0
  blocks : Nat := 0

/-- The outputs of the rows that finished. -/
def CoarseRun.outs (r : CoarseRun) : List Coarse := (r.rows.take r.fin).flatten

/-- Cycles of the blocks computed, four rows a cycle, or of the loads that hide them (R45, R57). -/
def CoarseRun.cycles (r : CoarseRun) (a : MxArgs) : Nat := r.blocks * max ((a.rows + 3) / 4) (a.load 64)

/-- Cycles in which the array waited for the block after one computed (R45). -/
def CoarseRun.stall (r : CoarseRun) (a : MxArgs) : Nat := (r.loaded - 1) * (a.load 64 - (a.rows + 3) / 4)

/-- One row of a block: its segment is read and every output of the row takes its 64 positions (R56). -/
def CoarseRun.row (r : CoarseRun) (msq : Nat) (a : MxArgs) (last : Bool) (blk : List (List MxOp)) (k0 n m : Nat) : CoarseRun :=
  if r.stop then r
  else
    let (s, seg, u) := r.st.mxRowA msq a m k0 n
    if u then { r with st := s, stop := true }
    else
      let row := (((r.rows[m]?).getD []).zip blk).map fun p => coarseBlock p.1 seg p.2
      { r with st := s, rows := r.rows.set m row, fin := if last then m + 1 else r.fin }

/-- One weight block: loaded, then taken by every row. -/
def CoarseRun.block (r : CoarseRun) (msq : Nat) (a : MxArgs) (nb b : Nat) : CoarseRun :=
  if r.stop then r
  else
    let n := min 64 (a.k - 64 * b)
    let (s, blk, u) := r.st.mxBlock msq a (64 * b) n
    if u then { r with st := s, stop := true }
    else
      let r := (List.range a.rows).foldl (fun r m => CoarseRun.row r msq a (b + 1 == nb) blk (64 * b) n m)
        { r with st := s, loaded := r.loaded + 1 }
      { r with blocks := r.blocks + b2n (!r.stop) }

/-- Coarse results of a command (R56, R63). -/
def State.mxCoarse (s : State) (msq : Nat) (a : MxArgs) : CoarseRun :=
  let nb := (a.k + 63) / 64
  (List.range nb).foldl (fun r b => CoarseRun.block r msq a nb b)
    { st := s, rows := List.replicate a.rows (List.replicate a.cols {}) }

/-! ## The MATMUL command (R61 to R63) -/

/-- The operand fields of a MATMUL body (Table 3.4). -/
def mmArgs (d : Desc) : MxArgs :=
  { aFmt := d.f 0 31 29, aAddr := d.f 0 21 0, aScale := d.f 2 21 0, aStride := d.f 6 15 0, rows := d.f 0 28 22,
    wFmt := d.f 1 24 22, wAddr := d.f 1 21 0, wScale := d.f 3 21 0, wStride := d.f 6 31 16, cols := d.f 2 29 22,
    k := d.f 4 19 0, trans := d.bitB 1 26, sparse := d.bitB 1 25 }

def mmCoarse (d : Desc) : Bool := d.f 1 30 29 == 1

/-- Whether an operand array is misplaced: unaligned, a bad stride, or beyond square memory (R62). -/
def arrayBad (addr rows rowBytes stride : Nat) : Bool :=
  addr % 32 != 0 || (decide (1 < rows) && decide (stride * 32 < (rowBytes + 31) / 32 * 32)) ||
  !(inSqm addr ((rows - 1) * (stride * 32) + rowBytes))

/-- Whether a packed array is misplaced: unaligned or beyond square memory. -/
def packedBad (addr bytes : Nat) : Bool := addr % 32 != 0 || !(inSqm addr bytes)

/-- Whether the operand arrays of a matrix command are misplaced (R62). -/
def MxArgs.arraysBad (a : MxArgs) : Bool :=
  a.aFmt == 7 || a.wFmt == 7 || (a.trans && mxScaled a.wFmt) ||
  arrayBad a.aAddr a.rows (a.k * mxSize a.aFmt) a.aStride ||
  (if a.trans then arrayBad a.wAddr a.k (a.cols * mxSize a.wFmt) a.wStride
   else arrayBad a.wAddr a.cols (a.k * mxSize a.wFmt) a.wStride)

/-- Whether the scale arrays of a matrix command are misplaced (R62). -/
def MxArgs.scalesBad (a : MxArgs) : Bool :=
  (mxScaled a.aFmt && packedBad a.aScale (a.rows * a.scRow)) ||
  (mxScaled a.wFmt && packedBad a.wScale (a.cols * a.scRow))

/-- Whether the operands of a matrix command are misplaced (R62). -/
def MxArgs.bad (a : MxArgs) : Bool := a.arraysBad || a.scalesBad

/-- The checks of R62. -/
def matmulCheck : Check := pureCheck fun s c =>
  let d := c.desc
  let a := mmArgs d
  let coarse := mmCoarse d
  firstOf [(a.rows == 0 || a.cols == 0 || a.k == 0, .empty),
    (d.bitB 1 31 || d.f 1 30 29 ≥ 2 || d.f 2 31 30 != 0 || d.f 3 31 22 != 0 || d.f 4 31 20 != 0 || d.f 5 31 16 != 0 ||
      d.f 7 31 22 != 0 || decide (a.rows > if coarse then 64 else 16) || decide (a.cols > 128) || a.bad ||
      (!coarse && decide (d.f 5 15 0 + a.rows * a.cols > s.slotLimit c.msq)) ||
      (coarse && packedBad (d.f 7 21 0) (a.rows * a.cols * 8)), .configInvalid)]

/-- Issue updates to the Scoresheet in order; where a full queue holds the array it counts the cycles, a free value, for which
the command stays in progress (R53, R65). -/
def State.scsIssue (s : State) (msq id q base : Nat) (out : List (Nat × Ea × Bool)) : State :=
  let s := out.foldl (fun s u =>
    if u.2.2 then s.scsSet msq (base + u.1) u.2.1 (some id) q else s.scsAdd msq (base + u.1) u.2.1 (some id) q) s
  if s.scsStalls msq id then
    let (n, s) := s.draw
    (s.count64 (mxuPg msq) MXU.FLUSH_STALL_CYCLES n).count64 (mxuPg msq) MXU.BUSY_CYCLES n
  else s

/-- A command whose updates may still be queued is done once they are absorbed (R63). -/
def State.awaitScs (s : State) (id msq : Nat) : State :=
  if s.scsBusy msq id then s.mapCmd id fun c => { c with ctx := .scsWait } else s.finish id

/-- A normal-mode MATMUL: the tile's flushes and spills, its counts, and its completion once all are absorbed. -/
def State.matmulNormal (s : State) (c : Cmd) : State :=
  let d := c.desc
  let a := mmArgs d
  let pg := mxuPg c.msq
  let r := s.mxNormal c.msq a (d.bitB 1 27)
  let s := r.st.scsIssue c.msq c.id c.q (d.f 5 15 0) r.out
  let s := s.count64 pg MXU.BUSY_CYCLES (a.load a.kb + r.cycles + r.spread + 5)
  let s := s.count64 pg MXU.SPREAD_CYCLES r.spread
  let s := s.count64 pg MXU.LOAD_STALL_CYCLES r.stall
  let s := s.count pg MXU.MASK_VIOLATIONS r.mask
  let s := s.count pg MXU.ACC_SPILLS r.spills
  let s := match r.first with
    | some (rg, cg) => s.setReg pg MXU.MASK_FIRST (rg * 2 ^ 14 + cg)
    | none => s
  let s := if r.tagged then s.err pg MXU.E_ACC_TAG c.q else s
  let s := if r.stop then s.err pg MXU.E_OPERAND_UE c.q else s
  let s := s.addCmd { c with ended := if r.stop then some .guardUncorrectable else none,
                             info0 := min r.spread 0xFFFFFFFF, info1 := min r.mask 0xFFFFFFFF, spilled := r.spills != 0 }
  s.awaitScs c.id c.msq

/-- Write coarse results as pairs of FP32 words from an address, recording the NAN flag of ṽ (R57). -/
def State.writeCoarse (s : State) (msq addr : Nat) (outs : List Coarse) : State × List (Nat × Nat) :=
  let ws := outs.map Coarse.words
  (s.sqWrite msq addr (elemBytes 4 (ws.flatMap fun w => [w.1, w.2])), ws)

/-- The test of R206 on the two FP32 words of a coarse output: ṽ ⊕ β, rounded toward +∞, at or below the threshold. The
threshold is an FP32 number, so the exact sum decides. -/
def coarseBelow (theta : Nat) (w : Nat × Nat) : Bool :=
  Fmt.fp32.kind w.1 == 0 && Fmt.fp32.kind w.2 == 0 && decide (fp32Fix w.1 + fp32Fix w.2 ≤ fp32Fix theta)

/-- Whether column j of `cols` is certified over every row of a list of coarse outputs in row-major order. -/
def columnCert (theta cols rows : Nat) (ws : List (Nat × Nat)) (j : Nat) : Bool :=
  (List.range rows).all fun m => (ws[m * cols + j]?).any (coarseBelow theta)

/-- CERT_MASK0 to CERT_MASK3 of a coarse MATMUL with TO_GAMBIT, written at its completion (R213). -/
def certPosts (pg theta cols rows : Nat) (ws : List (Nat × Nat)) : List (Nat × Nat × Nat) :=
  (List.range 4).map fun i =>
    (pg, GMB.CERT_MASK0 + 4 * i, (List.range 32).foldl (fun n b =>
      n + b2n (decide (32 * i + b < cols) && columnCert theta cols rows ws (32 * i + b)) * 2 ^ b) 0)

/-- A coarse MATMUL (R55 to R57, R213). -/
def State.matmulCoarse (s : State) (c : Cmd) : State :=
  let d := c.desc
  let a := mmArgs d
  let pg := mxuPg c.msq
  let r := s.mxCoarse c.msq a
  let stop := r.stop
  let (s, ws) := r.st.writeCoarse c.msq (d.f 7 21 0) r.outs
  let pos := nanPosOf (ws.map fun w => Fmt.fp32.kind w.1)
  let s := s.count64 pg MXU.BUSY_CYCLES (a.load 64 + r.cycles a + 5)
  let s := s.count64 pg MXU.LOAD_STALL_CYCLES (r.stall a)
  let s := if stop then s.err pg MXU.E_OPERAND_UE c.q else s
  let cert := if d.bitB 1 28 then
      certPosts (gmbPg c.msq) (s.reg (gmbPg c.msq) GMB.GMB_THETA) a.cols a.rows ws else []
  s.addCmd { c with done := true, nan := pos != 0, posts := (pg, MXU.NAN_POS, pos) :: cert, ended := if stop then some .guardUncorrectable else none }

/-- MATMUL computes a tile product on the matrix unit in normal or coarse mode (R44, R61). -/
def execMatmul (q : Nat) (d : Desc) (s : State) : Res :=
  .next (s.command q d matmulCheck fun s c => if mmCoarse d then s.matmulCoarse c else s.matmulNormal c)

end Sys2Proof.Machine
end

