-- ==== Sys2Proof/Machine/TableFns.lean ====
section
/-! DEFINITION. The hardware tables of GELU, SiLU, sigmoid, exp and reciprocal square root (R87, R97, R98): the tables are
not given, their error is bounded. The functions are computed here in fixed point, in units of 2^-160, and a table's result is
a free value within the bound about them (log entry 7). -/

namespace Sys2Proof.Machine

/-- The natural logarithm of 2, and 1/√(2π), in units of 2^-160. -/
def fixLn2 : Nat := 1013035739299659071135698605846798551586536899366
def fixInvSqrt2Pi : Nat := 583054796007218040734191730443699882195345907504

/-- A magnitude m × 2^e in units of 2^-160, truncated; beyond 2^14, where e^x lies outside every format, 2^14. -/
def fixMag (m : Nat) (e : Int) : Nat :=
  min (2 ^ 174) (if e > 20 ∧ m ≠ 0 then 2 ^ 174 else if e + 160 ≥ 0 then m * 2 ^ (e + 160).toNat else m / 2 ^ (-(e + 160)).toNat)

/-- The first n terms after the first of a series whose k-th term is the one before times g k. -/
def fixSeries (g : Nat → Nat → Nat) (n t0 : Nat) : Nat :=
  ((List.range n).foldl (fun (acc : Nat × Nat) k => let t := g k acc.2; (acc.1 + t, t)) (t0, t0)).1

/-- e^r for r below ln 2. -/
def fixExp (r : Nat) : Nat := fixSeries (fun k t => t * r / 2 ^ 160 / (k + 1)) 56 (2 ^ 160)

/-- e^−t for t at or above zero. -/
def fixExpNeg (t : Nat) : Nat := 2 ^ 320 / fixExp (t % fixLn2) / 2 ^ (t / fixLn2)

/-- e^x. -/
def expVal (neg : Bool) (m : Nat) (e : Int) : Val :=
  let t := fixMag m e
  let p := fixExp (t % fixLn2)
  let k : Int := (t / fixLn2 : Nat)
  if neg then .num false (2 ^ 320 / p) (-k - 160) else .num false p (k - 160)

/-- 1 / (1 + e^−x). -/
def sigmoidVal (neg : Bool) (m : Nat) (e : Int) : Val :=
  let x := fixExpNeg (fixMag m e)
  .num false (if neg then x * 2 ^ 160 / (2 ^ 160 + x) else 2 ^ 320 / (2 ^ 160 + x)) (-160)

/-- The standard normal distribution function: 1/2 + φ(x) Σ x^(2n+1) / (1·3···(2n+1)); 0 and 1 beyond ±8, where it differs
from them by less than 2^-49. -/
def normalVal (neg : Bool) (m : Nat) (e : Int) : Val :=
  let x := fixMag m e
  let p := if x ≥ 8 * 2 ^ 160 then 2 ^ 160
    else
      let x2 := x * x / 2 ^ 160
      let sum := fixSeries (fun k t => t * x2 / 2 ^ 160 / (2 * k + 3)) 200 x
      min (2 ^ 160) (2 ^ 159 + sum * (fixExpNeg (x2 / 2) * fixInvSqrt2Pi / 2 ^ 160) / 2 ^ 160)
  .num false (if neg then 2 ^ 160 - p else p) (-160)

/-- The function of a table at a number. -/
def tableExact (f : TableFn) (x : Val) : Val :=
  match x with
  | .num n m e =>
    match f with
    | .exp => expVal n m e
    | .sigmoid => sigmoidVal n m e
    | .gelu => x.mul (normalVal n m e)
    | .silu => x.mul (sigmoidVal n m e)
    | .rsqrt => Val.div (.num false 1 0) (Val.sqrt x)
  | x => x

/-- Whether a table's result v lies within the error bound of R87 about the function's value y: 2^-16 × |y| where |y| is at
least 2^-8, else 2^-24. -/
def tableNear (v y : Val) : Bool :=
  let bound := if Val.lt y.abs (.num false 1 (-8)) then .num false 1 (-24) else y.abs.scale (-16)
  Val.le (v.add y.neg).abs bound

/-- A function whose table is fixed in hardware: x rounded to FP32 and clamped, then the table, whose result is the same for the
same FP32 argument and lies within its bound (R86, R87). -/
def tableOf (f : TableFn) (x : Val) : Val :=
  let code := Fmt.fp32.encode true x
  let y := tableExact f (Fmt.fp32.decode code)
  let t := Config.tableValue f (BitVec.ofNat 32 code)
  let v := Val.ofInt t.1 t.2
  if tableNear v y then v else y

end Sys2Proof.Machine
end

