-- ==== Sys2Proof/Machine/Epilogue.lean ====
section
/-! DEFINITION. The output path of the Scoresheet: SCS_READOUT through the epilogue, SCS_CLEAR
(04_scoresheet_and_epilogue.md R82, R86 to R92). -/

namespace Sys2Proof.Machine

/-! ## The epilogue (R86 to R88) -/

/-- An FP32 code as a value. -/
def fp32Val (code : Nat) : Val := Fmt.fp32.decode code

/-- The activation functions (R87). -/
def activate (act : Nat) (x : Val) : Val :=
  match act, x with
  | 0, x => x
  | _, .nan => .nan
  | _, .inf false => .inf false
  | 1, .inf true => .num false 0 0
  | 1, .num n m e => if n ∨ m = 0 then .num false 0 0 else .num n m e
  | _, .inf true => .num true 0 0
  | 2, x => tableOf .gelu x
  | _, x => tableOf .silu x

/-- Steps 1 to 3 of R86 for one element. -/
def epilogue (scale bias : Option Val) (act : Nat) (v : Val) : Val :=
  let v := match scale with
    | some s => v.mul s
    | none => v
  let v := match bias with
    | some b => v.add b
    | none => v
  activate act v

/-- A row written to a destination format: its bytes, its scale bytes, the kind of each element for Table 2.4, the zero
blocks and the vanished elements (R30, R35 to R40). -/
structure RowOut where
  bytes    : List Byte := []
  scales   : List Byte := []
  kinds    : List Nat := []
  zero     : Nat := 0
  vanished : Nat := 0

/-- Write a row of values as MXFP8 blocks. -/
def rowMx (f : Fmt) (sat : Bool) (vs : List Val) : RowOut :=
  let bs := rowConvert f sat vs
  { bytes := elemBytes 1 (bs.flatMap (·.codes)), scales := elemBytes 1 (bs.map (·.scale)),
    kinds := ((bs.flatMap fun b => b.codes.map fun c => if b.scale = 0xFF then 1 else f.kind c)).take vs.length,
    zero := (bs.filter (·.zero)).length, vanished := bs.foldl (fun n b => n + b.vanished) 0 }

/-- Write a row of values as plain elements. -/
def rowPlain (f : Fmt) (sat : Bool) (vs : List Val) : RowOut :=
  let cs := vs.map (f.encode sat)
  { bytes := elemBytes f.bytes cs, kinds := cs.map f.kind,
    vanished := ((vs.zip cs).filter fun p => vanishes f p.1 p.2).length }

/-! ## SCS_READOUT (R89 to R91) -/

def roBase (d : Desc) : Nat := d.f 0 31 16
def roStride (d : Desc) : Nat := d.f 0 15 0
def roRows (d : Desc) : Nat := d.f 1 31 16
def roCols (d : Desc) : Nat := d.f 1 15 0
def roFmt (d : Desc) : Nat := d.f 2 31 29
def roSat (d : Desc) : Bool := d.bitB 2 28
def roClear (d : Desc) : Bool := d.bitB 2 27
def roScale (d : Desc) : Nat := d.f 2 26 25
def roBias (d : Desc) : Bool := d.bitB 2 24
def roAct (d : Desc) : Nat := d.f 2 23 22
def roOut (d : Desc) : Nat := d.f 2 21 0

/-- Whether the output is block-scaled, and its element format (Table 4.4). -/
def roMx (d : Desc) : Bool := roFmt d == 2 || roFmt d == 3
def roElem (d : Desc) : Fmt :=
  match roFmt d with
  | 0 => .bf16
  | 1 => .fp16
  | 2 => .e4m3
  | 3 => .e5m2
  | _ => .km48

/-- Bytes of an output row. -/
def roRowBytes (d : Desc) : Nat := if roMx d then (roCols d + 31) / 32 * 32 else roCols d * (roElem d).bytes

/-- The checks of R90. -/
def readoutCheck : Check := pureCheck fun s c =>
  let d := c.desc
  let last := roBase d + (roRows d - 1) * roStride d + roCols d - 1
  firstOf [(roRows d == 0 || roCols d == 0, .empty),
    (decide (roFmt d ≥ 5) || roScale d == 3 || d.f 3 31 22 != 0 || d.f 4 31 22 != 0 || d.f 5 31 22 != 0 || d.f 7 15 0 != 0 ||
      (decide (1 < roRows d) && decide (roStride d < roCols d)) ||
      arrayBad (roOut d) (roRows d) (roRowBytes d) (d.f 7 31 16) ||
      (roMx d && packedBad (d.f 3 21 0) (roRows d * ((roCols d + 31) / 32))) ||
      (roScale d == 2 && packedBad (d.f 4 21 0) (4 * roCols d)) ||
      (roBias d && packedBad (d.f 5 21 0) (4 * roCols d)) ||
      decide (last ≥ s.slotLimit c.msq), .configInvalid)]

/-- FP32 values of an array of square memory; an element in an uncorrectable word is taken as NaN, and the Boolean
tells of one (log entry 19). -/
def State.readFp32 (s : State) (msq addr n : Nat) : State × List Val × Bool :=
  let r := s.readElems msq addr 4 n
  (r.st, (List.range n).map fun i => if r.ue.contains i then .nan else fp32Val ((r.codes[i]?).getD 0), !r.ue.isEmpty)

/-- The slots a readout, a clear or a VX_RATIO names. -/
def scsSlots (d : Desc) : List Nat :=
  if d.opcode = 0x28 then
    (List.range (roRows d)).flatMap fun i => (List.range (roCols d)).map fun j => roBase d + i * roStride d + j
  else if d.opcode = 0x35 then [d.f 0 31 16, d.f 0 31 16 + 1]
  else (List.range (d.f 1 16 0)).map fun j => d.f 0 31 16 + j

/-- Whether updates of the slots a command names are queued: its moment has not come (R82). -/
def State.scsHeld (s : State) (c : Cmd) : Bool :=
  let slots := scsSlots c.desc
  (s.sheet c.msq).queue.any fun u => slots.contains u.slot

/-- The slots a command has served so far, each with what it held. -/
def Cmd.got (c : Cmd) : List (Nat × Entry) :=
  match c.ctx with
  | .scsRead g => g
  | _ => []

/-- Serve a slot at its moment: it is read under Guard-144 and, where the command clears, set to narrow zero in the same
moment; a slot with updates queued waits (R82, R84). -/
def State.serveSlot (msq : Nat) (clear : Bool) (r : State × List (Nat × Entry)) (slot : Nat) : State × List (Nat × Entry) :=
  if (SMap.find slot r.2).isSome || r.1.slotQueued msq slot then r
  else
    let (s, e) := r.1.entryRead msq slot
    (if clear then s.scsZero msq slot else s, r.2 ++ [(slot, e)])

/-- Serve every slot of a command whose moment has come. -/
def State.serveSlots (s : State) (c : Cmd) (clear : Bool) : State × List (Nat × Entry) :=
  (scsSlots c.desc).foldl (State.serveSlot c.msq clear) (s, c.got)

/-- Serve the slots of a command and, once every one is served, go on with what they held; else it waits for the rest. -/
def State.whenServed (s : State) (c : Cmd) (clear : Bool) (k : State → List (Nat × Entry) → State) : State :=
  let (s, g) := s.serveSlots c clear
  if (scsSlots c.desc).any fun x => (SMap.find x g).isNone then s.mapCmd c.id fun c => { c with ctx := .scsRead g } else k s g

/-- What a readout has done so far. -/
structure RoRun where
  st    : State
  kinds : List Nat := []
  zero  : Nat := 0
  van   : Nat := 0
  wide  : Nat := 0
  ue    : Bool := false

/-- One row of a readout is written, from what its entries held. -/
def RoRun.row (r : RoRun) (c : Cmd) (got : List (Nat × Entry)) (scales bias : List Val) (i : Nat) : RoRun :=
  let d := c.desc
  let es := (List.range (roCols d)).map fun j => (SMap.find (roBase d + i * roStride d + j) got).getD .poisoned
  let vs := (List.range es.length).map fun j =>
    let sc := match roScale d with
      | 0 => none
      | 1 => some (fp32Val (d.b 6))
      | _ => some ((scales[j]?).getD .nan)
    epilogue sc (if roBias d then some ((bias[j]?).getD .nan) else none) (roAct d) (((es[j]?).map fun e => e.ea.toVal).getD .nan)
  let o := if roMx d then rowMx (roElem d) (roSat d) vs else rowPlain (roElem d) (roSat d) vs
  let s := r.st.sqWrite c.msq (roOut d + i * (d.f 7 31 16 * 32)) o.bytes
  let s := if roMx d then s.sqWrite c.msq (d.f 3 21 0 + i * ((roCols d + 31) / 32)) o.scales else s
  { st := s, kinds := r.kinds ++ o.kinds, zero := r.zero + o.zero, van := r.van + o.vanished,
    wide := r.wide + (es.filter fun e => match e with
      | .wide .. => true
      | _ => false).length,
    ue := r.ue || es.any fun e => e == .poisoned }

/-- Write the output of a readout whose slots have all been served (R86, R88, R91). -/
def State.readoutEnd (s : State) (c : Cmd) (got : List (Nat × Entry)) : State :=
  let d := c.desc
  let (s, scales, u1) := if roScale d = 2 then s.readFp32 c.msq (d.f 4 21 0) (roCols d) else (s, [], false)
  let (s, bias, u2) := if roBias d then s.readFp32 c.msq (d.f 5 21 0) (roCols d) else (s, [], false)
  let r := (List.range (roRows d)).foldl (fun r i => RoRun.row r c got scales bias i) { st := s }
  let pos := nanPosOf r.kinds
  r.st.mapCmd c.id fun c =>
    { c with posts := [(mxuPg c.msq, MXU.NAN_POS, pos), (vxuPg c.msq, VXU.ZERO_BLOCKS_LAST, r.zero),
                       (vxuPg c.msq, VXU.VANISHED_LAST, r.van)],
             done := true, nan := pos != 0, ue := c.ue || r.ue || u1 || u2,
             info0 := min r.van 0xFFFFFFFF, info1 := min r.zero 0xFFFF * 2 ^ 16 + min r.wide 0xFFFF }

/-- A readout: each entry is read, and cleared where CLEAR asks for it, at its moment; the output follows (R82, R86). -/
def State.readoutNow (s : State) (c : Cmd) : State := s.whenServed c (roClear c.desc) fun s g => s.readoutEnd c g

/-- SCS_READOUT reads entries through the epilogue into square memory, each slot at the moment of R82. -/
def execScsReadout (q : Nat) (d : Desc) (s : State) : Res :=
  .next (s.command q d readoutCheck fun s c =>
    let c := { c with ctx := .scsRead [] }
    (s.addCmd c).readoutNow c)

/-! ## SCS_CLEAR (R92) -/

/-- The checks of R92. -/
def clearCheck : Check := pureCheck fun s c =>
  let d := c.desc
  firstOf [(d.f 1 16 0 == 0, .empty),
    (d.f 0 15 0 != 0 || d.f 1 31 17 != 0 || !(d.zeroWords [2, 3, 4, 5, 6, 7]) || decide (d.f 1 16 0 > 65536) ||
      decide (d.f 0 31 16 + d.f 1 16 0 > s.slotLimit c.msq), .configInvalid)]

/-- Set the slots of a clear to narrow zero, each at its moment; an uncorrectable one is poisoned first (R82, R84). -/
def State.clearNow (s : State) (c : Cmd) : State :=
  s.whenServed c true fun s _ => s.mapCmd c.id fun c => { c with done := true }

/-- SCS_CLEAR sets COUNT slots to narrow zero, each at the moment of R82 (R92). -/
def execScsClear (q : Nat) (d : Desc) (s : State) : Res :=
  .next (s.command q d clearCheck fun s c =>
    let c := { c with ctx := .scsRead [] }
    (s.addCmd c).clearNow c)

end Sys2Proof.Machine
end

