-- ==== Sys2Proof/Machine/Vector.lean ====
section
/-! DEFINITION. The vector unit: VX_MAP, VX_CONVERT, VX_REDUCE, VX_AGG, VX_UPDATE, VX_RATIO
(05_training_numerics.md). -/

namespace Sys2Proof

/-! ## Functions (R87, R97, Table 5.4) -/

/-- MAX: NaN when either operand is NaN, −0 below +0 (R97). -/
def Val.max (a b : Val) : Val :=
  match a, b with
  | .nan, _ => .nan
  | _, .nan => .nan
  | a, b =>
    if Val.lt a b then b
    else if Val.lt b a then a
    else match a with
      | .num true 0 _ => b
      | _ => a

/-- MIN: NaN when either operand is NaN, −0 below +0 (R97). -/
def Val.min (a b : Val) : Val := (Val.max a.neg b.neg).neg

/-- The number 1. -/
def Val.one : Val := .num false 1 0

/-- A natural number as a value. -/
def Val.ofNat (n : Nat) : Val := .num false n 0

/-- A KM48 operation's rounding: rnd of R106, overflow to infinity. -/
def km48Of (v : Val) : Val := Fmt.km48.decode (Fmt.km48.encode false v)

/-- Whether a value is finite. -/
def Val.finite (v : Val) : Bool :=
  match v with
  | .num .. => true
  | _ => false

/-- The magnitude code R107 chooses for mag × 2^exp with draw u, as though the exponent had no upper limit. -/
def Fmt.stochMag (f : Fmt) (mag : Nat) (exp : Int) (u : Nat) : Nat :=
  if mag = 0 then 0 else
  let e : Int := (Nat.log2 mag : Int) + exp
  let emin : Int := 1 - (f.bias : Int)
  let eq : Int := if e < emin then emin else e
  -- |w| in units of 2^-24 of the last place, truncated, and whether bits lie below
  let sh : Int := exp - (eq - f.fbits) + 24
  let t := if sh ≥ 0 then mag * 2 ^ sh.toNat else mag / 2 ^ (-sh).toNat
  let lo := t / 2 ^ 24
  let m := if t % 2 ^ 24 + u ≥ 2 ^ 24 then lo + 1 else lo
  if e < emin then m else (e - emin + 1).toNat * 2 ^ f.fbits + m - 2 ^ f.fbits

/-- A stochastically rounded element. -/
def Fmt.stoch (f : Fmt) (sat : Bool) (u : Nat) (v : Val) : Nat :=
  match v with
  | .num neg mag exp => f.finish sat neg (f.stochMag mag exp u)
  | v => f.encode sat v

end Sys2Proof

namespace Sys2Proof.Machine

/-- SIGMOID, EXP and RSQRT: the argument is rounded to FP32 and clamped, special arguments have the results of R98, the
rest the table's (R97). -/
def vxTable (f : TableFn) (x : Val) : Val :=
  match x with
  | .nan => .nan
  | .inf n =>
    match f with
    | .sigmoid => if n then .num false 0 0 else .one
    | .exp => if n then .num false 0 0 else .inf false
    | _ => if n then .nan else .num false 0 0
  | x =>
    let y := Fmt.fp32.decode (Fmt.fp32.encode true x)
    match f, y with
    | .rsqrt, .num n m _ => if m = 0 then .inf false else if n then .nan else tableOf .rsqrt y
    | f, y => tableOf f y

/-- The functions of Table 5.4. -/
def vxFn (f : Nat) (x y : Val) : Val :=
  match f with
  | 0 => x
  | 1 => x.add y
  | 2 => x.add y.neg
  | 3 => x.mul y
  | 4 => x.max y
  | 5 => x.min y
  | 6 => activate 1 x
  | 7 => activate 2 x
  | 8 => activate 3 x
  | 9 => vxTable .sigmoid x
  | 10 => vxTable .exp x
  | 11 => vxTable .rsqrt x
  | _ => x.mul x

/-- Whether a function of Table 5.4 reads Y. -/
def vxBinary (f : Nat) : Bool := decide (1 ≤ f) && decide (f ≤ 5)

/-! ## Formats and rates (R96, R98) -/

/-- The element format of an A_FMT code, 7 being KM48. -/
def vxFmt (fc : Nat) : Fmt := if fc = 7 then .km48 else mxFmt fc

/-- Bytes of an element in memory. -/
def vxSize (fc : Nat) : Nat := (vxFmt fc).bytes

/-- Bytes of a row of an operand of n columns; an MXFP8 output row is padded to a multiple of 32 (R30). -/
def vxOutRow (fc n : Nat) : Nat := if mxScaled fc then (n + 31) / 32 * 32 else n * vxSize fc

/-- Elements per cycle of a lane class (Table 5.1): the slowest class the formats and the table bring in. -/
def vxRate (fs : List Nat) (table : Bool) : Nat :=
  if table then 128
  else if fs.contains 7 then 256
  else if fs.contains 5 || fs.contains 6 then 512
  else 1024

/-- Cycles of n elements at a rate. -/
def cyclesAt (n rate : Nat) : Nat := (n + rate - 1) / rate

/-! ## Arrays (R99) -/

/-- An array a command names: start, bytes from row to row, rows, bytes of a row, and its format code (8 and 9 the scale
arrays of MXFP8 codes 2 and 3). -/
structure VxArr where
  addr   : Nat
  stride : Nat
  rows   : Nat
  len    : Nat
  fc     : Nat
  deriving DecidableEq, Repr

/-- Whether an array is misplaced: unaligned, rows that run into each other, or beyond square memory. -/
def VxArr.bad (a : VxArr) : Bool :=
  a.addr % 32 != 0 || (decide (1 < a.rows) && decide (a.stride < (a.len + 31) / 32 * 32)) ||
  !(inSqm a.addr ((a.rows - 1) * a.stride + a.len))

/-- Whether two arrays share a byte. -/
def VxArr.overlaps (a b : VxArr) : Bool :=
  (List.range a.rows).any fun i => (List.range b.rows).any fun j =>
    decide (a.addr + i * a.stride < b.addr + j * b.stride + b.len ∧ b.addr + j * b.stride < a.addr + i * a.stride + a.len)

/-- Whether an output lies on an operand exactly, element for element in the same format. -/
def VxArr.same (a b : VxArr) : Bool :=
  a.addr == b.addr && a.rows == b.rows && a.len == b.len && a.fc == b.fc && (a.rows == 1 || a.stride == b.stride)

/-- An operand's arrays: elements, and scales where it has them. -/
def vxArrays (fc addr stride scale rows cols : Nat) (out : Bool) : List VxArr :=
  { addr := addr, stride := stride, rows := rows, len := if out then vxOutRow fc cols else cols * vxSize fc, fc := fc } ::
  (if mxScaled fc then
    [{ addr := scale, stride := 0, rows := 1, len := rows * ((cols + 31) / 32), fc := fc + 6 }] else [])

/-- An operand and an output in one MXFP8 place differ in their padding bytes only. -/
def vxSameOut (x o : VxArr) : Bool :=
  x.same o || (mxScaled x.fc && x.same { o with len := x.len } && o.fc == x.fc)

/-- Whether outputs overlap operands other than exactly. -/
def vxClash (ins outs : List VxArr) : Bool :=
  outs.any fun o => ins.any fun x => !(vxSameOut x o) && o.overlaps x

/-! ## The stream body (Table 5.3) -/

def vsFunc (d : Desc) : Nat := d.f 0 31 28
def vsXFmt (d : Desc) : Nat := d.f 0 27 25
def vsYFmt (d : Desc) : Nat := d.f 0 24 22
def vsXAddr (d : Desc) : Nat := d.f 0 21 0
def vsOutFmt (d : Desc) : Nat := d.f 1 31 29
def vsSat (d : Desc) : Bool := d.bitB 1 28
def vsBcast (d : Desc) : Bool := d.bitB 1 26
def vsYAddr (d : Desc) : Nat := d.f 1 21 0
def vsOutAddr (d : Desc) : Nat := d.f 2 21 0
def vsOutScale (d : Desc) : Nat := d.f 3 21 0
def vsXScale (d : Desc) : Nat := d.f 4 21 0
def vsRows (d : Desc) : Nat := d.f 5 31 16
def vsCols (d : Desc) : Nat := d.f 5 15 0
def vsXStride (d : Desc) : Nat := d.f 6 31 16 * 32
def vsOutStride (d : Desc) : Nat := d.f 6 15 0 * 32
def vsYStride (d : Desc) : Nat := d.f 7 31 16 * 32
def vsSlot (d : Desc) : Nat := d.f 7 15 0

/-- Whether TENSOR_AMAX applies: VX_CONVERT to plain E4M3 or E5M2 (R101). -/
def vsTensor (d : Desc) : Bool := d.opcode == 0x32 && d.bitB 1 27 && decide (vsOutFmt d ≤ 1)

/-- Whether a VX_CONVERT copies its operand unchanged (R100). -/
def vsCopy (d : Desc) : Bool := d.opcode == 0x32 && vsXFmt d == vsOutFmt d && !(mxScaled (vsXFmt d)) && !(vsTensor d)

/-- Whether the command writes a row of output per row of X. -/
def vsWrites (d : Desc) : Bool := d.opcode == 0x30 || d.opcode == 0x32

/-- The operands of a stream command. -/
def vsIns (d : Desc) : List VxArr :=
  vxArrays (vsXFmt d) (vsXAddr d) (vsXStride d) (vsXScale d) (vsRows d) (vsCols d) false ++
  (if d.opcode = 0x30 ∧ vxBinary (vsFunc d) then
    vxArrays (vsYFmt d) (vsYAddr d) (vsYStride d) 0 (if vsBcast d then 1 else vsRows d) (vsCols d) false else [])

/-- The outputs of a stream command. -/
def vsOuts (d : Desc) : List VxArr :=
  if vsWrites d then vxArrays (vsOutFmt d) (vsOutAddr d) (vsOutStride d) (vsOutScale d) (vsRows d) (vsCols d) true
  else if vsFunc d = 2 then [{ addr := vsOutAddr d, stride := 0, rows := 1, len := 4 * vsRows d, fc := 6 }]
  else []

/-- A reserved function code: VX_MAP 13 to 15, VX_REDUCE 3 to 15, and FUNC of VX_CONVERT (Table 5.3). -/
def vsFuncBad (d : Desc) : Bool :=
  if d.opcode = 0x30 then decide (vsFunc d > 12)
  else if d.opcode = 0x33 then decide (vsFunc d > 2)
  else vsFunc d != 0

/-- The checks of R99. -/
def streamCheck : Check := pureCheck fun s c =>
  let d := c.desc
  firstOf [(vsRows d == 0 || vsCols d == 0, .empty),
    (vsFuncBad d || d.f 1 25 22 != 0 || d.f 2 31 22 != 0 || d.f 3 31 22 != 0 || d.f 4 31 22 != 0 ||
      (d.opcode == 0x30 && vxBinary (vsFunc d) && mxScaled (vsYFmt d)) ||
      decide (vsRows d * vsCols d > 2 ^ 30) || (vsIns d ++ vsOuts d).any VxArr.bad || vxClash (vsIns d) (vsOuts d) ||
      (d.opcode == 0x33 && decide (vsFunc d < 2) && decide (vsSlot d + vsRows d > s.slotLimit c.msq)), .configInvalid)]

/-! ## Reading rows -/

/-- A row of an operand: its codes, its values, and the first element that needs an uncorrectable word. -/
structure VxRow where
  st    : State
  codes : List Nat := []
  vals  : List Val := []
  bad   : Option Nat := none

/-- Read row i of an operand. -/
def State.vxRow (s : State) (msq fc addr stride scale cols i : Nat) : VxRow :=
  let r := s.readElems msq (addr + i * stride) (vxSize fc) cols
  let f := vxFmt fc
  if mxScaled fc then
    let n := (cols + 31) / 32
    let q := r.st.readElems msq (scale + i * n) 1 n
    let b := r.ue.head?.toList ++ (q.ue.head?.map (· * 32)).toList
    { st := q.st, codes := r.codes,
      vals := (List.range cols).map fun j => applyScale (f.decode ((r.codes[j]?).getD 0)) ((q.codes[j / 32]?).getD 0),
      bad := b.foldl (fun m x => some (min (m.getD x) x)) none }
  else { st := r.st, codes := r.codes, vals := r.codes.map f.decode, bad := r.ue.head? }

/-- Row i of X of a stream command. -/
def State.vsX (s : State) (c : Cmd) (i : Nat) : VxRow :=
  s.vxRow c.msq (vsXFmt c.desc) (vsXAddr c.desc) (vsXStride c.desc) (vsXScale c.desc) (vsCols c.desc) i

/-! ## Writing rows (R30, R35 to R40, R465) -/

/-- What a vector command has written so far. -/
structure VxRun where
  st    : State
  kinds : List Nat := []
  zero  : Nat := 0
  van   : Nat := 0
  /-- an uncorrectable word has stopped the command -/
  stop  : Bool := false

/-- Write one output row of a stream command; with a bad element only the whole units of work before it (R465). -/
def VxRun.emit (r : VxRun) (c : Cmd) (i : Nat) (vals : List Val) (codes : Option (List Nat)) (bad : Option Nat) : VxRun :=
  let d := c.desc
  let fc := vsOutFmt d
  let f := vxFmt fc
  let n := match bad with
    | none => vsCols d
    | some j => if mxScaled fc then j / 32 * 32 else j
  let o : RowOut := match codes with
    | some cs => { bytes := elemBytes f.bytes (cs.take n), kinds := (cs.take n).map f.kind }
    | none => if mxScaled fc then rowMx f (vsSat d) (vals.take n) else rowPlain f (vsSat d) (vals.take n)
  let s := r.st.sqWrite c.msq (vsOutAddr d + i * vsOutStride d) o.bytes
  let s := if mxScaled fc then s.sqWrite c.msq (vsOutScale d + i * ((vsCols d + 31) / 32)) o.scales else s
  { st := s, kinds := r.kinds ++ o.kinds, zero := r.zero + o.zero, van := r.van + o.vanished, stop := bad.isSome }

/-- Row i of a VX_MAP. -/
def VxRun.mapRow (r : VxRun) (c : Cmd) (i : Nat) : VxRun :=
  if r.stop then r
  else
    let d := c.desc
    let x := r.st.vsX c i
    if vxBinary (vsFunc d) then
      let y := x.st.vxRow c.msq (vsYFmt d) (vsYAddr d) (vsYStride d) 0 (vsCols d) (if vsBcast d then 0 else i)
      let bad := match x.bad, y.bad with
        | some a, some b => some (min a b)
        | some a, none => some a
        | none, b => b
      ({ r with st := y.st } : VxRun).emit c i ((x.vals.zip y.vals).map fun p => vxFn (vsFunc d) p.1 p.2) none bad
    else ({ r with st := x.st } : VxRun).emit c i (x.vals.map fun v => vxFn (vsFunc d) v v) none x.bad

/-- Row i of a VX_CONVERT; k is the exponent every element is scaled down by (R101). -/
def VxRun.convRow (r : VxRun) (c : Cmd) (k : Int) (i : Nat) : VxRun :=
  if r.stop then r
  else
    let x := r.st.vsX c i
    ({ r with st := x.st } : VxRun).emit c i (x.vals.map fun v => v.scale (-k)) (if vsCopy c.desc then some x.codes else none) x.bad

/-- The first pass of TENSOR_AMAX: the largest finite magnitude of X, none when a bad word stops it (R101, R465). -/
def State.tensorAmax (s : State) (c : Cmd) : State × Option (Nat × Int) :=
  (List.range (vsRows c.desc)).foldl (fun (acc : State × Option (Nat × Int)) i =>
    match acc with
    | (s, none) => (s, none)
    | (s, some (m, e)) =>
      let x := s.vsX c i
      if x.bad.isSome then (x.st, none)
      else
        (x.st, some (x.vals.foldl (fun (b : Nat × Int) v =>
          match v with
          | .num _ m2 e2 => if magLe m2 e2 b.1 b.2 then b else (m2, e2)
          | _ => b) (m, e)))) (s, some (0, 0))

/-- Count the cycles of a vector command (R96). -/
def State.vxBusy (s : State) (c : Cmd) (n : Nat) : State := s.count64 (vxuPg c.msq) VXU.BUSY_CYCLES n

/-- Flag an uncorrectable operand (R465). -/
def State.vxUe (s : State) (c : Cmd) (stop : Bool) : State := if stop then s.err (vxuPg c.msq) VXU.E_OPERAND_UE c.q else s

/-- The posts of a counting command (R39, R116). -/
def vxPosts (c : Cmd) (pos zeros van : Nat) : List (Nat × Nat × Nat) :=
  [(vxuPg c.msq, VXU.NAN_POS, pos), (vxuPg c.msq, VXU.ZERO_BLOCKS_LAST, zeros), (vxuPg c.msq, VXU.VANISHED_LAST, van)]

/-- Put a vector command in flight with what it reports. -/
def State.vxEnd (s : State) (c : Cmd) (r : VxRun) (pos info1 : Nat) (done : Bool) (posts : List (Nat × Nat × Nat)) : State :=
  (s.vxUe c r.stop).addCmd { c with
    done := done, nan := pos != 0, ended := if r.stop then some .guardUncorrectable else none,
    info0 := min r.van 0xFFFFFFFF, info1 := info1, posts := posts }

/-- VX_MAP: an element-wise function of X, or of X and Y, row by row (R97, R98). -/
def State.mapRun (s : State) (c : Cmd) : State :=
  let d := c.desc
  let r := (List.range (vsRows d)).foldl (fun r i => VxRun.mapRow r c i) { st := s }
  let pos := nanPosOf r.kinds
  let fs := [vsXFmt d, vsOutFmt d] ++ (if vxBinary (vsFunc d) then [vsYFmt d] else [])
  let s := r.st.vxBusy c (cyclesAt (vsRows d * vsCols d) (vxRate fs (decide (7 ≤ vsFunc d ∧ vsFunc d ≤ 11))))
  s.vxEnd c r pos (min r.zero 0xFFFFFFFF) true (vxPosts c pos r.zero r.van)

/-- VX_CONVERT: X in OUT_FMT, with the scales of its blocks, or of the whole tensor, chosen from X (R100, R101). TENSOR_SCALE_LAST
keeps its code where no scale was chosen (R116; log entry 45). -/
def State.convertRun (s : State) (c : Cmd) : State :=
  let d := c.desc
  let n := vsRows d * vsCols d
  let cyc := cyclesAt n (vxRate [vsXFmt d, vsOutFmt d] false) +
    (if mxScaled (vsOutFmt d) then cyclesAt (vsRows d * ((vsCols d + 31) / 32)) 32 else 0)
  if vsTensor d then
    let (s, am) := s.tensorAmax c
    let s := s.vxBusy c (cyclesAt n (vxRate [vsXFmt d] false) + cyc)
    match am with
    | none => s.vxEnd c { st := s, stop := true } 0 0 true (vxPosts c 0 0 0)
    | some (m, e) =>
      let code := if m = 0 then 0 else chooseScale (vxFmt (vsOutFmt d)) m e
      let r := (List.range (vsRows d)).foldl (fun r i => VxRun.convRow r c ((code : Int) - 127) i) { st := s }
      let pos := nanPosOf r.kinds
      r.st.vxEnd c r pos code true (vxPosts c pos r.zero r.van ++ [(vxuPg c.msq, VXU.TENSOR_SCALE_LAST, code)])
  else
    let r := (List.range (vsRows d)).foldl (fun r i => VxRun.convRow r c 0 i) { st := s }
    let pos := nanPosOf r.kinds
    (r.st.vxBusy c cyc).vxEnd c r pos (min r.zero 0xFFFFFFFF) true (vxPosts c pos r.zero r.van)

/-! ## VX_REDUCE (R102) -/

/-- The largest magnitude of a row: NaN for a row with a NaN, +infinity for one with an infinity. -/
def rowAmax (vs : List Val) : Val :=
  vs.foldl (fun m v => match m, v with
    | .nan, _ => .nan
    | _, .nan => .nan
    | m, v => Val.max m v.abs) (.num false 0 0)

/-- The addend an element gives: itself, or its square, a KM48 element rounded to FP32 first (R102). DESIGN CHOICE: one beyond the
FP32 range rounds to an infinity whatever SATURATE holds (log entry 78). -/
def redAddend (fc func : Nat) (v : Val) : Ea :=
  if func = 1 then
    let x := if fc = 7 then fp32Of v else v
    Ea.ofVal (x.mul x)
  else Ea.ofVal v

/-- Row i of a VX_REDUCE. -/
def VxRun.reduceRow (r : VxRun) (c : Cmd) (i : Nat) : VxRun :=
  if r.stop then r
  else
    let d := c.desc
    let x := r.st.vsX c i
    if vsFunc d = 2 then
      if x.bad.isSome then { r with st := x.st, stop := true }
      else
        let code := Fmt.fp32.encode (vsSat d) (rowAmax x.vals)
        { r with st := x.st.sqWrite c.msq (vsOutAddr d + 4 * i) (leBytes 4 code), kinds := r.kinds ++ [Fmt.fp32.kind code] }
    else
      let vs := x.vals.take (x.bad.getD (vsCols d))
      { r with st := vs.foldl (fun s v => s.scsAdd c.msq (vsSlot d + i) (redAddend (vsXFmt d) (vsFunc d) v) (some c.id) c.q) x.st,
               stop := x.bad.isSome }

/-- VX_REDUCE: per-row sums into Scoresheet slots, or per-row amax as FP32 (R102). -/
def State.reduceRun (s : State) (c : Cmd) : State :=
  let d := c.desc
  let r := (List.range (vsRows d)).foldl (fun r i => VxRun.reduceRow r c i) { st := s }
  let pos := nanPosOf r.kinds
  let s := r.st.vxBusy c (cyclesAt (vsRows d * vsCols d) (vxRate [vsXFmt d] false))
  (s.vxEnd c r pos 0 false [(vxuPg c.msq, VXU.NAN_POS, pos)]).awaitScs c.id c.msq

/-! ## VX_AGG (R103, R104, Table 5.5) -/

def vaAgg (d : Desc) : Nat := d.f 0 31 28
def vaXFmt (d : Desc) : Nat := d.f 0 27 25
def vaOutFmt (d : Desc) : Nat := d.f 0 24 22
def vaSat (d : Desc) : Bool := d.bitB 1 31
def vaIdx (d : Desc) : Nat := d.f 1 21 0
def vaOff (d : Desc) : Nat := d.f 2 21 0
def vaWgt (d : Desc) : Nat := d.f 3 21 0
def vaDests (d : Desc) : Nat := d.f 5 31 16
def vaCols (d : Desc) : Nat := d.f 5 15 0
def vaXStride (d : Desc) : Nat := d.f 6 31 16 * 32
def vaOutStride (d : Desc) : Nat := d.f 6 15 0 * 32
def vaXRows (d : Desc) : Nat := d.f 7 19 0

/-- X and the output of an aggregation. -/
def vaX (d : Desc) : VxArr :=
  { addr := d.f 0 21 0, stride := vaXStride d, rows := vaXRows d, len := vaCols d * vxSize (vaXFmt d), fc := vaXFmt d }
def vaOut (d : Desc) : VxArr :=
  { addr := d.f 4 21 0, stride := vaOutStride d, rows := vaDests d, len := vaCols d * vxSize (vaOutFmt d), fc := vaOutFmt d }

/-- The checks of R104. -/
def aggCheck : Check := pureCheck fun _ c =>
  let d := c.desc
  firstOf [(vaDests d == 0 || vaCols d == 0, .empty),
    (decide (vaAgg d > 3) || d.f 1 30 22 != 0 || d.f 2 31 22 != 0 || d.f 3 31 22 != 0 || d.f 4 31 22 != 0 ||
      d.f 7 31 20 != 0 || decide (vaCols d > 1024) || vaXRows d == 0 || mxScaled (vaXFmt d) || mxScaled (vaOutFmt d) ||
      (vaX d).bad || (vaOut d).bad || packedBad (vaOff d) (4 * (vaDests d + 1)) || vaIdx d % 32 != 0 ||
      (vaAgg d == 3 && vaWgt d % 32 != 0) || vxClash [vaX d] [vaOut d], .configInvalid)]

/-- What reading a destination's segment gave. -/
inductive AggSeg where
  /-- the rows, each with its weight -/
  | rows (l : List (Val × List Val))
  | bad
  | ue
  deriving DecidableEq, Repr

/-- One position k of a segment: its index, its row, its weight (R104, R465). -/
def State.aggPos (s : State) (c : Cmd) (k : Nat) : State × AggSeg :=
  let d := c.desc
  if !(inSqm (vaIdx d + 4 * k) 4) || (vaAgg d == 3 && !(inSqm (vaWgt d + 4 * k) 4)) then (s, .bad)
  else
    let ix := s.readElems c.msq (vaIdx d + 4 * k) 4 1
    let row := (ix.codes[0]?).getD 0
    if !ix.ue.isEmpty then (ix.st, .ue)
    else if row ≥ vaXRows d then (ix.st, .bad)
    else
      let x := ix.st.vxRow c.msq (vaXFmt d) (vaX d).addr (vaXStride d) 0 (vaCols d) row
      if x.bad.isSome then (x.st, .ue)
      else if vaAgg d = 3 then
        let (s, ws, u) := x.st.readFp32 c.msq (vaWgt d + 4 * k) 1
        if u then (s, .ue) else (s, .rows [((ws[0]?).getD .nan, x.vals)])
      else (x.st, .rows [(.one, x.vals)])

/-- The segment of positions lo to hi − 1. -/
def State.aggRead (s : State) (c : Cmd) (lo hi : Nat) : State × AggSeg :=
  (List.range (hi - lo)).foldl (fun (acc : State × AggSeg) i =>
    match acc with
    | (s, .rows l) => match s.aggPos c (lo + i) with
      | (s, .rows m) => (s, .rows (l ++ m))
      | other => other
    | other => other) (s, .rows [])

/-- The aggregate of a segment in column j (R103). DESIGN CHOICE: the running sum starts at +0 (log entry 80), and an FP32 step
that overflows gives an infinity whatever SATURATE holds (log entry 78). -/
def aggColumn (agg : Nat) (l : List (Val × List Val)) (j : Nat) : Val :=
  let xs := l.map fun p => (p.1, (p.2[j]?).getD .nan)
  if agg = 2 then
    match xs with
    | [] => .num false 0 0
    | x :: rest => rest.foldl (fun m y => Val.max m y.2) x.2
  else
    let sum := xs.foldl (fun t x => fp32Of (t.add (if agg = 3 then x.1.mul x.2 else x.2))) (.num false 0 0)
    if agg = 1 ∧ l ≠ [] then fp32Of (sum.mul (fp32Of (Val.div .one (Val.ofNat l.length)))) else sum

/-- What an aggregation has done so far. -/
structure AggRun where
  run   : VxRun
  empty : Nat := 0
  bad   : Nat := 0
  idx   : Nat := 0

/-- Destination i of an aggregation, its offsets lo and hi, the index list ending at `total`. DESIGN CHOICE: an empty segment whose
offsets lie above it is bad, not empty (R104; log entry 80). -/
def AggRun.dest (a : AggRun) (c : Cmd) (total i lo hi : Nat) : AggRun :=
  if a.run.stop then a
  else
    let d := c.desc
    let f := vxFmt (vaOutFmt d)
    let put (s : State) (codes : List Nat) : VxRun :=
      { a.run with st := s.sqWrite c.msq ((vaOut d).addr + i * vaOutStride d) (elemBytes f.bytes codes),
                   kinds := a.run.kinds ++ codes.map f.kind }
    let isBad (s : State) : AggRun := { a with run := put s (List.replicate (vaCols d) f.nanCode), bad := a.bad + 1 }
    if hi < lo ∨ total < hi then isBad a.run.st
    else match a.run.st.aggRead c lo hi with
      | (s, .ue) => { a with run := { a.run with st := s, stop := true } }
      | (s, .bad) => isBad s
      | (s, .rows l) =>
        { a with run := put s ((List.range (vaCols d)).map fun j => f.encode (vaSat d) (aggColumn (vaAgg d) l j)),
                 empty := a.empty + (if hi = lo then 1 else 0), idx := a.idx + (hi - lo) }

/-- VX_AGG: one output row per destination, aggregated over its segment of the index list (R103, R104). A bad word
among the offsets stops the command at the first destination that needs it; every destination needs the last. -/
def State.aggRun (s : State) (c : Cmd) : State :=
  let d := c.desc
  let n := vaDests d
  let o := s.readElems c.msq (vaOff d) 4 (n + 1)
  let off (i : Nat) : Nat := (o.codes[i]?).getD 0
  let a := (List.range n).foldl (fun (a : AggRun) i =>
    if o.ue.contains n || o.ue.contains i || o.ue.contains (i + 1) then { a with run := { a.run with stop := true } }
    else a.dest c (off n) i (off i) (off (i + 1))) { run := { st := o.st } }
  let r := a.run
  let pg := vxuPg c.msq
  let pos := nanPosOf r.kinds
  let s := r.st.vxBusy c (cyclesAt (a.idx * vaCols d)
    (vxRate ([vaXFmt d, vaOutFmt d] ++ (if vaAgg d = 3 then [6] else [])) false) + n)
  let s := s.count pg VXU.EMPTY_SEGMENTS a.empty
  let s := s.count pg VXU.BAD_INDEX a.bad
  let s := if a.bad = 0 then s else s.err pg VXU.E_BAD_INDEX c.q
  (s.vxUe c r.stop).addCmd { c with
    done := true, nan := pos != 0, cfg := a.bad != 0, ended := if r.stop then some .guardUncorrectable else none,
    info0 := a.empty, info1 := a.bad, posts := [(pg, VXU.NAN_POS, pos)] }

/-! ## VX_UPDATE (R105 to R112, Tables 5.6 and 5.7) -/

def vuOpt (d : Desc) : Nat := d.f 0 31 28
def vuGFmt (d : Desc) : Nat := d.f 0 27 25
def vuWcFmt (d : Desc) : Nat := d.f 0 24 22
def vuW (d : Desc) : Nat := d.f 0 21 0
def vuSat (d : Desc) : Bool := d.bitB 1 31
def vuClip (d : Desc) : Bool := d.bitB 1 30
def vuRatio (d : Desc) : Bool := d.bitB 1 29
def vuG (d : Desc) : Nat := d.f 1 21 0
def vuM (d : Desc) : Nat := d.f 2 21 0
def vuWc (d : Desc) : Nat := d.f 3 21 0
def vuWcScale (d : Desc) : Nat := d.f 4 21 0
def vuParam (d : Desc) : Nat := d.f 5 21 0
def vuCount (d : Desc) : Nat := d.f 6 20 0
def vuSlot (d : Desc) : Nat := d.f 7 31 16

/-- Whether a working copy is written, and whether it is block-scaled. -/
def vuHasWc (d : Desc) : Bool := vuWcFmt d != 7
def vuWcMx (d : Desc) : Bool := mxScaled (vuWcFmt d)

/-- Where the second moments of ADAMW begin (Table 5.8). -/
def vuV (d : Desc) : Nat := vuM d + (6 * vuCount d + 31) / 32 * 32

/-- The parameter record (Table 5.7). -/
structure VuParam where
  bytes : List Byte
  deriving DecidableEq, Repr

/-- Word i of the record. -/
def VuParam.word (p : VuParam) (off n : Nat) : Nat := leNat ((p.bytes.drop off).take n)
def VuParam.fp (p : VuParam) (off : Nat) : Val := fp32Val (p.word off 4)
def VuParam.lr (p : VuParam) : Val := p.fp 0
def VuParam.beta1 (p : VuParam) : Val := p.fp 4
def VuParam.beta2 (p : VuParam) : Val := p.fp 8
def VuParam.eps (p : VuParam) : Val := p.fp 12
def VuParam.decay (p : VuParam) : Val := p.fp 16
def VuParam.gscale (p : VuParam) : Val := p.fp 20
def VuParam.clipC (p : VuParam) : Val := p.fp 24
def VuParam.bc1 (p : VuParam) : Val := p.fp 28
def VuParam.bc2 (p : VuParam) : Val := p.fp 32
def VuParam.normAddr (p : VuParam) : Nat := p.word 36 4 % 2 ^ 22
def VuParam.seed (p : VuParam) : Nat := p.word 40 8
def VuParam.rowLen (p : VuParam) : Nat := p.word 48 4 % 2 ^ 11

/-- The hyperparameters an optimiser uses. -/
def VuParam.used (p : VuParam) (opt : Nat) : List Val :=
  [p.lr, p.gscale] ++
  (match opt with
    | 0 => [p.decay]
    | 1 => [p.beta1, p.decay]
    | 2 => [p.beta1, p.beta2, p.eps, p.decay, p.bc1, p.bc2]
    | _ => [p.eps])

/-- The arrays of the command beside its moments, as start and bytes (R109). -/
def vuPlain (d : Desc) : List (Nat × Nat) :=
  let n := vuCount d
  [(vuW d, 6 * n), (vuG d, vxSize (vuGFmt d) * n), (vuParam d, 64)] ++
  (if vuHasWc d then [(vuWc d, vxOutRow (vuWcFmt d) n)] else []) ++
  (if vuWcMx d then [(vuWcScale d, (n + 31) / 32)] else [])

/-- Its moments; under ROWWISE one for each row, of a length that the record holds (Table 5.8). -/
def vuMoments (d : Desc) (rowLen : Nat) : List (Nat × Nat) :=
  let n := vuCount d
  match vuOpt d with
  | 0 => []
  | 1 => [(vuM d, 6 * n)]
  | 2 => [(vuM d, vuV d - vuM d + 6 * n)]
  | _ => [(vuM d, 6 * (n / rowLen))]

/-- Every array of the command. -/
def vuArrays (d : Desc) (rowLen : Nat) : List (Nat × Nat) := vuPlain d ++ vuMoments d rowLen

/-- The arrays whose length needs no record. -/
def vuFixed (d : Desc) : List (Nat × Nat) := vuPlain d ++ if vuOpt d = 3 then [] else vuMoments d 1

/-- Whether any two ranges of a list overlap. -/
def rangesClash : List (Nat × Nat) → Bool
  | [] => false
  | a :: as => (as.any fun b => decide (a.1 < b.1 + b.2 ∧ b.1 < a.1 + a.2)) || rangesClash as

/-- The checks of R109 that need no record: every one is made before the record is read (R223). -/
def updateBodyBad (s : State) (msq : Nat) (d : Desc) : Bool :=
  decide (vuCount d > 1048576) || decide (vuOpt d > 3) || mxScaled (vuGFmt d) || d.f 1 28 22 != 0 || d.f 2 31 22 != 0 ||
  d.f 3 31 22 != 0 || d.f 4 31 22 != 0 || d.f 5 31 22 != 0 || d.f 6 31 21 != 0 || d.f 7 15 0 != 0 ||
  (vuRatio d && decide (vuSlot d + 1 ≥ s.slotLimit msq)) ||
  (vuFixed d).any (fun a => packedBad a.1 a.2) || rangesClash (vuFixed d) ||
  (vuOpt d == 3 && vuM d % 32 != 0)

/-- The checks of R109 that need the record. -/
def updateRecordBad (d : Desc) (p : VuParam) : Bool :=
  p.word 52 8 != 0 || p.word 60 4 != 0 || (vuClip d && p.word 36 4 ≥ 2 ^ 22) || (vuOpt d == 3 && p.word 48 4 ≥ 2 ^ 11) ||
  (p.used (vuOpt d)).any (fun v => !v.finite) ||
  (vuClip d && (!p.clipC.finite || !(Val.lt (.num false 0 0) p.clipC))) ||
  (vuOpt d == 3 && (decide (p.rowLen < 16) || decide (p.rowLen > 1024) || vuCount d % p.rowLen != 0)) ||
  (vuArrays d p.rowLen).any (fun a => packedBad a.1 a.2) || rangesClash (vuArrays d p.rowLen) ||
  (vuClip d && (p.normAddr % 16 != 0 || !(inSqm p.normAddr 16)))

/-- The parameter record of a command, as memory holds it. -/
def State.vuParamAt (s : State) (c : Cmd) : VuParam := { bytes := (s.sqRead c.msq (vuParam c.desc) 64).data }

/-- The checks of R109; an uncorrectable record ends the command without further checks (R465). -/
def updateCheck : Check where
  body s c := firstOf [(vuCount c.desc == 0, .empty), (updateBodyBad s c.msq c.desc, .configInvalid)]
  rest s c :=
    let d := c.desc
    let r := s.sqRead c.msq (vuParam d) 64
    if !r.ue.isEmpty then (r.st.err (vxuPg c.msq) VXU.E_OPERAND_UE c.q, some .guardUncorrectable)
    else if updateRecordBad d { bytes := r.data } then (r.st, some .configInvalid)
    else (r.st, none)

/-! ### The gradient factor (R111) -/

/-- What the norm total gives: a factor, a skipped update, or an uncorrectable word. -/
inductive VuFactor where
  | f (v : Val)
  | skip
  | ue
  deriving DecidableEq, Repr

/-- The factor s of R111 from the norm total N, in units of 2^-64. -/
def clipScale (clipC : Val) (n : Nat) : Val :=
  if n = 0 then .one
  else
    let norm := fp32Of (Val.sqrt (.num false n (-64)))
    let s := fp32Of (clipC.div norm)
    if Val.lt .one s then .one else s

/-- The gradient factor. -/
def State.vuFactor (s : State) (c : Cmd) (p : VuParam) : State × VuFactor :=
  if vuClip c.desc then
    let r := s.sqRead c.msq p.normAddr 16
    let n := leNat r.data
    if !r.ue.isEmpty then (r.st, .ue)
    else if n = 2 ^ 128 - 1 then (r.st, .skip)
    else (r.st, .f (km48Of (p.gscale.mul (clipScale p.clipC n))))
  else (s, .f p.gscale)

/-! ### The optimisers (R106) -/

/-- The fused step rnd(a × b + c). -/
def fma48 (a b c : Val) : Val := km48Of ((a.mul b).add c)

/-- One element's new master and moments: SGD, MOMENTUM, ADAMW. -/
def optStep (opt : Nat) (p : VuParam) (f g0 w m v : Val) : Val × Val × Val :=
  let g := km48Of (g0.mul f)
  let fin (x m v : Val) : Val × Val × Val := (fma48 p.lr.neg (fma48 p.decay w x) w, m, v)
  match opt with
  | 0 => fin g m v
  | 1 => let m := fma48 p.beta1 m g; fin m m v
  | _ =>
    let b1c := km48Of (Val.one.add p.beta1.neg)
    let b2c := km48Of (Val.one.add p.beta2.neg)
    let m := fma48 p.beta1 m (km48Of (b1c.mul g))
    let v := fma48 p.beta2 v (km48Of (b2c.mul (km48Of (g.mul g))))
    let u := km48Of (m.mul p.bc1)
    let d := km48Of ((km48Of (Val.sqrt (km48Of (v.mul p.bc2)))).add p.eps)
    fin (km48Of (u.div d)) m v

/-- One row of ROWWISE: the new accumulator and the new masters. -/
def rowwiseStep (p : VuParam) (f a : Val) (gs ws : List Val) : Val × List Val :=
  let gs := gs.map fun g => km48Of (g.mul f)
  let sum := km48Of (gs.foldl (fun t g => t.add (g.mul g)) (.num false 0 0))
  let a := km48Of (a.add (km48Of (sum.div (Val.ofNat p.rowLen))))
  let d := km48Of ((km48Of (Val.sqrt a)).add p.eps)
  (a, (gs.zip ws).map fun x => fma48 p.lr.neg (km48Of (x.1.div d)) x.2)

/-! ### Stochastic rounding (R107, R108) -/

/-- The 24-bit draw of R107. -/
def srBits (seed i : Nat) : Nat :=
  let z : BitVec 64 := BitVec.ofNat 64 seed + BitVec.ofNat 64 (i + 1) * 0x9E3779B97F4A7C15
  let z := (z ^^^ (z >>> 30)) * 0xBF58476D1CE4E5B9
  let z := (z ^^^ (z >>> 27)) * 0x94D049BB133111EB
  let z := z ^^^ (z >>> 31)
  (z >>> 40).toNat

/-- One block of an MXFP8 working copy, its first element's index i0 (R108). -/
def stochBlock (f : Fmt) (sat : Bool) (seed i0 : Nat) (vs : List Val) : BlockOut :=
  match amaxOf vs with
  | none => { scale := 0xFF, codes := List.replicate 32 f.nanCode, zero := false, vanished := 0 }
  | some (m, x) =>
    if m = 0 then { scale := 0, codes := padTo 32 0 (vs.map (f.encode sat)), zero := true, vanished := 0 }
    else
      let k := chooseScale f m x
      let cs := (List.range vs.length).map fun i =>
        f.stoch sat (srBits seed (i0 + i)) (((vs[i]?).getD .nan).scale (127 - (k : Int)))
      { scale := k, codes := padTo 32 0 cs, zero := false,
        vanished := ((vs.zip cs).filter fun p => vanishes f p.1 p.2).length }

/-- The working copy of the new masters (R107, R108). DEDUCED: rounded as R107 and Table 5.6 say for every WC_FMT, FP16 and FP32
too, where R31 names BF16 and FP8 only (log entry 77). -/
def workingCopy (fc : Nat) (sat : Bool) (seed : Nat) (ws : List Val) : RowOut :=
  let f := vxFmt fc
  if mxScaled fc then
    let cut := chunks 32 ws
    let bs := (List.range cut.length).map fun k => stochBlock f sat seed (32 * k) ((cut[k]?).getD [])
    { bytes := elemBytes 1 (bs.flatMap (·.codes)), scales := elemBytes 1 (bs.map (·.scale)),
      kinds := (bs.flatMap fun b => b.codes.map fun c => if b.scale = 0xFF then 1 else f.kind c).take ws.length,
      zero := (bs.filter (·.zero)).length, vanished := bs.foldl (fun n b => n + b.vanished) 0 }
  else
    let cs := (List.range ws.length).map fun i => f.stoch sat (srBits seed i) ((ws[i]?).getD .nan)
    { bytes := elemBytes f.bytes cs, kinds := cs.map f.kind,
      vanished := ((ws.zip cs).filter fun p => vanishes f p.1 p.2).length }

/-! ### The command -/

/-- A flat array: its values and the first bad element. -/
def State.vuArray (s : State) (msq fc addr n : Nat) : VxRow := s.vxRow msq fc addr 0 0 n 0

/-- The new masters and moments of an update, over its first n elements. -/
structure VuOut where
  w : List Val := []
  m : List Val := []
  v : List Val := []

/-- Compute the update of n elements. -/
def vuCompute (opt : Nat) (p : VuParam) (f : Val) (g w m v : List Val) (n : Nat) : VuOut :=
  let at_ (l : List Val) (i : Nat) : Val := (l[i]?).getD .nan
  if opt = 3 then
    let rows := (List.range (n / p.rowLen)).map fun r =>
      rowwiseStep p f (at_ m r) ((g.drop (r * p.rowLen)).take p.rowLen) ((w.drop (r * p.rowLen)).take p.rowLen)
    { w := rows.flatMap (·.2), m := rows.map (·.1) }
  else
    let l := (List.range n).map fun i => optStep opt p f (at_ g i) (at_ w i) (at_ m i) (at_ v i)
    { w := l.map (·.1), m := l.map (·.2.1), v := l.map (·.2.2) }

/-- The unit of work of an update (R465): an element, a ROWWISE row, an MXFP8 working-copy block, or the whole number
of both. -/
def vuUnit (d : Desc) (p : VuParam) : Nat :=
  Nat.lcm (if vuOpt d = 3 then p.rowLen else 1) (if vuWcMx d then 32 else 1)

/-- Lane-operations of an update of n elements (Table 5.8). -/
def vuOps (d : Desc) (p : VuParam) (n : Nat) : Nat :=
  let per := (match vuOpt d with
    | 0 => 4
    | 1 => 5
    | 2 => 20
    | _ => 4) + (if vuRatio d then 2 else 0) - (if vuHasWc d then 0 else 1)
  per * n + (if vuOpt d = 3 then 10 * (n / p.rowLen) else 0)

/-- The ratio addends of one element (R112). DESIGN CHOICE: a value beyond the FP32 range rounds to an infinity (log entry 78). -/
def State.ratioAdd (s : State) (c : Cmd) (wOld wNew : Val) : State :=
  let dw := fp32Of (wNew.add wOld.neg)
  let w := fp32Of wOld
  let s := s.scsAdd c.msq (vuSlot c.desc) (Ea.ofVal (dw.mul dw)) (some c.id) c.q
  s.scsAdd c.msq (vuSlot c.desc + 1) (Ea.ofVal (w.mul w)) (some c.id) c.q

/-- Write KM48 values. -/
def State.put48 (s : State) (msq addr : Nat) (vs : List Val) : State :=
  s.sqWrite msq addr (elemBytes 6 (vs.map (Fmt.km48.encode false)))

/-- Perform an update with gradient factor f (R105 to R112). -/
def State.updateWith (s : State) (c : Cmd) (p : VuParam) (f : Val) : State :=
  let d := c.desc
  let pg := vxuPg c.msq
  let n := vuCount d
  let opt := vuOpt d
  let w := s.vuArray c.msq 7 (vuW d) n
  let g := w.st.vuArray c.msq (vuGFmt d) (vuG d) n
  let m := g.st.vuArray c.msq 7 (vuM d) (match opt with
    | 0 => 0
    | 3 => n / p.rowLen
    | _ => n)
  let v := m.st.vuArray c.msq 7 (vuV d) (if opt = 2 then n else 0)
  let bads := w.bad.toList ++ g.bad.toList ++ (m.bad.map fun i => if opt = 3 then i * p.rowLen else i).toList ++ v.bad.toList
  let k := bads.foldl min n
  let stop := decide (k < n)
  let k := if stop then k / vuUnit d p * vuUnit d p else n
  let o := vuCompute opt p f g.vals w.vals m.vals v.vals k
  let s := v.st.put48 c.msq (vuW d) o.w
  let s := if opt = 0 then s else s.put48 c.msq (vuM d) o.m
  let s := if opt = 2 then s.put48 c.msq (vuV d) o.v else s
  let wc : RowOut := if vuHasWc d then workingCopy (vuWcFmt d) (vuSat d) p.seed o.w else {}
  let s := if vuHasWc d then s.sqWrite c.msq (vuWc d) wc.bytes else s
  let s := if vuWcMx d then s.sqWrite c.msq (vuWcScale d) wc.scales else s
  let s := if vuHasWc d then s.count64 pg VXU.SR_ELEMENTS (o.w.filter Val.finite).length else s
  let s := if vuRatio d then (w.vals.zip o.w).foldl (fun s x => s.ratioAdd c x.1 x.2) s else s
  let kinds := (List.range o.w.length).map fun i =>
    let km := Fmt.km48.kind (Fmt.km48.encode false ((o.w[i]?).getD .nan))
    if km = 0 then (wc.kinds[i]?).getD 0 else km
  let pos := nanPosOf kinds
  let s := s.vxBusy c (cyclesAt (vuOps d p k) 256)
  let r : VxRun := { st := s, zero := wc.zero, van := wc.vanished, stop := stop }
  (s.vxEnd c r pos (min wc.zero 0xFFFFFFFF) false (vxPosts c pos wc.zero wc.vanished)).awaitScs c.id c.msq

/-- VX_UPDATE: one optimiser step, or none on a norm total that is not finite (R111). -/
def State.updateRun (s : State) (c : Cmd) : State :=
  let pg := vxuPg c.msq
  let p := s.vuParamAt c
  match s.vuFactor c p with
  | (s, .ue) => s.vxEnd c { st := s, stop := true } 0 0 true (vxPosts c 0 0 0)
  | (s, .skip) =>
    let s := (s.count pg VXU.UPDATES_SKIPPED 1).err pg VXU.E_NORM_NONFINITE c.q
    s.vxEnd c { st := s } (2 ^ 30) 0 true (vxPosts c (2 ^ 30) 0 0)
  | (s, .f f) => s.updateWith c p f

/-! ## VX_RATIO (R113, R114) -/

/-- The checks of R113. -/
def ratioCheck : Check := pureCheck fun s c =>
  let d := c.desc
  firstOf [(d.f 2 31 1 != 0 || !(d.zeroWords [3, 4, 5, 6, 7]) || decide (d.f 0 31 16 + 1 ≥ s.slotLimit c.msq), .configInvalid)]

/-- Append a record to a square's ratio log (R114). The head advances also over a record that the region table drops (R290; log
entry 98). -/
def State.rlogWrite (s : State) (c : Cmd) (rec : List Byte) : State :=
  let pg := vxuPg c.msq
  let cfg := s.reg pg VXU.RLOG_CONFIG
  let size := 2 ^ bits cfg 4 0
  let head := s.reg pg VXU.RLOG_HEAD
  if !(cfg.testBit 5) then s
  else if (head + 2 ^ 32 - s.reg pg VXU.RLOG_TAIL) % 2 ^ 32 = size then
    (s.count pg VXU.RLOG_DROPPED 1).err pg VXU.E_RLOG_OVERRUN c.q
  else
    let r := s.memWrite (Req.command c.desc.job) (s.reg pg VXU.RLOG_BASE + 16 * (head % size)) rec
    (r.st.recordMem c.id false r.world r.cfg).setReg pg VXU.RLOG_HEAD ((head + 1) % 2 ^ 32)

/-- Form the record from what the two slots held; a poisoned one counts as NaN, as a readout takes it, and the command
completes with OK (R113; log entry 79). -/
def State.ratioEnd (s : State) (c : Cmd) (got : List (Nat × Entry)) : State :=
  let d := c.desc
  let pg := vxuPg c.msq
  let slot := d.f 0 31 16
  let eD := (SMap.find slot got).getD .poisoned
  let eW := (SMap.find (slot + 1) got).getD .poisoned
  let tagged := eD.ea.tag != .none || eW.ea.tag != .none
  let zeroW := eW.ea.tag == .none && eW.ea.v == 0
  let ratio := if tagged then .nan
    else if zeroW then (if eD.ea.v = 0 then .num false 0 0 else .inf false)
    else Val.sqrt (eD.ea.toVal.div eW.ea.toVal)
  let code := Fmt.fp32.encode false ratio
  let wnorm := Fmt.fp32.encode false (Val.sqrt eW.ea.toVal)
  let rv := fp32Val code
  let nonfin := tagged || rv == .inf false
  let above := Val.lt (fp32Val (s.reg pg VXU.RATIO_HIGH)) rv
  let below := Val.lt rv (fp32Val (s.reg pg VXU.RATIO_LOW))
  let flags := b2n zeroW * 8 + b2n nonfin * 4 + b2n below * 2 + b2n above
  let s := s.rlogWrite c (elemBytes 4 [d.b 1, d.f 0 15 0 + flags * 2 ^ 16, code, wnorm])
  let s := if nonfin || above || below then s.err pg VXU.E_RATIO_EVENT c.q else s
  s.mapCmd c.id fun c => { c with done := true, info0 := code, info1 := wnorm }

/-- Read the two slots, each at its moment, clear them where CLEAR asks for it, form the record (R82, R113). -/
def State.ratioNow (s : State) (c : Cmd) : State := s.whenServed c (c.desc.bitB 2 0) fun s g => s.ratioEnd c g

/-! ## The commands -/

/-- VX_MAP computes an element-wise function over X, or over X and Y (R98). -/
def execVxMap (q : Nat) (d : Desc) (s : State) : Res := .next (s.command q d streamCheck State.mapRun)

/-- VX_CONVERT converts X to OUT_FMT (R100). -/
def execVxConvert (q : Nat) (d : Desc) (s : State) : Res := .next (s.command q d streamCheck State.convertRun)

/-- VX_REDUCE reduces each row of X (R102). -/
def execVxReduce (q : Nat) (d : Desc) (s : State) : Res := .next (s.command q d streamCheck State.reduceRun)

/-- VX_AGG aggregates rows of X over index segments (R103). -/
def execVxAgg (q : Nat) (d : Desc) (s : State) : Res := .next (s.command q d aggCheck State.aggRun)

/-- VX_UPDATE applies one optimiser step to COUNT elements (R105). -/
def execVxUpdate (q : Nat) (d : Desc) (s : State) : Res := .next (s.command q d updateCheck State.updateRun)

/-- VX_RATIO logs the update-to-weight ratio of two Scoresheet slots, each at the moment of R82 (R113). -/
def execVxRatio (q : Nat) (d : Desc) (s : State) : Res :=
  .next (s.command q d ratioCheck fun s c =>
    let c := { c with ctx := .scsRead [] }
    (s.addCmd c).ratioNow c)

end Sys2Proof.Machine
end

