-- ==== Sys2Proof/Machine/Placement.lean ====
section
/-! DEFINITION. The placement engine: tables, homes, the directory, the row store with versions and pending marks,
replicas, migration, the heat sketch, step boundaries, the far tier, the PLC commands (08_embedding_placement.md). -/

namespace Sys2Proof

/-! ## Parts of a row and changes to it -/

/-- Which part of the row store holds a part of a row: plane 0 and its held next version change places. -/
def Row.place (r : Row) (p : Nat) : Nat :=
  match p, r.alt with
  | 0, true => 5
  | 5, true => 0
  | p, _ => p

/-- The uncorrectable words of a part of a row. -/
def Row.bad (r : Row) (p : Nat) : List Nat := (r.ue.filter fun x => x.1 == p).map (·.2)

/-- A row with its step-start copy: the first store of a period makes it, uncorrectable words with it (R180). -/
def Row.withUndo (r : Row) : Row :=
  if r.undo.isSome then { r with stored := true }
  else { r with
    stored := true, undo := some r.planes
    ue := r.ue ++ (r.ue.filter fun x => decide (x.1 < 4)).map fun x => (8 + x.1, x.2) }

/-- Whether a change writes row storage. -/
def Change.writes : Change → Bool
  | .plane .. => true
  | .version .. => true
  | .adj .. => true
  | _ => false

end Sys2Proof

namespace Sys2Proof.Machine

/-! ## Lists keyed by rows -/

/-- The value at a key. -/
def kget {κ α : Type} [DecidableEq κ] (k : κ) : List (κ × α) → Option α
  | [] => none
  | (a, v) :: r => if a = k then some v else kget k r

/-- Remove a key. -/
def kdel {κ α : Type} [DecidableEq κ] (k : κ) (l : List (κ × α)) : List (κ × α) := l.filter fun p => p.1 ≠ k

/-- Set a key: in place where it is listed, else at the end. -/
def kput {κ α : Type} [DecidableEq κ] (k : κ) (v : α) (l : List (κ × α)) : List (κ × α) :=
  if l.any fun p => p.1 = k then l.map fun p => if p.1 = k then (k, v) else p else l ++ [(k, v)]

/-! ## Tables (Table 8.1, R172) -/

/-- A table definition: its body words. -/
structure Tbl where
  ws : List Nat
  deriving DecidableEq, Repr

def Tbl.f (t : Tbl) (i hi lo : Nat) : Nat := bits ((t.ws[i]?).getD 0) hi lo
def Tbl.kind (t : Tbl) : Nat := t.f 0 19 19
def Tbl.wcFmt (t : Tbl) : Nat := t.f 0 18 16
def Tbl.moments (t : Tbl) : Nat := t.f 0 15 14
def Tbl.evalKind (t : Tbl) : Nat := t.f 0 13 12
def Tbl.farOk (t : Tbl) : Bool := t.f 0 11 11 == 1
def Tbl.replOk (t : Tbl) : Bool := t.f 0 10 10 == 1
def Tbl.shadow (t : Tbl) : Bool := t.f 0 9 9 == 1
def Tbl.len (t : Tbl) : Nat := t.f 1 10 0
def Tbl.firstNode (t : Tbl) : Nat := t.f 2 31 0 + t.f 3 15 0 * 2 ^ 32
def Tbl.rows (t : Tbl) : Nat := t.f 4 31 0 + t.f 5 8 0 * 2 ^ 32
def Tbl.homeKey (t : Tbl) : Nat := if t.f 6 12 12 = 1 then t.f 6 11 0 else t.f 0 31 20

/-- Whether a table is an embedding table. -/
def Tbl.emb (t : Tbl) : Bool := t.kind == 0

/-- The definition of a job's table on this module. -/
def State.tbl (s : State) (job table : Nat) : Option Tbl := (SMap.find (job * 4096 + table) s.plc.tables).map Tbl.mk

/-- Whether a plane of Table 7.1 is present in a table. -/
def Tbl.hasPlane (t : Tbl) (p : Nat) : Bool :=
  t.emb && (p ≤ 1 || (p == 2 && t.moments != 0) || (p == 3 && t.moments == 2))

/-- Elements of a plane of a row. -/
def Tbl.planeLen (t : Tbl) (p : Nat) : Nat := if p = 2 ∧ t.moments = 3 then 1 else t.len

/-- Element format of a plane. -/
def Tbl.planeFmt (t : Tbl) (p : Nat) : Fmt := if p = 0 then vxFmt t.wcFmt else .km48

/-- Bytes of a plane of a row. -/
def Tbl.planeBytes (t : Tbl) (p : Nat) : Nat := t.planeLen p * (t.planeFmt p).bytes

/-- Bytes of all present planes of a row. -/
def Tbl.rowBytes (t : Tbl) : Nat := ((List.range 4).filter t.hasPlane).foldl (fun n p => n + t.planeBytes p) 0

/-- The row a node names; none for a bad index (R145). -/
def Tbl.rowOf (t : Tbl) (node : Nat) : Option Nat :=
  if node < 2 ^ 48 ∧ t.firstNode ≤ node ∧ node < t.firstNode + t.rows then some (node - t.firstNode) else none

/-- The key of a node's row; none for a bad index or an undefined table (R145, R174). -/
def State.rowKey (s : State) (job table node : Nat) : Option RowKey :=
  (s.tbl job table).bind fun t => (t.rowOf node).map fun r => { job := job, table := table, row := r }

/-- The definition of the table of a row. -/
def State.keyTbl (s : State) (k : RowKey) : Tbl := (s.tbl k.job k.table).getD { ws := [] }

/-- The node a row stands for. -/
def State.keyNode (s : State) (k : RowKey) : Nat := (s.keyTbl k).firstNode + k.row

/-! ## Homes (R177) -/

/-- The hash of R177. -/
def plcMix (x : BitVec 64) : BitVec 64 :=
  let x := (x ^^^ (x >>> 30)) * 0xBF58476D1CE4E5B9
  let x := (x ^^^ (x >>> 27)) * 0x94D049BB133111EB
  x ^^^ (x >>> 31)

/-- The jumps of home_index: b last and j next, j rising at each. -/
def homeJump (m : Nat) : Nat → BitVec 64 → Nat → Nat → Nat
  | 0, _, b, _ => b
  | f + 1, key, b, j =>
    if j < m then
      let key := key * 0x27BB2EE687B0B0FD + 1
      homeJump m f key j ((j + 1) * 2 ^ 31 / ((key >>> 33).toNat + 1))
    else b

/-- home_index (R177). -/
def homeIndex (h n m : Nat) : Nat := homeJump m (m + 1) (plcMix (BitVec.ofNat 64 (h * 2 ^ 48 + n))) 0 0

/-- The default home of a row under a member list; a job without a list keeps its rows here (log entry 22). -/
def State.homeIn (s : State) (l : List Nat) (k : RowKey) : Nat :=
  (l[homeIndex (s.keyTbl k).homeKey (s.keyNode k) l.length]?).getD s.modId

/-- The default home of a row: the member, or the substitute of a lost one (R177, R312). -/
def State.defaultHome (s : State) (k : RowKey) : Nat := s.holder (s.homeIn (s.job k.job).members k)

/-! ## Setting parts of the placement state -/

def State.setPlc (s : State) (p : PlcState) : State := { s with plc := p }

/-! ## The directory (R182 to R184) -/

/-- Bytes of a shadow write (R376): KM48 elements, a row image, or a name. -/
def shadowBytes : ShadowItem → Nat
  | .planes _ a b c => 6 * (a.length + b.length + c.length)
  | .adj _ a => 16 + 16 * a.edges.length + 8 * a.aliasTab.length
  | _ => 16

/-- A change of placement follows the row into the job's open generation, or waits for the next one (R378). -/
def State.follow (s : State) (job : Nat) (item : ShadowItem) : State :=
  match s.twinSt.own.find? fun g => g.job == job && !g.dead with
  | some g =>
    if s.shadowTwin then
      (s.send 6 0 s.twinId 6 0 job (.shadowWrite 0 job g.step g.full item)).count64 bndPg BND.SHADOW_BYTES (shadowBytes item)
    else s
  | none => { s with twinSt := { s.twinSt with later := s.twinSt.later ++ [(job, item)] } }

/-- Whether management firmware has committed the directory: its two copies differ (R198, R199). -/
def State.plcReady (s : State) : Bool := s.reg plcPg PLC.DIR_BASE0 != s.reg plcPg PLC.DIR_BASE1

/-- The bucket of a row's entry (R182). -/
def dirBucket (k : RowKey) : Nat := (plcMix (BitVec.ofNat 64 (k.table * 2 ^ 40 + k.row)) >>> 40).toNat

/-- The 128 bits of an entry (Table 8.3). -/
def DirEntry.image (e : DirEntry) : Nat :=
  e.kind * 2 ^ 125 + e.key.job * 2 ^ 113 + e.key.table * 2 ^ 101 + e.key.row * 2 ^ 61 + e.owner * 2 ^ 46 + e.ver * 2 ^ 34 + e.slot

/-- The entry of a row with its place. -/
def State.dirAt (s : State) (k : RowKey) : Option (Nat × DirEntry) := s.plc.dir.find? fun p => p.2.key == k

/-- The entry of a row. -/
def State.dirFind (s : State) (k : RowKey) : Option DirEntry := (s.dirAt k).map (·.2)

/-- Write 16 bytes at a place in both copies; DIR_USED follows the entries in use. -/
def State.dirMirror (s : State) (place image : Nat) : State :=
  let b := leBytes 16 image
  let s := (s.memWrite Req.device (s.reg plcPg PLC.DIR_BASE0 + 16 * place) b).st
  let s := (s.memWrite Req.device (s.reg plcPg PLC.DIR_BASE1 + 16 * place) b).st
  s.setReg plcPg PLC.DIR_USED s.plc.dir.length

/-- The place an entry for a row would take: its own, or a free one of its bucket. -/
def State.dirPlace (s : State) (k : RowKey) : Option Nat :=
  match s.dirAt k with
  | some (p, _) => some p
  | none => ((List.range 4).map fun i => dirBucket k * 4 + i).find? fun p => (SMap.find p s.plc.dir).isNone

/-- Insert or replace a row's entry; false when its bucket is full (R183). -/
def State.dirPut (s : State) (e : DirEntry) : State × Bool :=
  match s.dirPlace e.key with
  | some p =>
    let was := SMap.find p s.plc.dir
    let s := (s.setPlc { s.plc with dir := SMap.put p e s.plc.dir }).dirMirror p e.image
    (if e.kind = 1 then s.follow e.key.job (.moved e.key (some e.owner))
     else if was.any fun x => x.kind == 1 then s.follow e.key.job (.moved e.key none) else s, true)
  | none => ((s.count plcPg PLC.DIR_REFUSED 1).err plcPg PLC.E_DIR_FULL 0, false)

/-- Remove a row's entry. -/
def State.dirDel (s : State) (k : RowKey) : State :=
  match s.dirAt k with
  | some (p, e) =>
    let s := (s.setPlc { s.plc with dir := SMap.del p s.plc.dir }).dirMirror p 0
    if e.kind = 1 then s.follow k.job (.moved k none) else s
  | none => s

/-- Record where a row lives: a MOVED entry for an owner other than the default home, none otherwise (R183). -/
def State.dirOwner (s : State) (k : RowKey) (owner : Nat) : State :=
  if s.defaultHome k = owner then s.dirDel k else (s.dirPut { kind := 1, key := k, owner := owner }).1

/-- Read a row's bucket in one copy; true when a word of it is uncorrectable. -/
def State.dirRead (s : State) (reg : Nat) (k : RowKey) : State × Bool :=
  let r := s.memRead Req.device (s.reg plcPg reg + 64 * dirBucket k) 64
  (r.st, !r.ue.isEmpty)

/-- Rewrite a row's bucket in one copy. -/
def State.dirRepair (s : State) (reg : Nat) (k : RowKey) : State :=
  s.memPut Req.device (s.reg plcPg reg + 64 * dirBucket k)
    ((List.range 4).flatMap fun i =>
      leBytes 16 (((SMap.find (dirBucket k * 4 + i) s.plc.dir).map DirEntry.image).getD 0))

/-- Look a row up: DIR_LOOKUPS counts it; whether a cache of a die holds the result is a free value, and a miss reads the
bucket, from the other copy when the first is uncorrectable; true when both are (R184; log entry 23). -/
def State.lookup (s : State) (k : RowKey) (q : Nat) : State × Bool :=
  let s := s.count64 plcPg PLC.DIR_LOOKUPS 1
  let (x, s) := s.draw
  if x % 2 = 0 ∨ s.plcReady = false then (s, false)
  else
    let s := s.count64 plcPg PLC.DIR_MISSES 1
    let (s, u0) := s.dirRead PLC.DIR_BASE0 k
    if !u0 then (s, false)
    else
      let (s, u1) := s.dirRead PLC.DIR_BASE1 k
      if u1 then (s.err plcPg PLC.E_DIR_UE q, true) else (s.dirRepair PLC.DIR_BASE0 k, false)

/-! ## Migrations at hand -/

def State.migOut (s : State) (k : RowKey) : Option MigOut := s.plc.out.find? fun m => m.key == k
def State.migIn (s : State) (k : RowKey) : Option MigIn := s.plc.inn.find? fun m => m.key == k && !m.owner
def State.putOut (s : State) (m : MigOut) : State :=
  s.setPlc { s.plc with out := (s.plc.out.filter fun x => x.key ≠ m.key) ++ [m] }
def State.delOut (s : State) (k : RowKey) : State := s.setPlc { s.plc with out := s.plc.out.filter fun x => x.key ≠ k }
def State.putIn (s : State) (m : MigIn) : State :=
  s.setPlc { s.plc with inn := (s.plc.inn.filter fun x => x.key ≠ m.key) ++ [m] }
def State.delIn (s : State) (k : RowKey) : State := s.setPlc { s.plc with inn := s.plc.inn.filter fun x => x.key ≠ k }

/-- Whether a notice says that a row routes to this module from a beat that has come. -/
def State.noticedHere (s : State) (k : RowKey) : Bool :=
  s.plc.flips.any fun f => f.1 == k && f.2.1 == s.modId && decide (f.2.2 ≤ s.beat)

/-- Whether this module is the new home of a row whose flip beat has come and whose transfer has not (Table 8.5). -/
def State.flipped (s : State) (k : RowKey) : Bool :=
  match s.migIn k with
  | some m => if m.byList then s.twin != 5 && s.homeIn (s.job k.job).members k == s.modId else s.noticedHere k
  | none => false

/-- FLIP_LEAD of Table 8.8. -/
def State.flipLead (s : State) : Nat := bits (s.reg plcPg PLC.PLC_CONFIG) 23 16

/-- Whether a change of the member list has just made this module the home of a row of which it has heard nothing yet: for
FLIP_LEAD beats, in which the notices of the old home arrive (R196; log entry 84). -/
def State.listFresh (s : State) (k : RowKey) : Bool :=
  let j := s.job k.job
  !j.prev.isEmpty && decide (s.beat < j.since + s.flipLead) && s.homeIn j.members k == s.modId &&
  s.homeIn j.prev k != s.modId && (kget k s.plc.rows).isNone && (s.dirFind k).isNone

/-- Where a migration that a change of the member list defines sends a row, before anything else is asked: its old home
serves it until the transfer; a new home whose copy has not come forwards to the old home, which its notice names (R196).
A newcomer forwards requests for rows its twin still carries (R381). -/
def State.listRoute (s : State) (k : RowKey) : Option Nat :=
  match s.migOut k with
  | some m =>
    if m.affinity then none
    else if m.phase = .sent then some (s.holder m.dest) else some s.modId
  | none =>
    let j := s.job k.job
    let copied := (s.migIn k).isSome
    if s.flipped k then some s.modId
    else if !copied && s.noticedHere k then (kget k s.plc.back).map fun b => s.holder b.2
    else if !copied && s.listFresh k then some (s.holder (s.homeIn j.prev k))
    else if s.twin == 5 && (kget k s.plc.rows).isNone && s.homeIn j.members k == s.modId then some s.twinId
    else none

/-! ## Resolving a row (R183) -/

/-- A module named by an entry; for a lost one the default home (R183). The default home itself sends requests to the old
home of a migration whose new home was lost (Table 8.6), else to the substitute (R312, R380); rows of a module lost without
one are unrecoverable (R24), and their requests end as those to a lost module do (log entry 84). -/
def State.liveOr (s : State) (k : RowKey) (m : Nat) : Nat :=
  if !(s.isLost m) then m
  else if s.defaultHome k ≠ s.modId then s.defaultHome k
  else match kget k s.plc.back with
    | some (n, o) => if n = m ∧ !(s.isLost o) then o else s.holder m
    | none => s.holder m

/-- The module that the directory and the flips in effect name for a row (R183): a flip notice in effect routes to the
new home. -/
def State.resolveDir (s : State) (k : RowKey) : Nat :=
  match s.plc.flips.find? fun f => f.1 == k && decide (f.2.2 ≤ s.beat) && f.2.1 != s.modId && (s.migOut k).isNone with
  | some f => s.liveOr k f.2.1
  | none =>
    match s.dirFind k with
    | some e =>
      match e.kind with
      | 3 => match s.migOut k with
        | some m => if m.phase = .sent then s.liveOr k e.owner else s.modId
        | none => s.modId
      | 4 => if s.flipped k then s.modId else s.liveOr k e.owner
      | _ => s.liveOr k e.owner
    | none => s.defaultHome k

/-- The module that serves a row as owner or home (R183, R196). -/
def State.resolve (s : State) (k : RowKey) : Nat := (s.listRoute k).getD (s.resolveDir k)

/-- Where a request goes that a module has sent: a row that the directory here would send straight back is not there any
more. Its migration's new home then serves it, or this module, home by the list (R183, R195, R196). -/
def State.resolveFor (s : State) (src : Nat) (k : RowKey) : Nat :=
  let m := s.resolve k
  if m ≠ src ∨ m = s.modId then m
  else match kget k s.plc.back with
    | some (n, o) => if s.holder o = src then s.holder n else m
    | none => if s.listFresh k then s.modId else m

/-- Whether this module owns a row now: it is the home and no transfer is awaited. -/
def State.owns (s : State) (k : RowKey) : Bool := s.resolve k == s.modId && !(s.flipped k)

/-- Whether a replica of a row is held here. -/
def State.hasReplica (s : State) (k : RowKey) : Bool :=
  match s.dirFind k with
  | some e => e.kind == 2
  | none => false

/-! ## The row store (R174, R178) -/

/-- A row as this module keeps it: its owner copy, or the copy of a migration to it. -/
def State.row (s : State) (k : RowKey) : Row :=
  match s.migIn k with
  | some m => m.row
  | none => (kget k s.plc.rows).getD {}

/-- Put a row in the store. -/
def State.putRow (s : State) (k : RowKey) (r : Row) : State :=
  match s.migIn k with
  | some m => s.putIn { m with row := r }
  | none => s.setPlc { s.plc with rows := kput k r s.plc.rows }

/-- A plane of a set of planes. -/
def Planes.get (p : Planes) (i : Nat) : List Nat :=
  match i with
  | 0 => p.p0
  | 1 => p.p1
  | 2 => p.p2
  | _ => p.p3

/-- Replace a plane. -/
def Planes.put (p : Planes) (i : Nat) (c : List Nat) : Planes :=
  match i with
  | 0 => { p with p0 := c }
  | 1 => { p with p1 := c }
  | 2 => { p with p2 := c }
  | _ => { p with p3 := c }

/-- The element codes of a plane of a row; a row never stored reads +0 (R174). -/
def Tbl.codes (t : Tbl) (p : Planes) (i : Nat) : List Nat :=
  if (Planes.get p i).isEmpty then List.replicate (t.planeLen i) 0 else Planes.get p i

/-- Bytes a row takes in the store once it has been loaded or stored (R174): planes, or header, edges and drawing table. -/
def storedBytes (t : Tbl) (r : Row) : Nat :=
  if !r.stored then 0
  else if t.emb then t.rowBytes
  else 16 + 16 * r.adj.edges.length + 8 * r.adj.aliasTab.length

/-- Bytes of its step-start copy. -/
def undoBytes (t : Tbl) (r : Row) : Nat := if r.stored && r.undo.isSome && t.emb then t.rowBytes else 0

/-- Bytes of a job's rows and step-start copies in one tier, the copies of rows on their way here among them. -/
def State.storeUsed (s : State) (job : Nat) (far : Bool) : Nat :=
  ((s.plc.rows ++ (s.plc.inn.filter fun m => !m.owner).map fun m => (m.key, m.row)).filter fun p => p.1.job == job).foldl
    (fun n p => n + (if p.2.far = far then storedBytes (s.keyTbl p.1) p.2 else 0) +
      (if p.2.undoFar = far then undoBytes (s.keyTbl p.1) p.2 else 0)) 0

/-- Whether a far tier is present: a host port in CXL role with its link up (R286, R288). -/
def State.farPresent (s : State) : Bool := (List.range s.variant.fabricDies).any s.cxlReady

/-- Whether rows of a table may be moved between the tiers: FAR_EN, FAR_OK, a far tier present that a far decoder covers, and
no CXL link lost that has not been trained again (R197, R287, R288). -/
def State.farMay (s : State) (k : RowKey) : Bool :=
  bit (s.reg plcPg PLC.JOB_CONFIG k.job) 29 && (s.keyTbl k).farOk && s.farPresent && !s.farSpans.isEmpty &&
  s.host.cxlDown.isEmpty

/-- Whether a job's row store has room for n more bytes in a tier (log entry 20). -/
def State.roomIn (s : State) (job n : Nat) (far : Bool) : Bool :=
  decide (s.storeUsed job far + n ≤ if far then Config.rowStoreFar job else Config.rowStoreHbm job)

/-- The image of an adjacency row: its header and its edges (Tables 6.1 and 6.2). -/
def imageBytes (a : AdjRow) : List Byte :=
  leBytes 4 a.edges.length ++ leBytes 12 (b2n a.timeSorted + 2 * b2n a.aliasValid + 4 * b2n a.zeroWeight) ++
  a.edges.flatMap fun e => leBytes 8 e.nbr ++ leBytes 4 e.time ++ leBytes 4 e.eval

/-- Its drawing table, 8 bytes an edge (R139). -/
def tableBytes (a : AdjRow) : List Byte := a.aliasTab.flatMap fun c => leBytes 4 c.thr ++ leBytes 4 c.other

/-- Replace the uncorrectable words of a part. -/
def ueSet (l : List (Nat × Nat)) (p : Nat) (ws : List Nat) : List (Nat × Nat) :=
  (l.filter fun x => x.1 != p) ++ ws.map fun w => (p, w)

/-- The parts of a row that lie in the store, with their bytes: its present planes and the held next version, or its
image and drawing table. -/
def Tbl.parts (t : Tbl) (r : Row) : List (Nat × List Byte) :=
  if !r.stored then []
  else if t.emb then
    (((List.range 4).filter t.hasPlane).map fun p => (p, elemBytes (t.planeFmt p).bytes (t.codes r.planes p))) ++
    (r.next.toList.map fun c => (5, elemBytes (t.planeFmt 0).bytes c))
  else [(4, imageBytes r.adj), (6, tableBytes r.adj)]

/-- The engine reads a row it keeps, to copy or move it. -/
def State.rowVisit (s : State) (k : RowKey) : State :=
  let r := s.row k
  ((s.keyTbl k).parts r).foldl (fun s p =>
    (s.rowGet Req.device r.far k (r.place p.1) p.2.length (r.bad p.1)).st) s

/-- The engine writes a row to its place. -/
def State.rowLay (s : State) (k : RowKey) (r : Row) : State :=
  ((s.keyTbl k).parts r).foldl (fun s p => (s.rowSet Req.device r.far k (r.place p.1) p.2 (r.bad p.1)).st) s

/-- The tier that has room for n bytes of a row, beside what it is to take anyhow: HBM first, then the permitted far tier
(R178). -/
def State.tierFor (s : State) (k : RowKey) (n hbm far : Nat) : Option Bool :=
  if s.roomIn k.job (hbm + n) false then some false
  else if s.farMay k && s.roomIn k.job (far + n) true then some true
  else none

/-- The tier of a row as it is to be stored: one that is stored stays in its tier, where only the moves of R197 take it from;
an image that outgrows its tier is written anew where there is room. -/
def State.rowTier (s : State) (k : RowKey) (need : Nat) : Option Bool :=
  match (kget k s.plc.rows).filter (·.stored) with
  | some o =>
    let had := storedBytes (s.keyTbl k) o
    if need ≤ had ∨ s.roomIn k.job (need - had) o.far then some o.far else s.tierFor k need 0 0
  | none => s.tierFor k need 0 0

/-- Make room for a row as it is to be stored, and for its step-start copy; none and STORE_FULL when there is none (R178,
R180). `q`: the queue of the command concerned (R200). -/
def State.fitRow (s : State) (q : Nat) (k : RowKey) (r : Row) : State × Option Row :=
  let t := s.keyTbl k
  let full : State × Option Row := (s.err plcPg PLC.E_STORE_FULL q, none)
  if (s.migIn k).isSome then (s, some r)
  else match s.rowTier k (storedBytes t r) with
    | none => full
    | some far =>
      let o := (kget k s.plc.rows).getD {}
      let more := storedBytes t r - storedBytes t o
      if undoBytes t r ≤ undoBytes t o then (s, some { r with far := far })
      else match s.tierFor k (undoBytes t r) (if far then 0 else more) (if far then more else 0) with
        | none => full
        | some u => (s, some { r with far := far, undoFar := u })

/-! ## The heat sketch (R189, Table 8.4) -/

/-- The four counters of a row. -/
def sketchIdx (k : RowKey) : List Nat :=
  let key : BitVec 64 := BitVec.ofNat 64 (k.job * 2 ^ 52 + k.table * 2 ^ 40 + k.row)
  (List.range 4).map fun i => i * 2 ^ 19 + (plcMix (key ^^^ (BitVec.ofNat 64 (i + 1) * 0x9E3779B97F4A7C15)) >>> 45).toNat

/-- Count one read. -/
def sketchAdd (k : RowKey) (h : List (Nat × Nat)) : List (Nat × Nat) :=
  (sketchIdx k).foldl (fun h i => SMap.put i (min (SMap.get 0 i h + 1) 0xFFFF) h) h

/-- The estimate of a row. -/
def sketchEst (k : RowKey) (h : List (Nat × Nat)) : Nat := (sketchIdx k).foldl (fun m i => min m (SMap.get 0 i h)) 0xFFFF

/-- A square of this module reads a row: WANT counts it. -/
def State.wantRow (s : State) (k : RowKey) : State := s.setPlc { s.plc with want := sketchAdd k s.plc.want }

/-- This module serves a row as owner: SERVE counts it. -/
def State.serveRow (s : State) (k : RowKey) : State := s.setPlc { s.plc with serve := sketchAdd k s.plc.serve }

/-- Every counter halves, rounding down (R189). -/
def sketchHalve (h : List (Nat × Nat)) : List (Nat × Nat) :=
  h.filterMap fun p => if p.2 / 2 = 0 then none else some (p.1, p.2 / 2)

/-- SKETCH_DECAY: at a beat that is a multiple of 2^HALF_LOG2 every counter halves, once (R189). -/
def State.decayDue (s : State) : Bool :=
  decide (s.beat % 2 ^ (s.reg plcPg PLC.SKETCH_CONFIG % 32) = 0) && s.plc.decayed != some s.beat && decide (0 < s.beat)

def State.sketchDecay (s : State) : State :=
  if s.decayDue then
    s.setPlc { s.plc with want := sketchHalve s.plc.want, serve := sketchHalve s.plc.serve, decayed := some s.beat }
  else s

def execSketchDecay (s : State) : Res := .next s.sketchDecay

/-! ## Messages between placement engines -/

/-- Send a placement message. -/
def State.plcSend (s : State) (dst job : Nat) (b : Body) : State := s.send 6 0 dst 6 0 job b

/-- The other members of a job. -/
def State.otherMembers (s : State) (job : Nat) : List Nat := (s.job job).members.filter (· != s.modId)

/-- Send a change of a migrating row to its new home, numbered from 1 (R194). -/
def State.sendChange (s : State) (k : RowKey) (c : Change) : State :=
  match s.migOut k with
  | some m =>
    if m.phase = .chosen ∨ m.phase = .sent then s
    else (s.putOut { m with seq := m.seq + 1 }).plcSend m.dest k.job (.migChange k (m.seq + 1) c)
  | none => s

/-! ## Reading and writing planes of stored rows -/

/-- Codes of a plane as an access leaves them: those of refused lines read or stay as `old` has them. -/
def RowAcc.codes (x : RowAcc) (n : Nat) (old new : List Nat) : List Nat :=
  if x.no.isEmpty then new else elems n (keepLines x.no (elemBytes n old) (elemBytes n new))

/-- Read a plane of a row kept here: the access and the codes, zero where the region table refused it (R290). A row never
stored reads +0 and takes no access (R174). -/
def State.planeRead (s : State) (q : Req) (k : RowKey) (p : Nat) : RowAcc × List Nat :=
  let r := s.row k
  let t := s.keyTbl k
  let cs := t.codes r.planes p
  if !r.stored then ({ st := s }, cs)
  else
    let n := (t.planeFmt p).bytes
    let x := s.rowGet q r.far k (r.place p) (t.planeBytes p) (r.bad p)
    (x, x.codes n [] cs)

/-- Codes of n bytes as read, those of the words in `bad` free: an uncorrectable word has no value (log entry 102). -/
def State.freeWords (s : State) (n : Nat) (bad cs : List Nat) : State × List Nat :=
  if bad.isEmpty then (s, cs)
  else
    let (vs, s) := s.drawN cs.length
    (s, (List.range cs.length).map fun i => if bad.contains (i * n / 16) then (vs[i]?).getD 0 % 256 ^ n else (cs[i]?).getD 0)

/-- Write codes over a part of a row that holds `old`: the access, the codes that then lie there, and the words of the part
that are uncorrectable. -/
def State.planeWrite (s : State) (q : Req) (k : RowKey) (r : Row) (p n : Nat) (old codes : List Nat) (bad : List Nat) :
    RowAcc × List Nat × List Nat :=
  let x := s.rowSet q r.far k (r.place p) (elemBytes n codes) bad
  (x, x.codes n old codes,
   (bad.filter fun w => !(x.no.contains (w / 4))) ++ (r.bad p).filter fun w => x.no.contains (w / 4))

/-! ## Marks, versions, replicas (R179, R185, R186) -/

/-- Send the holders of a row a refresh with its current version (R186). -/
def State.refreshHolders (s : State) (k : RowKey) : State :=
  let r := s.row k
  if r.holders.isEmpty then s
  else
    let x := s.planeRead Req.device k 0
    r.holders.foldl (fun s h =>
      ((s.setPlc { s.plc with refreshes := s.plc.refreshes ++ [(k, h)] }).count64 plcPg PLC.REFRESHES_SENT 1).plcSend h k.job
        (.refresh k r.ver x.2 x.1.bad)) x.1.st

/-- Notify holders of a row's mark (R186). -/
def State.notifyHolders (s : State) (k : RowKey) (hs : List Nat) : State :=
  hs.foldl (fun s h => (s.setPlc { s.plc with notices := s.plc.notices ++ [(k, h)] }).plcSend h k.job (.pendingNotice k)) s

/-- Set a row's pending mark: its holders are notified, and a row's new home before the transfer keeps the mark apart
(R185, R186, Table 8.5). -/
def State.setMark (s : State) (k : RowKey) : State :=
  match s.migIn k with
  | some m =>
    if m.ownMark then s else (s.putIn { m with ownMark := true }).notifyHolders k (m.row.holders.filter (· != s.modId))
  | none =>
    let r := s.row k
    if r.pend then s else ((s.putRow k { r with pend := true }).sendChange k (.mark true)).notifyHolders k r.holders

/-- Clear a row's pending mark: a held next version becomes current, and the holders are refreshed (R185, R186). -/
def State.clearMark (s : State) (k : RowKey) : State :=
  match s.migIn k with
  | some m => s.putIn { m with ownMark := false }
  | none =>
    let r := s.row k
    if !r.pend then s
    else
      let r' := match r.next with
        | some p0 => { r with
            pend := false, next := none, planes := Planes.put r.planes 0 p0, ver := (r.ver + 1) % 4096, alt := !r.alt,
            ue := ueSet (ueSet r.ue 0 (r.bad 5)) 5 [] }
        | none => { r with pend := false }
      let s := s.putRow k r'
      let s := if r.next.isSome then s.sendChange k (.version r'.ver r'.planes.p0 none r'.ue) else s
      (s.sendChange k (.mark false)).refreshHolders k

/-- Whether every pending notice of a set of rows has been acknowledged (R186). -/
def State.noticesIn (s : State) (keys : List RowKey) : Bool := !(s.plc.notices.any fun n => keys.contains n.1)

/-- What a write of a row comes to: whether it found room, and why the region table refused it. -/
structure StoreRes where
  st    : State
  full  : Bool := false
  world : Bool := false
  cfg   : Bool := false

/-- The step-start copy of a row is written to the job's undo area, for the command whose store makes it: lines that the
region table refuses stay zero (R180, R290). The row with the copy as it came to be, and what refused any of it. -/
def State.undoCopy (s : State) (q : Req) (k : RowKey) (r : Row) : State × RowAcc × Row :=
  let t := s.keyTbl k
  let a : RowAcc × Row := ((List.range 4).filter t.hasPlane).foldl (fun (a : RowAcc × Row) p =>
    let n := (t.planeFmt p).bytes
    let cs := t.codes r.planes p
    let g := a.1.st.rowGet q r.far k (r.place p) (t.planeBytes p) (r.bad p)
    let x := g.st.rowSet q r.undoFar k (8 + p) (elemBytes n cs) (r.bad p)
    let no := g.no ++ x.no
    ({ st := x.st, world := a.1.world || g.world || x.world, cfg := a.1.cfg || g.cfg || x.cfg },
     { a.2 with undo := a.2.undo.map fun u => Planes.put u p (({ st := x.st, no := no } : RowAcc).codes n (cs.map fun _ => 0) cs) }))
    ({ st := s }, r)
  (a.1.st.sendChange k (.undo a.2.undo a.2.ue), a.1, a.2)

/-- Write a plane of a row owned here (R179, R180): the step-start copy is made first, plane 0 becomes the next version,
current at once when the mark is clear. A write that the region table refuses whole leaves the row as it was (R290).
`q`: the requester; `bad`: the uncorrectable words of the source. -/
def State.storePlane (s : State) (q : Req) (k : RowKey) (p : Nat) (codes bad : List Nat) : StoreRes :=
  let r := s.row k
  let n := ((s.keyTbl k).planeFmt p).bytes
  match s.fitRow q.q k r.withUndo with
  | (s, none) => { st := s, full := true }
  | (s, some u) =>
    let (s, a, u) := if r.undo.isNone then (s.putRow k u).undoCopy q k u else (s.putRow k u, { st := s }, u)
    let held := decide (p = 0) && u.pend
    let part := if held then 5 else p
    let old := if held then u.next.getD [] else (s.keyTbl k).codes u.planes p
    let (x, cs, ws) := s.planeWrite q k u part n old codes bad
    let s := x.st
    let world := a.world || x.world
    let cfg := a.cfg || x.cfg
    if x.no.length ≥ (n * codes.length + 63) / 64 ∧ !x.no.isEmpty then { st := s.putRow k u, world := world, cfg := cfg }
    else
      let ue := ueSet u.ue part ws
      let r' := if held then { u with next := some cs, ue := ue }
        else if p = 0 then { u with planes := Planes.put u.planes 0 cs, ver := (u.ver + 1) % 4096, ue := ue }
        else { u with planes := Planes.put u.planes p cs, ue := ue }
      let s := s.putRow k r'
      let s := if p = 0 then
          let s := s.sendChange k (.version r'.ver r'.planes.p0 r'.next ue)
          if held then s else s.refreshHolders k
        else s.sendChange k (.plane p cs ue)
      { st := s, world := world, cfg := cfg }

/-- The uncorrectable words of a part as words of the row, after n edges: its header's counts as the row's (R175). -/
def partWords (n : Nat) (ws : List Nat) : List Nat := ws.map fun w => if w = 0 then 0 else n + w

/-- TIME does not increase along a list of edges (R120). -/
def timeSorted : List Edge → Bool
  | a :: b :: r => decide (b.time ≤ a.time) && timeSorted (b :: r)
  | _ => true

/-- Make an adjacency row current as one version (R120, R175); `bad`: its uncorrectable words. A write that the region
table refuses leaves the row as it was. `asm`: the unfinished assembly it leaves. -/
def State.storeAdj (s : State) (q : Req) (k : RowKey) (edges : List Edge) (bad : List Nat)
    (asm : Option (List Edge × List Nat)) : StoreRes :=
  let r := s.row k
  let a : AdjRow := { timeSorted := timeSorted edges, edges := edges }
  let r' := { r with adj := a, stored := true, ue := bad.map fun w => (4, w), notLoaded := false, asm := asm }
  match s.fitRow q.q k r' with
  | (s, none) => { st := s, full := true }
  | (s, some r') =>
    let x := s.rowSet q r'.far k 4 (imageBytes a) bad
    if x.no.isEmpty then { st := (x.st.putRow k r').sendChange k (.adj a asm r'.ue) }
    else { st := x.st.putRow k { r with asm := asm }, world := x.world, cfg := x.cfg }

/-- A part of a row joins its unfinished assembly, which moves with the row (R175). The words of a part are counted from its
own header. -/
def State.storePart (s : State) (k : RowKey) (have_ : List Edge × List Nat) (e : StoreEntry) : State :=
  let r := s.row k
  let asm := some (have_.1 ++ e.adj, have_.2 ++ partWords have_.1.length e.ue)
  (s.putRow k { r with asm := asm }).sendChange k (.adj r.adj asm r.ue)

/-- Write an entry of a store or load into its row: a plane, or an adjacency image whole or in parts (R175, R179). -/
def State.storeEntry (s : State) (q : Req) (k : RowKey) (e : StoreEntry) : StoreRes :=
  let asm := (s.row k).asm.getD ([], [])
  if (s.keyTbl k).emb then s.storePlane q k e.plane e.codes e.ue
  else match e.part with
    | 0 => s.storeAdj q k e.adj e.ue (s.row k).asm
    | 1 => { st := s.storePart k ([], []) e }
    | 2 => { st := s.storePart k asm e }
    | _ => s.storeAdj q k (asm.1 ++ e.adj) (asm.2 ++ partWords asm.1.length e.ue) none

/-! ## Replicas (R182, R191, R192) -/

/-- Bytes of plane 0 of a row, in units of 64. -/
def State.replUnits (s : State) (k : RowKey) : Nat := ((s.keyTbl k).planeBytes 0 + 63) / 64

/-- A free place for n units in the replica area, lowest first. -/
def State.replSlot (s : State) (n : Nat) : Option Nat :=
  let held := s.plc.dir.filterMap fun p => if p.2.kind = 2 then some (p.2.slot, s.replUnits p.2.key) else none
  let fits (x : Nat) : Bool :=
    decide (64 * (x + n) ≤ s.reg plcPg PLC.REPL_SIZE) && !(held.any fun h => decide (x < h.1 + h.2 ∧ h.1 < x + n))
  (0 :: held.map fun h => h.1 + h.2).foldl (fun (b : Option Nat) x =>
    if fits x then some (min (b.getD x) x) else b) none

/-- The address of a replica's data. -/
def State.replAddr (s : State) (slot : Nat) : Nat := s.reg plcPg PLC.REPL_BASE + 64 * slot

/-- Drop a replica held here: the owner stays known (R183). -/
def State.dropReplica (s : State) (k : RowKey) : State :=
  match s.dirFind k with
  | some e =>
    if e.kind = 2 then
      (s.setPlc { s.plc with rpend := s.plc.rpend.filter (· != k) }).dirOwner k e.owner
    else s
  | none => s

/-- Bytes of element codes of plane 0. -/
def State.p0Bytes (s : State) (k : RowKey) (codes : List Nat) : List Byte :=
  elemBytes ((s.keyTbl k).planeFmt 0).bytes codes

/-- The effective REPL_MAX of a job (R191). -/
def State.replMax (s : State) (job : Nat) : Nat :=
  min (s.reg plcPg PLC.JOB_CONFIG job % 2 ^ 15) ((s.job job).members.length - 1)

/-- JOB_THRESH and JOB_MIG in effect (R199). -/
def State.effThresh (s : State) (job : Nat) : Nat :=
  match SMap.find job s.plc.eff with
  | some (t, _) => t
  | none => s.reg plcPg PLC.JOB_THRESH job
def State.effMig (s : State) (job : Nat) : Nat :=
  match SMap.find job s.plc.eff with
  | some (_, m) => m
  | none => s.reg plcPg PLC.JOB_MIG job
def State.hot (s : State) (job : Nat) : Nat := bits (s.effThresh job) 31 16
def State.coldAt (s : State) (job : Nat) : Nat := bits (s.effThresh job) 15 0

/-- A remote plane-0 read of a row has returned from its owner: a hot row is asked for (R191). -/
def State.maybeReplicate (s : State) (k : RowKey) (owner : Nat) : State :=
  if (s.keyTbl k).replOk && !(s.hasReplica k) && decide (sketchEst k s.plc.want ≥ s.hot k.job) && (s.migIn k).isNone then
    s.plcSend owner k.job (.replicaRequest k s.modId ((s.replSlot (s.replUnits k)).isSome && (s.dirPlace k).isSome))
  else s

/-- A replica request: the owner grants or refuses it (R191); a module that does not hold the row passes it on (R183), one
whose directory bucket is uncorrectable in both copies refuses (R184). -/
def State.onReplicaRequest (s : State) (p : Pkt) : State :=
  match p.body with
  | .replicaRequest k h room =>
    let (s, u) := s.lookup k 0
    let home := s.resolveFor p.hdr.srcMod k
    if u then (s.count plcPg PLC.REPL_REFUSED 1).plcSend h p.hdr.job (.replicaRefuse k)
    else if home ≠ s.modId then
      (s.count64 plcPg PLC.ROUTED_ON 1).plcSend home p.hdr.job (.replicaRequest k h room)
    else
      let r := s.row k
      let granted := s.owns k && (s.keyTbl k).replOk && room && (s.migOut k).isNone && (s.migIn k).isNone &&
        (r.holders.contains h || decide (r.holders.length < s.replMax k.job))
      if granted then
        let s := s.putRow k { r with holders := if r.holders.contains h then r.holders else r.holders ++ [h] }
        let x := s.planeRead Req.device k 0
        (x.1.st.count plcPg PLC.REPL_GRANTED 1).plcSend h p.hdr.job (.replicaGrant k r.ver r.pend x.2 x.1.bad)
      else (s.count plcPg PLC.REPL_REFUSED 1).plcSend h p.hdr.job (.replicaRefuse k)
  | _ => s

/-- Write plane 0 of a replica; `bad`: its uncorrectable words (R275). -/
def State.replWrite (s : State) (slot : Nat) (k : RowKey) (p0 bad : List Nat) : State :=
  (s.memWrite Req.device (s.replAddr slot) (s.p0Bytes k p0) (bad.map (· + s.replAddr slot / 16))).st

/-- A grant installs the replica; one that finds no place any more is given back (R191, R192). -/
def State.onReplicaGrant (s : State) (p : Pkt) : State :=
  match p.body with
  | .replicaGrant k ver pend p0 bad =>
    let s := s.dropReplica k
    match s.replSlot (s.replUnits k) with
    | none => s.reply p (.replicaDrop k)
    | some slot =>
      match s.dirPut { kind := 2, key := k, owner := p.hdr.srcMod, ver := ver, slot := slot } with
      | (s, false) => s.reply p (.replicaDrop k)
      | (s, true) =>
        let s := s.replWrite slot k p0 bad
        if pend then s.setPlc { s.plc with rpend := s.plc.rpend ++ [k] } else s
  | _ => s

/-- A replica is dropped: the owner's order reaches its holder, or the holder's notice its owner (R192). -/
def State.onReplicaDrop (s : State) (p : Pkt) : State :=
  match p.body with
  | .replicaDrop k =>
    if s.hasReplica k then (s.dropReplica k).count plcPg PLC.REPL_EVICTED 1
    else
      let r := s.row k
      if r.holders.contains p.hdr.srcMod then
        let hs := r.holders.filter (· != p.hdr.srcMod)
        let s := (s.putRow k { r with holders := hs }).sendChange k (.holders hs)
        s.setPlc { s.plc with notices := s.plc.notices.filter (· != (k, p.hdr.srcMod)) }
      else s
  | _ => s

/-- A holder marks its replica pending and acknowledges (R186). -/
def State.onPendingNotice (s : State) (p : Pkt) : State :=
  match p.body with
  | .pendingNotice k =>
    let s := if s.hasReplica k && !(s.plc.rpend.contains k) then
      s.setPlc { s.plc with rpend := s.plc.rpend ++ [k] } else s
    s.reply p (.pendingNoticeAck k)
  | _ => s

/-- Whether version a is newer than b (R179). -/
def newer (a b : Nat) : Bool :=
  let d := (a + 4096 - b % 4096) % 4096
  decide (1 ≤ d) && decide (d ≤ 2047)

/-- A holder takes a refresh: a newer version replaces its data, the version it holds clears its mark, an older one is
discarded; it answers with its WANT estimate (R186, R193). -/
def State.onRefresh (s : State) (p : Pkt) : State :=
  match p.body with
  | .refresh k ver p0 bad =>
    let s := match s.dirFind k with
      | some e =>
        if e.kind ≠ 2 then s
        else if newer ver e.ver then
          let s := (s.dirPut { e with ver := ver }).1
          let s := s.replWrite e.slot k p0 bad
          s.setPlc { s.plc with rpend := s.plc.rpend.filter (· != k) }
        else if ver = e.ver then s.setPlc { s.plc with rpend := s.plc.rpend.filter (· != k) }
        else s
      | none => s
    s.reply p (.refreshAck k (sketchEst k s.plc.want))
  | _ => s

/-- Remove the first item equal to x. -/
def dropOne {α : Type} [DecidableEq α] (x : α) : List α → List α
  | [] => []
  | y :: ys => if y = x then ys else y :: dropOne x ys

/-- A refresh acknowledgement reaches the owner with the holder's WANT estimate (R193). -/
def State.onRefreshAck (s : State) (p : Pkt) : State :=
  match p.body with
  | .refreshAck k want =>
    let h := p.hdr.srcMod
    s.setPlc { s.plc with
      refreshes := dropOne (k, h) s.plc.refreshes
      wants := (s.plc.wants.filter fun w => !(w.1 == k && w.2.1 == h)) ++ [(k, h, want)] }
  | _ => s

/-! ## Migration (R193 to R195) -/

/-- MIGRATION_PREPARE: the old home copies a selected row, its mark clear, to the new home (Table 8.5). Where no OUT
entry can be kept the migration does not start (R183); one that a change of the member list defines needs none
(R196). -/
def State.migPrepare (s : State) (k : RowKey) : State :=
  match s.migOut k with
  | some m =>
    let r := s.row k
    if m.phase ≠ .chosen ∨ r.pend ∨ s.owns k = false then s
    else match (if m.affinity then s.dirPut { kind := 3, key := k, owner := m.dest } else (s, true)) with
      | (s, false) => s.delOut k
      | (s, true) =>
        let s := (s.putOut { m with phase := .prepare }).rowVisit k
        (s.count plcPg PLC.MIG_STARTED 1).plcSend m.dest k.job (.migCopy k r (!m.affinity))
  | none => s

def execMigrationPrepare (k : RowKey) (s : State) : Res := .next (s.migPrepare k)

/-- The new home receives the copy: it installs IN and answers; without room it sets STORE_FULL and refuses (R193). -/
def State.onMigCopy (s : State) (p : Pkt) : State :=
  match p.body with
  | .migCopy k r byList =>
    let s := s.dropReplica k
    match s.fitRow 0 k { r with far := false } with
    | (s, none) => s.reply p (.migCopyAck k false)
    | (s, some r) => match (if byList then (s, true) else s.dirPut { kind := 4, key := k, owner := p.hdr.srcMod }) with
      | (s, false) => s.reply p (.migCopyAck k false)
      | (s, true) =>
        ((s.rowLay k r).putIn { key := k, old := p.hdr.srcMod, row := r, byList := byList }).reply p (.migCopyAck k true)
  | _ => s

/-- Give up a migration at the old home: it keeps ownership (R195). -/
def State.abandonOut (s : State) (k : RowKey) : State :=
  match s.migOut k with
  | some m =>
    let s := if m.phase = .chosen then s else s.count plcPg PLC.MIG_ABANDONED 1
    (s.delOut k).dirOwner k s.modId
  | none => s

/-- The new home's answer to the copy: FORWARD, or no migration (R194). -/
def State.onMigCopyAck (s : State) (p : Pkt) : State :=
  match p.body with
  | .migCopyAck k ok =>
    match s.migOut k with
    | some m =>
      if m.phase ≠ .prepare ∨ m.dest ≠ p.hdr.srcMod then s
      else if ok then s.putOut { m with phase := .forward, since := s.beat }
      else s.abandonOut k
    | none => s
  | _ => s

/-- A change applied to the copy of a row. -/
def applyChange (c : Change) (r : Row) : Row :=
  match c with
  | .plane p codes ue => { r with planes := Planes.put r.planes p codes, stored := true, ue := ue }
  | .version v p0 next ue => { r with ver := v, planes := Planes.put r.planes 0 p0, next := next, stored := true, ue := ue }
  | .mark b => { r with pend := b }
  | .adj a asm ue => { r with adj := a, stored := r.stored || a != r.adj, asm := asm, ue := ue }
  | .holders hs => { r with holders := hs }
  | .undo u ue => { r with undo := u, ue := ue }
  | .transfer => r

/-- What of a row its owner's twin shadows: planes 1 to 3 of an embedding row, the image of a shadowed adjacency row
(R376). -/
def State.shadowOf (s : State) (k : RowKey) (r : Row) : Option ShadowItem :=
  let t := s.keyTbl k
  if t.emb then some (.planes k (t.codes r.planes 1) (t.codes r.planes 2) (t.codes r.planes 3))
  else if t.shadow then some (.adj k r.adj) else none

/-- The transfer makes the new home owner: its copy becomes a row of its store, with the mark set here meanwhile; the default
home learns that the old home is out of it (log entry 84). -/
def State.takeOver (s : State) (m : MigIn) : State :=
  let r := { m.row with pend := m.row.pend || m.ownMark, holders := m.row.holders.filter (· != s.modId) }
  let s := s.putIn { m with owner := true }
  let s := (s.setPlc { s.plc with rows := kput m.key r s.plc.rows, back := kdel m.key s.plc.back,
                                  flips := s.plc.flips.filter fun f => f.1 ≠ m.key }).dirOwner m.key s.modId
  let s := match s.shadowOf m.key r with
    | some i => s.follow m.key.job i
    | none => s
  let home := s.defaultHome m.key
  let s := if home = s.modId ∨ home = m.old then s
    else s.plcSend home m.key.job (.flipNotice m.key s.modId s.beat s.modId)
  if m.ownMark then s.notifyHolders m.key r.holders else s

/-- Apply held changes in order from the next one. -/
def State.applyChanges (s : State) (k : RowKey) : Nat → State
  | 0 => s
  | f + 1 =>
    match s.migIn k with
    | none => s
    | some m =>
      match m.held.find? fun h => h.1 == m.applied + 1 with
      | none => s
      | some (n, c) =>
        let m := { m with row := applyChange c m.row, applied := n, held := m.held.filter fun h => h.1 != n }
        match c with
        | .transfer => (s.putIn m).takeOver m
        | _ =>
          let s := s.putIn m
          (if c.writes then s.rowLay k m.row else s).applyChanges k f

/-- A change arrives: applied in sequence, held when early, discarded and counted when already applied (R194). -/
def State.onMigChange (s : State) (p : Pkt) : State :=
  match p.body with
  | .migChange k n c =>
    match s.plc.inn.find? fun m => m.key == k with
    | none => s
    | some m =>
      if n ≤ m.applied ∨ m.held.any (fun h => h.1 == n) then s.count plcPg PLC.DUP_DISCARDED 1
      else (s.putIn { m with held := m.held ++ [(n, c)] }).applyChanges k (m.held.length + 1)
  | _ => s

/-- FLIP_NOTICE_SEND: at B − FLIP_LEAD for the first boundary at least FLIP_LEAD beats after FORWARD began, the notice
goes to every member (Table 8.5); a boundary declared later than that lets the next one flip the row. -/
def State.flipNoticeSend (s : State) (k : RowKey) : State :=
  let lead := s.flipLead
  match s.migOut k with
  | some m =>
    let b := match m.flip with
      | some b => b
      | none => s.reg plcPg PLC.JOB_NEXT_BEAT k.job
    if m.phase = .forward ∧ m.affinity ∧ b ≠ 0 ∧ b ≥ m.since + lead ∧ s.beat + lead = b then
      let s := s.putOut { m with phase := .flip, flip := some b }
      (s.otherMembers k.job).foldl (fun s x => s.plcSend x k.job (.flipNotice k m.dest b s.modId)) s
    else s
  | none => s

def execFlipNoticeSend (k : RowKey) (s : State) : Res := .next (s.flipNoticeSend k)

/-- A member records that a row routes to its new home from a beat, and where it is until its transfer (R194, R195). -/
def State.onFlipNotice (s : State) (p : Pkt) : State :=
  match p.body with
  | .flipNotice k n b o =>
    s.setPlc { s.plc with
      flips := (s.plc.flips.filter fun f => f.1 ≠ k) ++ [(k, n, b)]
      back := if o = n then kdel k s.plc.back else kput k (n, o) s.plc.back }
  | _ => s

/-- Flips whose beat has come take effect at members that are neither home: MOVED entries name the new home, and replicas
the new owner. -/
def State.flipsDue (s : State) : State :=
  let due := s.plc.flips.filter fun f => decide (f.2.2 ≤ s.beat) && f.2.1 != s.modId && (s.migOut f.1).isNone
  due.foldl (fun s f =>
    let s := s.setPlc { s.plc with flips := s.plc.flips.filter (· != f) }
    match s.dirFind f.1 with
    | some e => if e.kind = 2 then (s.dirPut { e with owner := f.2.1 }).1 else s.dirOwner f.1 f.2.1
    | none => s.dirOwner f.1 f.2.1) s

/-- MIGRATION_TRANSFER: from B on, the mark clear, every refresh acknowledged and no read waiting, the old home sends the
transfer as its last change (Table 8.5). -/
def State.migTransfer (s : State) (k : RowKey) : State :=
  match s.migOut k with
  | some m =>
    match m.flip with
    | some b =>
      if (m.phase = .flip ∨ (m.phase = .forward ∧ m.affinity = false)) ∧ b ≤ s.beat ∧ (s.row k).pend = false ∧ !(s.plc.refreshes.any fun r => r.1 == k) ∧
          !(s.plc.waits.any fun w => w.key == k) then
        let s := s.sendChange k .transfer
        match s.migOut k with
        | some m =>
          let s := (s.putOut { m with phase := .sent, sentAt := s.beat }).count plcPg PLC.MIG_TRANSFERRED 1
          if (s.shadowOf k (s.row k)).isSome then s.follow k.job (.remove k) else s
        | none => s
      else s
    | none => s
  | none => s

def execMigrationTransfer (k : RowKey) (s : State) : Res := .next (s.migTransfer k)

/-- RETIRE: RETIRE_LEAD beats after the flip and the transfer the old home frees its copy (Table 8.5). -/
def State.retire (s : State) (k : RowKey) : State :=
  match s.migOut k with
  | some m =>
    if m.phase = .sent ∧ s.beat ≥ max (m.flip.getD 0) m.sentAt + bits (s.reg plcPg PLC.PLC_CONFIG) 15 0 then
      let s := (s.delOut k).setPlc { (s.delOut k).plc with rows := kdel k s.plc.rows }
      if s.homeIn (s.job k.job).members k = s.modId then (s.dirPut { kind := 1, key := k, owner := m.dest }).1
      else s.dirDel k
    else s
  | none => s

def execRetire (k : RowKey) (s : State) : Res := .next (s.retire k)

/-- The entry of a migration to this module that its old home's loss ends: the default home names that module again, so that
its substitute serves the row; another has none (R183, R195, R312). -/
def State.dropIn (s : State) (m : MigIn) : State :=
  if s.defaultHome m.key = s.modId then s.dirOwner m.key m.old else s.dirDel m.key

/-- A module declared lost: migrations to or from it end; it holds no replica and answers no notice (R195). Replicas held here
of rows it owned go on serving this module's reads (log entry 87). -/
def State.plcLost (s : State) (m : Nat) : State :=
  let s := (s.plc.out.filter fun x => x.dest == m && x.phase != .sent).foldl (fun s x => s.abandonOut x.key) s
  let s := (s.plc.inn.filter fun x => x.old == m && !x.owner).foldl (fun s x => (s.delIn x.key).dropIn x) s
  let s := (s.plc.rows.filter fun p => p.2.holders.contains m).foldl (fun s p =>
    let hs := p.2.holders.filter (· != m)
    (s.putRow p.1 { p.2 with holders := hs }).sendChange p.1 (.holders hs)) s
  s.setPlc { s.plc with
    notices := s.plc.notices.filter fun n => n.2 != m
    refreshes := s.plc.refreshes.filter fun n => n.2 != m
    flips := s.plc.flips.filter fun f => f.2.1 != m }

/-! ## The declared boundary (R190, R192, R193, R197) -/

/-- Rows of a job owned and stored here. -/
def State.ownedRows (s : State) (job : Nat) : List RowKey :=
  (s.plc.rows.map (·.1)).filter fun k => k.job == job && s.owns k

/-- Replicas gone cold are dropped, and their owners told (R192). -/
def State.evictReplicas (s : State) (job : Nat) : State :=
  let cold := s.plc.dir.filter fun p => p.2.kind == 2 && p.2.key.job == job &&
    decide (4 * sketchEst p.2.key s.plc.want < s.hot job)
  cold.foldl (fun s p =>
    ((s.dropReplica p.2.key).count plcPg PLC.REPL_EVICTED 1).plcSend p.2.owner job (.replicaDrop p.2.key)) s

/-- Holders beyond the effective REPL_MAX are told to drop their replicas, newest first (R192). -/
def State.surplusHolders (s : State) (job : Nat) : State :=
  (s.ownedRows job).foldl (fun s k =>
    let r := s.row k
    let keep := r.holders.take (s.replMax job)
    if keep.length = r.holders.length then s
    else
      let gone := (r.holders.drop (s.replMax job)).reverse
      let s := (s.putRow k { r with holders := keep }).sendChange k (.holders keep)
      gone.foldl (fun s h => s.plcSend h job (.replicaDrop k)) s) s

/-- One holder of one row under the affinity rule: what of SERVE is the holder's share is a free value (R193; log
entry 24). -/
def State.affinityOne (s : State) (k : RowKey) (h want : Nat) : State :=
  let serve := sketchEst k s.plc.serve
  let (x, s) := s.draw
  let rest := serve - x % (serve + 1)
  let n := ((s.plc.aff.find? fun a => a.1 == k && a.2.1 == h).map (·.2.2)).getD 0
  let n := if want > 4 * rest then n + 1 else 0
  let s := s.setPlc { s.plc with
    aff := (s.plc.aff.filter fun a => !(a.1 == k && a.2.1 == h)) ++ (if n = 0 then [] else [(k, h, n)]) }
  let busy := (s.plc.out.filter fun m => m.affinity).length
  if n ≥ bits (s.effMig k.job) 31 24 ∧ bit (s.reg plcPg PLC.JOB_CONFIG k.job) 30 ∧ (s.migOut k).isNone ∧
      busy < bits (s.reg plcPg PLC.JOB_MIG k.job) 15 0 then s.putOut { key := k, dest := h }
  else s

/-- Counts of boundaries in a row end where the module is no holder of the row any more (R193). -/
def State.affinityKeep (s : State) (job : Nat) : State :=
  s.setPlc { s.plc with aff := s.plc.aff.filter fun a =>
    a.1.job != job || (s.owns a.1 && (s.row a.1).holders.contains a.2.1) }

/-- The affinity rule over every row a holder has reported a want for. -/
def State.affinityAll (s : State) (job : Nat) : State :=
  let s := s.affinityKeep job
  (s.plc.wants.filter fun w => w.1.job == job && s.owns w.1 && (s.row w.1).holders.contains w.2.1).foldl
    (fun s w => s.affinityOne w.1 w.2.1 w.2.2) s

/-- How full a job's HBM row store is, above a percentage. -/
def State.hbmAbove (s : State) (job pct : Nat) : Bool :=
  decide (100 * s.storeUsed job false > pct * Config.rowStoreHbm job)

/-- Boundaries at which a row has been cold in a row. -/
def State.coldCount (s : State) (job : Nat) : State :=
  let ks := s.ownedRows job
  let now := ks.filter fun k => decide (sketchEst k s.plc.serve < s.coldAt job)
  s.setPlc { s.plc with
    cold := (s.plc.cold.filter fun c => c.1.job != job) ++ now.map fun k => (k, ((kget k s.plc.cold).getD 0) + 1) }

/-- Demotion of cold rows while the store is above HBM_HIGH − 5 percent, once it was above HBM_HIGH (R197). -/
def State.demote (s : State) (job : Nat) : State :=
  let high := bits (s.reg plcPg PLC.PLC_CONFIG) 31 24
  if !(s.hbmAbove job high) then s
  else (s.ownedRows job).foldl (fun s k =>
    let r := s.row k
    if s.hbmAbove job (high - 5) && r.stored && !r.far && !r.pend && s.farMay k &&
        decide ((kget k s.plc.cold).getD 0 ≥ bits (s.effMig job) 23 16) &&
        s.roomIn job (storedBytes (s.keyTbl k) r) true then
      (((s.rowVisit k).rowLay k { r with far := true }).putRow k { r with far := true }).count plcPg PLC.FAR_DEMOTED 1
    else s) s

/-- Raising of warm far rows while the store is below HBM_HIGH (R197). -/
def State.raise (s : State) (job : Nat) : State :=
  let high := bits (s.reg plcPg PLC.PLC_CONFIG) 31 24
  (s.ownedRows job).foldl (fun s k =>
    let r := s.row k
    if r.far && !r.pend && s.farMay k && decide (sketchEst k s.plc.serve > 4 * s.coldAt job) &&
        decide (100 * s.storeUsed job false < high * Config.rowStoreHbm job) &&
        s.roomIn job (storedBytes (s.keyTbl k) r) false then
      (((s.rowVisit k).rowLay k { r with far := false }).putRow k { r with far := false }).count plcPg PLC.FAR_RAISED 1
    else s) s

/-- Entries that name lost modules are replaced at the next boundary: the default home names the old home of a migration
whose new home was lost, and keeps the entry of a module that a substitute stands for; elsewhere they go (R195, R312). -/
def State.dropLostEntries (s : State) (job : Nat) : State :=
  (s.plc.dir.filter fun p => p.2.key.job == job && p.2.kind == 1 && s.isLost p.2.owner).foldl (fun s p =>
    let k := p.2.key
    if s.defaultHome k ≠ s.modId then s.dirDel k
    else match kget k s.plc.back with
      | some (n, o) => if n = p.2.owner ∧ !(s.isLost o) then s.dirOwner k o else s
      | none => s) s

/-- Whether a job's declared boundary has come. -/
def State.boundaryDue (s : State) (job : Nat) : Bool :=
  let b := s.reg plcPg PLC.JOB_NEXT_BEAT job
  decide (b ≠ 0) && decide (b ≤ s.beat)

/-- PLC_BOUNDARY: the declared boundary is reached, thresholds committed since the last one apply, and the decisions of
replication, affinity and tier are taken (R190, R192, R193, R197, R199). -/
def State.plcBoundary (s : State) (job : Nat) : State :=
  if s.boundaryDue job then
    let b := s.reg plcPg PLC.JOB_NEXT_BEAT job
    let s := s.setReg plcPg PLC.JOB_NEXT_BEAT 0 job
    let s := s.setPlc { s.plc with
      lastB := SMap.put job b s.plc.lastB
      eff := SMap.put job (s.reg plcPg PLC.JOB_THRESH job, s.reg plcPg PLC.JOB_MIG job) s.plc.eff }
    (((((((s.dropLostEntries job).evictReplicas job).surplusHolders job).affinityAll job).coldCount job).demote job).raise job)
  else s

/-! ## The PLC commands (R172 to R181, R190) -/

/-- A PLC command before the directory is committed, or with a bad body (R198). -/
def plcCheck (bad : Desc → Bool) (late : State → Cmd → Bool := fun _ _ => false) : Check := lateCheck
  (fun _ c => firstOf [(bad c.desc, .configInvalid)]) fun s c => firstOf [(!s.plcReady || late s c, .configInvalid)]

/-- A command that is done at once, with its information. -/
def State.doneWith (s : State) (c : Cmd) (info0 info1 : Nat) : State :=
  s.addCmd { c with done := true, info0 := min info0 0xFFFFFFFF, info1 := min info1 0xFFFFFFFF }

/-- The body of a PLC_TABLE as a definition. -/
def bodyTbl (d : Desc) : Tbl := { ws := (List.range 8).map d.b }

/-- The malformed bodies of R173. -/
def tableBad (d : Desc) : Bool :=
  let t := bodyTbl d
  d.f 0 8 0 != 0 || d.f 1 31 11 != 0 || d.f 3 31 16 != 0 || d.f 5 31 9 != 0 || d.f 6 31 13 != 0 || d.b 7 != 0 ||
  decide (t.rows > 2 ^ 40) || decide (t.firstNode + t.rows > 2 ^ 48) ||
  (if t.emb then decide (t.len < 16) || decide (t.len > 1024) || !([0, 1, 4, 5, 6].contains t.wcFmt) || t.evalKind != 0 || t.shadow
   else t.len != 0 || t.wcFmt != 0 || t.moments != 0 || t.replOk || t.evalKind == 3)

/-- PLC_TABLE's checks; a definition that differs from the present one sets TABLE_MISMATCH (R173). -/
def tableCheck : Check where
  body _ c := firstOf [((bodyTbl c.desc).rows == 0, .empty), (tableBad c.desc, .configInvalid)]
  rest s c :=
  let d := c.desc
  if !s.plcReady then (s, some .configInvalid)
  else match s.tbl d.job (bits (d.b 0) 31 20) with
    | some t => if t = bodyTbl d then (s, none) else (s.err plcPg PLC.E_TABLE_MISMATCH c.q, some .configInvalid)
    | none => (s, none)

/-- PLC_TABLE defines a table of the job on this module (R172). -/
def execPlcTable (q : Nat) (d : Desc) (s : State) : Res :=
  .next (s.command q d tableCheck fun s c =>
    (s.setPlc { s.plc with tables := SMap.put (d.job * 4096 + bits (d.b 0) 31 20) (bodyTbl d).ws s.plc.tables }).doneWith c 0 0)

/-- Remove a table from this module: its rows, replicas, entries, migrations (R176). -/
def State.dropTable (s : State) (job table : Nat) : State :=
  let mine (k : RowKey) : Bool := k.job == job && k.table == table
  let s := (s.plc.out.filter fun m => mine m.key).foldl (fun s m =>
    (if m.phase = .chosen ∨ m.phase = .sent then s else s.count plcPg PLC.MIG_ABANDONED 1)) s
  let s := (s.plc.dir.filter fun p => mine p.2.key).foldl (fun s p => s.dirDel p.2.key) s
  s.setPlc { s.plc with
    tables := SMap.del (job * 4096 + table) s.plc.tables
    rows := s.plc.rows.filter fun p => !(mine p.1)
    back := s.plc.back.filter fun p => !(mine p.1)
    recv := s.plc.recv.filter fun p => !(mine p.1)
    rpend := s.plc.rpend.filter fun k => !(mine k)
    out := s.plc.out.filter fun m => !(mine m.key)
    inn := s.plc.inn.filter fun m => !(mine m.key)
    flips := s.plc.flips.filter fun f => !(mine f.1)
    notices := s.plc.notices.filter fun n => !(mine n.1)
    refreshes := s.plc.refreshes.filter fun n => !(mine n.1)
    wants := s.plc.wants.filter fun w => !(mine w.1)
    aff := s.plc.aff.filter fun a => !(mine a.1)
    cold := s.plc.cold.filter fun c => !(mine c.1) }

/-- The check of PLC_DROP. -/
def dropCheck : Check :=
  plcCheck fun d => d.f 0 19 0 != 0 || !(d.zeroWords [1, 2, 3, 4, 5, 6, 7])

/-- PLC_DROP removes a table from the issuing module (R176). -/
def execPlcDrop (q : Nat) (d : Desc) (s : State) : Res :=
  .next (s.command q d dropCheck fun s c =>
    (s.dropTable d.job (bits (d.b 0) 31 20)).doneWith c 0 0)

/-- The beat a PLC_STEP declares. -/
def stepBeat (d : Desc) : Nat := d.b 1 + d.b 2 * 2 ^ 32

/-- PLC_STEP's checks: a beat not later than the present or the last boundary, or a boundary still awaited, sets
STEP_LATE (R190). -/
def stepCheck : Check where
  body _ c := if c.desc.zeroWords [3, 4, 5, 6, 7] then none else some .configInvalid
  rest s c :=
  let d := c.desc
  if !s.plcReady then (s, some .configInvalid)
  else if decide (stepBeat d ≤ s.beat) || s.reg plcPg PLC.JOB_NEXT_BEAT d.job != 0 ||
      (match SMap.find d.job s.plc.lastB with
        | some b => decide (stepBeat d ≤ b)
        | none => false) then (s.err plcPg PLC.E_STEP_LATE c.q, some .configInvalid)
  else (s, none)

/-- PLC_STEP declares the beat at which step STEP + 1 begins (R190). -/
def execPlcStep (q : Nat) (d : Desc) (s : State) : Res :=
  .next (s.command q d stepCheck fun s c =>
    ((s.setReg plcPg PLC.JOB_STEP (d.b 0) d.job).setReg plcPg PLC.JOB_NEXT_BEAT (stepBeat d) d.job).doneWith c 0 0)

/-- Rows of a job owned here that hold a step-start copy (R180). -/
def State.undoRows (s : State) (job : Nat) : List RowKey := (s.ownedRows job).filter fun k => (s.row k).undo.isSome

/-- Rows of a job owned here with the mark set: JOB_STATE [29:0]. -/
def State.pendRows (s : State) (job : Nat) : List RowKey := (s.ownedRows job).filter fun k => (s.row k).pend

/-- Discard a row's step-start copy. -/
def State.keepRow (s : State) (k : RowKey) : State :=
  let r := { s.row k with undo := none, ue := (s.row k).ue.filter fun x => decide (x.1 < 8) }
  (s.putRow k r).sendChange k (.undo none r.ue)

/-- One plane of a row's step-start copy is read and written back, for the command: lines that the region table refuses read
zero, or stay as they were (R181, R290). -/
def RowAcc.restore (a : RowAcc × Row) (q : Req) (k : RowKey) (u : Planes) (p : Nat) : RowAcc × Row :=
  let t := a.1.st.keyTbl k
  let r := a.2
  let n := (t.planeFmt p).bytes
  let g := a.1.st.rowGet q r.undoFar k (8 + p) (t.planeBytes p) (r.bad (8 + p))
  let new := g.codes n [] (t.codes u p)
  let (x, cs, ws) := g.st.planeWrite q k r p n (t.codes r.planes p) new g.bad
  ({ st := x.st, world := a.1.world || g.world || x.world, cfg := a.1.cfg || g.cfg || x.cfg },
   { r with planes := Planes.put r.planes p cs, ue := ueSet r.ue p ws })

/-- Write a row's step-start copy back: planes 1 to 3 in place, plane 0 as the next version, each as good or as bad as it was
saved (R181). -/
def State.rollbackRow (s : State) (q : Req) (k : RowKey) : StoreRes :=
  let r := s.row k
  match r.undo with
  | none => { st := s }
  | some u =>
    let (a, r) := ((List.range 4).filter (s.keyTbl k).hasPlane).foldl (fun a p => RowAcc.restore a q k u p) ({ st := s }, r)
    let r' := { r with undo := none, ver := (r.ver + 1) % 4096, next := none, ue := r.ue.filter fun x => decide (x.1 < 5) }
    let s := a.st.putRow k r'
    let s := [1, 2, 3].foldl (fun s p => s.sendChange k (.plane p (Planes.get r'.planes p) r'.ue)) s
    { st := ((s.sendChange k (.version r'.ver r'.planes.p0 none r'.ue)).sendChange k (.undo none r'.ue)).refreshHolders k
      world := a.world, cfg := a.cfg }

/-- The checks of PLC_KEEP and PLC_ROLLBACK; a rollback is refused while a row has its mark set (R181). -/
def keepCheck : Check := plcCheck fun d => !(d.zeroWords [1, 2, 3, 4, 5, 6, 7])
def rollbackCheck : Check := plcCheck (fun d => !(d.zeroWords [1, 2, 3, 4, 5, 6, 7]))
  fun s c => !(s.pendRows c.desc.job).isEmpty

/-- PLC_KEEP discards every step-start copy of the job's rows here (R181). -/
def execPlcKeep (q : Nat) (d : Desc) (s : State) : Res :=
  .next (s.command q d keepCheck fun s c =>
    let ks := s.undoRows d.job
    (ks.foldl State.keepRow s).doneWith c ks.length (d.b 0))

/-- PLC_ROLLBACK writes every step-start copy of the job's rows here back; refused while a mark is set (R181). -/
def execPlcRollback (q : Nat) (d : Desc) (s : State) : Res :=
  .next (s.command q d rollbackCheck fun s c =>
    let ks := s.undoRows d.job
    let (s, c) := ks.foldl (fun (a : State × Cmd) k =>
      let r := a.1.rollbackRow (Req.command d.job q) k
      (r.st, { a.2 with world := a.2.world || r.world, cfg := a.2.cfg || r.cfg })) (s, c)
    s.doneWith c ks.length (d.b 0))

end Sys2Proof.Machine
end

