-- ==== Sys2Proof/Machine/Touch.lean ====
section
/-! DEFINITION. The receiving squares of SCATTER: touch lists, windows, overflow areas, segments, batches received and
their acknowledgement, ROOK_SETTLE, ROOK_RELEASE, ROOK_DRAIN (07_gather_and_scatter.md R159 to R166). -/

namespace Sys2Proof.Machine

/-! ## The squares of a job -/

/-- The squares of this module bound to a job. -/
def State.jobSquares (s : State) (job : Nat) : List Nat :=
  (List.range (64 * s.variant.computeDies)).filter fun m => s.boundTo 0 m job

/-- The other squares of a square's die that are bound to a job, in an order the device chooses: rotated by a free value
(R137, R163; log entry 6). -/
def State.dieOthers (s : State) (job msq : Nat) : List Nat × State :=
  let l := (s.jobSquares job).filter fun m => m / 64 == msq / 64 && m != msq
  match l with
  | [] => ([], s)
  | [a] => ([a], s)
  | l =>
    let (n, s) := s.draw
    let r := n % l.length
    (l.drop r ++ l.take r, s)

end Sys2Proof.Machine

namespace Sys2Proof

open Sys2Proof.Machine

/-! ## Scatter entries -/

/-- The values of an entry's elements. -/
def ScatterEntry.vals (e : ScatterEntry) : List Val :=
  let f := vxFmt e.fmt
  if mxScaled e.fmt then
    (List.range e.codes.length).map fun j => applyScale (f.decode ((e.codes[j]?).getD 0)) ((e.scales[j / 32]?).getD 0)
  else e.codes.map f.decode

/-- The elements and scales of an entry as bytes, padded to a multiple of 16 (Table 7.3). -/
def ScatterEntry.payload (e : ScatterEntry) : List Byte :=
  let b := elemBytes (vxSize e.fmt) e.codes ++ elemBytes 1 e.scales
  padTo ((b.length + 15) / 16 * 16) 0 b

/-- The 16 bytes before them: table, node, LEN, format, the rest zero (Table 7.3; log entry 11). -/
def ScatterEntry.head (e : ScatterEntry) : List Byte :=
  padTo 16 0 (leBytes 2 e.table ++ leBytes 6 e.node ++ leBytes 2 e.codes.length ++ leBytes 1 e.fmt)

/-- Bytes of an entry in a batch or in the overflow area. -/
def ScatterEntry.bytes (e : ScatterEntry) : Nat := 16 + e.payload.length

end Sys2Proof

namespace Sys2Proof.Machine

/-! ## A square's receiving state -/

def State.rk (s : State) (msq : Nat) : RookSt := SMap.get {} msq s.rook
def State.setRk (s : State) (msq : Nat) (x : RookSt) : State := { s with rook := SMap.set {} msq x s.rook }

def State.gwinBase (s : State) (msq : Nat) : Nat := bits (s.reg (rookPg msq) ROOK.GWIN_CONFIG) 31 16
def State.gwinSlots (s : State) (msq : Nat) : Nat := bits (s.reg (rookPg msq) ROOK.GWIN_CONFIG) 15 0
def State.segBase (s : State) (msq : Nat) : Nat := bits (s.reg (rookPg msq) ROOK.SEG_CONFIG) 31 16
def State.segSlots (s : State) (msq : Nat) : Nat := bits (s.reg (rookPg msq) ROOK.SEG_CONFIG) 15 0
def State.touchAddr (s : State) (msq : Nat) : Nat := s.reg (rookPg msq) ROOK.TOUCH_ADDR % 2 ^ 22

/-- Bytes of the overflow area in use. -/
def RookSt.ovfBytes (x : RookSt) : Nat := x.ovf.foldl (fun n r => n + r.2.bytes) 0

/-- Bring the touch-list header and the registers that mirror it up to date (Table 7.6, R169). -/
def State.touchHeader (s : State) (msq : Nat) : State :=
  let x := s.rk msq
  let pg := rookPg msq
  let s := if s.gwinSlots msq = 0 then s
    else s.sqWrite msq (s.touchAddr msq)
      (leBytes 4 x.ents.length ++ leBytes 4 x.used ++ leBytes 8 x.ovfBytes ++ leBytes 4 x.ovf.length ++ leBytes 12 0)
  ((s.setReg pg ROOK.TOUCH_COUNT x.ents.length).setReg pg ROOK.GWIN_USED x.used).setReg pg ROOK.OVF_USED x.ovfBytes

/-- The image of a touch entry (Table 7.5). -/
def touchImage (node : Nat) (e : TouchEnt) : List Byte :=
  leBytes 6 node ++
  leBytes 2 (e.key.table * 16 + b2n e.split * 8 + b2n e.drained * 4 + b2n e.published * 2) ++
  leBytes 2 e.slot ++ leBytes 2 e.len ++ leBytes 4 e.arrivals

/-- Write touch entry i. -/
def State.touchWrite (s : State) (msq i : Nat) : State :=
  match (s.rk msq).ents[i]? with
  | some e => s.sqWrite msq (s.touchAddr msq + 32 + 16 * i) (touchImage (s.keyNode e.key) e)
  | none => s

/-- Replace touch entry i and write it. -/
def State.setTouch (s : State) (msq i : Nat) (e : TouchEnt) : State :=
  let x := s.rk msq
  (s.setRk msq { x with ents := x.ents.set i e }).touchWrite msq i

/-- The index of a row's touch entry. -/
def State.touchIdx (s : State) (msq : Nat) (k : RowKey) : Option Nat :=
  let l := (s.rk msq).ents
  (List.range l.length).find? fun i => (l[i]?).any fun e => e.key == k

/-! ## Choosing the receiving square (R160) -/

/-- Whether a square has an overflow record for a row, so that its later entries go there too (R161, R162). -/
def State.hasRecord (s : State) (msq : Nat) (k : RowKey) : Bool :=
  (s.rk msq).ovf.any fun r => r.1 == k.job && r.2.table == k.table && r.2.node == s.keyNode k

/-- The receiving square of a row: the one chosen at its first arrival, else one the device chooses now among the job's
squares with a window; the choice stays until the row's touch entry is released (R160; log entry 6). -/
def State.receiver (s : State) (k : RowKey) : Option Nat × State :=
  let l := (s.jobSquares k.job).filter fun m => s.gwinSlots m != 0
  match (kget k s.plc.recv).filter l.contains with
  | some m => (some m, s)
  | none =>
    match s.choose l with
    | (some m, s) => (some m, s.setPlc { s.plc with recv := kput k m s.plc.recv })
    | r => r

/-! ## Arrivals (R160 to R163) -/

/-- For whom a square takes an entry: the command or batch that waits for its addends, and the queue ID of the command
concerned (R95, R171). -/
structure Taker where
  id : Nat
  q  : Nat

/-- Add an entry's elements into slots. -/
def State.addElems (s : State) (msq slot : Nat) (w : Taker) (e : ScatterEntry) : State :=
  let vs := e.vals
  (List.range vs.length).foldl (fun s j => s.scsAdd msq (slot + j) (Ea.ofVal ((vs[j]?).getD .nan)) (some w.id) w.q) s

/-- A free place for n slots in a square's segment area. -/
def State.segSlot (s : State) (msq n : Nat) : Option Nat :=
  let held := (s.rk msq).segs
  let b := s.segBase msq
  let fits (x : Nat) : Bool :=
    decide (x + n ≤ b + s.segSlots msq) && !(held.any fun h => decide (x < h.slot + h.len ∧ h.slot < x + n))
  (b :: held.map fun h => h.slot + h.len).foldl (fun (m : Option Nat) x =>
    if fits x then some (min (m.getD x) x) else m) none

/-- A segment square adds an entry into its segment area; false when the area is full (R163). -/
def State.segAdd (s : State) (base msq : Nat) (w : Taker) (k : RowKey) (e : ScatterEntry) : State × Bool :=
  let x := s.rk msq
  match x.segs.find? fun h => h.key == k && h.base == base with
  | some h => (s.addElems msq h.slot w e, true)
  | none =>
    match s.segSlot msq e.codes.length with
    | none => (s, false)
    | some slot =>
      ((s.setRk msq { x with segs := x.segs ++ [{ key := k, base := base, slot := slot, len := e.codes.length }] }).addElems
        msq slot w e, true)

/-- An entry of a row with a touch entry is added into its slots or, once split, in turn into its segments (R160,
R163). -/
def State.absorbEntry (s : State) (msq i : Nat) (w : Taker) (e : ScatterEntry) : State :=
  match (s.rk msq).ents[i]? with
  | none => s
  | some t =>
    let next := t.segs[t.turn % t.segs.length]?
    let (s, done) := match next with
      | some sq => s.segAdd msq sq w t.key e
      | none => (s, false)
    let s := if done then s else s.addElems msq t.slot w e
    let t := { t with turn := if t.segs.isEmpty then 0 else (t.turn + 1) % t.segs.length, arrivals := min (t.arrivals + 1) 0xFFFFFFFF }
    if !t.split && decide (t.arrivals > s.reg (kntPg msq) KNT.SPLIT_THRESHOLD) then
      let (others, s) := s.dieOthers t.key.job msq
      if others.isEmpty then s.setTouch msq i t
      else
        let segs := (others.filter fun m => s.segSlots m != 0).take 63
        (s.count (rookPg msq) ROOK.HEAVY_SPLITS 1).setTouch msq i { t with split := true, segs := segs }
    else s.setTouch msq i t

/-- Create a row's touch entry, when the window and the list have room (R160). -/
def State.touchCreate (s : State) (msq : Nat) (k : RowKey) (len : Nat) (drained : Bool) : Option State :=
  let x := s.rk msq
  if x.ents.length < s.reg (rookPg msq) ROOK.TOUCH_MAX % 2 ^ 18 ∧ x.used + len ≤ s.gwinSlots msq then
    let e : TouchEnt := { key := k, slot := s.gwinBase msq + x.used, len := len, drained := drained }
    let s := s.setRk msq { x with ents := x.ents ++ [e], used := x.used + len }
    some (((s.touchWrite msq x.ents.length).touchHeader msq).setMark k)
  else none

/-- What became of an entry at its owner: kept; held while a drain runs; lost, with what that makes the sender's command
complete with. -/
inductive EntryOut where
  | kept
  | held
  | lost (st : Status)
  deriving DecidableEq

/-- Append an entry to the overflow area; lost when it is full, or the region table refuses the write (R162, R290). -/
def State.ovfAppend (s : State) (msq q : Nat) (k : RowKey) (e : ScatterEntry) : State × EntryOut :=
  let x := s.rk msq
  let pg := rookPg msq
  let at_ := x.ovfBytes
  if at_ + e.bytes > s.reg pg ROOK.OVF_SIZE then ((s.count pg ROOK.OVF_LOST 1).err pg ROOK.E_OVF_FULL q, .lost .configInvalid)
  else
    let r := s.memWrite (Req.command k.job) (s.reg pg ROOK.OVF_BASE + at_) (e.head ++ e.payload)
    if r.world then (r.st, .lost .worldViolation)
    else if r.cfg then (r.st, .lost .configInvalid)
    else
      let s := r.st.setRk msq { x with ovf := x.ovf ++ [(k.job, e)] }
      (((s.count pg ROOK.OVF_RECORDS 1).touchHeader msq).setMark k, .kept)

/-- A square takes an entry of a row (R160 to R162). -/
def State.takeEntry (s : State) (msq : Nat) (w : Taker) (k : RowKey) (e : ScatterEntry) : State × EntryOut :=
  let pg := rookPg msq
  match s.touchIdx msq k with
  | some i => ((s.absorbEntry msq i w e).count64 pg ROOK.ROWS_RECEIVED 1, .kept)
  | none =>
    let create := if s.hasRecord msq k then none else s.touchCreate msq k e.codes.length false
    match create with
    | some s =>
      match s.touchIdx msq k with
      | some i => ((s.absorbEntry msq i w e).count64 pg ROOK.ROWS_RECEIVED 1, .kept)
      | none => (s, .kept)
    | none =>
      match s.ovfAppend msq w.q k e with
      | (s, .kept) => (s.count64 pg ROOK.ROWS_RECEIVED 1, .kept)
      | r => r

/-- Whether a drain runs on a square (R166). -/
def State.draining (s : State) (msq : Nat) : Bool :=
  s.cmds.any fun c => c.msq == msq && c.desc.opcode == 0x55 && c.ctx == .scsWait

/-- The owner takes an entry of a row of its own: by its receiving square, where it is held while a drain runs, or not at
all for want of one (R160, R166). -/
def State.ownEntry (s : State) (w : Taker) (k : RowKey) (e : ScatterEntry) : State × EntryOut :=
  match s.receiver k with
  | (some m, s) =>
    if s.draining m then
      (s.setRk m { s.rk m with held := (s.rk m).held ++ [{ id := w.id, q := w.q, key := k, entry := e }] }, .held)
    else s.takeEntry m w k e
  | (none, s) => ((s.count plcPg PLC.NO_RECEIVER 1).err plcPg PLC.E_NO_RECEIVER w.q, .lost .configInvalid)

/-! ## Batches received and acknowledged (R159, R175, R186) -/

/-- Whether updates with an id wait in any Scoresheet. -/
def State.scsBusyAny (s : State) (id : Nat) : Bool := s.scs.any fun p => p.2.queue.any fun u => u.cmd == some id

/-- Whether a batch may be acknowledged. -/
def State.batchReady (s : State) (b : InBatch) : Bool := b.left == 0 && s.noticesIn b.keys && !(s.scsBusyAny b.id)

/-- The status that acknowledges a batch, in the order of R232. -/
def InBatch.status (b : InBatch) : Status :=
  if b.ue then .guardUncorrectable else if b.world then .worldViolation
  else if b.cfg || b.bad != 0 then .configInvalid else .ok

/-- Acknowledge a batch to its requester. -/
def State.batchAck (s : State) (b : InBatch) : State :=
  s.respond b.org b.job (.writeAck b.cmd b.tok b.status.code b.n b.bad)

/-- Change the batch with an id. -/
def State.mapBatch (s : State) (id : Nat) (f : InBatch → InBatch) : State :=
  s.setPlc { s.plc with batches := s.plc.batches.map fun b => if b.id = id then f b else b }

/-- An entry of a batch that is not kept, with what it makes the sender's command complete with. -/
def InBatch.lose (b : InBatch) (st : Status) : InBatch :=
  { b with bad := b.bad + 1, world := b.world || st == .worldViolation, ue := b.ue || st == .guardUncorrectable }

/-- Acknowledge every batch that may be. -/
def State.pumpBatches (s : State) : State :=
  let ready := s.plc.batches.filter s.batchReady
  ready.foldl (fun s b =>
    (s.setPlc { s.plc with batches := s.plc.batches.filter fun x => x.id != b.id }).batchAck b) s

/-- A fresh id, shared by commands and batches. -/
def State.freshId (s : State) : Nat × State := (s.nextCmd, { s with nextCmd := s.nextCmd + 1 })

/-- Group items by their target, in order of first appearance. -/
def groupBy {α : Type} (f : α → Nat) (l : List α) : List (Nat × List α) :=
  ((l.map f).eraseDups).map fun t => (t, l.filter fun x => f x = t)

/-- The entries of a request, sorted: those served here, bad ones among them; those whose directory bucket is uncorrectable
in both copies; and the rest with the module each goes to. -/
structure Sorted (α : Type) where
  st   : State
  mine : List α := []
  ue   : List α := []
  rest : List (Nat × α) := []

/-- Resolve each entry of a request received from a module (R183, R184). -/
def State.sortReq {α : Type} (s : State) (q : Nat) (key : α → Option RowKey) (home : State → RowKey → Nat) (es : List α) :
    Sorted α :=
  es.foldl (fun (r : Sorted α) e =>
    match key e with
    | none => { r with mine := r.mine ++ [e] }
    | some k =>
      let (s, u) := r.st.lookup k q
      let m := home s k
      if u then { r with st := s, ue := r.ue ++ [e] }
      else if m = s.modId then { r with st := s, mine := r.mine ++ [e] }
      else { r with st := s, rest := r.rest ++ [(m, e)] }) { st := s }

/-- Pass the entries for other modules on, a message to each (R183). -/
def Sorted.passOn {α : Type} (r : Sorted α) (job : Nat) (body : List α → Body) : State :=
  (groupBy (·.1) r.rest).foldl (fun s g =>
    (s.count64 plcPg PLC.ROUTED_ON g.2.length).plcSend g.1 job (body (g.2.map (·.2)))) r.st

/-- Whether an entry fits its table as this module defines it (R174). -/
def State.entryFits (s : State) (k : RowKey) (e : ScatterEntry) : Bool :=
  (s.keyTbl k).emb && e.codes.length == (s.keyTbl k).len

/-- A scatter batch arrives: entries of rows served here are taken, the others sent on by the directory; the batch is
acknowledged once its addends are absorbed and its pending notices answered (R159, R160, R183, R186). -/
def State.onScatter (s : State) (p : Pkt) : State :=
  match p.body with
  | .scatter org cmd tok es =>
    let job := p.hdr.job
    let r := s.sortReq org.q (fun e => s.rowKey job e.table e.node) (fun s k => s.resolveFor p.hdr.srcMod k) es
    let s := r.passOn job fun es => .scatter org cmd tok es
    if r.mine.isEmpty && r.ue.isEmpty then s
    else
      let (id, s) := s.freshId
      let b : InBatch := { id := id, job := job, org := org, cmd := cmd, tok := tok, n := r.mine.length + r.ue.length }
      let b := r.ue.foldl (fun b _ => InBatch.lose b .guardUncorrectable) b
      let (s, b) := r.mine.foldl (fun (acc : State × InBatch) e =>
        let (s, b) := acc
        match s.rowKey job e.table e.node with
        | none => (s, b.lose .configInvalid)
        | some k =>
          if !(s.entryFits k e) then (s, b.lose .configInvalid)
          else
            let b' := { b with keys := if b.keys.contains k then b.keys else b.keys ++ [k] }
            match s.ownEntry ⟨id, org.q⟩ k e with
            | (s, .kept) => (s, b')
            | (s, .held) => (s, { b' with left := b.left + 1 })
            | (s, .lost st) => (s, b.lose st)) (s, b)
      (s.setPlc { s.plc with batches := s.plc.batches ++ [b] }).pumpBatches
  | _ => s

/-- An acknowledgement of a pending notice reaches the owner (R186). -/
def State.onPendingNoticeAck (s : State) (p : Pkt) : State :=
  match p.body with
  | .pendingNoticeAck k => (s.setPlc { s.plc with notices := dropOne (k, p.hdr.srcMod) s.plc.notices }).pumpBatches
  | _ => s

/-! ## ROOK_SETTLE (R164) -/

/-- A body whose bits are all reserved. -/
def reservedCheck : Check := pureCheck fun _ c =>
  if c.desc.zeroWords [0, 1, 2, 3, 4, 5, 6, 7] then none else some .configInvalid

/-- The segments of split rows of a square's touch list that are held: row and segment square. -/
def State.heldSegs (s : State) (msq : Nat) : List (RowKey × Nat) :=
  (s.rk msq).ents.flatMap fun e => (e.segs.filter fun m => (s.rk m).segs.any fun h => h.key == e.key && h.base == msq).map fun m => (e.key, m)

/-- The places of the segments of a square's split rows that a settling has not taken up yet. -/
def State.newSlots (s : State) (msq : Nat) (left : List (RowKey × Nat × Nat)) : List (RowKey × Nat × Nat) :=
  ((s.heldSegs msq).filter fun x => !(left.any fun y => y.1 == x.1 && y.2.1 == x.2)).flatMap fun x =>
    match (s.rk x.2).segs.find? fun h => h.key == x.1 && h.base == msq with
    | some h => (List.range h.len).map fun j => (x.1, x.2, j)
    | none => []

/-- Read and clear one slot of a segment at the moment of R82 and add its image into the row's slot; none while updates of it
are queued. An uncorrectable slot is sent as a NaN (log entry 97). -/
def State.settleSlot (s : State) (c : Cmd) (k : RowKey) (m j : Nat) : Option State :=
  match (s.rk m).segs.find? fun h => h.key == k && h.base == c.msq, s.touchIdx c.msq k with
  | some h, some i =>
    if s.slotQueued m (h.slot + j) then none
    else
      let slot := (((s.rk c.msq).ents[i]?).map (·.slot)).getD 0
      let (s, e) := s.entryRead m (h.slot + j)
      some ((s.scsZero m (h.slot + j)).scsAdd c.msq (slot + j) e.ea (some c.id) c.q)
  | _, _ => some s

/-- A segment with no slot left to read is freed; SEG_SETTLED counts its row with the last of them (R164). The row goes on
spreading further entries (R163). -/
def State.freeSeg (s : State) (msq : Nat) (k : RowKey) (m : Nat) : State :=
  let x := s.rk m
  let s := s.setRk m { x with segs := x.segs.filter fun h => !(h.key == k && h.base == msq) }
  if (s.heldSegs msq).any fun y => y.1 == k then s else s.count (rookPg msq) ROOK.SEG_SETTLED 1

/-- Settle what can be settled now; the command then waits for the rest, or for its images to be absorbed (R164). -/
def State.settleMore (s : State) (id : Nat) : State :=
  match s.cmd? id with
  | none => s
  | some c =>
    match c.ctx with
    | .settle left rows =>
      let all := left ++ s.newSlots c.msq left
      let (s, rest) := all.foldl (fun (acc : State × List (RowKey × Nat × Nat)) x =>
        match acc.1.settleSlot c x.1 x.2.1 x.2.2 with
        | some s => (s, acc.2)
        | none => (acc.1, acc.2 ++ [x])) (s, [])
      let gone := (s.heldSegs c.msq).filter fun x => !(rest.any fun y => y.1 == x.1 && y.2.1 == x.2)
      let s := gone.foldl (fun s x => s.freeSeg c.msq x.1 x.2) s
      let rows := rows + (((gone.map (·.1)).eraseDups).filter fun k => !((s.heldSegs c.msq).any fun y => y.1 == k)).length
      if !rest.isEmpty then s.mapCmd id fun c => { c with ctx := .settle rest rows }
      else
        let s := s.mapCmd id fun c => { c with info0 := min rows 0xFFFFFFFF, ctx := .scsWait }
        if s.scsBusyAny id then s else s.finish id
    | _ => s

/-- ROOK_SETTLE brings the segments of every split row into the row's slots (R164). -/
def execRookSettle (q : Nat) (d : Desc) (s : State) : Res :=
  .next (s.command q d reservedCheck fun s c =>
    (s.addCmd { c with ctx := .settle [] 0 }).settleMore c.id)

/-! ## ROOK_RELEASE (R165) -/

/-- ROOK_RELEASE's check: segments that remain unsettled refuse it (R165). -/
def releaseCheck : Check := lateCheck reservedCheck.body fun s c =>
  if (s.heldSegs c.msq).isEmpty then none else some .configInvalid

/-- Clear the slots of the window, each at its moment of R82 and decoded as SCS_CLEAR does; then the list is empty, and marks
not published are cleared (R84, R165). -/
def State.releaseMore (s : State) (id : Nat) : State :=
  match s.cmd? id with
  | none => s
  | some c =>
    match c.ctx with
    | .release done =>
      let b := s.gwinBase c.msq
      let (s, done) := ((List.range (s.rk c.msq).used).filter fun j => !(done.contains j)).foldl
        (fun (a : State × List Nat) j =>
          if a.1.slotQueued c.msq (b + j) then a
          else ((a.1.entryRead c.msq (b + j)).1.scsZero c.msq (b + j), a.2 ++ [j])) (s, done)
      let x := s.rk c.msq
      if done.length < x.used then s.mapCmd id fun c => { c with ctx := .release done }
      else
        let unpub := x.ents.filter fun e => !e.published
        let s := s.setRk c.msq { x with ents := [], used := 0 }
        let s := s.setPlc { s.plc with recv := s.plc.recv.filter fun r => !(r.2 == c.msq && x.ents.any fun e => e.key == r.1) }
        let s := unpub.foldl (fun s e => s.clearMark e.key) s
        let s := (s.touchHeader c.msq).count (rookPg c.msq) ROOK.UNPUBLISHED unpub.length
        s.mapCmd id fun c => { c with done := true, info0 := x.ents.length, info1 := unpub.length }
    | _ => s

/-- ROOK_RELEASE zeroes the window's used slots and empties the touch list (R165). -/
def execRookRelease (q : Nat) (d : Desc) (s : State) : Res :=
  .next (s.command q d releaseCheck fun s c => (s.addCmd { c with ctx := .release [] }).releaseMore c.id)

/-! ## ROOK_DRAIN (R166) -/

/-- The entry that the bytes of an overflow record spell (Table 7.3). -/
def recordEntry (b : List Byte) : ScatterEntry :=
  let fmt := leNat ((b.drop 10).take 1) % 8
  let n := leNat ((b.drop 8).take 2)
  let data := b.drop 16
  { table := leNat (b.take 2), node := leNat ((b.drop 2).take 6), fmt := fmt,
    codes := (List.range n).map fun j => leNat ((data.drop (vxSize fmt * j)).take (vxSize fmt)),
    scales := if mxScaled fmt then
        (List.range ((n + 31) / 32)).map fun j => leNat ((data.drop (vxSize fmt * n + j)).take 1)
      else [] }

/-- A record that a drain leaves: its job and entry, its bytes and its uncorrectable words. -/
structure OvfRec where
  job   : Nat
  entry : ScatterEntry
  bytes : List Byte
  bad   : List Nat

/-- What a drain has done so far: records absorbed, records that stay, the place of the next, what the reads met. -/
structure DrainRun where
  st    : State
  took  : Nat := 0
  stay  : List OvfRec := []
  at_   : Nat := 0
  ue    : Bool := false
  world : Bool := false
  cfg   : Bool := false

/-- One overflow record is read from its place: absorbed when its row has an entry or finds room, else it stays; so does one
that is uncorrectable or that the region table refuses (R166, R290; log entry 21). -/
def DrainRun.one (r : DrainRun) (c : Cmd) (x : Nat × ScatterEntry) : DrainRun :=
  let base := r.st.reg (rookPg c.msq) ROOK.OVF_BASE + r.at_
  let m := r.st.memRead (Req.command x.1 c.q) base x.2.bytes
  let s := m.st
  let no := m.world || m.cfg
  let e := recordEntry m.data
  let rec_ : OvfRec :=
    if no then { job := x.1, entry := x.2, bytes := x.2.head ++ x.2.payload, bad := [] }
    else { job := x.1, entry := if m.ue.isEmpty then e else x.2, bytes := m.data, bad := m.ue.map fun w => w - base / 16 }
  let r := { r with st := s, at_ := r.at_ + x.2.bytes, ue := r.ue || !m.ue.isEmpty, world := r.world || m.world, cfg := r.cfg || m.cfg }
  if no || !m.ue.isEmpty then { r with stay := r.stay ++ [rec_] }
  else match s.rowKey x.1 e.table e.node with
    | none => { r with stay := r.stay ++ [rec_] }
    | some k =>
      let s := match s.touchIdx c.msq k with
        | some _ => some s
        | none => s.touchCreate c.msq k e.codes.length true
      match s with
      | none => { r with stay := r.stay ++ [rec_] }
      | some s => match s.touchIdx c.msq k with
        | some i => { r with st := s.absorbEntry c.msq i ⟨c.id, c.q⟩ e, took := r.took + 1 }
        | none => { r with st := s, stay := r.stay ++ [rec_] }

/-- Rewrite the records that stayed, in order, from OVF_BASE, each as good or as bad as it was read (R166, R275). -/
def State.ovfRewrite (s : State) (msq : Nat) (l : List OvfRec) : State :=
  (l.foldl (fun (acc : State × Nat) x =>
    let a := s.reg (rookPg msq) ROOK.OVF_BASE + acc.2
    ((acc.1.memWrite (Req.command x.job) a x.bytes (x.bad.map (· + a / 16))).st, acc.2 + x.bytes.length)) (s, 0)).1

/-- ROOK_DRAIN takes the overflow records in order (R166). -/
def State.drainRun (s : State) (c : Cmd) : State :=
  let recs := (s.rk c.msq).ovf
  if recs.isEmpty then s.addCmd { c with done := true }
  else
    let r := recs.foldl (fun r x => DrainRun.one r c x) { st := s.addCmd c }
    let s := r.st.setRk c.msq { r.st.rk c.msq with ovf := r.stay.map fun x => (x.job, x.entry) }
    let s := (s.ovfRewrite c.msq r.stay).touchHeader c.msq
    let s := s.mapCmd c.id fun c => { c with ue := r.ue, world := r.world, cfg := r.cfg, info0 := r.took, info1 := r.stay.length, ctx := .scsWait }
    if s.scsBusyAny c.id then s else s.finish c.id

def execRookDrain (q : Nat) (d : Desc) (s : State) : Res := .next (s.command q d reservedCheck State.drainRun)

end Sys2Proof.Machine
end

