-- ==== Sys2Proof/Machine/Knight.lean ====
section
/-! DEFINITION. The Knight sampler: KNT_SAMPLE and its draws here and for other modules, ALIAS_BUILD
(06_neighbourhood_sampling.md R119 to R144). -/

namespace Sys2Proof.Machine

/-! ## The body of KNT_SAMPLE (Table 6.3) -/

def ksMode (d : Desc) : Nat := d.f 0 31 30
def ksHop (d : Desc) : Nat := d.f 0 29 26
def ksTable (d : Desc) : Nat := d.f 0 25 14
def ksCutEn (d : Desc) : Bool := d.bitB 0 13
def ksTimeEn (d : Desc) : Bool := d.bitB 0 12
def ksNoPlog (d : Desc) : Bool := d.bitB 0 11
def ksCntEn (d : Desc) : Bool := d.bitB 0 10
def ksFanout (d : Desc) : Nat := d.f 1 31 12
def ksDsts (d : Desc) : Nat := d.f 2 31 16
def ksDst (d : Desc) : Nat := d.f 3 21 0
def ksCut (d : Desc) : Nat := d.f 4 21 0
def ksNodes (d : Desc) : Nat := d.f 5 21 0
def ksOff (d : Desc) : Nat := d.f 6 21 0
def ksParam (d : Desc) : Nat := d.f 7 21 0

/-- The most records the command can write. -/
def ksMax (d : Desc) : Nat := ksDsts d * ksFanout d

/-- Start of the carried-time array (R123). -/
def ksTimes (d : Desc) : Nat := ksNodes d + 32 * ((8 * ksMax d + 31) / 32)

/-- The arrays the command writes, as start and bytes. -/
def ksOuts (d : Desc) : List (Nat × Nat) :=
  [(ksNodes d, 8 * ksMax d), (ksOff d, 4 * (ksDsts d + 1))] ++ (if ksTimeEn d then [(ksTimes d, 4 * ksMax d)] else [])

/-- The arrays the command reads; `cnt` is CNT_ADDR of its record. -/
def ksIns (d : Desc) (cnt : Nat) : List (Nat × Nat) :=
  [(ksDst d, 8 * ksDsts d), (ksParam d, 32)] ++ (if ksCutEn d then [(ksCut d, 4 * ksDsts d)] else []) ++
  (if ksCntEn d then [(cnt, 4)] else [])

/-- Whether two ranges share a byte. -/
def rangesMeet (a b : Nat × Nat) : Bool := decide (a.1 < b.1 + b.2 ∧ b.1 < a.1 + a.2)

/-- Whether an output overlaps an input or another output. -/
def outsClash (outs ins : List (Nat × Nat)) : Bool :=
  rangesClash outs || outs.any fun o => ins.any fun i => rangesMeet o i

/-- The parameter record (Table 6.4). -/
structure KntParam where
  bytes : List Byte
  deriving DecidableEq, Repr

def KntParam.word (p : KntParam) (off : Nat) : Nat := leNat ((p.bytes.drop off).take 4)
def KntParam.base (p : KntParam) : Nat := p.word 0
def KntParam.plogOff (p : KntParam) : Nat := p.word 4
def KntParam.cnt (p : KntParam) : Nat := p.word 8 % 2 ^ 22

/-- The checks of R122 that need no record. -/
def sampleBodyBad (d : Desc) : Bool :=
  d.f 0 9 0 != 0 || d.f 1 11 0 != 0 || d.f 2 15 0 != 0 || d.f 3 31 22 != 0 || d.f 4 31 22 != 0 || d.f 5 31 22 != 0 ||
  d.f 6 31 22 != 0 || d.f 7 31 22 != 0 || ksHop d == 0 || (ksMode d != 3 && decide (ksFanout d > 4096)) ||
  packedBad (ksParam d) 32

/-- Whether the table a KNT_SAMPLE names is none it can draw from (R122). -/
def sampleTableBad (s : State) (d : Desc) : Bool :=
  match s.tbl d.job (ksTable d) with
  | none => true
  | some t => t.emb || (ksMode d == 1 && t.evalKind != 2)

/-- The checks of R122 that need the record. -/
def sampleRecordBad (plogSize : Nat) (d : Desc) (p : KntParam) : Bool :=
  ((p.bytes.drop 12).any fun b => b != 0) || (ksCntEn d && (decide (p.word 8 ≥ 2 ^ 22) || p.cnt % 4 != 0)) ||
  packedBad (ksDst d) (8 * ksDsts d) || (ksCutEn d && packedBad (ksCut d) (4 * ksDsts d)) ||
  (ksOuts d).any (fun a => packedBad a.1 a.2) || outsClash (ksOuts d) (ksIns d p.cnt) ||
  (!(ksNoPlog d) && decide (p.plogOff + ksMax d > plogSize))

/-- The count read at CNT_ADDR: zero writes the offsets and is EMPTY (R122). -/
def State.sampleCount (s : State) (c : Cmd) (p : KntParam) : State × Option Status :=
  let n := s.readElems c.msq p.cnt 4 1
  let zeros : List Byte := List.replicate (4 * (ksDsts c.desc + 1)) 0#8
  if !n.ue.isEmpty then (n.st, some .guardUncorrectable)
  else if n.codes == [0] then (n.st.sqWrite c.msq (ksOff c.desc) zeros, some .empty)
  else (n.st, none)

/-- KNT_SAMPLE's checks (R122). -/
def sampleCheck : Check where
  body _ c := firstOf [(ksDsts c.desc == 0 || ksFanout c.desc == 0, .empty), (sampleBodyBad c.desc, .configInvalid)]
  rest s c :=
    let d := c.desc
    if sampleTableBad s d then (s, some .configInvalid)
    else
      let r := s.sqRead c.msq (ksParam d) 32
      let p : KntParam := { bytes := r.data }
      let s := r.st
      if !r.ue.isEmpty then (s, some .guardUncorrectable)
      else if sampleRecordBad (s.reg (kntPg c.msq) KNT.PLOG_SIZE) d p then (s, some .configInvalid)
      else if ksCntEn d then
        s.sampleCount c p
      else (s, none)

/-! ## Drawing (R124 to R130) -/

/-- The generator (R125). -/
def kntRand (seed hop l j : Nat) : Nat :=
  let key : BitVec 64 := BitVec.ofNat 64 (hop * 2 ^ 60 + l * 2 ^ 28 + j)
  let z : BitVec 64 := BitVec.ofNat 64 seed + key * 0x9E3779B97F4A7C15
  (plcMix z).toNat

/-- Whether an edge is eligible (R124). -/
def eligible (cutEn : Bool) (cutoff : Nat) (e : Edge) : Bool := !cutEn || decide (e.time ≤ cutoff)

/-- Positions of the eligible edges, ascending. -/
def eligiblePos (cutEn : Bool) (cutoff : Nat) (es : List Edge) : List Nat :=
  (List.range es.length).filter fun i => (es[i]?).any (eligible cutEn cutoff)

/-- The members UNIFORM chooses among n eligible edges, n above k (R126). -/
def uniformPick (seed hop l n k : Nat) : List Nat :=
  let chosen := (List.range k).foldl (fun (c : List Nat) j =>
    let b := n - k + j
    let t := kntRand seed hop l j * (b + 1) / 2 ^ 64
    (if c.contains t then b else t) :: c) []
  (List.range n).filter chosen.contains

/-- The edge that draw z keeps in a drawing table of D columns (R127). -/
def aliasDraw (tab : List AliasCol) (z : Nat) : Nat :=
  let c := z / 2 ^ 32 % 2 ^ 32 * tab.length / 2 ^ 32
  match tab[c]? with
  | some a => if z % 2 ^ 32 < a.thr then c else a.other
  | none => c

/-- WEIGHTED: draws from number j on, with fuel for those left of the 4,096; the edges drawn, first first, and the number
of calls (R127). -/
def weightedFrom (seed hop l : Nat) (tab : List AliasCol) (ok : Nat → Bool) : Nat → Nat → Nat → List Nat × Nat
  | 0, j, _ => ([], j)
  | _, j, 0 => ([], j)
  | f + 1, j, k + 1 =>
    let e := aliasDraw tab (kntRand seed hop l j)
    if ok e then
      let (r, n) := weightedFrom seed hop l tab ok f (j + 1) k
      (e :: r, n)
    else weightedFrom seed hop l tab ok f (j + 1) (k + 1)

/-- Insert a position into a list ordered by descending TIME, ties by ascending position (R124). -/
def recentInsert (time : Nat → Nat) (p : Nat) : List Nat → List Nat
  | [] => [p]
  | q :: r => if time q < time p ∨ (time q = time p ∧ p < q) then p :: q :: r else q :: recentInsert time p r

/-- Positions in the order of RECENT. -/
def recentOrder (time : Nat → Nat) (ps : List Nat) : List Nat := ps.foldl (fun l p => recentInsert time p l) []

/-- The segment of position p among n split into g (R137). -/
def segOf (p n g : Nat) : Nat :=
  ((List.range g).find? fun i => decide (i * n / g ≤ p ∧ p < (i + 1) * n / g)).getD 0

/-- How a row of n edges that must be read in full is split on a square, the helpers a free choice (R137; log entry 6):
the number of segments, 1 for none, and the squares that run segments 1 and on. -/
def State.splitRow (s : State) (job msq n thr : Nat) : Nat × List Nat × State :=
  let q := ((s.jobSquares job).filter fun m => m / 64 == msq / 64).length
  let g := min (min 64 ((n + thr - 1) / thr)) q
  if n ≤ thr ∨ g < 2 then (1, [], s)
  else
    let (others, s) := s.dieOthers job msq
    let s := s.count (kntPg msq) KNT.HEAVY_SPLITS 1
    let helpers := others.take (g - 1)
    (g, helpers, helpers.foldl (fun s m => s.count (kntPg m) KNT.HELPER_SEGMENTS 1) s)

/-- Why a destination has no record, beside its draws: its row is bad, it has no drawing table, its module has no square,
its row was uncorrectable, the world or the job check refused a line of it (R290), its directory bucket was uncorrectable in
both copies (R184). -/
def flagBad : Nat := 1
def flagTable : Nat := 2
def flagServer : Nat := 3
def flagUe : Nat := 4
def flagWorld : Nat := 5
def flagJob : Nat := 6
def flagDir : Nat := 7

/-- Make records of edge positions. -/
def drawRecs (es : List Edge) (useEval : Bool) (ps : List Nat) (mark : Nat → DrawRec → DrawRec) : List DrawRec :=
  (List.range ps.length).filterMap fun i =>
    (ps[i]?).bind fun p => (es[p]?).map fun e =>
      mark i { src := e.nbr, time := e.time, edge := if useEval then e.eval else 0, isRepeat := false, capped := false,
               split := false, seg := 0 }

/-- What drawing one destination comes to: its result, the positions of the edges and the columns of the drawing table that
were read (log entry 86), and the squares that ran its segments from segment 1 on. -/
structure DrawOut where
  st      : State
  res     : SampleResult
  read    : List Nat := []
  cols    : List Nat := []
  helpers : List Nat := []

/-- The columns of a drawing table of n that the first m draws of a destination look at (R127). -/
def drawCols (seed hop l n m : Nat) : List Nat := (List.range m).map fun j => kntRand seed hop l j / 2 ^ 32 * n / 2 ^ 32

/-- Draw one destination on a square from the contents of its row (R124 to R130, R137, R138). A destination without eligible
edges counts in EMPTY_DESTS whatever its drawing table, and every counter is the drawing square's (log entry 100). -/
def State.drawRow (s : State) (msq job q l : Nat) (t : Tbl) (a : AdjRow) (m : SampleParams) (cutoff : Nat) :
    DrawOut :=
  let pg := kntPg msq
  let es := a.edges
  let el := eligiblePos m.cutEn cutoff es
  let k := m.fanout
  let ev := t.evalKind != 0
  let scan := m.mode == 2 && !a.timeSorted && !es.isEmpty
  let s := if scan then ((s.splitRow job msq es.length m.thr).2.2).count pg KNT.UNSORTED_SCANS 1 else s
  let all := scan || (m.cutEn && !a.timeSorted)
  let read (ps : List Nat) : List Nat := if all then List.range es.length else ps
  let none_ (s : State) (f : Nat) : DrawOut := { st := s, res := { dst := l, recs := [], flag := f }, read := read [] }
  let some_ (s : State) (rs : List DrawRec) (ps : List Nat) : DrawOut :=
    { st := s, res := { dst := l, recs := rs, flag := 0 }, read := read ps }
  if el.isEmpty then none_ (s.count pg KNT.EMPTY_DESTS 1) 0
  else match m.mode with
    | 0 =>
      if el.length ≤ k then some_ s (drawRecs es ev el fun _ r => r) el
      else
        let ps := (uniformPick m.seed m.hop l el.length k).filterMap fun i => el[i]?
        some_ (s.count64 pg KNT.DRAWS k) (drawRecs es ev ps fun _ r => r) ps
    | 1 =>
      if a.zeroWeight then none_ (s.count pg KNT.EMPTY_DESTS 1) 0
      else if !a.aliasValid then none_ ((s.count pg KNT.ALIAS_MISSING 1).err pg KNT.E_ALIAS_MISSING q) flagTable
      else
        let (ps, n) := weightedFrom m.seed m.hop l a.aliasTab el.contains 4096 0 k
        let s := s.count64 pg KNT.DRAWS n
        let s := if ps.length < k then s.count pg KNT.CUT_EXHAUSTED 1 else s
        { some_ s (drawRecs es ev ps fun i r =>
            { r with isRepeat := (ps.take i).any fun p => some p == ps[i]? })
            ((List.range n).map fun j => aliasDraw a.aliasTab (kntRand m.seed m.hop l j)) with
          cols := drawCols m.seed m.hop l a.aliasTab.length n }
    | 2 =>
      let ps := (recentOrder (fun p => ((es[p]?).map (·.time)).getD 0) el).take k
      some_ s (drawRecs es ev ps fun _ r => r) ps
    | _ =>
      let capped := decide (el.length > k)
      let s := if capped then s.count pg KNT.CAPPED_DESTS 1 else s
      let n := min el.length k
      let (g, helpers, s) := s.splitRow job msq n m.thr
      { some_ s (drawRecs es ev (el.take k) fun i r =>
          { r with capped := capped, split := decide (g ≥ 2), seg := if g ≥ 2 then segOf i n g else 0 }) (el.take k) with
        helpers := helpers }

/-- Whether a row is an assumed adjacency row that no load has written (R380). -/
def State.rowMissing (s : State) (k : RowKey) : Bool :=
  (s.row k).notLoaded ||
  (s.carries && !(s.keyTbl k).emb && !(s.keyTbl k).shadow && (kget k s.plc.rows).isNone &&
    s.homeIn (s.job k.job).members k == s.twinId)

/-- The module that serves adjacency reads of a row: a row between its flip and its transfer is read at its old home
(R183, Table 8.5). `src`: the module that asks. -/
def State.adjHome (s : State) (src : Nat) (k : RowKey) : Nat :=
  match s.migIn k with
  | some m => if s.flipped k then m.old else s.resolveFor src k
  | none => s.resolveFor src k

/-- Read words of an adjacency row kept here, part 4, or of its drawing table, part 6; a row never stored takes no access
(R174). -/
def State.adjWords (s : State) (req : Req) (k : RowKey) (p : Nat) (ws : List Nat) : RowAcc :=
  let r := s.row k
  if r.stored then s.rowWords req r.far k p ws (r.bad p) else { st := s }

/-- The flag of a refused access. -/
def RowAcc.flag (x : RowAcc) : Nat := if x.world then flagWorld else flagJob

/-- Draw one destination of a row served here, on a square: the row counts in SERVE; a row not loaded is bad, an
uncorrectable word read ends the command, a row that the region table refuses reads as one without edges (R130, R136, R189,
R290, R380; log entry 86). -/
def State.drawHere (s : State) (req : Req) (msq job q l : Nat) (k : RowKey) (m : SampleParams) (cutoff : Nat) :
    DrawOut :=
  let s := s.serveRow k
  let flagged (s : State) (f : Nat) : DrawOut := { st := s, res := { dst := l, recs := [], flag := f } }
  if s.rowMissing k then flagged s flagBad
  else
    let h := s.adjWords req k 4 [0]
    if !h.bad.isEmpty then flagged h.st flagUe
    else if !h.no.isEmpty then flagged (h.st.count (kntPg msq) KNT.EMPTY_DESTS 1) h.flag
    else
      let r := h.st.drawRow msq job q l (s.keyTbl k) (s.row k).adj m cutoff
      let x := r.st.adjWords req k 4 (r.read.map (· + 1))
      let y := x.st.adjWords req k 6 ((r.cols.map (· / 2)).eraseDups)
      if !x.bad.isEmpty || !y.bad.isEmpty then flagged y.st flagUe
      else if !x.no.isEmpty then flagged y.st x.flag
      else if !y.no.isEmpty then flagged y.st y.flag
      else { r with st := y.st }

/-! ## The requester's side -/

/-- The parameters of a command's draws. -/
def sampleParams (d : Desc) (x : SampleCtx) : SampleParams :=
  { seed := x.seed, table := ksTable d, mode := ksMode d, hop := ksHop d, fanout := ksFanout d, cutEn := ksCutEn d,
    thr := x.thr }

/-- The local index of destination i (R125). -/
def SampleCtx.local (x : SampleCtx) (i : Nat) : Nat := (x.base + i) % 2 ^ 32

/-- The destination with a local index. -/
def SampleCtx.destOf (x : SampleCtx) (l : Nat) : Nat := (l + 2 ^ 32 - x.base % 2 ^ 32) % 2 ^ 32

/-- The row a destination names, if it is one. -/
def State.destKey (s : State) (d : Desc) (node : Nat) : Option RowKey := s.rowKey d.job (ksTable d) node

/-- Send an open batch of a command to its target. -/
def State.sendSample (s : State) (c : Cmd) (x : SampleCtx) (b : Nat × List SampleEntry) : State × SampleCtx :=
  let s := s.count (kntPg c.msq) KNT.REMOTE_REQUESTS b.2.length
  (s.sendF0 c.msq b.1 c.desc.job (.sampleReq (s.orgOf c.msq c.q) c.id (sampleParams c.desc x) b.2),
   { x with open_ := x.open_.filter (·.1 != b.1), sent := x.sent ++ [(b.1, b.2.map (·.dst))] })

/-- What one destination does: a bad one at once, one of a row here is drawn on the square, one elsewhere joins the batch
for its module; none when that needs a batch and 128 are outstanding, open ones among them (R130, R135, R136; log entry 100). -/
def State.kntDest (s : State) (c : Cmd) (x : SampleCtx) (i : Nat) : Option (State × SampleCtx) :=
  let node := (x.nodes[i]?).getD 0
  let cut := (x.cuts[i]?).getD 0
  let l := x.local i
  let done (s : State) (r : SampleResult) : Option (State × SampleCtx) :=
    some (s, { x with todo := i + 1, res := x.res ++ [(i, false, r)] })
  match s.destKey c.desc node with
  | none => done s { dst := l, recs := [], flag := flagBad }
  | some k =>
    let (s, u) := s.lookup k c.q
    let s := s.wantRow k
    let m := s.adjHome s.modId k
    if u then done s { dst := l, recs := [], flag := flagDir }
    else if m = s.modId then
      let r := s.drawHere (Req.command c.desc.job c.q) c.msq c.desc.job c.q l k (sampleParams c.desc x) cut
      some (r.st, { x with
        todo := i + 1, res := x.res ++ [(i, false, r.res)]
        ran := if r.helpers.isEmpty then x.ran else x.ran ++ [(i, r.helpers)] })
    else
      let e : SampleEntry := { node := node, dst := l, cutoff := cut }
      match SMap.find m x.open_ with
      | none =>
        if x.open_.length + x.sent.length ≥ 128 then none
        else some (s, { x with todo := i + 1, open_ := x.open_ ++ [(m, [e])] })
      | some es =>
        let x := { x with todo := i + 1, open_ := x.open_.map fun b => if b.1 = m then (m, es ++ [e]) else b }
        if es.length + 1 ≥ 64 then some (s.sendSample c x (m, es ++ [e])) else some (s, x)

/-- Go on with destinations until they are done or a batch is wanting. -/
def State.kntDests (s : State) (c : Cmd) (x : SampleCtx) : Nat → State × SampleCtx
  | 0 => (s, x)
  | f + 1 =>
    match s.kntDest c x x.todo with
    | some (s, x) => s.kntDests c x f
    | none => (s.countFree (kntPg c.msq) KNT.REMOTE_WAIT_CYCLES, x)

/-- Modules that destinations still to come lie on. -/
def State.kntAhead (s : State) (c : Cmd) (x : SampleCtx) : List Nat :=
  (x.nodes.drop x.todo).filterMap fun n => (s.destKey c.desc n).map (s.adjHome s.modId)

/-! ### The outputs (R123, R131) -/

/-- The record flags of Table 6.7 and HOP as the last halfword of a path-log record. -/
def recTail (hop : Nat) (remote weight : Bool) (r : DrawRec) : Nat :=
  hop * 4096 + r.seg * 64 + b2n r.split * 32 + b2n r.capped * 16 + b2n remote * 8 + b2n r.isRepeat * 4 + b2n weight * 2

/-- A path-log record (Table 6.6). -/
def plogImage (l hop : Nat) (remote weight : Bool) (r : DrawRec) : List Byte :=
  leBytes 4 l ++ leBytes 6 r.src ++ leBytes 4 r.edge ++ leBytes 2 (recTail hop remote weight r)

/-- The result of destination i. -/
def SampleCtx.result (x : SampleCtx) (i : Nat) : Bool × SampleResult :=
  match SMap.find i x.res with
  | some r => r
  | none => (false, { dst := 0, recs := [], flag := 0 })

/-- The offsets: running totals of the records of the destinations. -/
def offsetsFrom (t : Nat) : List Nat → List Nat
  | [] => [t]
  | n :: r => t :: offsetsFrom (t + n) r

/-- Write free values over the outputs of a command that an error, a loss or its deadline ended: its outputs are undefined
(R136; log entry 6). -/
def State.fillFree (s : State) (msq : Nat) (a : Nat × Nat) : State :=
  let (n, s) := s.draw
  s.sqWrite msq a.1 (leBytes a.2 n)

/-- The undefined outputs of a KNT_SAMPLE that was ended. -/
def State.sampleSpoil (s : State) (c : Cmd) (x : SampleCtx) : State :=
  let s := (ksOuts c.desc).foldl (fun s a => s.fillFree c.msq a) s
  if ksNoPlog c.desc then s
  else
    let (n, s) := s.draw
    (s.memWrite (Req.command c.desc.job c.q) (x.plog + 16 * x.off) (leBytes (16 * ksMax c.desc) n)).st

/-- The records of the results that have come and the destinations that yielded none (Table 10.4). -/
def SampleCtx.info (x : SampleCtx) : Nat × Nat :=
  let ns := (List.range (min x.todo x.nodes.length)).map fun i => (x.result i).2.recs.length
  (ns.foldl (· + ·) 0, (ns.filter (· == 0)).length)

/-- A square remembers who ran the segment of each record it writes to the path log: for a destination drawn on another module
a square of its own die, chosen for the whole destination (R137, R157; log entry 48). -/
def State.logRan (s : State) (c : Cmd) (x : SampleCtx) (rs : List (Nat × Bool × SampleResult)) : State :=
  let base := x.plog + 16 * x.off
  let total := rs.foldl (fun n r => n + r.2.2.recs.length) 0
  let k := s.rk c.msq
  let s := s.setRk c.msq { k with ran := k.ran.filter fun p => decide (p.1 < base ∨ base + 16 * total ≤ p.1) }
  (rs.foldl (fun (a : State × Nat) r =>
    let recs := r.2.2.recs
    let (o, s) := if recs.any fun v => v.seg != 0 then
        match SMap.find r.1 x.ran with
        | some o => (o, a.1)
        | none => a.1.dieOthers c.desc.job c.msq
      else ([], a.1)
    let new := (List.range recs.length).filterMap fun i =>
      (recs[i]?).bind fun v => if v.seg = 0 then none else (o[v.seg - 1]?).map fun m => (base + 16 * (a.2 + i), m)
    let k := s.rk c.msq
    (if new.isEmpty then s else s.setRk c.msq { k with ran := new.foldl (fun l p => SMap.put p.1 p.2 l) k.ran },
     a.2 + recs.length)) (s, 0)).1

/-- Write the outputs and finish the command (R123, R130). RECORDS counts all of them on the issuing square (log entry 100). -/
def State.kntEmit (s : State) (c : Cmd) (x : SampleCtx) : State :=
  let d := c.desc
  let pg := kntPg c.msq
  let rs := (List.range x.nodes.length).map fun i => (i, x.result i)
  if rs.any fun r => r.2.2.flag == flagUe || r.2.2.flag == flagDir then
    let s := if rs.any fun r => r.2.2.flag == flagUe then s.err pg KNT.E_ADJ_UE c.q else s
    ((s.sampleSpoil c x).mapCmd c.id fun c => { c with
      info0 := min x.info.1 0xFFFFFFFF, info1 := x.info.2 }).endCmd c.id .guardUncorrectable
  else
    let weight := ((s.tbl d.job (ksTable d)).map (·.evalKind)) == some 2
    let counts := rs.map fun r => r.2.2.recs.length
    let offs := offsetsFrom 0 (counts ++ List.replicate (ksDsts d - x.nodes.length) 0)
    let recs := rs.flatMap fun r => r.2.2.recs.map fun v => (x.local r.1, r.2.1, (x.cuts[r.1]?).getD 0, v)
    let total := recs.length
    let s := s.sqWrite c.msq (ksNodes d) (elemBytes 8 (recs.map fun r => r.2.2.2.src))
    let s := if ksTimeEn d then
        s.sqWrite c.msq (ksTimes d) (elemBytes 4 (recs.map fun r => if ksCutEn d then r.2.2.1 else r.2.2.2.time))
      else s
    let s := s.sqWrite c.msq (ksOff d) (elemBytes 4 offs)
    let s := if ksNoPlog d then s
      else
        let w := s.memWrite (Req.command d.job c.q) (x.plog + 16 * x.off)
          (recs.flatMap fun r => plogImage r.1 (ksHop d) r.2.1 weight r.2.2.2)
        (w.st.recordMem c.id false w.world w.cfg).logRan c x rs
    let s := s.count64 pg KNT.RECORDS total
    let bad := (rs.filter fun r => r.2.2.flag == flagBad).length
    let nos := (rs.filter fun r => r.2.2.flag == flagServer).length
    let s := if bad = 0 then s else (s.count pg KNT.BAD_DEST bad).err pg KNT.E_BAD_DEST c.q
    let s := if nos = 0 then s else (s.count pg KNT.NO_SERVER nos).err pg KNT.E_NO_SERVER c.q
    s.mapCmd c.id fun c => { c with
      done := true, world := c.world || rs.any (fun r => r.2.2.flag == flagWorld)
      cfg := c.cfg || rs.any (fun r => r.2.2.flag != 0 && r.2.2.flag != flagWorld),
      info0 := min x.info.1 0xFFFFFFFF, info1 := x.info.2 }

/-- Go on with a KNT_SAMPLE: destinations, batches that have no more to take, and its outputs once every destination is
done (R123, R135). -/
def State.kntPump (s : State) (id : Nat) : State :=
  match s.cmd? id with
  | none => s
  | some c =>
    if c.done then s
    else match c.ctx with
    | .sample x =>
      let (s, x) := s.kntDests c x (x.nodes.length - x.todo)
      let ahead := s.kntAhead c x
      let (s, x) := (x.open_.filter fun b => !(ahead.contains b.1)).foldl (fun (a : State × SampleCtx) b =>
        a.1.sendSample c a.2 b) (s, x)
      let s := s.mapCmd id fun c => { c with ctx := .sample x }
      if x.todo ≥ x.nodes.length ∧ x.open_.isEmpty ∧ x.sent.isEmpty then s.kntEmit c x else s
    | _ => s

/-- Start a KNT_SAMPLE: it latches its page's live values and reads its lists (R122, R133; log entry 21). -/
def State.sampleRun (s : State) (c : Cmd) : State :=
  let d := c.desc
  let pg := kntPg c.msq
  let p : KntParam := { bytes := (s.sqRead c.msq (ksParam d) 32).data }
  let cnt := s.readElems c.msq p.cnt 4 1
  let n := if ksCntEn d then min (ksDsts d) ((cnt.codes[0]?).getD 0) else ksDsts d
  let dst := s.readElems c.msq (ksDst d) 8 n
  let cut := if ksCutEn d then dst.st.readElems c.msq (ksCut d) 4 n else { st := dst.st }
  let x : SampleCtx :=
    { seed := s.reg pg KNT.STEP_SEED, plog := s.reg pg KNT.PLOG_BASE, thr := s.reg pg KNT.SPLIT_THRESHOLD,
      base := p.base, off := p.plogOff, nodes := dst.codes, cuts := cut.codes }
  let s := cut.st.addCmd { c with ctx := .sample x }
  if !dst.ue.isEmpty || !cut.ue.isEmpty then (s.sampleSpoil c x).endCmd c.id .guardUncorrectable
  else s.kntPump c.id

/-- KNT_SAMPLE draws neighbours for one hop (R121 to R138). -/
def execKntSample (q : Nat) (d : Desc) (s : State) : Res := .next (s.command q d sampleCheck State.sampleRun)

/-- KNT_BATCH_TIMEOUT: 256 cycles after its first entry an open batch leaves (R135). -/
def execKntBatchTimeout (cmd target : Nat) (s : State) : Res :=
  .next (match s.cmd? cmd with
    | none => s
    | some c =>
      match c.ctx with
      | .sample x =>
        match SMap.find target x.open_ with
        | some es =>
          let (s, x) := s.sendSample c x (target, es)
          s.mapCmd cmd fun c => { c with ctx := .sample x }
        | none => s
      | _ => s)

/-- A sampling response: results of destinations not yet answered; duplicates are discarded (R136). -/
def State.onSampleRsp (s : State) (p : Pkt) : State :=
  match p.body with
  | .sampleRsp id _ rs =>
    match s.cmd? id with
    | none => s
    | some c =>
      match c.ctx with
      | .sample x =>
        if c.done then s else
        let open_ := x.sent.flatMap (·.2)
        let rs := rs.filter fun r => open_.contains r.dst
        let got := rs.map (·.dst)
        let x := { x with
          res := x.res ++ rs.map fun r => (x.destOf r.dst, true, r)
          sent := (x.sent.map fun b => (b.1, b.2.filter fun l => !(got.contains l))).filter fun b => !b.2.isEmpty }
        (s.mapCmd id fun c => { c with ctx := .sample x }).kntPump id
      | _ => s
  | _ => s

/-! ## Serving other modules (R135) -/

/-- Whether a square lies on the die whose HBM holds a row; none does for one in the far tier (R135, R178). -/
def State.nearRow (s : State) (k : RowKey) (m : Nat) : Bool :=
  !(s.row k).far && s.lineStack (rowLine false k 4 0) / 2 == m / 64

/-- A square of the job that serves a row: on the die whose HBM holds the row, or else on another die; which of them is the
device's choice (R135; log entry 6). -/
def State.serveSquare (s : State) (k : RowKey) : Option Nat × State :=
  let l := s.jobSquares k.job
  match l with
  | [] => (none, s)
  | [a] => (some a, s)
  | l =>
    let (n, s) := s.draw
    let on := l.filter (s.nearRow k)
    let pool := if on.isEmpty then l else on
    (pool[n % pool.length]?, s)

/-- Draw one entry for another module; a table defined otherwise here has no such row (R174). -/
def State.serveEntry (s : State) (job : Nat) (org : Org) (m : SampleParams) (e : SampleEntry) : State × SampleResult :=
  match s.rowKey job m.table e.node with
  | none => (s, { dst := e.dst, recs := [], flag := flagBad })
  | some k =>
    let t := s.keyTbl k
    if t.emb || (m.mode == 1 && t.evalKind != 2) then (s, { dst := e.dst, recs := [], flag := flagBad })
    else match s.serveSquare k with
    | (none, s) => (s, { dst := e.dst, recs := [], flag := flagServer })
    | (some msq, s) =>
      let r := (s.count (kntPg msq) KNT.REMOTE_SERVED 1).drawHere (Req.board job) msq job org.q e.dst k m e.cutoff
      (r.st, r.res)

/-- A sampling request: entries of rows served here are drawn and answered, the others sent on (R135, R183). -/
def State.onSampleReq (s : State) (p : Pkt) : State :=
  match p.body with
  | .sampleReq org cmd m es =>
    let job := p.hdr.job
    let r := s.sortReq org.q (fun e => s.rowKey job m.table e.node) (fun s k => s.adjHome p.hdr.srcMod k) es
    let s := r.passOn job fun es => .sampleReq org cmd m es
    if r.mine.isEmpty && r.ue.isEmpty then s
    else
      let (s, rs) := r.mine.foldl (fun (a : State × List SampleResult) e =>
        let (s, r) := a.1.serveEntry job org m e
        (s, a.2 ++ [r])) (s, r.ue.map fun e => { dst := e.dst, recs := [], flag := flagDir })
      s.respond org job (.sampleRsp cmd (((s.tbl job m.table).map (·.evalKind)).any (· != 0)) rs)
  | _ => s

/-! ## ALIAS_BUILD (R139, R140) -/

/-- n / d rounded to nearest, ties to even. -/
def rneDiv (n d : Nat) : Nat :=
  let q := n / d
  let r := n % d
  if 2 * r > d ∨ (2 * r = d ∧ q % 2 = 1) then q + 1 else q

/-- A weight in units of 2^-149; none when it is negative, NaN or infinite (R140). -/
def weightOf (code : Nat) : Option Nat :=
  match Fmt.fp32.decode code with
  | .num neg m e => if neg && decide (m ≠ 0) then none else some (m * 2 ^ (e + 149).toNat)
  | _ => none

/-- Pair small and large columns (R139): the thresholds set so far, the two queues with what each column still lacks or
holds. A large column that still holds a unit stays first in its queue, one below it goes last in the small queue (log entry
100). -/
def aliasPair : Nat → List (Nat × Nat) → List (Nat × Nat) → List (Nat × AliasCol) → List (Nat × AliasCol)
  | 0, _, _, acc => acc
  | f + 1, (i, u) :: ss, (j, v) :: ls, acc =>
    let v' := v + u - 2 ^ 32
    let acc := acc ++ [(i, { thr := u, other := j })]
    if v' < 2 ^ 32 then aliasPair f (ss ++ [(j, v')]) ls acc else aliasPair f ss ((j, v') :: ls) acc
  | _, _, _, acc => acc

/-- The drawing table of weights with sum `total`, not zero (R139). -/
def aliasTable (ws : List Nat) (total : Nat) : List AliasCol :=
  let n := ws.length
  let u := ws.map fun w => rneDiv (n * w * 2 ^ 32) total
  let cols := (List.range n).map fun i => (i, (u[i]?).getD 0)
  let set := aliasPair n (cols.filter fun c => decide (c.2 < 2 ^ 32)) (cols.filter fun c => decide (2 ^ 32 ≤ c.2)) []
  (List.range n).map fun i => (SMap.find i set).getD { thr := 2 ^ 32, other := i }

/-- A row with its drawing table rebuilt; false when a weight is invalid (R140). -/
def aliasRow (a : AdjRow) : AdjRow × Bool :=
  let ws := a.edges.map fun e => weightOf e.eval
  if ws.any Option.isNone then ({ a with aliasValid := false, aliasTab := [] }, false)
  else
    let ws := ws.map fun w => w.getD 0
    let total := ws.foldl (· + ·) 0
    if total = 0 then ({ a with aliasValid := true, zeroWeight := true, aliasTab := [] }, true)
    else ({ a with aliasValid := true, zeroWeight := false, aliasTab := aliasTable ws total }, true)

/-- What an owner has built so far: totals as Table 10.4 reports them. -/
structure AliasRun where
  st    : State
  built : Nat := 0
  bad   : Nat := 0
  nos   : Nat := 0
  ue    : Bool := false
  world : Bool := false
  cfg   : Bool := false
  /-- rows whose transfer to this module has not come -/
  wait  : List RowKey := []

/-- The status an owner reports with its totals, in the order of R232. -/
def AliasRun.status (r : AliasRun) : Status :=
  if r.ue then .guardUncorrectable else if r.world then .worldViolation else if r.cfg then .configInvalid else .ok

/-- Build the table of one row owned here, on a square chosen as for serving: the row is read whole, its header and table are
written (R139, R140). A row that the region table refuses stays as it was (R290). A table always finds room, and an assumed row
that no load has written is passed over (log entry 100). -/
def AliasRun.row (r : AliasRun) (req : Req) (q thr : Nat) (k : RowKey) : AliasRun :=
  let s := r.st
  if s.rowMissing k then r
  else match s.serveSquare k with
    | (none, s) => { r with st := s, nos := r.nos + 1 }
    | (some msq, s) =>
      let pg := kntPg msq
      let row := s.row k
      let x := s.adjWords req k 4 (List.range (row.adj.edges.length + 1))
      let s := x.st
      if !x.bad.isEmpty then { r with st := s.err pg KNT.E_ADJ_UE q, ue := true }
      else if !x.no.isEmpty then { r with st := s, world := r.world || x.world, cfg := r.cfg || x.cfg }
      else
        let s := (s.splitRow k.job msq row.adj.edges.length thr).2.2
        let (a, ok) := aliasRow row.adj
        let s := if row.stored then
            ((s.rowSet req row.far k 6 (tableBytes a)).st.rowSet req row.far k 4 ((imageBytes a).take 16)).st
          else s
        let ue := ueSet row.ue 6 []
        let s := (s.putRow k { row with adj := a, ue := ue }).sendChange k (.adj a row.asm ue)
        if ok then
          { r with st := (s.count pg KNT.ALIAS_BUILT 1).count pg KNT.ZERO_WEIGHT_ROWS (b2n a.zeroWeight), built := r.built + 1 }
        else { r with st := (s.count pg KNT.BAD_WEIGHT_ROWS 1).err pg KNT.E_BAD_WEIGHT q, bad := r.bad + 1 }

/-- Build the table of a row if this module owns it; one whose transfer has not come waits for it (R139, Table 8.5). A
directory bucket uncorrectable in both copies leaves the row out (R184). -/
def AliasRun.take (r : AliasRun) (req : Req) (q thr : Nat) (k : RowKey) : AliasRun :=
  let (s, u) := r.st.lookup k q
  if u then { r with st := s, ue := true }
  else if s.flipped k then { r with st := s, wait := r.wait ++ [k] }
  else if s.owns k then { r with st := s }.row req q thr k
  else { r with st := s }

/-- Build the tables of the rows of a range that this module owns. -/
def State.aliasHere (s : State) (req : Req) (job q table first count thr : Nat) : AliasRun :=
  (List.range count).foldl (fun (r : AliasRun) i =>
    match r.st.rowKey job table (first + i) with
    | some k => r.take req q thr k
    | none => r) { st := s }

def abTable (d : Desc) : Nat := d.f 0 25 14
def abFirst (d : Desc) : Nat := d.b 1 + d.f 2 15 0 * 2 ^ 32
def abCount (d : Desc) : Nat := d.b 3

/-- ALIAS_BUILD's checks (R140). -/
def aliasCheck : Check := lateCheck
  (fun _ c =>
    let d := c.desc
    firstOf [(abCount d == 0, .empty),
      (d.f 0 31 26 != 0 || d.f 0 13 0 != 0 || d.f 2 31 16 != 0 || !(d.zeroWords [4, 5, 6, 7]), .configInvalid)])
  fun s c =>
    let d := c.desc
    match s.tbl d.job (abTable d) with
    | none => some .configInvalid
    | some t => firstOf [(t.emb || t.evalKind != 2 || decide (abFirst d < t.firstNode) ||
        decide (abFirst d + abCount d > t.firstNode + t.rows), .configInvalid)]

/-- Enter what an owner has built into the command, and finish it once every owner has reported (R139). -/
def State.aliasGot (s : State) (id from_ built bad nos status : Nat) : State :=
  match s.cmd? id with
  | none => s
  | some c =>
    match c.ctx with
    | .aliasWait mods b n =>
      if c.done || !(mods.contains from_) then s
      else
        let pg := kntPg c.msq
        let left := mods.filter (· != from_)
        let s := if nos = 0 then s else (s.count pg KNT.NO_SERVER nos).err pg KNT.E_NO_SERVER c.q
        let s := s.mapCmd id fun c => { c with
          ctx := .aliasWait left (b + built) (n + bad), cfg := c.cfg || decide (0 < bad + nos) || status == 0x0040
          world := c.world || status == 0x0031,
          info0 := min (b + built) 0xFFFFFFFF, info1 := min (n + bad) 0xFFFFFFFF }
        if status = 0x0030 then s.endCmd id .guardUncorrectable
        else if left.isEmpty then s.finish id else s
    | _ => s

/-- An owner reports its rows, to the command here or to the requester, once none of them is on its way here any more (R139). -/
def AliasRun.report (r : AliasRun) (req : Option Pkt) (cmd q thr : Nat) : State :=
  if !r.wait.isEmpty then
    r.st.setPlc { r.st.plc with aliasJobs := r.st.plc.aliasJobs ++ [{
      req := req, cmd := cmd, q := q, thr := thr, wait := r.wait, built := r.built, bad := r.bad, nos := r.nos
      ue := r.ue, world := r.world, cfg := r.cfg }] }
  else match req with
    | some p => r.st.reply p (.aliasReport cmd r.built r.bad r.nos r.status.code)
    | none => r.st.aliasGot cmd r.st.modId r.built r.bad r.nos r.status.code

/-- Go on with the builds that waited for transfers: rows that have come are built, those that go elsewhere are their owners'. -/
def State.aliasResume (s : State) : State :=
  s.plc.aliasJobs.foldl (fun s (j : AliasJob) =>
    let r : AliasRun := { st := s, built := j.built, bad := j.bad, nos := j.nos, ue := j.ue, world := j.world, cfg := j.cfg }
    let req (k : RowKey) : Req := if j.req.isSome then Req.board k.job else Req.command k.job j.q
    (j.wait.foldl (fun (r : AliasRun) k => r.take (req k) j.q j.thr k) r).report j.req j.cmd j.q j.thr)
    (s.setPlc { s.plc with aliasJobs := [] })

/-- The modules beside this one that may own rows of a job: the members of its list and of the list before the last change,
which keep rows until these have moved (R196), and the substitutes of members declared lost (R312). -/
def State.rowOwners (s : State) (job : Nat) : List Nat :=
  ((((s.job job).members ++ (s.job job).prev).filterMap s.substitute).eraseDups).filter (· != s.modId)

/-- Whether a row of the range lies on a module declared lost with no substitute. -/
def State.aliasLost (s : State) (d : Desc) : Bool :=
  (List.range (abCount d)).any fun i =>
    (s.rowKey d.job (abTable d) (abFirst d + i)).any fun k => s.isLost (s.resolve k)

/-- ALIAS_BUILD builds the drawing tables of a range of rows wherever they live (R139). -/
def State.aliasRun (s : State) (c : Cmd) : State :=
  let d := c.desc
  let thr := s.reg (kntPg c.msq) KNT.SPLIT_THRESHOLD
  let others := s.rowOwners d.job
  let s := s.addCmd { c with ctx := .aliasWait (s.modId :: others) 0 0 }
  if s.aliasLost d then s.endCmd c.id .linkLost
  else
    let s := others.foldl (fun s m =>
      s.sendF0 c.msq m d.job (.aliasRequest c.id c.q (abTable d) (abFirst d) (abCount d) thr)) s
    (s.aliasHere (Req.command d.job c.q) d.job c.q (abTable d) (abFirst d) (abCount d) thr).report none c.id c.q thr

def execAliasBuild (q : Nat) (d : Desc) (s : State) : Res := .next (s.command q d aliasCheck State.aliasRun)

/-- A build request: this owner builds its rows of the range and reports (R139). -/
def State.onAliasRequest (s : State) (p : Pkt) : State :=
  match p.body with
  | .aliasRequest cmd q table first count thr =>
    (s.aliasHere (Req.board p.hdr.job) p.hdr.job q table first count thr).report (some p) cmd q thr
  | _ => s

/-- A build report reaches the issuing square. -/
def State.onAliasReport (s : State) (p : Pkt) : State :=
  match p.body with
  | .aliasReport cmd built bad nos status => s.aliasGot cmd p.hdr.srcMod built bad nos status
  | _ => s

end Sys2Proof.Machine
end

