-- ==== Sys2Proof/Machine/Gambit.lean ====
section
/-! DEFINITION. The Gambit checker: GMB_LAYER (09_conditional_computation.md). -/

namespace Sys2Proof.Machine

/-! ## The body and the record (Tables 9.1 and 9.2) -/

def glMode (d : Desc) : Nat := d.f 0 31 30
def glNeurons (d : Desc) : Nat := d.f 2 31 16
def glRows (d : Desc) : Nat := d.f 2 15 0
def glMask (d : Desc) : Nat := d.f 5 21 0
def glSlot (d : Desc) : Nat := d.f 6 31 16
def glParam (d : Desc) : Nat := d.f 7 21 0

/-- The parameter record. -/
structure GmbParam where
  bytes : List Byte
  deriving DecidableEq, Repr

def GmbParam.word (p : GmbParam) (off : Nat) : Nat := leNat ((p.bytes.drop off).take 4)
def GmbParam.theta (p : GmbParam) : Nat := p.word 0
def GmbParam.fill (p : GmbParam) : Nat := p.word 4
def GmbParam.auditN (p : GmbParam) : Nat := p.word 8
def GmbParam.groupM (p : GmbParam) : Nat := p.word 12
def GmbParam.seed (p : GmbParam) : Nat := leNat ((p.bytes.drop 16).take 8)
def GmbParam.outEn (p : GmbParam) : Bool := (p.word 24).testBit 31
def GmbParam.outAddr (p : GmbParam) : Nat := p.word 24 % 2 ^ 22

/-- The operand fields of a layer, its scale addresses from the record. -/
def glArgs (d : Desc) (p : GmbParam) : MxArgs :=
  { aFmt := d.f 0 29 27, aAddr := d.f 0 21 0, aScale := p.word 28 % 2 ^ 22, aStride := d.f 4 31 16, rows := glRows d,
    wFmt := d.f 0 26 24, wAddr := d.f 1 21 0, wScale := p.word 32 % 2 ^ 22, wStride := d.f 4 15 0, cols := glNeurons d,
    k := d.f 3 31 12, trans := false, sparse := d.bitB 0 23 }

/-- Bytes of a mask row (R202), and the number of groups (R201). -/
def glMrow (d : Desc) : Nat := 32 * ((glNeurons d + 255) / 256)
def glGroups (d : Desc) (p : GmbParam) : Nat := (glRows d + p.groupM - 1) / p.groupM

/-- The rows of a strided array, as start and bytes. -/
def stridedRows (addr rows stride bytes : Nat) : List (Nat × Nat) :=
  (List.range rows).map fun i => (addr + i * (stride * 32), bytes)

/-- The arrays a layer reads, as start and bytes: of strided operands the rows, not the bytes between them. -/
def glIns (d : Desc) (p : GmbParam) : List (Nat × Nat) :=
  let a := glArgs d p
  stridedRows a.aAddr a.rows a.aStride (a.k * mxSize a.aFmt) ++ stridedRows a.wAddr a.cols a.wStride (a.k * mxSize a.wFmt) ++
  [(glMask d, glGroups d p * glMrow d), (glParam d, 64)] ++
  (if mxScaled a.aFmt then [(a.aScale, a.rows * a.scRow)] else []) ++
  (if mxScaled a.wFmt then [(a.wScale, a.cols * a.scRow)] else [])

/-- The checks of R204 on the body alone; they come before the record is read (R223). -/
def layerBodyBad (s : State) (msq : Nat) (d : Desc) : Bool :=
  glMode d == 3 || d.bitB 0 22 || d.f 1 31 22 != 0 || d.f 3 11 0 != 0 || d.f 5 31 22 != 0 || d.f 6 15 0 != 0 ||
  d.f 7 31 22 != 0 || packedBad (glParam d) 64 || (glArgs d { bytes := [] }).arraysBad || packedBad (glMask d) (glMrow d) ||
  decide (glSlot d + glRows d * glNeurons d > s.slotLimit msq)

/-- The checks of R204 that need the record. -/
def layerRecordBad (d : Desc) (p : GmbParam) : Bool :=
  let a := glArgs d p
  p.groupM == 0 || decide (p.groupM > 64) || Fmt.fp32.kind p.theta != 0 || Fmt.fp32.kind p.fill != 0 ||
  (glMode d == 1 && p.auditN == 0) || bits (p.word 24) 30 22 != 0 || ((p.bytes.drop 36).any fun b => b != 0) ||
  (mxScaled a.aFmt && decide (p.word 28 ≥ 2 ^ 22)) || (mxScaled a.wFmt && decide (p.word 32 ≥ 2 ^ 22)) || a.scalesBad ||
  packedBad (glMask d) (glGroups d p * glMrow d) ||
  (p.outEn && (packedBad p.outAddr (glGroups d p * glMrow d) ||
    (glIns d p).any fun i => rangesMeet i (p.outAddr, glGroups d p * glMrow d)))

/-- GMB_LAYER's checks (R204). -/
def layerCheck : Check where
  body s c :=
    let d := c.desc
    firstOf [(glNeurons d == 0 || glRows d == 0 || d.f 3 31 12 == 0, .empty), (layerBodyBad s c.msq d, .configInvalid)]
  rest s c :=
    let d := c.desc
    let r := s.sqRead c.msq (glParam d) 64
    if !r.ue.isEmpty then (r.st.err (gmbPg c.msq) GMB.E_OPERAND_UE c.q, some .guardUncorrectable)
    else if layerRecordBad d { bytes := r.data } then (r.st, some .configInvalid)
    else (r.st, none)

/-! ## A layer in progress -/

/-- What a layer has done so far, with its counts. -/
structure GmbRun where
  st       : State
  stop     : Bool := false
  tagged   : Bool := false
  full     : Nat := 0
  coarse   : Nat := 0
  makeup   : Nat := 0
  active   : Nat := 0
  inactive : Nat := 0
  cert     : Nat := 0
  wasted   : Nat := 0
  unchecked : Nat := 0
  misses   : Nat := 0
  falseAl  : Nat := 0
  audited  : Nat := 0
  audMiss  : Nat := 0
  flushes  : Nat := 0
  peak     : Nat := 0
  spread   : Nat := 0
  spills   : Nat := 0
  mask     : Nat := 0
  stall    : Nat := 0
  first    : Option (Nat × Nat) := none
  /-- groups begun -/
  groups   : Nat := 0

/-- The rows of group g: the first and how many (R201). -/
def glGroup (d : Desc) (p : GmbParam) (g : Nat) : Nat × Nat :=
  (g * p.groupM, min p.groupM (glRows d - g * p.groupM))

/-- A layer's operands cut to rows m0 to m0 + n − 1 and a list of neurons (R205). -/
def glTile (d : Desc) (p : GmbParam) (m0 n : Nat) (js : List Nat) : MxArgs :=
  let a := glArgs d p
  { a with aAddr := a.aAddr + m0 * (a.aStride * 32), aScale := a.aScale + m0 * a.scRow, rows := n, cols := js.length,
           sel := js, wide := true }

/-- The slot of row m and neuron j (R203). -/
def glSlotOf (d : Desc) (m j : Nat) : Nat := glSlot d + m * glNeurons d + j

/-- How a fully computed neuron-group was judged from its rows at flush: every row at or below THETA; some row above it.
A NaN sum is neither (R201, R210). -/
structure Judged where
  neuron : Nat
  low    : Bool
  high   : Bool
  deriving DecidableEq, Repr

/-- Judge row m of a tile for column j by its flush; a row that spilled is above THETA (R210). -/
def tileRow (theta : Val) (cols : Nat) (out : List (Nat × Ea × Bool)) (m j : Nat) : Bool × Bool :=
  let mine := out.filter fun u => u.1 == m * cols + j
  let spilled := mine.any fun u => !u.2.2
  (!spilled && mine.any fun u => u.2.2 && Val.le u.2.1.toVal theta,
   spilled || mine.any fun u => u.2.2 && Val.lt theta u.2.1.toVal)

/-- The first failing group of two parts of one command: lowest reduction group, then lowest column group (R59). -/
def firstGroup : Option (Nat × Nat) → Option (Nat × Nat) → Option (Nat × Nat)
  | none, y => y
  | x, none => x
  | some a, some b => if b.1 < a.1 ∨ (b.1 = a.1 ∧ b.2 < a.2) then some b else some a

/-- One tile of a full pass: up to 16 rows by up to 128 neurons, its flushes replacing the slots (R54, R205). It adds its rows
to the verdicts of the block's neurons, and its cycles. -/
def GmbRun.tile (r : GmbRun) (c : Cmd) (p : GmbParam) (m0 n : Nat) (acc : List Judged × Nat) : GmbRun × List Judged × Nat :=
  if r.stop then (r, acc)
  else
    let a := glTile c.desc p m0 n (acc.1.map (·.neuron))
    let x := r.st.mxNormal c.msq a true
    let slots := x.out.map fun u =>
      (glSlotOf c.desc (m0 + u.1 / a.cols) ((a.sel[u.1 % a.cols]?).getD 0), u.2.1, u.2.2)
    let s := x.st.scsIssue c.msq c.id c.q 0 slots
    let rows (j : Nat) : List (Bool × Bool) := (List.range n).map fun m => tileRow (fp32Val p.theta) a.cols x.out m j
    ({ r with st := s, stop := x.stop, tagged := r.tagged || x.tagged, spread := r.spread + x.spread,
              spills := r.spills + x.spills, mask := r.mask + x.mask, stall := r.stall + x.stall,
              first := firstGroup r.first x.first },
     (acc.1.zip (List.range acc.1.length)).map fun q =>
       { q.1 with low := q.1.low && (rows q.2).all (·.1), high := q.1.high || (rows q.2).any (·.2) },
     acc.2 + x.cycles + x.spread)

/-- Full passes over a list of neurons of rows m0 to m0 + n − 1: the verdicts on the neurons of every block that finished, and
the cycles (R205). -/
def GmbRun.fullPass (r : GmbRun) (c : Cmd) (p : GmbParam) (m0 n : Nat) (js : List Nat) : GmbRun × List Judged × Nat :=
  (chunks 128 js).foldl (fun (acc : GmbRun × List Judged × Nat) blk =>
    let (r, vs, cyc) := (List.range ((n + 15) / 16)).foldl (fun (a : GmbRun × List Judged × Nat) t =>
      a.1.tile c p (m0 + 16 * t) (min 16 (n - 16 * t)) a.2) (acc.1, blk.map fun j => { neuron := j, low := true, high := false }, 0)
    (r, if r.stop then acc.2.1 else acc.2.1 ++ vs, acc.2.2 + cyc)) (r, [], 0)

/-- How many of the judged neuron-groups were inactive, every row at or below THETA (R210). -/
def lowCount (l : List Judged) : Nat := (l.filter (·.low)).length

/-- How many were active: some row above THETA (R208). -/
def highCount (l : List Judged) : Nat := (l.filter (·.high)).length

/-- Step 2: full passes over the active list (R205, R210). -/
def GmbRun.activePass (r : GmbRun) (c : Cmd) (p : GmbParam) (m0 n : Nat) (js : List Nat) : GmbRun :=
  let (r, l, k) := r.fullPass c p m0 n js
  { r with full := r.full + k, wasted := r.wasted + lowCount l }

/-- A make-up pass over the queued neurons (R205, R207). -/
def GmbRun.makeupPass (r : GmbRun) (c : Cmd) (p : GmbParam) (m0 n : Nat) (js : List Nat) : GmbRun :=
  let (r, l, k) := r.fullPass c p m0 n js
  { r with makeup := r.makeup + k, falseAl := r.falseAl + lowCount l }

/-- Full passes over the audited neurons (R208, R209). -/
def GmbRun.auditPass (r : GmbRun) (c : Cmd) (p : GmbParam) (m0 n : Nat) (js : List Nat) : GmbRun :=
  let (r, l, k) := r.fullPass c p m0 n js
  { r with full := r.full + k, audited := r.audited + l.length, audMiss := r.audMiss + highCount l }

/-- What the coarse passes of a group have found: certified neurons, the make-up queue, every miss. -/
structure CoarseOut where
  cert  : List Nat := []
  queue : List Nat := []
  miss  : List Nat := []

/-- A neuron that is not certified joins the make-up queue; a full queue is made up first (R207). -/
def GmbRun.miss (r : GmbRun) (c : Cmd) (p : GmbParam) (m0 n : Nat) (o : CoarseOut) (j : Nat) : GmbRun × CoarseOut :=
  let (r, q) := if o.queue.length ≥ 1024 then
      ({ (r.makeupPass c p m0 n o.queue) with flushes := r.flushes + 1 }, []) else (r, o.queue)
  ({ r with misses := r.misses + 1, peak := max r.peak (q.length + 1) },
   { o with queue := q ++ [j], miss := o.miss ++ [j] })

/-- Step 3 of VERIFY: coarse passes over the inactive list, 128 neurons at a time (R206, R207). -/
def GmbRun.coarsePass (r : GmbRun) (c : Cmd) (p : GmbParam) (m0 n : Nat) (js : List Nat) : GmbRun × CoarseOut :=
  (chunks 128 js).foldl (fun (acc : GmbRun × CoarseOut) blk =>
    let r := acc.1
    if r.stop then acc
    else
      let a := glTile c.desc p m0 n blk
      let x := r.st.mxCoarse c.msq a
      let ws := x.outs.map Coarse.words
      let r := { r with st := x.st, stop := x.stop, coarse := r.coarse + x.cycles a, stall := r.stall + x.stall a }
      if x.stop then (r, acc.2)
      else (List.range blk.length).foldl (fun (acc : GmbRun × CoarseOut) i =>
        let j := (blk[i]?).getD 0
        if acc.1.stop then acc
        else if columnCert p.theta a.cols n ws i then
          ({ acc.1 with cert := acc.1.cert + 1 }, { acc.2 with cert := acc.2.cert ++ [j] })
        else acc.1.miss c p m0 n acc.2 j) (r, acc.2)) (r, {})

/-- The selection of R209. -/
def gmbDraw (seed g j : Nat) : Nat :=
  let n : BitVec 64 := BitVec.ofNat 64 (g * 2 ^ 16 + j + 1)
  let z : BitVec 64 := BitVec.ofNat 64 seed + n * 0x9E3779B97F4A7C15
  (plcMix z).toNat

/-- Step 4: FILL into every row's slot of each skipped neuron (R205). -/
def GmbRun.fillAll (r : GmbRun) (c : Cmd) (p : GmbParam) (m0 n : Nat) (js : List Nat) : GmbRun :=
  if r.stop then r
  else
    let v := Ea.ofVal (fp32Val p.fill)
    { r with st := (List.range n).foldl (fun s m => js.foldl (fun s j =>
        s.scsSet c.msq (glSlotOf c.desc (m0 + m) j) v (some c.id) c.q) s) r.st }

/-- Step 6: the group's output-mask row (R202). -/
def GmbRun.outMask (r : GmbRun) (c : Cmd) (p : GmbParam) (g : Nat) (done : List Nat) : GmbRun :=
  if r.stop || !p.outEn then r
  else
    let d := c.desc
    let row := (List.range (glMrow d)).map fun i =>
      (BitVec.ofNat 8 ((List.range 8).foldl (fun n b => n + b2n (done.contains (8 * i + b)) * 2 ^ b) 0) : Byte)
    { r with st := r.st.sqWrite c.msq (p.outAddr + g * glMrow d) row }

/-- One group: the steps of Table 9.3. -/
def GmbRun.group (r : GmbRun) (c : Cmd) (p : GmbParam) (g : Nat) : GmbRun :=
  if r.stop then r
  else
    let d := c.desc
    let (m0, n) := glGroup d p g
    let r := { r with groups := g + 1 }
    let m := r.st.sqRead c.msq (glMask d + g * glMrow d) (glMrow d)
    let r := { r with st := m.st, stop := !m.ue.isEmpty }
    if r.stop then r
    else
      let on (j : Nat) : Bool := ((m.data[j / 8]?).getD 0).toNat.testBit (j % 8)
      let act := (List.range (glNeurons d)).filter on
      let inact := (List.range (glNeurons d)).filter fun j => !(on j)
      let r := { r with active := r.active + act.length, inactive := r.inactive + inact.length }
      let r := r.activePass c p m0 n act
      match glMode d with
      | 0 =>
        let (r, o) := r.coarsePass c p m0 n inact
        let r := r.fillAll c p m0 n o.cert
        let r := r.makeupPass c p m0 n o.queue
        r.outMask c p g (act ++ o.miss)
      | 1 =>
        let aud := inact.filter fun j => gmbDraw p.seed g j % p.auditN == 0
        let rest := inact.filter fun j => !(aud.contains j)
        let r := r.auditPass c p m0 n aud
        let r := { r with unchecked := r.unchecked + (if r.stop then 0 else rest.length) }
        (r.fillAll c p m0 n rest).outMask c p g (act ++ aud)
      | _ =>
        let r := { r with unchecked := r.unchecked + (if r.stop then 0 else inact.length) }
        (r.fillAll c p m0 n inact).outMask c p g act

/-- What the completion of a layer weighs against MISS_ALARM: the misses of VERIFY among the predicted-inactive, those of AUDIT
among the audited, none in TRUST (R212). -/
def GmbRun.layerEnd (r : GmbRun) (mode : Nat) : LayerEnd :=
  match mode with
  | 0 => { misses := r.misses, outOf := r.inactive, groups := r.groups }
  | 1 => { misses := r.audMiss, outOf := r.audited, groups := r.groups }
  | _ => { misses := 0, outOf := 0, groups := r.groups }

/-- Enter a layer's counts on its page and on the matrix unit's. -/
def GmbRun.counts (r : GmbRun) (c : Cmd) : State :=
  let pg := gmbPg c.msq
  let mx := mxuPg c.msq
  let s := r.st
  let s := ((s.count64 pg GMB.COARSE_CYCLES r.coarse).count64 pg GMB.FULL_CYCLES r.full).count64 pg GMB.MAKEUP_CYCLES r.makeup
  let s := ((s.count64 pg GMB.PREDICTED_ACTIVE r.active).count64 pg GMB.CERTIFIED r.cert).count64 pg GMB.WASTED r.wasted
  let s := (s.count64 pg GMB.SKIPPED_UNCHECKED r.unchecked).count pg GMB.MISSES r.misses
  let s := ((s.count pg GMB.FALSE_ALARMS r.falseAl).count pg GMB.AUDITED r.audited).count pg GMB.AUDIT_MISSES r.audMiss
  let s := (s.count pg GMB.MAKEUP_FLUSHES r.flushes).setReg pg GMB.MAKEUP_PEAK (max (s.reg pg GMB.MAKEUP_PEAK) r.peak)
  let s := (s.count64 mx MXU.BUSY_CYCLES (r.full + r.coarse + r.makeup + 5)).count64 mx MXU.SPREAD_CYCLES r.spread
  let s := (s.count64 mx MXU.LOAD_STALL_CYCLES r.stall).count mx MXU.MASK_VIOLATIONS r.mask
  let s := s.count mx MXU.ACC_SPILLS r.spills
  let s := match r.first with
    | some (rg, cg) => s.setReg mx MXU.MASK_FIRST (rg * 2 ^ 14 + cg)
    | none => s
  if r.tagged then s.err mx MXU.E_ACC_TAG c.q else s

/-- Run a GMB_LAYER: its groups in ascending order; it completes once every flush and FILL is absorbed (R205, R211). -/
def State.layerRun (s : State) (c : Cmd) : State :=
  let d := c.desc
  let pg := gmbPg c.msq
  let p : GmbParam := { bytes := (s.sqRead c.msq (glParam d) 64).data }
  let r := (List.range (glGroups d p)).foldl (fun r g => GmbRun.group r c p g) { st := s }
  let s := r.counts c
  let s := if r.stop then s.err pg GMB.E_OPERAND_UE c.q else s
  let s := s.addCmd { c with
    ended := if r.stop then some .guardUncorrectable else none
    layer := some (r.layerEnd (glMode d))
    info0 := min r.misses 0xFFFF * 2 ^ 16 + min r.wasted 0xFFFF
    info1 := min r.audited 0xFFFF * 2 ^ 16 + min r.audMiss 0xFFFF }
  s.awaitScs c.id c.msq

/-- GMB_LAYER computes the neurons a mask predicts active and proves, audits or trusts that the others are inactive
(R201 to R212). -/
def execGmbLayer (q : Nat) (d : Desc) (s : State) : Res := .next (s.command q d layerCheck State.layerRun)

end Sys2Proof.Machine
end

