-- ==== Sys2Proof/Machine/Reduce.lean ====
section
/-! DEFINITION. Reduction in the fabric: blocks and windows, nodes in rank order, collective commands, aborts, BACKUP
and RING modes (14_in_fabric_reduction.md). -/

namespace Sys2Proof.Machine

/-! ## Blocks (R346 to R348) -/

/-- x / 2^k rounded to nearest, ties to even. -/
def shrRne (x : Int) (k : Nat) : Int :=
  let m : Int := rneShift x.natAbs k
  if x < 0 then -m else m

/-- Whether an integer lies in the 40-bit window (R346). -/
def inWindow (x : Int) : Bool := decide (-(2 ^ 39) ≤ x) && decide (x ≤ 2 ^ 39 - 1)

/-- The smallest k from `k` up for which every shifted integer lies in the window. -/
def liftFor (r : List Int) : Nat → Nat → Nat
  | 0, k => k
  | f + 1, k => if r.all fun x => inWindow (shrRne x k) then k else liftFor r f (k + 1)

/-- A NaN block. -/
def WinBlock.nan : WinBlock := { s := 0xFF, w := List.replicate 32 0 }

/-- Add a contribution into an accumulator block: the sum, whether it lifted the scale, whether it became a NaN block
(R347). -/
def addBlock (a c : WinBlock) : WinBlock × Bool × Bool :=
  if a.s = 0xFF then (a, false, false)
  else if c.s = 0xFF then (WinBlock.nan, false, false)
  else
    let sc := max a.s c.s
    let r := (List.range 32).map fun i =>
      shrRne ((a.w[i]?).getD 0) (sc - a.s) + shrRne ((c.w[i]?).getD 0) (sc - c.s)
    let k := liftFor r 4 0
    if sc + k > 0xFE then (WinBlock.nan, decide (0 < k), true)
    else ({ s := sc + k, w := r.map fun x => shrRne x k }, decide (0 < k), false)

/-- The element format of FMT (Table 14.5). -/
def redFmt (f : Nat) : Fmt := if f = 0 then .bf16 else if f = 1 then .e4m3 else .e5m2

/-- The smallest k from `k` up for which every w × 2^(−20 − k), rounded, fits the element format (R348). -/
def encodeLift (f : Fmt) (w : List Int) : Nat → Nat → Nat
  | 0, k => k
  | n + 1, k =>
    if w.all fun x => decide (f.roundMag x.natAbs (-20 - (k : Int)) ≤ f.maxCode) then k else encodeLift f w n (k + 1)

/-- Encode a block for the wire: the block, its lift, whether it became a NaN block (R348). -/
def encodeBlock (f : Nat) (b : WinBlock) : WireBlock × Bool × Bool :=
  let e := redFmt f
  let nanOut : WireBlock := { scale := 0xFF, codes := List.replicate 32 e.nanCode }
  if b.s = 0xFF then (nanOut, false, false)
  else
    let k := if f = 0 then 0 else encodeLift e b.w 32 0
    if b.s + k > 0xFE then (nanOut, decide (0 < k), true)
    else ({ scale := b.s + k, codes := b.w.map fun x => e.encode false (.num (decide (x < 0)) x.natAbs (-20 - (k : Int))) },
          decide (0 < k), false)

/-- The window integer of an element value: element × 2^20 (R346). -/
def winOf20 (neg : Bool) (m : Nat) (e : Int) : Int :=
  let x : Int := rneScale m (e + 20)
  if neg then -x else x

/-- A block from element values under a given scale code: NaN where an element is NaN or infinite. -/
def winFrom (scale : Nat) (vs : List Val) : WinBlock :=
  if scale = 0xFF then WinBlock.nan
  else if vs.any fun v => match v with
    | .num .. => false
    | _ => true then WinBlock.nan
  else { s := scale, w := padTo 32 0 (vs.map fun v => match v with
    | .num n m e => winOf20 n m e
    | _ => 0) }

/-- A block as it arrives (R346). -/
def decodeBlock (f : Nat) (b : WireBlock) : WinBlock := winFrom b.scale (b.codes.map (redFmt f).decode)

/-- The scale code of a BF16 source block: R35 with maxfin = 1. -/
def chooseScale1 (m : Nat) (x : Int) : Nat :=
  let l := Nat.log2 m
  let t : Int := if m = 2 ^ l then (l : Int) else (l : Int) + 1
  let e := t + x
  (max (-127) (min 127 e) + 127).toNat

/-- A BF16 source block (R346). -/
def bf16Source (vs : List Val) : WinBlock :=
  match amaxOf vs with
  | none => WinBlock.nan
  | some (m, x) =>
    if m = 0 then { s := 0, w := List.replicate 32 0 }
    else
      let k := chooseScale1 m x
      winFrom k (vs.map fun v => v.scale (127 - (k : Int)))

/-! ## Norm trailers (R351, R352) -/

/-- Not finite. -/
def normNF : Nat := 2 ^ 128 - 1

/-- The trailer of an exact accumulator value (R351). -/
def normOf (a : Ea) : Nat :=
  if a.tag ≠ .none ∨ a.v < 0 then normNF
  else min (rneShift a.v.natAbs 248) normNF

/-- Trailers add exactly (R352). -/
def normAdd (a b : Nat) : Nat := if a = normNF ∨ b = normNF ∨ a + b ≥ normNF then normNF else a + b

/-! ## Contexts -/

/-- The key of context RCTX of die RDIE. -/
def ctxKey (rdie rctx : Nat) : Nat := rdie * 4096 + rctx

def State.ctx (s : State) (k : Nat) : RedCtx := SMap.get {} k s.red
def State.setCtx (s : State) (k : Nat) (x : RedCtx) : State := { s with red := SMap.set {} k x s.red }

/-- The RED page that shows a context. -/
abbrev ctxPage (k : Nat) : Nat := redPg (k / 4096)

/-- CTX_CONFIG of a context now. -/
def State.ctxConfig (s : State) (k : Nat) : Nat := s.reg (ctxPage k) RED.CTX_CONFIG (k % 4096)

def cfgBackup (c : Nat) : Bool := c.testBit 31
def cfgRing (c : Nat) : Bool := c.testBit 30
def cfgGrace (c : Nat) : Nat := bits c 23 16
def cfgNranks (c : Nat) : Nat := bits c 14 0

/-- The ranks of an instance: every member, or positions 0 to NRANKS − 1 in BACKUP mode (R341, R356). -/
def RedCtx.ranks (x : RedCtx) : List Nat := if cfgBackup x.cfg then x.members.take (cfgNranks x.cfg) else x.members

/-- The tree of an instance (R342, R343). -/
def RedCtx.groups (x : RedCtx) : List Group :=
  if cfgRing x.cfg then ringGroups x.ranks.length else treeGroups x.ranks

/-- Chunks of an instance: 512 elements each; COLL_NORM has one without blocks (R345, R352). -/
def RedCtx.nchunks (x : RedCtx) : Nat := if x.fmt = 3 then 1 else (x.count + 511) / 512

/-- Blocks of chunk q. -/
def RedCtx.nblocks (x : RedCtx) (q : Nat) : Nat := if x.fmt = 3 then 0 else min 16 ((x.count - 512 * q + 31) / 32)

/-- a is newer than b (R337). -/
def newer32 (a b : Nat) : Bool :=
  let d := (a + 2 ^ 32 - b % 2 ^ 32) % 2 ^ 32
  decide (1 ≤ d ∧ d ≤ 2 ^ 31 - 1)

/-- The chunk a reduction packet carries, its SEQ (R345). -/
def redSeq : Body → Nat
  | .redUp u => u.chunk
  | .redDown d => d.chunk
  | _ => 0

/-- Send a reduction packet between the fabric dies RDIE of two modules. -/
def State.sendRed (s : State) (k dst rank : Nat) (x : RedCtx) (job : Nat) (b : Body) : State :=
  let d := 6 + k / 4096
  s.sendPkt { hdr := { dstMod := dst, dstDie := d, srcMod := s.modId, srcDie := d, job := job, rdie := k / 4096,
                       rctx := k % 4096, listVer := x.ver, rank := rank, seq := redSeq b }, body := b }

/-- The job a context is bound to. -/
def State.ctxJob (s : State) (k : Nat) : Nat := (s.jobOf 5 k).getD 0

/-- The modules that a list of ranges names, without this one. -/
def State.kidModules (s : State) (x : RedCtx) (l : List (Nat × Nat)) : List Nat :=
  (l.map (s.kidModule x.ranks x.groups)).eraseDups.filter (· != s.modId)

/-- The groups this module serves. -/
def State.ownGroups (s : State) (x : RedCtx) : List Group := x.groups.filter fun g => s.groupNode x.ranks g == s.modId

/-- The modules this one passes a result, a release or an abort on to: the children of the groups it serves; along the
chain with RING set; and the backups whose copies it received (R342, R343, R356). -/
def State.downTargets (s : State) (x : RedCtx) : List Nat :=
  let n := x.ranks.length
  let h (r : Nat) : Nat := s.holder ((x.ranks[r]?).getD 0)
  let tree :=
    if cfgRing x.cfg then
      let mine := (List.range n).filter fun r => h r == s.modId
      ((mine.filter fun r => decide (r + 2 ≤ n - 1)).map fun r => h (r + 1)) ++
        (if mine.contains (n - 1) && decide (1 < n) then [h 0] else [])
    else ((s.ownGroups x).flatMap (·.kids)).map (s.kidModule x.ranks x.groups)
  ((tree ++ x.backups).eraseDups).filter (· != s.modId)

/-- Little-endian number at a byte of a record. -/
def recNat (r : List Byte) (off n : Nat) : Nat := leNat ((r.drop off).take n)

/-- Fields of the parameter record of a collective (Table 14.3). -/
abbrev recSrc (r : List Byte) : Nat := recNat r 0 8
abbrev recSrcScale (r : List Byte) : Nat := recNat r 8 8
abbrev recDst (r : List Byte) : Nat := recNat r 16 8
abbrev recDstScale (r : List Byte) : Nat := recNat r 24 8
abbrev recNormSlot (r : List Byte) : Nat := recNat r 32 2
abbrev recNormAddr (r : List Byte) : Nat := recNat r 36 4

/-- The result and the norm total of a collective that ended early are undefined (R353). -/
def State.collSpoil (s : State) (c : Cmd) (x : RedCtx) : State :=
  match c.ctx with
  | .coll _ _ _ _ r =>
    let job := c.desc.job
    let nb := (x.count + 31) / 32
    let s := if x.fmt = 3 then s
      else if x.fmt = 0 then s.freeMem job (recDst r) (2 * x.count)
      else (s.freeMem job (recDst r) x.count).freeMem job (recDstScale r) nb
    if x.norm || x.fmt = 3 then
      let (v, s) := s.draw
      s.sqWrite c.msq (recNormAddr r) (leBytes 16 v)
    else s
  | _ => s

/-- End one command of an instance: its outputs and the SCALE_LIFTS it reports are free values (R353). -/
def State.endOne (s : State) (x : RedCtx) (st : Status) (id : Nat) : State :=
  match s.cmd? id with
  | none => s
  | some c =>
    if c.done then s else
    let (n, s) := (s.collSpoil c x).draw
    (s.endCmd id st).mapCmd id fun c => { c with info0 := n }

/-- End the commands of an instance on this module with a status; an ABORT_STEP sets RECOVERY (R353, R355, R393). -/
def State.endInstance (s : State) (x : RedCtx) (st : Status) : State :=
  let s := x.cmds.foldl (fun s c => s.endOne x st c.1) s
  if st = .abortStep && !x.cmds.isEmpty then s.setRecovery else s

/-- A contribution without its bytes. -/
def redHollow (u : RedUp) : RedUp := { u with blocks := [], norm := none }

/-- An instance that has ended keeps no accumulator and no bytes of a contribution, but knows which ones it has had
(R358). -/
def RedCtx.hollow (x : RedCtx) : RedCtx :=
  { x with
    chunks := x.chunks.map fun c => { c with blocks := [], held := c.held.map fun h => { h with up := redHollow h.up } }
    copies := x.copies.map fun c => { c with up := redHollow c.up }
    ups := []
    cmds := [] }

/-- An abort takes effect on this module: its commands end, the context is ABORTED (R353). -/
def State.abortLocal (s : State) (k kind : Nat) : State :=
  let x := s.ctx k
  let s := s.endInstance x (if kind = 2 then .linkLost else .abortStep)
  s.setCtx k { x.hollow with st := .aborted, abort := some kind }

/-- The abort packet of an instance. -/
def abortBody (x : RedCtx) (kind : Nat) : Body :=
  .redDown { inst := x.last, chunk := 0, kind := kind, fmt := x.fmt, lifts := 0, norm := none, blocks := [] }

/-- Where this module's part of the tree hangs: the nodes above the groups it serves, or above its own ranks and those it has
given copies for (R353, R356). -/
def State.upTargets (s : State) (x : RedCtx) : List Nat :=
  let gs := x.groups
  let own := s.ownGroups x
  let above := own.filterMap fun g => (g.parent gs).map (s.groupNode x.ranks)
  let leaf := (s.heldRanks x.ranks ++ x.cmds.map (·.2)).filterMap fun r => (parentOf gs (r, 1)).map (s.groupNode x.ranks)
  ((above ++ leaf).eraseDups).filter (· != s.modId)

/-- This module aborts an instance: it tells every module of the ranges it serves, and the node above (R353, R359). -/
def State.redAbort (s : State) (k kind : Nat) : State :=
  let x := s.ctx k
  if x.st ≠ .active then s
  else
    let s := (s.count (ctxPage k) RED.ABORTS 1).err (ctxPage k) RED.E_ABORTED (k % 4096)
    let range := (s.ownGroups x).flatMap fun g => (List.range g.count).map fun i => s.holder ((x.ranks[g.first + i]?).getD 0)
    let dests := ((range ++ x.backups ++ s.upTargets x).eraseDups).filter (· != s.modId)
    let job := s.ctxJob k
    let s := dests.foldl (fun s m => s.sendRed k m 0 x job (abortBody x kind)) s
    s.abortLocal k kind

/-- Packets of two member-list versions, or ranges that do not match, have met: the instance aborts (R344, R359). -/
def State.redMismatch (s : State) (k : Nat) : State :=
  ((s.count (ctxPage k) RED.VER_MISMATCH 1).err (ctxPage k) RED.E_VER_MISMATCH (k % 4096)).redAbort k 1

/-! ## Results on this module (R340, R349) -/

/-- Write one block of a result for a command: the state, whether it holds a NaN, the refusals met. Padding positions are never
written, in a NaN block of MXFP8 too (R345, R349; log entry 96). -/
def State.writeResult (s : State) (c : Cmd) (x : RedCtx) (dst dstScale : Nat) (q b : Nat) (w : WireBlock) : State :=
  let j := 16 * q + b
  let n := min 32 (x.count - 32 * j)
  let e := redFmt x.fmt
  let rq := Req.command c.desc.job
  if x.fmt = 0 then
    let cs := (w.codes.take n).map fun y =>
      if w.scale = 0xFF then e.nanCode
      else e.encode (c.desc.bitB 0 28) ((e.decode y).scale ((w.scale : Int) - 127))
    let r := s.memWrite rq (dst + 64 * j) (elemBytes 2 cs)
    (r.st.mapCmd c.id fun c => { c with nan := c.nan || cs.any fun y => e.kind y != 0,
                                        world := c.world || r.world, cfg := c.cfg || r.cfg })
  else
    -- a NaN block is written under R38
    let cs := if w.scale = 0xFF then List.replicate n e.nanCode else w.codes.take n
    let r := s.memWrite rq (dst + 32 * j) (elemBytes 1 cs)
    let r2 := r.st.memWrite rq (dstScale + j) (elemBytes 1 [w.scale])
    (r2.st.mapCmd c.id fun c => { c with nan := c.nan || w.scale == 0xFF,
                                         world := c.world || r.world || r2.world, cfg := c.cfg || r.cfg || r2.cfg })

/-- Deliver a result chunk to one command (R349). -/
def State.deliverChunk (s : State) (x : RedCtx) (id : Nat) (d : RedDown) : State :=
  match s.cmd? id with
  | none => s
  | some c =>
    match c.ctx with
    | .coll _ _ _ _ r => (List.range d.blocks.length).foldl (fun s b =>
        match d.blocks[b]? with
        | some w => s.writeResult c x (recDst r) (recDstScale r) d.chunk b w
        | none => s) s
    | _ => s

/-- Every result chunk is in place: each command writes the norm total and completes (R340). -/
def State.finishInstance (s : State) (k : Nat) : State :=
  let x := s.ctx k
  let lifts := x.downs.foldl (fun n d => n + d.lifts) 0
  let nans := x.downs.foldl (fun n d => n + (d.blocks.filter fun b => b.scale == 0xFF).length) 0
  let total := x.downs.findSome? fun d => if d.chunk = 0 then d.norm else none
  let s := x.cmds.foldl (fun s p =>
    match s.cmd? p.1 with
    | none => s
    | some c =>
      let s := match total, c.ctx with
        | some t, .coll _ _ _ _ r => s.sqWrite c.msq (recNormAddr r) (leBytes 16 t)
        | _, _ => s
      s.mapCmd p.1 fun c =>
        { c with done := true, nan := c.nan || total == some normNF,
                 info0 := min lifts 0xFFFFFFFF, info1 := min nans 0xFFFF * 2 ^ 16 }) s
  s.setCtx k { x.hollow with st := .done }

/-- A result chunk, made here at the root or received: it goes on down, and into this module's commands (R342,
R349, R358). A duplicate is discarded and counted. -/
def State.redResult (s : State) (k : Nat) (d : RedDown) : State :=
  let x := s.ctx k
  if x.downs.any fun y => y.chunk == d.chunk then s.count (ctxPage k) RED.RED_DUPS 1
  else
    let job := s.ctxJob k
    let s := (s.downTargets x).foldl (fun s m => s.sendRed k m 0 x job (.redDown d)) s
    let s := s.setCtx k { x with downs := x.downs ++ [d], ups := x.ups.filter fun u => u.1 != d.chunk }
    let s := x.cmds.foldl (fun s c => s.deliverChunk x c.1 d) s
    if (s.ctx k).downs.length ≥ x.nchunks then s.finishInstance k else s

/-! ## Nodes (R347, R350) -/

end Sys2Proof.Machine

/-- Payload bytes of a contribution (Table 14.4). -/
def Sys2Proof.RedUp.bytes (u : Sys2Proof.RedUp) : Nat :=
  (if u.blocks.isEmpty then 0 else 16 + u.blocks.length * (if u.fmt = 0 then 64 else 32)) +
  (if u.norm.isSome then 16 else 0)

/-- The context a packet names. -/
def Sys2Proof.Pkt.ctx (p : Sys2Proof.Pkt) : Nat := p.hdr.rdie * 4096 + p.hdr.rctx

/-- Bytes of the contribution a packet carries. -/
def Sys2Proof.Pkt.redBytes (p : Sys2Proof.Pkt) : Nat :=
  match p.body with
  | .redUp u => u.bytes
  | _ => 0

namespace Sys2Proof.Machine

/-- Bytes of a block in an accumulator: a scale and 32 windows of 40 bits (R346; log entry 16). -/
def blockBytes : Nat := 161

/-- Bytes of an accumulator. -/
def RedChunk.bytes (c : RedChunk) : Nat := if c.sent then 0 else c.blocks.length * blockBytes

/-- What a context holds in one place, the buffer or the spill area: a sum over the contributions held for an earlier
rank, for the other chunks of a copy, or for this module's own command. -/
def RedCtx.heldSum (x : RedCtx) (spilled : Bool) (f : Nat → Nat) : Nat :=
  (x.chunks.map fun c => ((c.held.filter fun h => h.spilled == spilled).map fun h => f h.up.bytes).sum).sum +
  ((x.copies.filter fun c => c.spilled == spilled).map fun c => f c.up.bytes).sum +
  ((x.early.filter fun e => e.spilled == spilled).map fun e => f e.pkt.redBytes).sum

/-- The contexts of a fabric die. -/
def State.dieCtxs (s : State) (rdie : Nat) : List (Nat × RedCtx) := s.red.filter fun p => p.1 / 4096 == rdie

/-- Bytes of the die's reduction buffer in use: accumulators and held contributions (R350). -/
def State.rbufUsed (s : State) (rdie : Nat) : Nat :=
  ((s.dieCtxs rdie).map fun p => (p.2.chunks.map RedChunk.bytes).sum + p.2.heldSum false id).sum

/-- Bytes of the spill area in use (R350). -/
def State.spillUsed (s : State) (rdie : Nat) : Nat := ((s.dieCtxs rdie).map fun p => p.2.heldSum true id).sum

/-- The 24 MiB reduction buffer of a fabric die (R350). -/
def rbufSize : Nat := 24 * 2 ^ 20

/-- The first item of a list that lies in the buffer, has bytes, and fits a room, marked as moved. -/
def moveFirst {α : Type} (free : α → Bool) (bytes : α → Nat) (mark : α → α) (room : Nat) : List α → Option (List α)
  | [] => none
  | a :: l =>
    if free a && decide (0 < bytes a ∧ bytes a ≤ room) then some (mark a :: l)
    else (moveFirst free bytes mark room l).map (a :: ·)

/-- Move the first held contribution of a list of chunks that fits. -/
def moveHeld (room : Nat) : List RedChunk → Option (List RedChunk)
  | [] => none
  | c :: l =>
    match moveFirst (fun h => !h.spilled) (fun h => h.up.bytes) (fun h => { h with spilled := true }) room c.held with
    | some hs => some ({ c with held := hs } :: l)
    | none => (moveHeld room l).map (c :: ·)

/-- Move one held contribution of a context to the spill area, if one fits (log entry 93). -/
def RedCtx.moveOne (room : Nat) (x : RedCtx) : Option RedCtx :=
  match moveHeld room x.chunks with
  | some cs => some { x with chunks := cs }
  | none =>
    match moveFirst (fun c => !c.spilled) (fun c => c.up.bytes) (fun c => { c with spilled := true }) room x.copies with
    | some cs => some { x with copies := cs }
    | none =>
      (moveFirst (fun e => !e.spilled) (fun e => e.pkt.redBytes) (fun e => { e with spilled := true }) room x.early).map fun es =>
        { x with early := es }

/-- Make n bytes free in the die's buffer, moving held contributions to the spill area while it has room; SPILLS counts
each move (R350). -/
def State.redFit (rdie n : Nat) : Nat → State → Option State
  | 0, s => if s.rbufUsed rdie + n ≤ rbufSize then some s else none
  | fuel + 1, s =>
    if s.rbufUsed rdie + n ≤ rbufSize then some s
    else
      let room := s.reg (redPg rdie) RED.SPILL_SIZE - s.spillUsed rdie
      match (s.dieCtxs rdie).findSome? fun p => (p.2.moveOne room).map fun x => (p.1, x) with
      | none => none
      | some (k, x) =>
        let t := (s.setCtx k x).count (redPg rdie) RED.SPILLS 1
        redFit rdie n fuel (t.owe (.spill rdie) true (t.spillUsed rdie - s.spillUsed rdie))

/-- Contributions that lie in the die's buffer. -/
def State.heldHere (s : State) (rdie : Nat) : Nat := ((s.dieCtxs rdie).map fun p => p.2.heldSum false fun _ => 1).sum

/-- Room in the buffer for an accumulator of n bytes (R350). -/
def State.redMake (s : State) (rdie n : Nat) : Option State := s.redFit rdie n (s.heldHere rdie)

/-- Room for a held contribution of n bytes: in the buffer, or, with nothing more to move, in the spill area itself
(true); none with that full too (R350). -/
def State.redRoom (s : State) (rdie n : Nat) : Option (State × Bool) :=
  match s.redMake rdie n with
  | some t => some (t, false)
  | none =>
    if s.spillUsed rdie + n ≤ s.reg (redPg rdie) RED.SPILL_SIZE then
      some ((s.count (redPg rdie) RED.SPILLS 1).owe (.spill rdie) true n, true) else none

/-- Read back a contribution of n bytes held, where it lies in the spill area (R350). -/
def State.unspill (s : State) (rdie n : Nat) (spilled : Bool) : State := s.owe (.spill rdie) false (if spilled then n else 0)

/-- A block became a NaN block at this die. -/
def State.nanBlocks (s : State) (k n : Nat) : State :=
  if n = 0 then s else (s.count (ctxPage k) RED.NONFINITE_BLOCKS n).err (ctxPage k) RED.E_NONFINITE (k % 4096)

/-- Add one contribution into a chunk's accumulator (R347, R352). -/
def State.addUp (s : State) (k : Nat) (c : RedChunk) (u : RedUp) : State × RedChunk :=
  let inc := u.blocks.map (decodeBlock u.fmt)
  let rs := if c.blocks.isEmpty then inc.map fun b => (b, false, false)
    else (c.blocks.zip inc).map fun p => addBlock p.1 p.2
  let lifts := (rs.filter fun r => r.2.1).length
  let nans := (rs.filter fun r => r.2.2).length
  let s := (s.count64 (ctxPage k) RED.CHUNKS_ADDED 1).count (ctxPage k) RED.SCALE_LIFTS lifts
  let s := s.nanBlocks k nans
  let norm := match c.norm, u.norm with
    | some a, some b => some (normAdd a b)
    | none, b => b
    | a, none => a
  (s, { c with blocks := rs.map (·.1), norm := norm, lifts := c.lifts + u.lifts + lifts, next := c.next + u.ranks })

/-- Add the held contributions that continue the run (R350). -/
def State.addHeld (s : State) (k : Nat) : Nat → RedChunk → State × RedChunk
  | 0, c => (s, c)
  | n + 1, c =>
    match c.held.find? fun h => h.rank == c.next with
    | none => (s, c)
    | some h =>
      let (s, c') := (s.unspill (k / 4096) h.up.bytes h.spilled).addUp k { c with held := c.held.filter fun x => x.rank != h.rank } h.up
      s.addHeld k n c'

/-- Put a chunk into its context. -/
def RedCtx.putChunk (x : RedCtx) (c : RedChunk) : RedCtx :=
  { x with chunks := (x.chunks.filter fun y => !(y.first == c.first && y.count == c.count && y.chunk == c.chunk)) ++ [c] }

/-- A chunk at the node of a group: a new one where nothing of it has come. -/
def RedCtx.chunkOf (x : RedCtx) (g : Group) (q : Nat) : RedChunk :=
  (x.chunks.find? fun c => c.first == g.first && c.count == g.count && c.chunk == q).getD
    { first := g.first, count := g.count, chunk := q, next := g.first }

/-- Hold a contribution for an earlier rank (R350). -/
def RedCtx.holdIn (x : RedCtx) (g : Group) (q : Nat) (h : RedHeld) : RedCtx :=
  let c := x.chunkOf g q
  x.putChunk { c with held := c.held ++ [h] }

/-- Encode a complete chunk: its blocks and its lifts; lifts and NaN blocks made here are counted (R348). -/
def State.encodeChunk (s : State) (k fmt : Nat) (c : RedChunk) : State × List WireBlock × Nat :=
  let rs := c.blocks.map (encodeBlock fmt)
  let lifts := (rs.filter fun r => r.2.1).length
  let s := (s.count (ctxPage k) RED.SCALE_LIFTS lifts).nanBlocks k (rs.filter fun r => r.2.2).length
  (s, rs.map (·.1), c.lifts + lifts)

/-- The RED_UP that carries a contribution to a node. -/
def State.upPkt (s : State) (k n rank : Nat) (u : RedUp) : Pkt :=
  let d := 6 + k / 4096
  { hdr := { dstMod := n, dstDie := d, srcMod := s.modId, srcDie := d, job := s.ctxJob k,
             rdie := k / 4096, rctx := k % 4096, listVer := (s.ctx k).ver, rank := rank, seq := u.chunk,
             len := (Body.redUp u).units }, body := .redUp u }

/-- Keep a RED_UP until its RED_DOWN arrives (R358). -/
def State.keepUp (s : State) (k : Nat) (u : RedUp) (p : Pkt) : State :=
  let x := s.ctx k
  (s.setCtx k { x with ups := x.ups ++ [(u.chunk, p, s.beat)] }).owe .resend true (32 + 16 * p.hdr.len)

/-- Send a RED_UP and keep it until its RED_DOWN arrives (R358). -/
def State.sendUp (s : State) (k n rank : Nat) (u : RedUp) : State :=
  let p := s.upPkt k n rank u
  (s.keepUp k u p).sendPkt p

/-- A contribution finds the spill area full too: it is discarded, and its sender's resend brings it again; so it is kept
for a resend where the sender is this module (R350). -/
def State.redDrop (s : State) (k src rank : Nat) (u : RedUp) : State :=
  let s := (s.count (ctxPage k) RED.RBUF_DROPS 1).err (ctxPage k) RED.E_SPILL_FULL (k % 4096)
  if src = s.modId && !((s.ctx k).ups.any fun y => y.2.1.hdr.rank == rank && y.2.1.body == .redUp u) then
    s.keepUp k u (s.upPkt k src rank u)
  else s

/-- A contribution of a range at the node of the group that has it as a child; a chunk that becomes complete is sent
up, or down from the root (R347, R350). The fuel bounds the levels of the tree on one module. -/
def State.nodeAdd (s : State) (k src rank : Nat) (u : RedUp) : Nat → State
  | 0 => s
  | fuel + 1 =>
    let x := s.ctx k
    let gs := x.groups
    match parentOf gs (rank, u.ranks) with
    | none => s.redMismatch k
    | some g =>
      if s.groupNode x.ranks g ≠ s.modId then
        s.redMismatch k
      else
        let c := x.chunkOf g u.chunk
        if rank < c.next || c.held.any fun h => h.rank == rank then
          let s := s.count (ctxPage k) RED.RED_DUPS 1
          match x.downs.find? fun d => d.chunk == u.chunk with
          | some d => if src = s.modId then s else s.sendRed k src 0 x (s.ctxJob k) (.redDown d)
          | none => s
        else if rank ≠ c.next then
          match s.redRoom (k / 4096) u.bytes with
          | none => s.redDrop k src rank u
          | some (s, sp) =>
            (s.count64 (ctxPage k) RED.LATE_HOLDS 1).setCtx k
              ((s.ctx k).holdIn g u.chunk { rank := rank, up := u, spilled := sp })
        else match s.redMake (k / 4096) (if c.blocks.isEmpty then u.blocks.length * blockBytes else 0) with
        | none =>
          -- no room for an accumulator: the contribution is held as a later one would be
          match s.redRoom (k / 4096) u.bytes with
          | none => s.redDrop k src rank u
          | some (s, sp) => s.setCtx k ((s.ctx k).holdIn g u.chunk { rank := rank, up := u, spilled := sp })
        | some s =>
          let x := s.ctx k
          let (s, c) := s.addUp k (x.chunkOf g u.chunk) u
          let (s, c) := s.addHeld k c.held.length c
          if c.next < g.first + g.count then s.setCtx k (x.putChunk c)
          else
            let (s, blocks, lifts) := s.encodeChunk k x.fmt c
            let s := s.setCtx k (x.putChunk { c with sent := true, blocks := [] })
            match g.parent gs with
            | none => s.redResult k { inst := x.last, chunk := u.chunk, kind := 0, fmt := x.fmt, lifts := min lifts 0xFFFF,
                                      norm := c.norm, blocks := blocks }
            | some p =>
              let v : RedUp := { inst := x.last, chunk := u.chunk, ranks := g.count, lifts := min lifts 4095, copy := false,
                                 fmt := x.fmt, norm := c.norm, blocks := blocks }
              let n := s.groupNode x.ranks p
              if n = s.modId then s.nodeAdd k n g.first v fuel
              else s.sendUp k n g.first v

/-- Whether the node of a contribution's range has it, in the accumulator or held. -/
def RedCtx.has (x : RedCtx) (rank : Nat) (u : RedUp) : Bool :=
  match parentOf x.groups (rank, u.ranks) with
  | none => false
  | some g =>
    let c := x.chunkOf g u.chunk
    decide (rank < c.next) || c.held.any fun h => h.rank == rank

/-- A chunk of an instance, and the contribution held that its accumulator could take next. -/
def RedCtx.readyHeld (x : RedCtx) : Option (RedChunk × RedHeld) :=
  x.chunks.findSome? fun c => if c.sent then none else (c.held.find? fun h => h.rank == c.next).map fun h => (c, h)

/-- Accumulators that found no room begin once there is room again (R350). -/
def State.redPump (rdie : Nat) : Nat → State → State
  | 0, s => s
  | n + 1, s =>
    match (s.dieCtxs rdie).findSome? fun p => if p.2.st = .active then p.2.readyHeld.map fun y => (p.1, y) else none with
    | none => s
    | some (k, c, h) =>
      let x := s.ctx k
      let t := s.setCtx k (x.putChunk { c with held := c.held.filter fun y => y.rank != h.rank })
      match t.redMake rdie (if c.blocks.isEmpty then h.up.blocks.length * blockBytes else 0) with
      | none => s
      | some t => State.redPump rdie n ((t.unspill rdie h.up.bytes h.spilled).nodeAdd k s.modId h.rank h.up (x.groups.length + 1))

/-- A leaf contribution in BACKUP mode at its level-1 node: the chunks of each copy are held until one copy is
complete; that copy enters the addition and the other is discarded (R357). -/
def State.backupAdd (s : State) (k src rank : Nat) (u : RedUp) : State :=
  let x := s.ctx k
  let x := if u.copy && !(x.backups.contains src) && src != s.modId then { x with backups := x.backups ++ [src] } else x
  let s := s.setCtx k x
  let answer (s : State) : State := match x.downs.find? fun d => d.chunk == u.chunk with
    | some d => if src = s.modId then s else s.sendRed k src 0 x (s.ctxJob k) (.redDown d)
    | none => s
  match x.taken.find? fun t => t.1 == rank with
  | some (_, cp, m) =>
    if cp = u.copy ∧ m = src then
      (if x.has rank u then answer (s.count (ctxPage k) RED.RED_DUPS 1) else s.nodeAdd k src rank u (x.groups.length + 1))
    else answer (s.count (ctxPage k) RED.BACKUP_DISCARDS 1)
  | none =>
    if x.copies.any fun c => c.rank == rank && c.copy == u.copy && c.src == src && c.up.chunk == u.chunk then
      s.count (ctxPage k) RED.RED_DUPS 1
    else match s.redRoom (k / 4096) u.bytes with
      | none => s.redDrop k src rank u
      | some (s, sp) =>
        let x := s.ctx k
        let copies := x.copies ++ [{ rank := rank, copy := u.copy, src := src, up := u, spilled := sp }]
        let mine := copies.filter fun c => c.rank == rank && c.copy == u.copy && c.src == src
        if mine.length < x.nchunks then s.setCtx k { x with copies := copies }
        else
          let others := copies.filter fun c => c.rank == rank && !(c.copy == u.copy && c.src == src)
          let s := (s.count (ctxPage k) RED.BACKUP_DISCARDS others.length).setCtx k
            { x with copies := copies.filter fun c => c.rank != rank, taken := x.taken ++ [(rank, u.copy, src)] }
          (List.range x.nchunks).foldl (fun s q =>
            match mine.find? fun c => c.up.chunk == q with
            | some c => (s.unspill (k / 4096) c.up.bytes c.spilled).nodeAdd k src rank c.up (x.groups.length + 1)
            | none => s) s

/-- Whether a contribution fits the instance: FMT, chunk number, trailer and number of blocks (R359). -/
def RedCtx.accepts (x : RedCtx) (u : RedUp) : Bool :=
  u.fmt == x.fmt && decide (u.chunk < x.nchunks) && (u.norm.isSome == (x.norm && u.chunk == 0)) &&
  u.blocks.length == x.nblocks u.chunk

/-- A contribution of the present instance at this node. -/
def State.upHere (s : State) (k src rank : Nat) (u : RedUp) : State :=
  let x := s.ctx k
  if !(x.accepts u) then (s.err (ctxPage k) RED.E_BAD_CONTRIB (k % 4096)).redAbort k 1
  else
    let s :=
      if cfgBackup x.cfg && u.ranks == 1 then
        (match parentOf x.groups (rank, 1) with
          | some g => if s.groupNode x.ranks g = s.modId then s.backupAdd k src rank u else s.redMismatch k
          | none => s.redMismatch k)
      else s.nodeAdd k src rank u (x.groups.length + 1)
    s.redPump (k / 4096) (((s.dieCtxs (k / 4096)).map fun p => (p.2.chunks.map fun c => c.held.length).sum).sum)

/-! ## Packets -/

/-- Discard a packet of an older instance or of another job (R336). -/
def State.redStale (s : State) (k : Nat) : State := s.count (ctxPage k) RED.RED_STALE 1

/-- Hold a packet that is early for this module's own command (R336, R350). -/
def State.redEarly (s : State) (k : Nat) (p : Pkt) : State :=
  match s.redRoom (k / 4096) p.redBytes with
  | none => (s.count (ctxPage k) RED.RBUF_DROPS 1).err (ctxPage k) RED.E_SPILL_FULL (k % 4096)
  | some (s, sp) =>
    let x := s.ctx k
    s.setCtx k { x with early := x.early ++ [{ pkt := p, spilled := sp }] }

/-- A RED_UP of the active instance (R344, R359). -/
def State.upActive (s : State) (p : Pkt) (u : RedUp) : State :=
  let k := p.ctx
  if p.hdr.listVer ≠ (s.ctx k).ver then s.redMismatch k
  else s.upHere k p.hdr.srcMod p.hdr.rank u

/-- A RED_DOWN of the active instance: a result, of this module's list version, or an abort that is passed on down this
module's range, and up when it came from below (R353, R359). -/
def State.downActive (s : State) (p : Pkt) (d : RedDown) : State :=
  let k := p.ctx
  if d.kind = 0 then (if p.hdr.listVer = (s.ctx k).ver then s.redResult k d else s.redMismatch k)
  else
    let x := s.ctx k
    let job := s.ctxJob k
    let dests := ((s.downTargets x ++ s.upTargets x).eraseDups).filter (· != p.hdr.srcMod)
    let s := dests.foldl (fun s m => s.sendRed k m 0 x job (abortBody x d.kind)) s
    s.abortLocal k d.kind

/-- Whether a contribution has come before (R358). -/
def RedCtx.seen (x : RedCtx) (src rank : Nat) (u : RedUp) : Bool :=
  (x.copies.any fun c => c.rank == rank && c.copy == u.copy && c.src == src && c.up.chunk == u.chunk) ||
  (x.taken.any fun t => t.1 == rank) || x.has rank u

/-- Whether a contribution is one of the copy that was not taken for its rank (R357). -/
def RedCtx.otherCopy (x : RedCtx) (src rank : Nat) (u : RedUp) : Bool :=
  u.ranks == 1 && x.taken.any fun t => t.1 == rank && !(t.2.1 == u.copy && t.2.2 == src)

/-- Whether a RED_DOWN repeats one made or received before (R358). -/
def RedCtx.answered (x : RedCtx) (d : RedDown) : Bool :=
  if d.kind = 0 then x.downs.any fun y => y.chunk == d.chunk else x.abort.isSome

/-- A RED_UP reaches this module (R336, R344, R347, R358). -/
def State.onRedUp (s : State) (p : Pkt) : State :=
  match p.body with
  | .redUp u =>
    let k := p.ctx
    let x := s.ctx k
    if s.jobOf 5 k ≠ some p.hdr.job then s.redStale k
    else if newer32 u.inst x.last then s.redEarly k p
    else if u.inst ≠ x.last ∨ x.st = .idle then s.redStale k
    else match x.st with
      | .active => s.upActive p u
      | _ =>
        -- the chunk has been answered, or the instance aborted: the kept RED_DOWN goes to the child again
        let s := if x.otherCopy p.hdr.srcMod p.hdr.rank u then s.count (ctxPage k) RED.BACKUP_DISCARDS 1
          else if x.seen p.hdr.srcMod p.hdr.rank u then s.count (ctxPage k) RED.RED_DUPS 1 else s
        match x.abort, x.downs.find? fun d => d.chunk == u.chunk with
        | some kind, _ => s.sendRed k p.hdr.srcMod 0 x p.hdr.job (abortBody x kind)
        | none, some d => s.sendRed k p.hdr.srcMod 0 x p.hdr.job (.redDown d)
        | none, none => s
  | _ => s

/-- A RED_DOWN reaches this module (R336, R349, R353, R358). -/
def State.onRedDown (s : State) (p : Pkt) : State :=
  match p.body with
  | .redDown d =>
    let k := p.ctx
    let x := s.ctx k
    if s.jobOf 5 k ≠ some p.hdr.job then s.redStale k
    else if newer32 d.inst x.last then s.redEarly k p
    else if d.inst ≠ x.last ∨ x.st = .idle then s.redStale k
    else match x.st with
      | .active => s.downActive p d
      | _ => if x.answered d then s.count (ctxPage k) RED.RED_DUPS 1 else s
  | _ => s

/-! ## Collective commands (R338 to R341) -/

def collRdie (d : Desc) : Nat := d.f 0 24 24
def collKey (d : Desc) : Nat := ctxKey (collRdie d) (d.f 0 23 12)
def collIsNorm (d : Desc) : Bool := d.opcode == 0x81
def collFmt (d : Desc) : Nat := if collIsNorm d then 3 else d.f 0 31 29
def collCount (d : Desc) : Nat := if collIsNorm d then 0 else d.f 3 30 0
def collNormEn (d : Desc) : Bool := d.bitB 0 27
def collDeadline (d : Desc) : Option Nat := if d.dlEn then some d.deadline else none

/-- Whether two ranges overlap other than exactly. -/
def clash (a n b m : Nat) : Bool := decide (a < b + m ∧ b < a + n) && !(a == b && n == m)

/-- The checks of the record (R339). -/
def collRecBad (s : State) (c : Cmd) (r : List Byte) : Bool :=
  let d := c.desc
  let n := collCount d
  let bf := collFmt d = 0
  let src := recSrc r
  let srcS := recSrcScale r
  let dst := recDst r
  let dstS := recDstScale r
  let nb := if bf then 2 * n else n
  let ns := (n + 31) / 32
  let v := s.variant
  let arr (a k : Nat) : Bool := decide (a ≥ 2 ^ 46) || a % 32 != 0 || !(inHbm v a k)
  recNat r 34 2 != 0 || recNat r 40 8 != 0 || recNat r 48 8 != 0 || recNat r 56 8 != 0 ||
  (!(collIsNorm d) && (arr src nb || arr dst nb || clash src nb dst nb ||
    (!bf && (arr srcS ns || arr dstS ns || clash srcS ns dstS ns || clash src nb dstS ns || clash srcS ns dst nb)))) ||
  (collNormEn d && (decide (recNormSlot r ≥ s.slotLimit c.msq) || decide (recNormAddr r ≥ 2 ^ 22) ||
    recNormAddr r % 16 != 0 || !(inSqm (recNormAddr r) 16)))

/-- The rank a command may contribute (R341, R356). -/
def collRankBad (s : State) (d : Desc) (members : List Nat) (cfg : Nat) : Bool :=
  let rank := d.f 2 14 0
  let copy := d.bitB 0 25
  if cfgBackup cfg then
    let n := cfgNranks cfg
    if copy then decide (rank ≥ n) || !((s.ownRanks members).any fun r => decide (r ≥ n))
    else decide (rank ≥ n) || !((s.ownRanks members).contains rank)
  else copy || !((s.ownRanks members).contains rank)

/-- The checks of R339 and R341. -/
def collCheck : Check where
  body s c :=
    let d := c.desc
    firstOf [(!(collIsNorm d) && collCount d == 0, .empty),
      ((!(collIsNorm d) && decide (d.f 0 31 29 > 2)) || d.f 0 11 0 != 0 || d.f 2 31 15 != 0 || d.bitB 3 31 ||
        (collIsNorm d && d.b 3 != 0) || d.f 4 31 22 != 0 || !(d.zeroWords [5, 6, 7]) || decide (collCount d > 2 ^ 30) ||
        decide (collRdie d ≥ s.variant.fabricDies) || d.f 4 21 0 % 32 != 0 || !(inSqm (d.f 4 21 0) 64) ||
        (collIsNorm d && !(collNormEn d)), .configInvalid)]
  rest s c :=
  let d := c.desc
  let k := collKey d
  let x := s.ctx k
  let active := x.st = .active
  let members := if active then x.members else (s.job d.job).members
  let cfg := if active then x.cfg else s.ctxConfig k
  if decide (s.jobOf 5 k ≠ some d.job) || s.castled 5 k ||
      (!active && !(newer32 (d.b 1) x.last)) ||
      (active && (d.b 1 != x.last || collFmt d != x.fmt || collCount d != x.count || collNormEn d != x.norm ||
        collDeadline d != x.deadline)) ||
      collRankBad s d members cfg ||
      (cfgBackup cfg && decide (cfgNranks cfg ≥ members.length)) ||
      (active && x.cmds.any fun y => y.2 == d.f 2 14 0) then
    (s, some .configInvalid)
  else
    let r := s.sqRead c.msq (d.f 4 21 0) 64
    if !r.ue.isEmpty then (r.st, some .guardUncorrectable)
    else if collRecBad r.st c r.data then (r.st, some .configInvalid)
    else (r.st, none)

/-- The source block j of a command: a block with an uncorrectable or refused word is sent as a NaN block or as zeros,
and recorded (R359, R290). -/
def State.sourceBlock (s : State) (c : Cmd) (r : List Byte) (j : Nat) : State × WinBlock × Bool :=
  let d := c.desc
  let n := min 32 (collCount d - 32 * j)
  let e := redFmt (collFmt d)
  let rq := Req.command d.job
  if collFmt d = 0 then
    let m := s.memRead rq (recSrc r + 64 * j) (2 * n)
    let s := m.st.mapCmd c.id fun c => { c with ue := c.ue || !m.ue.isEmpty, world := c.world || m.world, cfg := c.cfg || m.cfg }
    let b := if m.ue.isEmpty then bf16Source ((elems 2 m.data).map e.decode) else WinBlock.nan
    (s, b, b.s == 0xFF)
  else
    let m := s.memRead rq (recSrc r + 32 * j) n
    let q := m.st.memRead rq (recSrcScale r + j) 1
    let s := q.st.mapCmd c.id fun c =>
      { c with ue := c.ue || !m.ue.isEmpty || !q.ue.isEmpty, world := c.world || m.world || q.world,
               cfg := c.cfg || m.cfg || q.cfg }
    let b := if m.ue.isEmpty && q.ue.isEmpty then winFrom (leNat q.data) ((elems 1 m.data).map e.decode) else WinBlock.nan
    (s, b, b.s == 0xFF)

/-- Send one rank's chunk to the node above it, or into it when that node is here. -/
def State.contribute (s : State) (k rank : Nat) (u : RedUp) : State :=
  let x := s.ctx k
  match parentOf x.groups (rank, 1) with
  | none => s
  | some g =>
    let n := s.groupNode x.ranks g
    if n = s.modId then s.upHere k n rank u else s.sendUp k n rank u

/-- One chunk of a command's contribution (R345, R346). -/
def State.sendChunk (s : State) (c : Cmd) (r : List Byte) (k rank : Nat) (copy : Bool) (norm : Option Nat) (q : Nat) : State :=
  let x := s.ctx k
  if x.st ≠ .active then s
  else
    let (s, bs, nans) := (List.range (x.nblocks q)).foldl (fun (acc : State × List WinBlock × Nat) b =>
      let (s, w, nan) := acc.1.sourceBlock c r (16 * q + b)
      (s, acc.2.1 ++ [w], acc.2.2 + b2n nan)) (s, [], 0)
    let s := s.nanBlocks k nans
    s.contribute k rank
      { inst := x.last, chunk := q, ranks := 1, lifts := 0, copy := copy, fmt := x.fmt,
        norm := if q = 0 then norm else none, blocks := bs.map fun b => (encodeBlock x.fmt b).1 }

/-- Contribute a command's chunks once its NORM_SLOT may be read (R82, R351). -/
def State.collContribute (s : State) (id : Nat) : State :=
  match s.cmd? id with
  | none => s
  | some c =>
    match c.ctx with
    | .coll k rank copy false r =>
      let d := c.desc
      let slot := recNormSlot r
      if collNormEn d && s.slotQueued c.msq slot then s
      else
        let (s, norm) := if collNormEn d then
            let (s, e) := s.entryRead c.msq slot
            (if d.bitB 0 26 then s.scsZero c.msq slot else s, some (normOf e.ea))
          else (s, none)
        let s := s.mapCmd id fun c => { c with ctx := .coll k rank copy true r }
        (List.range (s.ctx k).nchunks).foldl (fun s q => s.sendChunk c r k rank copy norm q) s
    | _ => s

/-- Start a collective: it starts the instance when the context is not ACTIVE, takes the packets held for it, and
contributes (R336, R338, R341). -/
def State.collRun (s : State) (c : Cmd) : State :=
  let d := c.desc
  let k := collKey d
  let rank := d.f 2 14 0
  let r := (s.sqRead c.msq (d.f 4 21 0) 64).data
  let x := s.ctx k
  let fresh := x.st ≠ .active
  let early := x.early
  let x : RedCtx := if fresh then
      { st := .active, last := d.b 1, ver := (s.job d.job).ver, members := (s.job d.job).members, cfg := s.ctxConfig k,
        fmt := collFmt d, count := collCount d, norm := collNormEn d, deadline := collDeadline d }
    else x
  let s := s.addCmd { c with ctx := .coll k rank (d.bitB 0 25) false r }
  let s := s.setCtx k { x with cmds := x.cmds ++ [(c.id, rank)] }
  let s := x.downs.foldl (fun s y => s.deliverChunk x c.id y) s
  let s := if fresh then early.foldl (fun s e =>
      let s := s.unspill (k / 4096) e.pkt.redBytes e.spilled
      let p := e.pkt
      match p.body with
      | .redUp u => if (s.ctx k).st = .active ∧ u.inst = d.b 1 then s.upActive p u
          else if newer32 u.inst (d.b 1) then s.redEarly k p else s.redStale k
      | .redDown y => if (s.ctx k).st = .active ∧ y.inst = d.b 1 then s.downActive p y
          else if newer32 y.inst (d.b 1) then s.redEarly k p else s.redStale k
      | _ => s) s
    else s
  s.collContribute c.id

/-- COLL_ALLREDUCE contributes COUNT elements to an instance and receives the result (R338). -/
def execCollAllreduce (q : Nat) (d : Desc) (s : State) : Res := .next (s.command q d collCheck State.collRun)

/-- COLL_NORM contributes a norm trailer and receives the norm total (R338). -/
def execCollNorm (q : Nat) (d : Desc) (s : State) : Res := .next (s.command q d collCheck State.collRun)

/-! ## Deadlines and resends (R353, R354, R358) -/

/-- Whether this module serves a group with a chunk whose range is incomplete. -/
def State.redIncomplete (s : State) (x : RedCtx) : Bool :=
  (s.ownGroups x).any fun g => (List.range x.nchunks).any fun q =>
    !(x.chunks.any fun c => c.first == g.first && c.count == g.count && c.chunk == q && c.sent)

/-- At step 3 of beat DEADLINE a node that holds an incomplete chunk aborts the instance (R353). -/
def State.redDeadline (s : State) (k : Nat) : State :=
  let x := s.ctx k
  match x.deadline with
  | some b => if x.st = .active ∧ b ≤ s.beat ∧ s.redIncomplete x then s.redAbort k 1 else s
  | none => s

/-- RED_DEADLINE_ABORT (R353). -/
def execRedDeadlineAbort (rdie rctx : Nat) (s : State) : Res := .next (s.redDeadline (ctxKey rdie rctx))

/-- At step 3 of beat DEADLINE + ABORT_GRACE the instance's commands here end with ABORT_STEP, and the module aborts
the instance (R354). -/
def State.redGrace (s : State) (k : Nat) : State :=
  let x := s.ctx k
  match x.deadline with
  | some b => if x.st = .active ∧ b + cfgGrace x.cfg ≤ s.beat then s.redAbort k 1 else s
  | none => s

/-- ABORT_GRACE_EXPIRE (R354). -/
def execAbortGraceExpire (rdie rctx : Nat) (s : State) : Res := .next (s.redGrace (ctxKey rdie rctx))

/-- A RED_UP whose RED_DOWN has not come within E2E_TIMEOUT beats is sent again (R358). -/
def execRedResend (rdie rctx chunk : Nat) (s : State) : Res :=
  .next (
    let k := ctxKey rdie rctx
    let x := s.ctx k
    match x.ups.find? fun u => u.1 == chunk && decide (u.2.2 + s.e2eTimeout ≤ s.beat) with
    | none => s
    | some (_, p, _) =>
      let s := s.setCtx k { x with ups := x.ups.map fun u => if u.2.1 = p then (u.1, u.2.1, s.beat) else u }
      ((s.count (ctxPage k) RED.RED_RESENDS 1).owe .resend false (32 + 16 * p.hdr.len)).sendPkt
        { p with hdr := { p.hdr with resent := true } })

/-- Castling takes a context away: in ACTIVE its commands end with ORPHAN and an abort is sent (R336). -/
def State.ctxOrphan (s : State) (k : Nat) : State :=
  let x := s.ctx k
  if x.st ≠ .active then s
  else
    let s := x.cmds.foldl (fun s c => s.endOne x .orphan c.1) s
    (s.setCtx k { x with cmds := [] }).redAbort k 1

/-- A module is declared lost: every ACTIVE instance whose tree includes it, as a member or for one that it stands in for,
aborts, with LINK_LOST when it has no substitute (R359). -/
def State.redLost (s : State) (m : Nat) (sub : Bool) : State :=
  (s.red.map (·.1)).foldl (fun s k =>
    let x := s.ctx k
    if x.st = .active ∧ x.ranks.any (fun r => r == m || s.holder r == m) = true then s.redAbort k (if sub then 1 else 2)
    else s) s

end Sys2Proof.Machine
end

