-- ==== Sys2Proof/Machine/Rook.lean ====
section
/-! DEFINITION. The Rook engine's reads, scatters and stores: ROOK_GATHER, ROOK_SCATTER, ROOK_STORE, PLC_LOAD, what they
send to other modules and what owners do with it (07_gather_and_scatter.md R145 to R159, R167, R168;
08_embedding_placement.md R175, R187). -/

namespace Sys2Proof.Machine

/-! ## The body of ROOK_GATHER and ROOK_STORE (Table 7.2) -/

def rgMerge (d : Desc) : Nat := d.f 0 31 30
def rgPlane (d : Desc) : Nat := d.f 0 29 28
def rgTable (d : Desc) : Nat := d.f 0 27 16
/-- IDX_KIND 1: a touch list. -/
def rgTouch (d : Desc) : Bool := d.bitB 0 15
def rgCntEn (d : Desc) : Bool := d.bitB 0 14
def rgPublish (d : Desc) : Bool := d.bitB 0 13
def rgIdx (d : Desc) : Nat := d.f 1 21 0
def rgOut (d : Desc) : Nat := d.f 2 21 0
def rgStride (d : Desc) : Nat := 32 * d.f 3 31 16
def rgCount (d : Desc) : Nat := d.f 4 31 12
def rgCnt (d : Desc) : Nat := d.f 5 21 0
def rgMap (d : Desc) : Nat := d.f 6 21 0
def rgUcnt (d : Desc) : Nat := d.f 7 21 0
/-- A gather with MERGE 2. -/
def rgCompact (d : Desc) : Bool := d.opcode == 0x50 && rgMerge d == 2

/-- The embedding tables of a job. -/
def State.embTables (s : State) (job : Nat) : List Tbl :=
  (s.plc.tables.filter fun p => p.1 / 4096 == job && (Tbl.mk p.2).emb).map fun p => ⟨p.2⟩

/-- Bytes of the longest row a command may meet (R147). -/
def State.rgRow (s : State) (d : Desc) : Nat :=
  if rgTouch d then (s.embTables d.job).foldl (fun n t => max n (t.planeBytes (rgPlane d))) 0
  else ((s.tbl d.job (rgTable d)).map fun t => t.planeBytes (rgPlane d)).getD 0

/-- The rows in square memory. -/
def State.rgRows (s : State) (d : Desc) : Nat × Nat := (rgOut d, rgStride d * (rgCount d - 1) + s.rgRow d)

/-- The index list. -/
def rgList (d : Desc) : Nat × Nat := (rgIdx d, if rgTouch d then 32 + 16 * rgCount d else 8 * rgCount d)

def State.rgOuts (s : State) (d : Desc) : List (Nat × Nat) :=
  if d.opcode = 0x50 then s.rgRows d :: (if rgCompact d then [(rgMap d, 4 * rgCount d), (rgUcnt d, 4)] else []) else []

def State.rgIns (s : State) (d : Desc) : List (Nat × Nat) :=
  rgList d :: (if rgCntEn d && !(rgTouch d) then [(rgCnt d, 4)] else []) ++ (if d.opcode = 0x50 then [] else [s.rgRows d])

/-- Body errors of a gather or store by its own fields (Table 7.1, R147, R167). -/
def rgBodyBad (d : Desc) : Bool :=
  let store := d.opcode == 0x52
  d.f 0 12 0 != 0 || d.f 1 31 22 != 0 || d.f 2 31 22 != 0 || d.f 3 15 0 != 0 || d.f 4 11 0 != 0 || d.f 5 31 22 != 0 ||
  d.f 6 31 22 != 0 || d.f 7 31 22 != 0 || rgMerge d == 3 || (store && rgMerge d != 0) || (!store && rgPublish d) ||
  packedBad (rgIdx d) (rgList d).2 ||
  (rgCompact d && (packedBad (rgMap d) (4 * rgCount d) || rgUcnt d % 4 != 0 || !(inSqm (rgUcnt d) 4))) ||
  (rgCntEn d && !(rgTouch d) && (rgCnt d % 4 != 0 || !(inSqm (rgCnt d) 4)))

/-- The checks of R147 on the body alone. -/
def State.rgBad (s : State) (d : Desc) : Bool :=
  (if rgTouch d then (s.embTables d.job).isEmpty else !((s.tbl d.job (rgTable d)).any Tbl.emb)) ||
  packedBad (rgOut d) (s.rgRows d).2 || outsClash (s.rgOuts d) (s.rgIns d)

/-- The count a command uses: COUNT, or the smaller of it and the count read; and whether that was uncorrectable. -/
def State.rgUsed (s : State) (c : Cmd) : State × Nat × Bool :=
  let d := c.desc
  if rgCntEn d then
    let n := s.readElems c.msq (if rgTouch d then rgIdx d else rgCnt d) 4 1
    (n.st, min (rgCount d) ((n.codes[0]?).getD 0), !n.ue.isEmpty)
  else (s, rgCount d, false)

/-- The checks of ROOK_GATHER and ROOK_STORE (R147, R168). -/
def rgCheck : Check where
  body _ c := firstOf [(rgCount c.desc == 0, .empty), (rgBodyBad c.desc, .configInvalid)]
  rest s c :=
  let d := c.desc
  if s.rgBad d then (s, some .configInvalid)
  else
    let (s, n, u) := s.rgUsed c
    if u then (s.err (rookPg c.msq) ROOK.E_ROW_UE c.q, some .guardUncorrectable)
    else if n = 0 then
      ((if rgCompact d then s.sqWrite c.msq (rgUcnt d) (leBytes 4 0) else s), some .empty)
    else if n > 1 ∧ rgStride d < 32 * ((s.rgRow d + 31) / 32) then (s, some .configInvalid)
    else (s, none)

/-- The indices of a command as table and node, and whether their list was uncorrectable. -/
def State.rgIndices (s : State) (c : Cmd) (n : Nat) : State × List (Nat × Nat) × Bool :=
  let d := c.desc
  if rgTouch d then
    let r := s.readElems c.msq (rgIdx d + 32) 16 n
    (r.st, r.codes.map fun e => (bits e 63 52, bits e 47 0), !r.ue.isEmpty)
  else
    let r := s.readElems c.msq (rgIdx d) 8 n
    (r.st, r.codes.map fun e => (rgTable d, e), !r.ue.isEmpty)

/-- The row an index names in a plane: none for a bad index (R145). -/
def State.planeKey (s : State) (job table node plane : Nat) : Option RowKey :=
  (s.rowKey job table node).bind fun k => if (s.keyTbl k).hasPlane plane then some k else none

/-! ## Reading rows (R148, R150, R151, R187) -/

/-- STALE1 of a job (Table 8.9). -/
def State.stale1 (s : State) (job : Nat) : Bool := bit (s.reg plcPg PLC.JOB_CONFIG job) 31

/-- What a read of a row's plane gives where it is served: its codes, whether they are the version before a pending update,
and why the region table refused any of them. -/
inductive RowRead where
  | codes (stale : Bool) (cs : List Nat) (world cfg : Bool)
  | ue
  | wait

/-- The slot of a replica that serves plane 0 to this module's squares. -/
def State.replicaSlot (s : State) (k : RowKey) (p : Nat) : Option Nat :=
  if p = 0 then (s.dirFind k).bind fun e => if e.kind = 2 then some e.slot else none else none

/-- Whether plane 0 of a row is pending where it is served: at its new home between flip and transfer as with the mark set
(R187, Table 8.5). -/
def State.pendHere (s : State) (k : RowKey) (repl : Bool) : Bool :=
  if repl then s.plc.rpend.contains k else (s.row k).pend || s.flipped k

/-- Whether a read has to wait: in STRICT for plane 0 of a pending row, in any setting for planes 1 to 3 before a transfer
(R187, Table 8.5). -/
def State.readWaits (s : State) (strict : Bool) (k : RowKey) (p : Nat) (repl : Bool) : Bool :=
  if p = 0 then strict && s.pendHere k repl else s.flipped k

/-- Read plane 0 of a replica held here. -/
def State.readReplica (s : State) (k : RowKey) (slot : Nat) : State × RowRead :=
  let t := s.keyTbl k
  let r := s.memRead Req.device (s.replAddr slot) (t.planeBytes 0)
  (r.st, if r.ue.isEmpty then .codes (s.pendHere k true) (elems (t.planeFmt 0).bytes r.data) false false else .ue)

/-- Read a plane of a row at its owner, or at its new home between flip and transfer: SERVE counts it (R187, R189). -/
def State.readOwner (s : State) (req : Req) (k : RowKey) (p : Nat) : State × RowRead :=
  let x := (s.serveRow k).planeRead req k p
  (x.1.st, if x.1.bad.isEmpty then .codes (p == 0 && s.pendHere k false) x.2 x.1.world x.1.cfg else .ue)

/-- Whether a plane of a row is served on this module: by a replica for its own squares alone (R191), or as owner. -/
def State.servedHere (s : State) (own : Bool) (k : RowKey) (p : Nat) : Bool :=
  (own && (s.replicaSlot k p).isSome) || s.resolve k == s.modId

/-- Read a plane of a row served here, for this module's squares or for another module (R183, R187, R191). -/
def State.readRow (s : State) (req : Req) (strict own : Bool) (k : RowKey) (p : Nat) : State × RowRead :=
  match (if own then s.replicaSlot k p else none) with
  | some slot => if s.readWaits strict k p true then (s, .wait) else s.readReplica k slot
  | none => if s.readWaits strict k p false then (s, .wait) else s.readOwner req k p

/-- Wait for a row. -/
def State.waitRow (s : State) (k : RowKey) (p : Nat) (strict : Bool) (w : RowWaiter) : State :=
  s.setPlc { s.plc with waits := s.plc.waits ++ [{ key := k, plane := p, strict := strict, who := w }] }

/-- A command that ended waits for no row any more. -/
def State.dropWaits (s : State) (id : Nat) : State :=
  s.setPlc { s.plc with waits := s.plc.waits.filter fun w =>
    match w.who with
    | .fetch c _ => c != id
    | .store c _ => c != id
    | .read .. => true }

/-! ## ROOK_GATHER -/

/-- Write a row into every output row that takes it; ROWS_GATHERED counts them (R148, R169). -/
def State.gatherOut (s : State) (c : Cmd) (f : Fetch) (codes : List Nat) (size : Nat) : State :=
  (f.outs.foldl (fun s o => s.sqWrite c.msq (rgOut c.desc + rgStride c.desc * o) (elemBytes size codes)) s).count64
    (rookPg c.msq) ROOK.ROWS_GATHERED f.outs.length

/-- A bad row: the canonical NaN in every element of its output rows (R148). -/
def State.gatherBad (s : State) (c : Cmd) (f : Fetch) : State :=
  let p := rgPlane c.desc
  let pg := rookPg c.msq
  let s := match s.tbl c.desc.job f.table with
    | some t => s.gatherOut c f (List.replicate (t.planeLen p) (t.planeFmt p).nanCode) (t.planeFmt p).bytes
    | none => s
  ((s.count pg ROOK.BAD_ROWS 1).err pg ROOK.E_BAD_ROW c.q).mapCmd c.id fun c => { c with cfg := true }

/-- The output rows that a fetch fills; none in a table that is not defined. -/
def State.fetchRows (s : State) (c : Cmd) (f : Fetch) : Nat :=
  if (s.tbl c.desc.job f.table).isSome then f.outs.length else 0

/-- The undefined outputs of a gather that was ended (R152; log entry 6). -/
def State.gatherSpoil (s : State) (c : Cmd) : State := (s.rgOuts c.desc).foldl (fun s a => s.fillFree c.msq a) s

/-- A gather that ends while rows wait: the cycles they waited; those of rows at their owners may be none (R151). -/
def State.strictCount (s : State) (c : Cmd) : State :=
  match c.ctx with
  | .gather x =>
    if !x.wait.isEmpty || (!x.sent.isEmpty && rgPlane c.desc == 0 && !(s.stale1 c.desc.job)) then
      s.countFree (rookPg c.msq) ROOK.STRICT_WAIT_CYCLES
    else s
  | _ => s

/-- An uncorrectable row ends a gather, or with `dir` an uncorrectable directory bucket (R152, R184). -/
def State.gatherUe (s : State) (c : Cmd) (dir : Bool) : State :=
  let s := if dir then s else s.err (rookPg c.msq) ROOK.E_ROW_UE c.q
  let s := match s.cmd? c.id with
    | some c => (s.strictCount c).mapCmd c.id fun c => match c.ctx with
        | .gather x => { c with info0 := min x.rows 0xFFFFFFFF, info1 := min x.hits 0xFFFFFFFF }
        | _ => c
    | none => s
  ((s.gatherSpoil c).dropWaits c.id).endCmd c.id .guardUncorrectable

/-- A row has been read for a gather; what the region table refused of it reads zero and is recorded (R148, R290). -/
def State.gatherTake (s : State) (c : Cmd) (f : Fetch) (stale : Bool) (codes : List Nat) (world cfg : Bool) : State :=
  match s.tbl c.desc.job f.table with
  | some t =>
    let s := (s.recordMem c.id false world cfg).count (rookPg c.msq) ROOK.STALE_READS (b2n stale)
    s.gatherOut c f codes (t.planeFmt (rgPlane c.desc)).bytes
  | none => s.gatherBad c f

/-- Finish a gather that has every row (R148). -/
def State.gatherEnd (s : State) (c : Cmd) (x : GatherCtx) : State :=
  if x.todo.isEmpty && x.open_.isEmpty && x.sent.isEmpty && x.wait.isEmpty then
    s.mapCmd c.id fun c => { c with
      done := true, info0 := min x.rows 0xFFFFFFFF, info1 := min x.hits 0xFFFFFFFF }
  else s

/-- Send an open batch of reads. -/
def State.sendReads (s : State) (c : Cmd) (x : GatherCtx) (b : Nat × List Fetch) : State × GatherCtx :=
  let s := s.count64 (rookPg c.msq) ROOK.REMOTE_READS b.2.length
  (s.sendF0 c.msq b.1 c.desc.job (.readReq (s.orgOf c.msq c.q) c.id
     (b.2.map fun f => {
       table := f.table, node := f.node, plane := rgPlane c.desc, tag := f.tag, strict := f.strict.getD true })),
   { x with open_ := x.open_.filter (·.1 != b.1), sent := x.sent ++ b.2.map fun f => (b.1, f) })

/-- Remote rows asked for and not yet returned. -/
def GatherCtx.remote (x : GatherCtx) : Nat := x.sent.length + (x.open_.foldl (fun n b => n + b.2.length) 0)

/-- What one fetch comes to: done, ended by an uncorrectable row or, with `dir`, directory bucket, or held by a limit of
R150. -/
inductive FetchOut where
  | ok (s : State) (x : GatherCtx)
  | ue (s : State) (dir : Bool)
  | held (s : State)

/-- One row of a gather, with the merge hits that follow it (R148 to R150). -/
def State.gatherOne (s : State) (c : Cmd) (x : GatherCtx) (f : Fetch) : FetchOut :=
  let p := rgPlane c.desc
  let pg := rookPg c.msq
  let skip := { x with todo := x.todo.tail, hits := x.hits + f.hits }
  let took := { skip with rows := x.rows + s.fetchRows c f }
  let hit (s : State) : State := s.count64 pg ROOK.MERGE_HITS f.hits
  match s.planeKey c.desc.job f.table f.node p with
  | none => .ok ((hit s).gatherBad c f) took
  | some k =>
    if p ≠ 0 ∧ s.resolve k ≠ s.modId then .ok ((hit s).gatherBad c f) took
    else
      let here := s.servedHere true k p
      if here ∧ x.wait.length ≥ 1024 then .held (s.countFree pg ROOK.LOCAL_WAIT_CYCLES)
      else if !here ∧ x.remote ≥ 256 then .held (s.countFree pg ROOK.REMOTE_WAIT_CYCLES)
      else
        let (s, u) := (hit s).lookup k c.q
        -- a read that has started keeps its mode and is counted once (R187, R189)
        let strict := f.strict.getD (!(s.stale1 k.job))
        let s := if f.strict.isSome then s else s.wantRow k
        let f := { f with strict := some strict }
        if u then .ue s true
        else if here then
          match s.readRow (Req.command k.job c.q) strict true k p with
          | (s, .codes stale cs w e) => .ok (s.gatherTake c f stale cs w e) took
          | (s, .ue) => .ue s false
          | (s, .wait) => .ok (s.waitRow k p strict (.fetch c.id f)) { skip with wait := x.wait ++ [f] }
        else
          let m := s.resolve k
          let es := (SMap.find m x.open_).getD [] ++ [f]
          let y := { skip with open_ := (x.open_.filter (·.1 != m)) ++ [(m, es)] }
          if es.length ≥ 32 then let (s, y) := s.sendReads c y (m, es); .ok s y else .ok s y

/-- Go on with the rows of a gather until they are done or held, or one ends it: then whether a directory bucket did. -/
def State.gatherRows (s : State) (c : Cmd) (x : GatherCtx) : Nat → State × GatherCtx × Option Bool
  | 0 => (s, x, none)
  | n + 1 =>
    match x.todo with
    | [] => (s, x, none)
    | f :: _ =>
      match s.gatherOne c x f with
      | .ok s x => s.gatherRows c x n
      | .ue s dir => (s, x, some dir)
      | .held s => (s, x, none)

/-- Go on with a gather: rows, batches that have no more to take, its end (R148, R150). -/
def State.gatherPump (s : State) (id : Nat) : State :=
  match s.cmd? id with
  | none => s
  | some c =>
    if c.done then s
    else match c.ctx with
    | .gather x =>
      match s.gatherRows c x (x.todo.length + 1) with
      | (s, x, some dir) => (s.mapCmd id fun c => { c with ctx := .gather x }).gatherUe c dir
      | (s, x, none) =>
        let p := rgPlane c.desc
        let ahead := x.todo.filterMap fun f => (s.planeKey c.desc.job f.table f.node p).map s.resolve
        let (s, x) := (x.open_.filter fun b => !(ahead.contains b.1)).foldl
          (fun (a : State × GatherCtx) b => a.1.sendReads c a.2 b) (s, x)
        (s.mapCmd id fun c => { c with ctx := .gather x }).gatherEnd c x
    | _ => s

/-- One index of the merge of R149: what it fetches or hits. -/
structure MergeRun where
  /-- fetches so far -/
  out   : List Fetch := []
  /-- per index: the fetch it takes -/
  map   : List Nat := []
  /-- fetching indices of the window: index, row, fetch -/
  seen  : List (Nat × RowKey × Nat) := []

/-- Change fetch j of a list. -/
def mapFetch (j : Nat) (f : Fetch → Fetch) (l : List Fetch) : List Fetch :=
  (List.range l.length).filterMap fun i => (l[i]?).map fun x => if i = j then f x else x

/-- Index i, its table and node, and its row if it names one. -/
def MergeRun.step (r : MergeRun) (merge i table node : Nat) (k : Option RowKey) : MergeRun :=
  let u := r.out.length
  let row := if merge = 2 then u else i
  let hit := if merge = 0 then none else k.bind fun k => r.seen.find? fun x => x.2.1 == k && decide (i - x.1 ≤ 63)
  match hit with
  | some (_, _, v) =>
    { r with
      map := r.map ++ [v]
      out := mapFetch (u - 1) (fun f => { f with hits := f.hits + 1 })
        (if merge = 1 then mapFetch v (fun f => { f with outs := f.outs ++ [i] }) r.out else r.out) }
  | none =>
    { r with
      map := r.map ++ [u], out := r.out ++ [{ tag := row, table := table, node := node, outs := [row] }]
      seen := (r.seen.filter fun x => decide (i - x.1 < 63)) ++ (k.map fun k => (i, k, u)).toList }

/-- Run a ROOK_GATHER: merge its indices, then fetch (R146 to R152; log entry 21). -/
def State.gatherRun (s : State) (c : Cmd) : State :=
  let d := c.desc
  let (s, n, _) := s.rgUsed c
  let (s, idx, u) := s.rgIndices c n
  let r := (List.range idx.length).foldl (fun (r : MergeRun) i =>
    match idx[i]? with
    | some (t, node) => r.step (rgMerge d) i t node (s.planeKey d.job t node (rgPlane d))
    | none => r) {}
  let s := s.addCmd { c with ctx := .gather { todo := r.out } }
  if u then s.gatherUe c false
  else
    let s := if rgCompact d then
        (s.sqWrite c.msq (rgMap d) (elemBytes 4 r.map)).sqWrite c.msq (rgUcnt d) (leBytes 4 r.out.length)
      else s
    s.gatherPump c.id

/-- ROOK_GATHER fetches rows into square memory (R146 to R152). -/
def execRookGather (q : Nat) (d : Desc) (s : State) : Res := .next (s.command q d rgCheck State.gatherRun)

/-- ROOK_READ_BATCH_TIMEOUT: 128 cycles after its first entry an open read batch leaves (R150). -/
def execRookReadBatchTimeout (cmd target : Nat) (s : State) : Res :=
  .next (match s.cmd? cmd with
    | none => s
    | some c =>
      match c.ctx with
      | .gather x =>
        match SMap.find target x.open_ with
        | some es => let (s, x) := s.sendReads c x (target, es); s.mapCmd cmd fun c => { c with ctx := .gather x }
        | none => s
      | _ => s)

/-! ### Read requests and responses -/

/-- Answer reads to their requester. -/
def State.sendRows (s : State) (org : Org) (cmd job : Nat) (rows : List ReadRow) : State :=
  if rows.isEmpty then s else s.respond org job (.readRsp cmd rows)

/-- The row of a response. -/
def State.rowAnswer (s : State) (k : RowKey) (p tag : Nat) (waited : Bool) (r : RowRead) : Option ReadRow :=
  match r with
  | .codes stale cs world cfg =>
    some { tag := tag, status := if world then 0x0031 else if cfg then 0x0040 else 0, stale := stale, codes := cs,
           esz := ((s.keyTbl k).planeFmt p).bytes, waited := waited }
  | .ue => some { tag := tag, status := 0x0030, stale := false, codes := [], waited := waited }
  | .wait => none

/-- Serve one read entry; none when it waits (R148, R174, R187). A bad row has a status and no codes. -/
def State.serveRead (s : State) (job : Nat) (org : Org) (cmd : Nat) (e : ReadEntry) : State × Option ReadRow :=
  match s.planeKey job e.table e.node e.plane with
  | none => (s, some { tag := e.tag, status := 0x0040, stale := false, codes := [] })
  | some k =>
    let (s, r) := s.readRow (Req.board job org.q) e.strict false k e.plane
    match s.rowAnswer k e.plane e.tag false r with
    | some row => (s, some row)
    | none => (s.waitRow k e.plane e.strict (.read org cmd e.tag), none)

/-- A read request: rows served here are answered, the others passed on (R150, R183). -/
def State.onReadReq (s : State) (p : Pkt) : State :=
  match p.body with
  | .readReq org cmd es =>
    let job := p.hdr.job
    let r := s.sortReq org.q (fun e => s.planeKey job e.table e.node e.plane) (fun s k => s.resolveFor p.hdr.srcMod k) es
    let s := r.passOn job fun es => .readReq org cmd es
    let (s, rows) := r.mine.foldl (fun (a : State × List ReadRow) e =>
      let (s, r) := a.1.serveRead job org cmd e
      (s, a.2 ++ r.toList)) (s, r.ue.map fun e => { tag := e.tag, status := 0x0030, stale := false, codes := [] })
    s.sendRows org cmd job rows
  | _ => s

/-- Whether a returned row has the length its table has here (R174). -/
def State.rowFits (s : State) (c : Cmd) (f : Fetch) (r : ReadRow) : Bool :=
  match s.tbl c.desc.job f.table with
  | some t => r.codes.length == t.planeLen (rgPlane c.desc) && r.esz == (t.planeFmt (rgPlane c.desc)).bytes
  | none => false

/-- One row of a response reaches its gather; a hot row is asked for as a replica (R148, R151, R152, R191). -/
def State.gatherGot (s : State) (id src : Nat) (r : ReadRow) : State :=
  match s.cmd? id with
  | none => s
  | some c =>
    match c.ctx with
    | .gather x =>
      match x.sent.find? fun f => f.2.tag == r.tag with
      | none => s
      | some (t, f) =>
        if c.done then s
        else
          let got := { x with sent := x.sent.filter (· != (t, f)) }
          let took := { got with rows := x.rows + s.fetchRows c f }
          let s := if r.waited then s.countFree (rookPg c.msq) ROOK.STRICT_WAIT_CYCLES else s
          let put (x : GatherCtx) : State := s.mapCmd id fun c => { c with ctx := .gather x }
          if r.status = 0x0030 then (put got).gatherUe c false
          else if !(s.rowFits c f r) then (put took).gatherBad c f
          else
            let s := (put took).gatherTake c f r.stale r.codes (r.status == 0x0031) (r.status == 0x0040)
            match s.rowKey c.desc.job f.table f.node with
            | some k => s.maybeReplicate k src
            | none => s
    | _ => s

/-- A read response (R150). -/
def State.onReadRsp (s : State) (p : Pkt) : State :=
  match p.body with
  | .readRsp id rows => (rows.foldl (fun s r => s.gatherGot id p.hdr.srcMod r) s).gatherPump id
  | _ => s

/-! ## ROOK_SCATTER (Table 7.4) -/

def rsMode (d : Desc) : Nat := d.f 0 31 30
def rsHop (d : Desc) : Nat := d.f 0 29 26
def rsTable (d : Desc) : Nat := d.f 0 25 14
/-- TARGET 1: local slots. -/
def rsLocal (d : Desc) : Bool := d.bitB 0 13
def rsFmt (d : Desc) : Nat := d.f 0 12 10
def rsForeign (d : Desc) : Bool := d.bitB 0 9
def rsList (d : Desc) : Bool := rsMode d == 2
def rsIdx (d : Desc) : Nat := d.f 1 21 0
def rsCount (d : Desc) : Nat := d.f 2 31 12
def rsCntEn (d : Desc) : Bool := d.bitB 2 11
def rsG (d : Desc) : Nat := d.f 3 21 0
def rsStride (d : Desc) : Nat := 32 * d.f 4 31 16
def rsSlot (d : Desc) : Nat := d.f 4 15 0
def rsScale (d : Desc) : Nat := d.f 6 21 0
def rsCnt (d : Desc) : Nat := d.f 7 21 0

/-- Elements of a gradient row. -/
def State.rsLen (s : State) (d : Desc) : Nat :=
  if rsLocal d then d.f 2 10 0 else ((s.tbl d.job (rsTable d)).map Tbl.len).getD 0

/-- Bytes of a gradient row, and of its scales. -/
def State.rsRow (s : State) (d : Desc) : Nat := s.rsLen d * vxSize (rsFmt d)
def State.rsScales (s : State) (d : Desc) : Nat := if mxScaled (rsFmt d) then (s.rsLen d + 31) / 32 else 0

/-- Body errors of a scatter by its own fields (Table 7.2, R153). -/
def rsBodyBad (d : Desc) : Bool :=
  rsMode d == 3 || d.f 0 8 0 != 0 || (rsList d && d.f 1 31 22 != 0) || d.f 3 31 22 != 0 || d.f 6 31 22 != 0 ||
  d.f 7 31 22 != 0 || (!(rsList d) && rsHop d == 0) ||
  rsG d % 32 != 0 || (mxScaled (rsFmt d) && rsScale d % 32 != 0) || (rsList d && rsIdx d % 32 != 0) ||
  (rsCntEn d && (rsCnt d % 4 != 0 || !(inSqm (rsCnt d) 4)))

/-- The checks of R155 on the body alone. -/
def State.rsBad (s : State) (d : Desc) : Bool :=
  (!(rsLocal d) && !((s.tbl d.job (rsTable d)).any Tbl.emb)) || s.rsLen d == 0 || decide (s.rsLen d > 1024)

/-- The checks of R155 that need the count used. -/
def State.rsCountBad (s : State) (c : Cmd) (n : Nat) : Bool :=
  let d := c.desc
  (decide (n > 1) && decide (rsStride d < 32 * ((s.rsRow d + 31) / 32))) ||
  (!(rsList d) && decide (d.b 1 + n > s.reg (kntPg c.msq) KNT.PLOG_SIZE)) ||
  (rsLocal d && decide (rsSlot d + n * s.rsLen d > s.slotLimit c.msq)) ||
  (rsList d && !(inSqm (rsIdx d) (8 * n))) ||
  (rsMode d != 0 && (!(inSqm (rsG d) (rsStride d * (n - 1) + s.rsRow d)) || !(inSqm (rsScale d) (n * s.rsScales d))))

/-- The count a scatter uses, and whether reading it was uncorrectable. -/
def State.rsUsed (s : State) (c : Cmd) : State × Nat × Bool :=
  let d := c.desc
  if rsCntEn d then
    let n := s.readElems c.msq (rsCnt d) 4 1
    (n.st, min (rsCount d) ((n.codes[0]?).getD 0), !n.ue.isEmpty)
  else (s, rsCount d, false)

/-- ROOK_SCATTER's checks (R155). -/
def scatterCheck : Check where
  body _ c := firstOf [(rsCount c.desc == 0, .empty), (rsBodyBad c.desc, .configInvalid)]
  rest s c :=
  let d := c.desc
  if s.rsBad d then (s, some .configInvalid)
  else
    let (s, n, u) := s.rsUsed c
    if u then (s.err (rookPg c.msq) ROOK.E_ROW_UE c.q, some .guardUncorrectable)
    else if n = 0 then (s, some .empty)
    else if s.rsCountBad c n then (s, some .configInvalid)
    else (s, none)

/-- What record q of a scatter comes to (R156). -/
inductive ScatRec where
  /-- its node, its gradient row as an entry, whether its destination was split, SEG, and its address in the path log -/
  | send (node : Nat) (e : ScatterEntry) (split : Bool) (seg at_ : Nat)
  | bad
  | foreign
  | ue

/-- The gradient row of a record, at row index r. -/
def State.rsGrad (s : State) (c : Cmd) (node r : Nat) (split : Bool) (seg at_ : Nat) : State × ScatRec :=
  let d := c.desc
  let ga := rsG d + rsStride d * r
  let sa := rsScale d + s.rsScales d * r
  let n := s.rsLen d
  if !(inSqm ga (s.rsRow d)) || !(inSqm sa (s.rsScales d)) then (s, .bad)
  else if !(rsLocal d) && (s.rowKey d.job (rsTable d) node).isNone then (s, if rsForeign d then .foreign else .bad)
  else
    let g := s.readElems c.msq ga (vxSize (rsFmt d)) n
    let sc := g.st.readElems c.msq sa 1 (s.rsScales d)
    if !g.ue.isEmpty || !sc.ue.isEmpty then (sc.st, .ue)
    else (sc.st, .send node { table := rsTable d, node := node, fmt := rsFmt d, codes := g.codes, scales := sc.codes } split seg at_)

/-- Read record q (R154, R156): the path log is read for the command's job (R132). -/
def State.rsRecord (s : State) (c : Cmd) (x : ScatterCtx) (q : Nat) : State × ScatRec :=
  let d := c.desc
  if rsList d then
    let r := s.readElems c.msq (rsIdx d + 8 * q) 8 1
    if !r.ue.isEmpty then (r.st, .ue) else r.st.rsGrad c ((r.codes[0]?).getD 0) q false 0 0
  else
    let at_ := x.plog + 16 * (d.b 1 + q)
    let r := s.memRead (Req.command d.job c.q) at_ 16
    let s := r.st.recordMem c.id false r.world r.cfg
    let w := leNat r.data
    let l := bits w 31 0
    if !r.ue.isEmpty then (s, .ue)
    else if bits w 127 124 ≠ rsHop d ∨ (rsMode d = 0 ∧ l < d.b 5) then (s, .bad)
    else s.rsGrad c (bits w 79 32) (if rsMode d = 0 then l - d.b 5 else q) (bit w 117) (bits w 123 118) at_

/-- Bytes of the entries of an open batch. -/
def entriesBytes (es : List ScatterEntry) : Nat := es.foldl (fun n e => n + e.bytes) 0

/-- The key of an open batch: its target and the square that sends it. -/
def batchKey (target sq : Nat) : Nat := target * 512 + sq

/-- The batches that a command has sent and that are not acknowledged. -/
def Cmd.unacked (c : Cmd) : List SentBatch :=
  match c.ctx with
  | .scatter x => x.sent
  | .store x => x.sent
  | _ => []

/-- Whether a square may send one more batch: it has at most 64 unacknowledged, those it replays for others' commands among
them (R158). `sent`: those of command `id`. -/
def State.batchRoom (s : State) (id : Nat) (sent : List SentBatch) (sq : Nat) : Bool :=
  let all := sent ++ (s.cmds.filter fun c => c.id != id && !c.done).flatMap Cmd.unacked
  decide ((all.filter fun b => b.sq == sq).length < 64)

/-- Send an open batch of entries. -/
def State.sendScatter (s : State) (c : Cmd) (x : ScatterCtx) (b : Nat × List ScatterEntry) : State × ScatterCtx :=
  let m := b.1 / 512
  let sq := b.1 % 512
  (s.sendF0 sq m c.desc.job (.scatter (s.orgOf sq c.q) c.id x.tok b.2),
   { x with open_ := x.open_.filter (·.1 != b.1), tok := x.tok + 1
            sent := x.sent ++ [{ tok := x.tok, target := m, left := b.2.length, sq := sq }] })

/-- Send an open batch if its square may send one (R158). -/
def State.trySendScatter (s : State) (c : Cmd) (x : ScatterCtx) (b : Nat × List ScatterEntry) : State × ScatterCtx :=
  if s.batchRoom c.id x.sent (b.1 % 512) then s.sendScatter c x b else (s, x)

/-- The square that replays a record: for a split destination the one that ran its segment when it was logged; for a record
that no sampling here has logged one the device chooses (R157; log entry 48). -/
def State.replaySquare (s : State) (c : Cmd) (split : Bool) (seg at_ : Nat) : Nat × State :=
  if split && seg != 0 then
    match s.rook.findSome? fun p => SMap.find at_ p.2.ran with
    | some m => (m, s)
    | none =>
      let (o, s) := s.dieOthers c.desc.job c.msq
      ((o[seg - 1]?).getD c.msq, s)
  else (c.msq, s)

/-- What one entry of a scatter or store comes to: taken, held for want of a batch, or the command ended by a directory
bucket uncorrectable in both copies (R184). -/
inductive SendOut (α : Type) where
  | ok (s : State) (x : α)
  | held (s : State)
  | ue (s : State)

/-- Send one entry from a square: into local slots, to the row's receiving square here, or into the batch of its owner; held
when that batch is full and 64 of the square's are unacknowledged (R158). -/
def State.scatterOne (s : State) (c : Cmd) (x : ScatterCtx) (q node : Nat) (e : ScatterEntry) (sq : Nat) : SendOut ScatterCtx :=
  let d := c.desc
  let next := { x with todo := q + 1 }
  if rsLocal d then .ok (s.addElems c.msq (rsSlot d + q * s.rsLen d) ⟨c.id, c.q⟩ e) next
  else match s.rowKey d.job (rsTable d) node with
    | none => .ok s next
    | some k =>
      let m := s.resolve k
      let key := batchKey m sq
      let es := (SMap.find key x.open_).getD []
      let full := !es.isEmpty && decide (entriesBytes es + e.bytes > 4096)
      if m ≠ s.modId ∧ full ∧ s.batchRoom c.id x.sent sq = false then .held s
      else
        let (s, u) := s.lookup k c.q
        if u then .ue s
        else
          let s := s.count64 (rookPg sq) ROOK.ROWS_SENT 1
          let next := { next with count := x.count + 1 }
          if m = s.modId then
            let took := { next with keys := if x.keys.contains k then x.keys else x.keys ++ [k] }
            match s.ownEntry ⟨c.id, c.q⟩ k e with
            | (s, .kept) => .ok s took
            | (s, .held) => .ok s { took with held := x.held + 1 }
            | (s, .lost st) => .ok (s.recordMem c.id false (st == .worldViolation) (st == .configInvalid)) next
          else
            let (s, next) := if full then s.sendScatter c next (key, es) else (s, next)
            let es := if full then [e] else es ++ [e]
            .ok s { next with open_ := (next.open_.filter (·.1 != key)) ++ [(key, es)] }

/-- Replay records until they are done or held, or an uncorrectable word ends the command: then whether it was in the
directory. -/
def State.scatterRecs (s : State) (c : Cmd) (x : ScatterCtx) : Nat → State × ScatterCtx × Option Bool
  | 0 => (s, x, none)
  | f + 1 =>
    if x.todo ≥ x.n then (s, x, none)
    else
      let pg := rookPg c.msq
      let next := { x with todo := x.todo + 1, skip := x.skip + 1 }
      match s.rsRecord c x x.todo with
      | (s, .ue) => (s, x, some false)
      | (s, .bad) =>
        (((s.count pg ROOK.BAD_RECORDS 1).err pg ROOK.E_BAD_RECORD c.q).mapCmd c.id
          fun c => { c with cfg := true }).scatterRecs c next f
      | (s, .foreign) => (s.count pg ROOK.FOREIGN_SKIPS 1).scatterRecs c next f
      | (s', .send node e split seg at_) =>
        let (sq, s') := s'.replaySquare c split seg at_
        match s'.scatterOne c x x.todo node e sq with
        | .ok s x => s.scatterRecs c x f
        | .held _ => (s, x, none)
        | .ue s => (s, x, some true)

/-- Modules whose rows records still to come name. -/
def State.scatterAhead (s : State) (c : Cmd) (x : ScatterCtx) : List Nat :=
  if x.todo ≥ x.n then []
  else (List.range (x.n - x.todo)).filterMap fun i =>
    match (s.rsRecord c x (x.todo + i)).2 with
    | .send node .. => (s.rowKey c.desc.job (rsTable c.desc) node).map s.resolve
    | _ => none

/-- A scatter with nothing left completes once its addends are absorbed, its batches acknowledged and the notices of its
rows here answered (R159, R186). -/
def State.scatterEnd (s : State) (c : Cmd) (x : ScatterCtx) : State :=
  if x.todo ≥ x.n ∧ x.open_.isEmpty ∧ x.sent.isEmpty ∧ x.held = 0 ∧ s.noticesIn x.keys ∧ s.scsBusyAny c.id = false then
    s.mapCmd c.id fun c => { c with
      done := true, info0 := min x.count 0xFFFFFFFF, info1 := min x.skip 0xFFFFFFFF }
  else s

/-- A narrow entry of a free value (log entry 26). -/
def State.freeSlot (s : State) (msq slot : Nat) : State :=
  let (n, s) := s.draw
  (s.releaseGroup msq slot).writeNarrow msq slot (tagOf (n / 2 ^ 122 % 8)) (((n / 2 ^ 112 % 513 : Nat) : Int) - 312)
    (ofTwos 112 (n % 2 ^ 112))

def State.freeSlots (s : State) (msq : Nat) (slots : List Nat) : State := slots.foldl (fun s x => s.freeSlot msq x) s

/-- The slots of rows of a table that a scatter may have targeted here (log entry 26). -/
def State.freeTouched (s : State) (job table : Nat) : State :=
  s.rook.foldl (fun s p =>
    (p.2.ents.filter fun e => e.key.job == job && e.key.table == table).foldl (fun s e =>
      s.freeSlots p.1 ((List.range e.len).map fun j => e.slot + j)) s) s

/-- The slots that a scatter which is ended has targeted are undefined (R152, R159). -/
def State.scatterSpoil (s : State) (c : Cmd) : State :=
  let d := c.desc
  let n := match c.ctx with
    | .scatter x => x.n
    | _ => rsCount d
  if rsLocal d then s.freeSlots c.msq ((List.range (n * s.rsLen d)).map fun j => rsSlot d + j)
  else s.freeTouched d.job (rsTable d)

/-- An uncorrectable word ends a scatter, or with `dir` one of the directory (R159, R184). -/
def State.scatterUe (s : State) (c : Cmd) (x : ScatterCtx) (dir : Bool) : State :=
  let s := if dir then s else s.err (rookPg c.msq) ROOK.E_ROW_UE c.q
  ((s.scatterSpoil c).mapCmd c.id fun c => { c with
    ctx := .scatter x, info0 := min x.count 0xFFFFFFFF, info1 := min x.skip 0xFFFFFFFF }).endCmd c.id .guardUncorrectable

/-- Go on with a scatter. -/
def State.scatterPump (s : State) (id : Nat) : State :=
  match s.cmd? id with
  | none => s
  | some c =>
    if c.done then s
    else match c.ctx with
    | .scatter x =>
      match s.scatterRecs c x (x.n - x.todo) with
      | (s, x, some dir) => s.scatterUe c x dir
      | (s, x, none) =>
        let ahead := s.scatterAhead c x
        let (s, x) := (x.open_.filter fun b => !(ahead.contains (b.1 / 512))).foldl
          (fun (a : State × ScatterCtx) b => a.1.trySendScatter c a.2 b) (s, x)
        (s.mapCmd id fun c => { c with ctx := .scatter x }).scatterEnd c x
    | _ => s

/-- Start a ROOK_SCATTER: it latches the path log (R154). -/
def State.scatterRun (s : State) (c : Cmd) : State :=
  let (s, n, _) := s.rsUsed c
  (s.addCmd { c with ctx := .scatter { plog := s.reg (kntPg c.msq) KNT.PLOG_BASE, n := n } }).scatterPump c.id

/-- ROOK_SCATTER replays the records of one hop (R153 to R159). -/
def execRookScatter (q : Nat) (d : Desc) (s : State) : Res := .next (s.command q d scatterCheck State.scatterRun)

/-! ## Stores and loads at the owner (R168, R175, R178) -/

/-- A new adjacency row of a table with SHADOW goes to the twin's image; the load waits for its acknowledgement (R378).
The Boolean tells that it waits. -/
def State.shadowAdj (s : State) (id : Nat) (k : RowKey) : State × Bool :=
  if !(s.keyTbl k).shadow then (s, false)
  else if s.shadowTwin then
    let item := ShadowItem.adj k (s.row k).adj
    let s := (s.plcSend s.twinId k.job (.shadowWrite id k.job 0 false item)).count64 bndPg BND.SHADOW_BYTES (shadowBytes item)
    ({ s with twinSt := { s.twinSt with adjWaits := s.twinSt.adjWaits ++ [id] } }, true)
  else (s.count bndPg BND.SHADOW_SKIPPED 1, false)

/-- What became of an entry at its owner: written, with the waits it leaves; not written, with what that makes its command
complete with; to be written later. -/
inductive StoreOut where
  | written (waits : Nat)
  | lost (st : Status)
  | later

/-- Whether an entry fits its row's table as this module defines it (R174). -/
def State.storeFits (s : State) (k : RowKey) (e : StoreEntry) : Bool :=
  let t := s.keyTbl k
  if t.emb then
    t.hasPlane e.plane && e.codes.length == t.planeLen e.plane && e.esz == (t.planeFmt e.plane).bytes
  else e.codes.isEmpty

/-- Write an entry of a row served here for a command or batch; between flip and transfer it waits (Table 8.5). -/
def State.storeHere (s : State) (req : Req) (id : Nat) (k : RowKey) (e : StoreEntry) : State × StoreOut :=
  if s.flipped k then (s.waitRow k e.plane false (.store id e), .later)
  else if !(s.storeFits k e) then (s, .lost .configInvalid)
  else
    let r := s.storeEntry req k e
    if r.world then (r.st, .lost .worldViolation)
    else if r.full || r.cfg then (r.st, .lost .configInvalid)
    else if (s.keyTbl k).emb || e.part == 1 || e.part == 2 then (r.st, .written 0)
    else
      let (s, w) := r.st.shadowAdj id k
      (s, .written (b2n w))

/-- A publishing store clears the row's mark and marks its touch entry (R167). -/
def State.publish (s : State) (c : Cmd) (k : RowKey) : State :=
  if c.desc.opcode = 0x52 ∧ rgPublish c.desc ∧ rgPlane c.desc = 0 then
    let s := s.clearMark k
    if rgTouch c.desc then
      match s.touchIdx c.msq k with
      | some i => match (s.rk c.msq).ents[i]? with
        | some t => s.setTouch c.msq i { t with published := true }
        | none => s
      | none => s
    else s
  else s

/-- Bytes of a store entry in a batch. -/
def storeBytes (size : Nat) (e : StoreEntry) : Nat :=
  16 + (if e.codes.isEmpty then 16 + 16 * e.adj.length else (size * e.codes.length + 15) / 16 * 16)

/-- Send an open batch of rows. -/
def State.sendStores (s : State) (c : Cmd) (x : StoreCtx) (b : Nat × List StoreEntry) : State × StoreCtx :=
  let m := b.1 / 512
  (s.sendF0 c.msq m c.desc.job (.store (s.orgOf c.msq c.q) c.id x.tok b.2),
   { x with open_ := x.open_.filter (·.1 != b.1), tok := x.tok + 1
            sent := x.sent ++ [{ tok := x.tok, target := m, left := b.2.length, sq := c.msq }] })

/-- Send an open batch if the square may send one (R158, R175). -/
def State.trySendStores (s : State) (c : Cmd) (x : StoreCtx) (b : Nat × List StoreEntry) : State × StoreCtx :=
  if s.batchRoom c.id x.sent c.msq then s.sendStores c x b else (s, x)

/-- A bad row of a store or load: not written (R145, R168). -/
def State.storeBad (s : State) (c : Cmd) : State :=
  let pg := rookPg c.msq
  ((s.count pg ROOK.BAD_ROWS 1).err pg ROOK.E_BAD_ROW c.q).mapCmd c.id fun c => { c with cfg := true }

/-- One entry of a store or load; held when its batch is full and 64 are unacknowledged (R158, R168, R175). -/
def State.storeOne (s : State) (c : Cmd) (x : StoreCtx) (e : StoreEntry) : SendOut StoreCtx :=
  let load := c.desc.opcode == 0x61
  let next := { x with todo := x.todo.tail }
  let bad (s : State) : SendOut StoreCtx := .ok (s.storeBad c) { next with bad := x.bad + 1 }
  match s.rowKey c.desc.job e.table e.node with
  | none => bad s
  | some k =>
    let m := s.resolve k
    if (s.keyTbl k).emb && !((s.keyTbl k).hasPlane e.plane) then bad s
    else if m = s.modId then
      let (s, u) := s.lookup k c.q
      if u then .ue s
      else match s.storeHere (Req.command k.job c.q) c.id k e with
      | (s, .later) => .ok s { next with wait := x.wait + 1 }
      | (s, .lost st) =>
        .ok (s.recordMem c.id false (st == .worldViolation) (st == .configInvalid)) { next with bad := x.bad + 1 }
      | (s, .written w) => .ok (s.publish c k) { next with rows := x.rows + 1, wait := x.wait + w }
    else if !load then bad s
    else
      let size := ((s.keyTbl k).planeFmt e.plane).bytes
      let key := batchKey m c.msq
      let es := (SMap.find key x.open_).getD []
      let full := !es.isEmpty && decide ((es.foldl (fun n e => n + storeBytes size e) 0) + storeBytes size e > 4096)
      if full ∧ s.batchRoom c.id x.sent c.msq = false then .held s
      else
        let (s, u) := s.lookup k c.q
        if u then .ue s
        else
          let (s, next) := if full then s.sendStores c next (key, es) else (s, next)
          let es := if full then [e] else es ++ [e]
          .ok s { next with open_ := (next.open_.filter (·.1 != key)) ++ [(key, es)] }

/-- Go on with the rows of a store or load until they are done or held, or a directory bucket ends the command (true). -/
def State.storeRows (s : State) (c : Cmd) (x : StoreCtx) : Nat → State × StoreCtx × Bool
  | 0 => (s, x, false)
  | f + 1 =>
    match x.todo with
    | [] => (s, x, false)
    | e :: _ =>
      match s.storeOne c x e with
      | .ok s x => s.storeRows c x f
      | .held _ => (s, x, false)
      | .ue s => (s, x, true)

/-- Free values in place of a list's items. -/
def State.freeCodes (s : State) (mod_ : Nat) (l : List Nat) : State × List Nat :=
  let (vs, s) := s.drawN l.length
  (s, vs.map (· % mod_))

/-- A row that a store or load targets, if it is owned here: what was stored of its plane, or its edges, are free values; the
step-start copy is made as for any store (R152, R180, R243). -/
def State.freeRow (s : State) (job : Nat) (e : StoreEntry) : State :=
  match s.rowKey job e.table e.node with
  | none => s
  | some k =>
    if s.resolve k ≠ s.modId ∨ s.flipped k then s
    else
      let t := s.keyTbl k
      if t.emb then
        if t.hasPlane e.plane then
          let (s, codes) := s.freeCodes (2 ^ (8 * (t.planeFmt e.plane).bytes)) (t.codes (s.row k).planes e.plane)
          (s.storePlane (Req.command job) k e.plane codes []).st
        else s
      else
        let (n, s) := s.draw
        let (s, v) := s.freeCodes (2 ^ 160) (List.replicate (if n % 2 = 0 then e.adj.length else (s.row k).adj.edges.length) 0)
        let edges : List Edge := v.map fun x => { nbr := x % 2 ^ 48, time := x / 2 ^ 64 % 2 ^ 32, eval := x / 2 ^ 96 % 2 ^ 32 }
        (s.storeAdj (Req.command job) k edges [] (s.row k).asm).st

/-- The rows that a store or load which is ended has targeted are undefined (R152, R243). -/
def State.storeSpoil (s : State) (c : Cmd) (x : StoreCtx) : State := x.targets.foldl (fun s e => s.freeRow c.desc.job e) s

/-- An uncorrectable index list or directory bucket ends a store or load (R152, R184). -/
def State.storeUe (s : State) (c : Cmd) (x : StoreCtx) : State :=
  (((s.storeSpoil c x).dropWaits c.id).mapCmd c.id fun c => { c with
    ctx := .store x, info0 := min x.rows 0xFFFFFFFF, info1 := min x.bad 0xFFFFFFFF }).endCmd c.id .guardUncorrectable

/-- Finish a store or load that has nothing outstanding. -/
def State.storeEnd (s : State) (c : Cmd) (x : StoreCtx) : State :=
  if x.todo.isEmpty && x.open_.isEmpty && x.sent.isEmpty && x.wait == 0 then
    s.mapCmd c.id fun c => { c with
      done := true, info0 := min x.rows 0xFFFFFFFF, info1 := min x.bad 0xFFFFFFFF }
  else s

/-- Go on with a store or load. -/
def State.storePump (s : State) (id : Nat) : State :=
  match s.cmd? id with
  | none => s
  | some c =>
    if c.done then s
    else match c.ctx with
    | .store x =>
      match s.storeRows c x x.todo.length with
      | (s, x, true) => s.storeUe c x
      | (s, x, false) =>
        let ahead := x.todo.filterMap fun e => (s.rowKey c.desc.job e.table e.node).map s.resolve
        let (s, x) := (x.open_.filter fun b => !(ahead.contains (b.1 / 512))).foldl
          (fun (a : State × StoreCtx) b => a.1.trySendStores c a.2 b) (s, x)
        (s.mapCmd id fun c => { c with ctx := .store x }).storeEnd c x
    | _ => s

/-- Start a store or load of entries; an uncorrectable index list ends it (R152; log entry 21), an uncorrectable source
row is recorded and written with its marker (R275). -/
def State.storeStart (s : State) (c : Cmd) (es : List StoreEntry) (listUe : Bool) : State :=
  let pg := rookPg c.msq
  let bad := es.any fun e => !e.ue.isEmpty
  let x : StoreCtx := { todo := es, targets := es }
  let s := s.addCmd { c with ue := bad, ctx := .store x }
  let s := if listUe || bad then s.err pg ROOK.E_ROW_UE c.q else s
  if listUe then s.storeUe c x else s.storePump c.id

/-- A plane of a row from square memory, as an entry: the words that are uncorrectable keep their place, since source and row
both begin at a word. -/
def State.planeEntry (s : State) (c : Cmd) (tb : Tbl) (table node plane a : Nat) : State × StoreEntry :=
  let size := (tb.planeFmt plane).bytes
  let r := s.sqRead c.msq a (size * tb.planeLen plane)
  (r.st, { table := table, node := node, plane := plane, part := 0, codes := elems size r.data, adj := [], esz := size,
           ue := r.ue.map fun w => w - sqmAddr c.msq a / 16 })

/-- Run a ROOK_STORE (R168). -/
def State.rookStoreRun (s : State) (c : Cmd) : State :=
  let d := c.desc
  let p := rgPlane d
  let (s, n, _) := s.rgUsed c
  let (s, idx, u) := s.rgIndices c n
  let (s, es) := (List.range idx.length).foldl (fun (a : State × List StoreEntry) i =>
    let (t, node) := (idx[i]?).getD (0, 0)
    match a.1.tbl d.job t with
    | some tb => let (s, e) := a.1.planeEntry c tb t node p (rgOut d + rgStride d * i); (s, a.2 ++ [e])
    | none => (a.1, a.2 ++ [{ table := t, node := node, plane := p, part := 0, codes := [], adj := [] }])) (s, [])
  s.storeStart c es u

/-- ROOK_STORE writes rows from square memory into rows that this module owns (R167, R168). -/
def execRookStore (q : Nat) (d : Desc) (s : State) : Res := .next (s.command q d rgCheck State.rookStoreRun)

/-! ### PLC_LOAD (Table 8.2) -/

def plTable (d : Desc) : Nat := d.f 0 31 20
def plPlane (d : Desc) : Nat := d.f 0 19 18
def plPart (d : Desc) : Nat := d.f 0 17 16
def plIdx (d : Desc) : Nat := d.f 1 21 0
def plSrc (d : Desc) : Nat := d.f 2 21 0
def plStride (d : Desc) : Nat := 32 * d.f 3 31 16
def plCount (d : Desc) : Nat := d.f 4 31 12

/-- The edges of a row image after its header (Table 6.2). -/
def imageEdges (bs : List Byte) : List Edge :=
  (chunks 16 bs).map fun b =>
    { nbr := leNat (b.take 6), time := leNat ((b.drop 8).take 4), eval := leNat ((b.drop 12).take 4) }

/-- The row images from an address, each padded to a multiple of 32 bytes: their edges and their uncorrectable words; none when one runs past the end of square memory or carries FLAGS (R120, R175). -/
def State.loadImages (s : State) (msq : Nat) : Nat → Nat → State × Option (List (List Edge × List Nat))
  | 0, _ => (s, some [])
  | n + 1, a =>
    if !(inSqm a 16) then (s, none)
    else
      let h := s.sqRead msq a 16
      let deg := leNat (h.data.take 4)
      if !(inSqm a (16 + 16 * deg)) || ((h.data.drop 4).any fun b => b != 0) then (h.st, none)
      else
        let r := h.st.sqRead msq (a + 16) (16 * deg)
        match r.st.loadImages msq n (a + 32 * ((16 + 16 * deg + 31) / 32)) with
        | (s, some l) => (s, some ((imageEdges r.data, (h.ue ++ r.ue).map fun w => w - sqmAddr msq a / 16) :: l))
        | (s, none) => (s, none)

/-- PLC_LOAD's checks on the body (R175, R147). -/
def State.loadBad (s : State) (d : Desc) : Bool :=
  match s.tbl d.job (plTable d) with
  | none => true
  | some t =>
    if t.emb then
      plPart d != 0 || !(t.hasPlane (plPlane d)) ||
      (decide (plCount d > 1) && decide (plStride d < 32 * ((t.planeBytes (plPlane d) + 31) / 32))) ||
      !(inSqm (plSrc d) (plStride d * (plCount d - 1) + t.planeBytes (plPlane d)))
    else plPlane d != 0

/-- Body errors of a PLC_LOAD by its own fields (Table 8.3, R175). -/
def loadBodyBad (d : Desc) : Bool :=
  d.f 0 15 0 != 0 || d.f 1 31 22 != 0 || d.f 2 31 22 != 0 || d.f 3 15 0 != 0 || d.f 4 11 0 != 0 || !(d.zeroWords [5, 6, 7]) ||
  packedBad (plIdx d) (8 * plCount d) || plSrc d % 32 != 0 || (plPart d != 0 && decide (plCount d > 1))

/-- Whether PLC_LOAD names an adjacency table. -/
def State.loadAdj (s : State) (d : Desc) : Bool := (s.tbl d.job (plTable d)).any fun t => !t.emb

/-- PLC_LOAD's checks; images are read to see that they lie in square memory (R175). -/
def loadCheck : Check where
  body _ c := firstOf [(plCount c.desc == 0, .empty), (loadBodyBad c.desc, .configInvalid)]
  rest s c :=
  let d := c.desc
  if !s.plcReady || s.loadBad d then (s, some .configInvalid)
  else if s.loadAdj d then
    match s.loadImages c.msq (plCount d) (plSrc d) with
    | (s, some _) => (s, none)
    | (s, none) => (s, some .configInvalid)
  else (s, none)

/-- Run a PLC_LOAD (R175). -/
def State.plcLoadRun (s : State) (c : Cmd) : State :=
  let d := c.desc
  let n := plCount d
  let idx := s.readElems c.msq (plIdx d) 8 n
  let node (i : Nat) : Nat := (idx.codes[i]?).getD 0
  if idx.st.loadAdj d then
    let (s, l) := idx.st.loadImages c.msq n (plSrc d)
    let l := l.getD []
    s.storeStart c ((List.range n).map fun i =>
      let x := (l[i]?).getD ([], [])
      { table := plTable d, node := node i, plane := 0, part := plPart d, codes := [], adj := x.1, ue := x.2 }) (!idx.ue.isEmpty)
  else
    match idx.st.tbl d.job (plTable d) with
    | none => idx.st.storeStart c [] false
    | some t =>
      let p := plPlane d
      let (s, es) := (List.range n).foldl (fun (a : State × List StoreEntry) i =>
        let (s, e) := a.1.planeEntry c t (plTable d) (node i) p (plSrc d + plStride d * i)
        (s, a.2 ++ [e])) (idx.st, [])
      s.storeStart c es (!idx.ue.isEmpty)

/-- PLC_LOAD writes rows from square memory into their owners (R175). -/
def execPlcLoad (q : Nat) (d : Desc) (s : State) : Res := .next (s.command q d loadCheck State.plcLoadRun)

/-- ROOK_SCATTER_BATCH_TIMEOUT: 128 cycles after its first entry an open batch of a scatter or load for a module leaves, if
its square may send one (R158, R175). -/
def execRookScatterBatchTimeout (cmd target : Nat) (s : State) : Res :=
  .next (match s.cmd? cmd with
    | none => s
    | some c =>
      match c.ctx with
      | .scatter x =>
        let (s, x) := (x.open_.filter fun b => b.1 / 512 == target).foldl
          (fun (a : State × ScatterCtx) b => a.1.trySendScatter c a.2 b) (s, x)
        s.mapCmd cmd fun c => { c with ctx := .scatter x }
      | .store x =>
        let (s, x) := (x.open_.filter fun b => b.1 / 512 == target).foldl
          (fun (a : State × StoreCtx) b => a.1.trySendStores c a.2 b) (s, x)
        s.mapCmd cmd fun c => { c with ctx := .store x }
      | _ => s)

/-! ### STORE packets and acknowledgements -/

/-- A STORE: rows served here are written, the others passed on; acknowledged when none waits (R175, R183). -/
def State.onStore (s : State) (p : Pkt) : State :=
  match p.body with
  | .store org cmd tok es =>
    let job := p.hdr.job
    let r := s.sortReq org.q (fun e => s.rowKey job e.table e.node) (fun s k => s.resolveFor p.hdr.srcMod k) es
    let s := r.passOn job fun es => .store org cmd tok es
    if r.mine.isEmpty && r.ue.isEmpty then s
    else
      let (id, s) := s.freshId
      let b : InBatch := { id := id, job := job, org := org, cmd := cmd, tok := tok, n := r.mine.length + r.ue.length }
      let b := r.ue.foldl (fun b _ => InBatch.lose b .guardUncorrectable) b
      let (s, b) := r.mine.foldl (fun (a : State × InBatch) e =>
        let (s, b) := a
        match s.rowKey job e.table e.node with
        | none => (s, b.lose .configInvalid)
        | some k =>
          match s.storeHere (Req.board job org.q) id k e with
          | (s, .later) => (s, { b with left := b.left + 1 })
          | (s, .lost st) => (s, b.lose st)
          | (s, .written w) => (s, { b with left := b.left + w })) (s, b)
      (s.setPlc { s.plc with batches := s.plc.batches ++ [b] }).pumpBatches
  | _ => s

/-- A batch's entries are retired by an acknowledgement. -/
def retireBatch (tok n : Nat) (l : List SentBatch) : List SentBatch :=
  (l.map fun b => if b.tok = tok then { b with left := b.left - n } else b).filter fun b => b.left != 0

/-- What the status of an acknowledgement records (R160, R162, R290). -/
def Cmd.acked (c : Cmd) (status : Nat) : Cmd :=
  { c with world := c.world || status == 0x0031, cfg := c.cfg || (status != 0 && status != 0x0031 && status != 0x0030) }

/-- An acknowledgement of a batch, or of those of its entries that one module kept; a directory bucket uncorrectable there
ends the command (R159, R160, R162, R184). -/
def State.onWriteAck (s : State) (p : Pkt) : State :=
  match p.body with
  | .writeAck id tok status n bad =>
    match s.cmd? id with
    | none => s
    | some c =>
      if c.done then s
      else match c.ctx with
      | .scatter x =>
        if x.sent.any fun b => b.tok == tok then
          let x := { x with sent := retireBatch tok n x.sent }
          if status = 0x0030 then s.scatterUe c x true
          else (s.mapCmd id fun c => { c.acked status with ctx := .scatter x }).scatterPump id
        else s
      | .store x =>
        if x.sent.any fun b => b.tok == tok then
          let x := { x with sent := retireBatch tok n x.sent, rows := x.rows + (n - bad), bad := x.bad + bad }
          if status = 0x0030 then s.storeUe c x
          else (s.mapCmd id fun c => { c.acked status with ctx := .store x }).storePump id
        else s
      | _ => s
  | _ => s

/-! ## Entries held while a drain ran (R166) -/

/-- An entry that was held is taken now, for its batch or command. -/
def State.heldEntry (s : State) (msq : Nat) (h : HeldEntry) : State :=
  let (s, out) := s.takeEntry msq ⟨h.id, h.q⟩ h.key h.entry
  let st := match out with
    | .lost st => some st
    | _ => none
  if s.plc.batches.any fun b => b.id == h.id then
    s.mapBatch h.id fun b =>
      let b := { b with left := b.left - 1 }
      match st with
      | some st => b.lose st
      | none => b
  else
    (s.mapCmd h.id fun c =>
      let c := { c with world := c.world || st == some Status.worldViolation, cfg := c.cfg || st == some Status.configInvalid }
      match c.ctx with
      | .scatter x => { c with ctx := .scatter { x with held := x.held - 1 } }
      | _ => c).scatterPump h.id

/-- A square on which no drain runs any more takes the entries held there, in the order they came (R166). -/
def State.releaseHeld (s : State) (msq : Nat) : State :=
  let l := (s.rk msq).held
  if l.isEmpty || s.draining msq then s
  else (l.foldl (fun s h => s.heldEntry msq h) (s.setRk msq { s.rk msq with held := [] })).pumpBatches

/-- Every square that may takes the entries it held. -/
def State.releaseAll (s : State) : State := (s.rook.map (·.1)).foldl State.releaseHeld s

/-! ## Waits that end (R187, Table 8.5) -/

/-- One wait of a store or batch has ended: the entry was not written (why), or it was, or only its shadow was awaited. -/
def State.storeDone (s : State) (id rows : Nat) (lost : Option Status) (more : Nat) : State :=
  if s.plc.batches.any fun b => b.id == id then
    (s.mapBatch id fun b =>
      let b := { b with left := b.left - 1 + more }
      match lost with
      | some st => b.lose st
      | none => b).pumpBatches
  else
    (s.mapCmd id fun c => match c.ctx with
      | .store x => { c with
          world := c.world || lost == some .worldViolation, cfg := c.cfg || lost == some .configInvalid
          ctx := .store { x with wait := x.wait - 1 + more, rows := x.rows + rows, bad := x.bad + b2n lost.isSome } }
      | _ => c).storePump id

/-- Whether the row of a wait is served here still. -/
def State.waitHere (s : State) (w : RowWait) : Bool :=
  match w.who with
  | .fetch _ _ => s.servedHere true w.key w.plane
  | _ => s.servedHere false w.key w.plane

/-- Whether a wait may end now, its read as it began (R187). -/
def State.waitOver (s : State) (w : RowWait) : Bool :=
  match w.who with
  | .store _ _ => !(s.flipped w.key)
  | .fetch _ _ => !(s.readWaits w.strict w.key w.plane (s.replicaSlot w.key w.plane).isSome)
  | .read .. => !(s.readWaits w.strict w.key w.plane false)

/-- Serve one wait. -/
def State.serveWait (s : State) (w : RowWait) : State :=
  match w.who with
  | .fetch id f =>
    match s.cmd? id with
    | none => s
    | some c =>
      match c.ctx with
      | .gather x =>
        if c.done then s
        else
          let s := (s.mapCmd id fun c => { c with ctx := .gather { x with
            wait := x.wait.filter (· != f), rows := x.rows + s.fetchRows c f } }).countFree (rookPg c.msq) ROOK.STRICT_WAIT_CYCLES
          match s.readRow (Req.command w.key.job c.q) w.strict true w.key w.plane with
          | (s, .codes stale cs world cfg) => (s.gatherTake c f stale cs world cfg).gatherPump id
          | (s, .ue) => s.gatherUe c false
          | (s, .wait) => s
      | _ => s
  | .read org cmd tag =>
    let (s, r) := s.readRow (Req.board w.key.job org.q) w.strict false w.key w.plane
    s.sendRows org cmd w.key.job (s.rowAnswer w.key w.plane tag true r).toList
  | .store id e =>
    let req := match s.cmd? id with
      | some c => Req.command w.key.job c.q
      | none => Req.board w.key.job (((s.plc.batches.find? fun b => b.id == id).map fun b => b.org.q).getD 0)
    match s.storeHere req id w.key e with
    | (s, .written n) =>
      let s := match s.cmd? id with
        | some c => s.publish c w.key
        | none => s
      s.storeDone id 1 none n
    | (s, .lost st) => s.storeDone id 0 (some st) 0
    | (s, .later) => s

/-- A wait whose row is served elsewhere now, its replica or its migration gone, goes there: a gather resolves it anew, a
request from elsewhere is passed on, a store is written where the row is (R20, R183, R195). -/
def State.moveWait (s : State) (w : RowWait) : State :=
  match w.who with
  | .fetch id f =>
    let s := match s.cmd? id with
      | some c => s.countFree (rookPg c.msq) ROOK.STRICT_WAIT_CYCLES
      | none => s
    (s.mapCmd id fun c => match c.ctx with
      | .gather x => { c with ctx := .gather { x with wait := x.wait.filter (· != f), todo := { f with hits := 0 } :: x.todo } }
      | _ => c).gatherPump id
  | .read org cmd tag =>
    (s.count64 plcPg PLC.ROUTED_ON 1).plcSend (s.resolve w.key) w.key.job
      (.readReq org cmd [{ table := w.key.table, node := s.keyNode w.key, plane := w.plane, tag := tag, strict := w.strict }])
  | .store id e =>
    match s.plc.batches.find? fun b => b.id == id with
    | some b =>
      ((s.count64 plcPg PLC.ROUTED_ON 1).plcSend (s.resolve w.key) w.key.job (.store b.org b.cmd b.tok [e])).mapBatch id
        (fun b => { b with left := b.left - 1, n := b.n - 1 }) |>.pumpBatches
    | none =>
      (s.mapCmd id fun c => match c.ctx with
        | .store x => { c with ctx := .store { x with wait := x.wait - 1, todo := e :: x.todo } }
        | _ => c).storePump id

/-- Serve every wait for a row that may end now, oldest first, and move those for a row that is here no more. -/
def State.resumeRow (s : State) (k : RowKey) : State :=
  (s.plc.waits.filter fun w => w.key == k).foldl (fun s w =>
    let t := s.setPlc { s.plc with waits := dropOne w s.plc.waits }
    if !(s.waitHere w) then t.moveWait w
    else if s.waitOver w then t.serveWait w
    else s) s

/-- STRICT_READ_RESUME: a row's mark has cleared, and the reads that wait for it return its current version (R187). -/
def execStrictReadResume (k : RowKey) (s : State) : Res := .next (s.resumeRow k)

/-- Rows for which somebody waits here though they are served elsewhere now. -/
def State.strayWaits (s : State) : List RowKey :=
  ((s.plc.waits.filter fun w => !(s.waitHere w)).map (·.key)).eraseDups

/-- After a replica has gone or a module has been lost, every wait that concerns it goes on elsewhere, and builds that awaited
a row on its way here are done with it. -/
def State.moveWaits (s : State) : State := (s.strayWaits.foldl State.resumeRow s).aliasResume

/-- PLC_BOUNDARY; the replicas it drops may have been waited for (R192). -/
def execPlcBoundary (job : Nat) (s : State) : Res := .next (s.plcBoundary job).moveWaits

/-- The owner's order drops a replica (R192). -/
def State.onDropOrder (s : State) (p : Pkt) : State := (s.onReplicaDrop p).moveWaits

/-- A change reaches a row's new home; the transfer ends waits for the row (R194, Table 8.5). -/
def State.onMigrationChange (s : State) (p : Pkt) : State :=
  match p.body with
  | .migChange k _ _ =>
    let s := s.onMigChange p
    if (s.plc.inn.any fun m => m.key == k && m.owner) then (s.resumeRow k).aliasResume else s
  | _ => s

end Sys2Proof.Machine
end

