-- ==== Sys2Proof/Machine/Sync.lean ====
section
/-! DEFINITION. NOP, FENCE and the Arbiter commands, with the packets of fabric barriers and fabric signals
(10_commands_queues_tempo.md R228, 11_synchronization.md). -/

namespace Sys2Proof.Machine

/-! ## NOP and FENCE (R228, R282) -/

/-- The bodies of NOP and FENCE are reserved (R228). -/
def bodyReserved : Check := pureCheck fun _ c =>
  if c.desc.zeroWords [0, 1, 2, 3, 4, 5, 6, 7] then none else some .configInvalid

/-- NOP completes with OK at once. A descriptor with a reserved opcode takes this row too and is refused (R223); one whose opcode
Table 10.2 gives another command is no NOP (R222). -/
def execNop (q : Nat) (d : Desc) (s : State) : Res :=
  .next (if d.opcode != 0 && opcodeKnown d.opcode then s
    else s.command q d bodyReserved fun s c => s.addCmd { c with done := true })

/-- FENCE starts once every earlier command of its queue has completed; it completes when every line dirty at its
start has been written back, and FENCE_FLUSHES counts a FENCE that waits (R228, R282). -/
def execFence (q : Nat) (d : Desc) (s : State) : Res :=
  .next (s.command q d bodyReserved fun s c =>
    let lines := s.mem.wcb.map (·.line)
    if lines.isEmpty then s.addCmd { c with done := true }
    else (s.count (wcbPg (qDie q)) WCB.FENCE_FLUSHES 1).addCmd { c with ctx := .fence lines })

/-! ## The Arbiter body (Table 11.3) -/

def Cmd.arbFabric (c : Cmd) : Bool := c.desc.bitB 0 31
def Cmd.arbDie (c : Cmd) : Nat := c.desc.f 0 30 28
def Cmd.arbKey (c : Cmd) : Nat :=
  if c.arbFabric then fabricObj (c.desc.f 0 11 0) else localObj c.arbDie (c.desc.f 0 11 0)

/-- The reserved bits of each Arbiter opcode: words it does not assign, and the unassigned bits of those it does
(R252). -/
def arbReserved (d : Desc) : Bool :=
  let o := d.opcode
  d.f 0 27 12 != 0 || !(d.zeroWords [4, 5, 6, 7]) ||
  (o == 0x0B && d.b 1 != 0) || (o == 0x0C && d.b 1 != 0) || (o == 0x0D && d.b 1 != 0) ||
  ((o == 0x09 || o == 0x0A || o == 0x0B) && d.b 2 != 0) ||
  (o == 0x0C && d.f 2 31 22 != 0) || ((o == 0x0D || o == 0x0E) && d.f 2 31 15 != 0) ||
  (o == 0x08 && (d.bitB 3 31 || d.f 3 29 0 != 0)) ||
  (o == 0x0D && d.f 3 30 16 != 0) ||
  ((o == 0x09 || o == 0x0A || o == 0x0B || o == 0x0C || o == 0x0E) && d.b 3 != 0)

/-- The checks of R253 common to every Arbiter opcode: reserved bits, the die, the binding, UNINIT. -/
def arbCommonBad (s : State) (c : Cmd) : Bool :=
  arbReserved c.desc || (!c.arbFabric && !(decide (c.arbDie < s.variant.computeDies))) ||
  decide (s.objJob c.arbKey ≠ some c.desc.job) ||
  (c.desc.opcode != 0x08 && decide ((s.obj c.arbKey).state = .uninit))

/-- A wait, TAKE or barrier on a local object of another die (R250, R253). -/
def arbForeign (c : Cmd) : Bool := !c.arbFabric && decide (c.arbDie ≠ c.msq / 64)

/-- Whether the object is ORPHANED: every use but ARB_INIT completes with ORPHAN (R263). -/
def arbOrphaned (s : State) (c : Cmd) : Bool := decide ((s.obj c.arbKey).state = .orphaned)

/-! ## ARB_INIT, ARB_SIGNAL (R254) -/

/-- What an Arbiter command's own fields refuse: reserved bits, and a die that is not there (R254, R262). -/
def arbBody (s : State) (c : Cmd) : Option Status :=
  firstOf [(arbReserved c.desc || (!c.arbFabric && !(decide (c.arbDie < s.variant.computeDies))), .configInvalid)]

def arbInitCheck : Check := lateCheck arbBody fun s c =>
  firstOf [(arbCommonBad s c || !(s.objWaiters c.arbKey).isEmpty || s.barrierOn c.arbKey, .configInvalid)]

/-- ARB_INIT sets VALUE, REST and KIND, makes the object ACTIVE and the issuing square its owner (R254). -/
def execArbInit (q : Nat) (d : Desc) (s : State) : Res :=
  .next (s.command q d arbInitCheck fun s c =>
    (s.setObj c.arbKey { value := d.b 1, rest := d.b 2, take := d.bitB 3 30, state := .active,
                         owner := if c.arbFabric then 0 else c.msq }).addCmd { c with done := true })

def arbSignalCheck : Check := lateCheck
  (fun s c => if c.desc.b 1 = 0 then some .empty else arbBody s c) fun s c =>
  firstOf [(arbCommonBad s c, .configInvalid), (arbOrphaned s c, .orphan)]

/-- ARB_SIGNAL adds N and completes once its releases are decided (R254, R257). -/
def execArbSignal (q : Nat) (d : Desc) (s : State) : Res :=
  .next (s.command q d arbSignalCheck fun s c => (s.objAdd c.arbKey (d.b 1) q).addCmd { c with done := true })

/-! ## ARB_WAIT_GE, ARB_TAKE (R256) -/

def arbWaitGeCheck : Check := lateCheck arbBody fun s c =>
  firstOf [(arbCommonBad s c || arbForeign c || (s.obj c.arbKey).take, .configInvalid), (arbOrphaned s c, .orphan)]

/-- ARB_WAIT_GE completes when VALUE ≥ THRESH, at once when it is met at the start (R256). -/
def execArbWaitGe (q : Nat) (d : Desc) (s : State) : Res :=
  .next (s.command q d arbWaitGeCheck fun s c =>
    let o := s.obj c.arbKey
    if d.b 1 ≤ o.value then s.addCmd { c with done := true }
    else (s.setObj c.arbKey { o with ges := o.ges ++ [(c.id, d.b 1)] }).addCmd { c with ctx := .waitObj c.arbKey })

def arbTakeCheck : Check := lateCheck arbBody fun s c =>
  firstOf [(arbCommonBad s c || arbForeign c || !(s.obj c.arbKey).take, .configInvalid), (arbOrphaned s c, .orphan)]

/-- ARB_TAKE takes a unit at once when one is free and no TAKE waits, else joins the queue (R256). -/
def execArbTake (q : Nat) (d : Desc) (s : State) : Res :=
  .next (s.command q d arbTakeCheck fun s c =>
    let o := s.obj c.arbKey
    if 0 < o.value ∧ o.takes.isEmpty then
      (s.setObj c.arbKey { o with value := o.value - 1 }).addCmd { c with done := true }
    else (s.setObj c.arbKey { o with takes := o.takes ++ [c.id] }).addCmd { c with ctx := .waitObj c.arbKey })

/-! ## ARB_BARRIER (R259) -/

/-- The group mask of an ARB_BARRIER: its 48 bytes as a number, with what reading them leaves. -/
def Cmd.mask (s : State) (c : Cmd) : MemRes := s.sqRead c.msq (c.desc.f 2 21 0) 48

/-- The mask is aligned and lies in square memory (R253, R259). -/
def maskPlaced (d : Desc) : Bool := d.f 2 21 0 % 32 == 0 && inSqm (d.f 2 21 0) 48

/-- What R253 refuses of an ARB_BARRIER whatever its mask holds. -/
def arbBarrierBad (s : State) (c : Cmd) : Bool :=
  arbCommonBad s c || arbForeign c || c.arbFabric || (s.obj c.arbKey).take

/-- The checks of ARB_BARRIER (R253, R259). A mask that differs from that of the instance in progress sets
BARRIER_MISMATCH. An uncorrectable mask completes the arrival with GUARD_UNCORRECTABLE (log entry 15). -/
def arbBarrierCheck : Check where
  body _ c := if maskPlaced c.desc then none else some .configInvalid
  rest s c :=
    let r := c.mask s
    let s := r.st
    let m := leNat r.data
    if !r.ue.isEmpty then
      (s, firstOf [(arbBarrierBad s c, Status.configInvalid), (arbOrphaned s c, .orphan), (true, .guardUncorrectable)])
    else if m = 0 then (s, some .ok)
    else match firstOf [(arbBarrierBad s c || decide (m ≥ 2 ^ (64 * s.variant.computeDies)) || !(m.testBit c.msq),
          Status.configInvalid), (arbOrphaned s c, .orphan)] with
      | some st => (s, some st)
      | none =>
        if s.arb.barriers.any fun b => b.obj == c.arbKey && b.mask != m then
          (s.err (objPage c.arbKey) ARB.E_BARRIER_MISMATCH c.q, some .configInvalid)
        else (s, none)

/-- ARB_BARRIER arrives for its square; every arriving command completes when the last square has arrived, and the
object's VALUE rises by one (R259). -/
def execArbBarrier (q : Nat) (d : Desc) (s : State) : Res :=
  .next (s.command q d arbBarrierCheck fun s c =>
    let r := c.mask s
    (s.addCmd { c with ctx := .waitObj c.arbKey }).barrierArrive c.arbKey (leNat r.data) c.msq c.id)

/-- An arrival that waits for a tracker joins the instance in progress on its object, or begins one where a tracker is free
(R259). -/
def State.trackerServe (s : State) (w : Nat × Nat) : State :=
  match s.cmd? w.1 with
  | none => s
  | some c =>
    if !(s.arb.trackerWait.contains w) then s
    else if s.arb.barriers.any fun b => b.obj == c.arbKey then s.trackerJoin c.arbKey w
    else if s.arb.barriers.length < 256 then
      let t : State := { s with arb := { s.arb with trackerWait := s.arb.trackerWait.filter (· != w) } }
      (t.countFree (arbPg 6) ARB.TRACKER_WAIT_CYCLES).barrierBegin c.arbKey w.2 c.msq w.1
    else s

/-- BARRIER_TRACKER_GRANT: a tracker is free, and the arrivals that wait for one are served, oldest first (R259). -/
def execBarrierTrackerGrant (s : State) : Res := .next (s.arb.trackerWait.foldl State.trackerServe s)

/-! ## ARB_FBARRIER (R260, R261) -/

/-- The set an ARB_FBARRIER names: first position and count. -/
def fbarSet (s : State) (d : Desc) : Nat × Nat :=
  if d.bitB 3 31 then (0, (s.job d.job).members.length) else (d.f 2 14 0, d.f 3 15 0)

/-- The member list of a job in a version: the live one, or the one before the last change (R261). -/
def State.listAt (s : State) (job ver : Nat) : Option (List Nat) :=
  let j := s.job job
  if ver = j.ver then some j.members
  else if (ver + 1) % 65536 = j.ver ∧ !j.prev.isEmpty then some j.prev else none

/-- The members at the positions of a set, in a version of the list. -/
def State.setMembers (s : State) (job ver first count : Nat) : List Nat :=
  (((s.listAt job ver).getD []).drop first).take count

def State.fnode (s : State) (job obj : Nat) : Option FNode :=
  s.arb.fnodes.find? fun n => n.job == job && n.obj == obj

def State.setFnode (s : State) (n : FNode) : State :=
  { s with arb := { s.arb with
      fnodes := (s.arb.fnodes.filter fun x => !(x.job == n.job && x.obj == n.obj)) ++ [n] } }

def State.dropFnode (s : State) (job obj : Nat) : State :=
  { s with arb := { s.arb with fnodes := s.arb.fnodes.filter fun x => !(x.job == job && x.obj == obj) } }

/-- Send a packet of a fabric barrier between fabric dies F0, with the list version (R261). -/
def State.sendBar (s : State) (dst job ver rank : Nat) (b : Body) : State :=
  s.sendPkt { hdr := { dstMod := dst, srcMod := s.modId, job := job, listVer := ver, rank := rank }, body := b }

/-- The instances of a fabric object on this module, oldest first; one whose command a DEADLINE ended is listed until its
release (log entry 88). -/
def State.fbarsOf (s : State) (obj : Nat) : List FBarrier := s.arb.fbars.filter fun b => b.obj == obj

/-- End instances on this module with a status. -/
def State.fbarsEnd (s : State) (bs : List FBarrier) (st : Status) : State :=
  let s : State := { s with arb := { s.arb with fbars := s.arb.fbars.filter fun b => !(bs.contains b) } }
  bs.foldl (fun s b => s.endCmd b.cmd st) s

/-- The instance in progress on an object ends on this module with a status, at the node here too. -/
def State.fbarEnd (s : State) (job obj : Nat) (st : Status) : State :=
  (s.fbarsEnd ((s.fbarsOf obj).take 1) st).dropFnode job obj

/-- Whether a member's position is lost to a barrier: it is declared lost and has no substitute, or its twin is lost too
(R24, R261). -/
def State.pairGone (s : State) (m : Nat) : Bool := s.isLost m && ((s.substitute m).isNone || s.isLost (m ^^^ 1))

/-- An instance ends by an abort: on this module at once, or when its command starts (R261). -/
def State.fbarStop (s : State) (job obj : Nat) (st : Status) : State :=
  if (s.fbarsOf obj).isEmpty then
    { s.dropFnode job obj with arb := { (s.dropFnode job obj).arb with stopped := s.arb.stopped ++ [(job, obj, st)] } }
  else s.fbarEnd job obj st

/-- Arrivals of two list versions met: the instance ends on every member of either list with ABORT_STEP (R261). -/
def State.fbarAbort (s : State) (job obj first count ver ver' : Nat) : State :=
  let ms := (((s.setMembers job ver first count ++ s.setMembers job ver' first count).map s.holder).eraseDups).filter (· != s.modId)
  let s := ms.foldl (fun s m => s.sendBar m job ver 0 (.barEnd obj 0x0020)) s
  s.fbarStop job obj .abortStep

/-- The release reaches this module: VALUE rises by one, the ARB_FBARRIER completes, waiters are released (R260). -/
def State.fbarLocal (s : State) (job obj : Nat) : State :=
  let key := fabricObj obj
  let mine := (s.fbarsOf obj).take 1
  let s : State := { s with arb := { s.arb with fbars := s.arb.fbars.filter fun b => !(mine.contains b) } }
  let q := ((mine.head?.bind fun b => s.cmd? b.cmd).map fun (c : Cmd) => c.q).getD 0
  let s := s.releaseLive (objPage key) (mine.map (·.cmd))
  if s.objJob key = some job ∧ (s.obj key).state = .active then (s.count (objPage key) ARB.BARRIERS_DONE 1).objAdd key 1 q
  else s

/-- The release goes down from this module to the children of the groups it serves, then to itself (R260, R342). -/
def State.fbarDown (s : State) (job obj first count ver : Nat) : State :=
  let l := s.setMembers job ver first count
  let gs := treeGroups l
  let mine := gs.filter fun g => s.groupNode l g == s.modId
  let kids := ((mine.flatMap fun g => g.kids).map (s.kidModule l gs)).eraseDups.filter (· != s.modId)
  let s := kids.foldl (fun s m => s.sendBar m job ver 0 (.barRelease obj)) s
  (s.dropFnode job obj).fbarLocal job obj

/-- Pass complete ranges up, group by group from the lowest level: the ranges that have arrived, those passed on, and
whether the root is complete (R260). -/
def State.fbarUp (s : State) (job obj first count ver : Nat) (l : List Nat) (gs : List Group) :
    List Group → List (Nat × Nat) → List (Nat × Nat) → State × List (Nat × Nat) × List (Nat × Nat) × Bool
  | [], got, passed => (s, got, passed, false)
  | g :: more, got, passed =>
    let r := (g.first, g.count)
    let full := s.groupNode l g == s.modId && !(passed.contains r) && g.kids.all got.contains
    if !full then s.fbarUp job obj first count ver l gs more got passed
    else
      let passed := passed ++ [r]
      match g.parent gs with
      | none => (s, got, passed, true)
      | some p =>
        let n := s.groupNode l p
        if n = s.modId then s.fbarUp job obj first count ver l gs more (got ++ [r]) passed
        else (s.sendBar n job ver r.1 (.barArrive obj first count r.2)).fbarUp job obj first count ver l gs more got passed

/-- An arrival of a range reaches this node (R260, R261). One of the object's next instance, of another set or of a list not
yet installed here is held; one of another list version ends the instance; one that a lost member has made already and its
substitute makes again counts once. -/
def State.fbarArrive (s : State) (p : Pkt) (job obj first count ver : Nat) (r : Nat × Nat) : State :=
  let l := s.setMembers job ver first count
  let gs := treeGroups l
  let n := (s.fnode job obj).getD { job := job, obj := obj, first := first, count := count, ver := ver, got := [], later := [] }
  if n.got.contains r then
    if n.src.any fun x => x.1 == r && x.2 != p.hdr.srcMod then
      s.setFnode { n with src := (n.src.filter fun x => x.1 != r) ++ [(r, p.hdr.srcMod)] }
    else s.setFnode { n with later := n.later ++ [p] }
  else if !(n.first == first && n.count == count) then s.setFnode { n with later := n.later ++ [p] }
  else if n.ver ≠ ver then s.fbarAbort job obj first count n.ver ver
  else if (s.listAt job ver).isNone then s.setFnode { n with later := n.later ++ [p] }
  else
    let (s, got, passed, root) := s.fbarUp job obj first count ver l gs gs (n.got ++ [r]) n.passed
    if root then s.fbarDown job obj first count ver
    else s.setFnode { n with got := got, passed := passed, src := n.src ++ [(r, p.hdr.srcMod)] }

/-- A BAR_ARRIVE as a packet. -/
def barPkt (s : State) (job obj first count ver : Nat) (r : Nat × Nat) : Pkt :=
  { hdr := { srcMod := s.modId, dstMod := s.modId, job := job, listVer := ver, rank := r.1, vc := 5 },
    body := .barArrive obj first count r.2 }

/-- The arrivals a node holds for the next instance. -/
def State.fbarLater (s : State) (job obj : Nat) : List Pkt := ((s.fnode job obj).map (·.later)).getD []

/-- Once the present instance has ended, the arrivals held for the next one are taken in turn (R260). -/
def State.fbarReplay (s : State) (job obj : Nat) (held : List Pkt) : State :=
  if (s.fnode job obj).isSome then s
  else held.foldl (fun s x => match x.body with
    | .barArrive o f n k => s.fbarArrive x x.hdr.job o f n x.hdr.listVer (x.hdr.rank, k)
    | _ => s) s

/-- Arrivals of a list that has now been installed here are taken (R261). -/
def State.fbarListed (s : State) (job : Nat) : State :=
  (s.arb.fnodes.filter fun n => n.job == job && n.got.isEmpty).foldl
    (fun s n => (s.dropFnode job n.obj).fbarReplay job n.obj n.later) s

/-- A BAR_ARRIVE at a node (R260). -/
def State.onBarArrive (s : State) (p : Pkt) : State :=
  match p.body with
  | .barArrive obj first count ranks =>
    (s.fbarArrive p p.hdr.job obj first count p.hdr.listVer (p.hdr.rank, ranks)).fbarReplay p.hdr.job obj
      (s.fbarLater p.hdr.job obj)
  | _ => s

/-- The arrival of a rank that this module holds goes to its node (R260). -/
def State.fbarRank (s : State) (job obj first count ver r : Nat) : State :=
  let l := s.setMembers job ver first count
  let gs := treeGroups l
  match parentOf gs (r, 1) with
  | none => s
  | some g =>
    let n := s.groupNode l g
    let p := barPkt s job obj first count ver (r, 1)
    if n = s.modId then s.onBarArrive p
    else s.sendBar n job ver r (.barArrive obj first count 1)

/-- This module's own arrival: one leaf range for each rank of the set that it holds, after ASSUME its twin's too (R260,
R261). -/
def State.fbarOwn (s : State) (job obj first count ver : Nat) : State :=
  (s.ownRanks (s.setMembers job ver first count)).foldl (fun s r => s.fbarRank job obj first count ver r) s

/-- With ASSUME, the arrivals this module has made count for its twin's position too (R261). -/
def State.fbarAssume (s : State) : State :=
  s.arb.fbars.foldl (fun s b => match s.cmd? b.cmd with
    | some c => match indexOf s.twinId (s.setMembers c.desc.job b.ver b.first b.count) with
      | some r => s.fbarRank c.desc.job b.obj b.first b.count b.ver r
      | none => s
    | none => s) s

/-- The checks of ARB_FBARRIER; the empty set is COUNT 0 with ALL clear (R253, R260). -/
def arbFbarrierCheck : Check := lateCheck
  (fun s c => if !(c.desc.bitB 3 31) && c.desc.f 3 15 0 == 0 then some .ok else arbBody s c) fun s c =>
  let l := (s.job c.desc.job).members
  let (first, count) := fbarSet s c.desc
  firstOf [(arbCommonBad s c || !c.arbFabric || (s.obj c.arbKey).take || decide (first + count > l.length) ||
      !((s.ownRanks l).any fun r => decide (first ≤ r ∧ r < first + count)) || s.barrierOn c.arbKey, .configInvalid),
    (arbOrphaned s c, .orphan)]

/-- ARB_FBARRIER: the command's start is its module's arrival (R260); it ends at once where its instance has been aborted or has
lost both modules of a pair (R261). -/
def execArbFbarrier (q : Nat) (d : Desc) (s : State) : Res :=
  .next (s.command q d arbFbarrierCheck fun s c =>
    let (first, count) := fbarSet s d
    let obj := d.f 0 11 0
    let ver := (s.job d.job).ver
    let s := s.addCmd { c with ctx := .waitObj c.arbKey }
    let s : State := { s with arb := { s.arb with
      fbars := s.arb.fbars ++ [{ obj := obj, ver := ver, first := first, count := count, cmd := c.id }] } }
    match s.arb.stopped.find? fun x => x.1 == d.job && x.2.1 == obj with
    | some x =>
      ({ s with arb := { s.arb with stopped := s.arb.stopped.filter (· != x) } } : State).fbarEnd d.job obj x.2.2
    | none =>
      if (s.setMembers d.job ver first count).any s.pairGone then s.fbarEnd d.job obj .linkLost
      else s.fbarOwn d.job obj first count ver)

/-- A BAR_RELEASE, or the end of an instance, comes down the tree (R260, R261). -/
def State.onBarRelease (s : State) (p : Pkt) : State :=
  match p.body with
  | .barRelease obj =>
    let later := s.fbarLater p.hdr.job obj
    let t := match (s.fbarsOf obj).head? with
      | some b => s.fbarDown p.hdr.job obj b.first b.count b.ver
      | none =>
        match s.fnode p.hdr.job obj with
        | some n => s.fbarDown p.hdr.job obj n.first n.count n.ver
        | none => s.fbarLocal p.hdr.job obj
    t.fbarReplay p.hdr.job obj later
  | .barEnd obj st =>
    (s.fbarStop p.hdr.job obj (Status.ofCode st)).fbarReplay p.hdr.job obj (s.fbarLater p.hdr.job obj)
  | _ => s

/-! ## ARB_FSIGNAL (R254) -/

/-- The checks of ARB_FSIGNAL: its object is the target's, checked there; here its body and TARGET (R253, R254). -/
def arbFsignalCheck : Check := lateCheck
  (fun _ c => firstOf [(c.desc.b 1 == 0, .empty), (arbReserved c.desc || !c.arbFabric, .configInvalid)])
  fun s c => firstOf [(decide (c.desc.f 2 14 0 ≥ (s.job c.desc.job).members.length), .configInvalid)]

/-- ARB_FSIGNAL sends N to the target's fabric object and completes when it is acknowledged; one to a module declared
lost goes to its substitute, or is refused with LINK_LOST (R254, R312). -/
def execArbFsignal (q : Nat) (d : Desc) (s : State) : Res :=
  .next (s.command q d arbFsignalCheck fun s c =>
    let t := (((s.job d.job).members)[d.f 2 14 0]?).getD 0
    (s.addCmd { c with ctx := .fsignal t }).sendF0 c.msq t d.job (.fsignal c.id (d.f 0 11 0) (d.b 1)))

/-- An FSIGNAL reaches its target: the addition is applied and acknowledged, with the status of an object that cannot
take it (R254, R263). -/
def State.onFsignal (s : State) (p : Pkt) : State :=
  match p.body with
  | .fsignal cmd obj n =>
    let key := fabricObj obj
    let o := s.obj key
    if s.objJob key ≠ some p.hdr.job ∨ o.state = .uninit then s.reply p (.fsignalAck cmd 0x0040)
    else if o.state = .orphaned then s.reply p (.fsignalAck cmd 0x0011)
    else (s.objAdd key n 0).reply p (.fsignalAck cmd 0)
  | _ => s

/-- The acknowledgement completes the command (R254). -/
def State.onFsignalAck (s : State) (p : Pkt) : State :=
  match p.body with
  | .fsignalAck cmd st =>
    match s.cmd? cmd with
    | some c => match c.ctx with
      | .fsignal _ => if st = 0 then s.finish cmd else s.endCmd cmd (Status.ofCode st)
      | _ => s
    | none => s
  | _ => s

end Sys2Proof.Machine
end

