-- ==== Sys2Proof/Machine/Scrub.lean ====
section
/-! DEFINITION. The scrubber, the write-combining buffers' own writebacks, and the states of the stacks
(12_memory_system.md R276 to R282, R292). -/

namespace Sys2Proof.Machine

/-! ## Stacks -/

/-- The state of a stack (Table 12.6). -/
def State.stackState (s : State) (st : Nat) : StackState := SMap.get .untrained st s.mem.stackSt

/-- A stack changes state; one that leaves the ready state sets STACK_FAILED (Table 12.7). -/
def State.setStack (s : State) (st : Nat) (x : StackState) : State :=
  let old := s.stackState st
  let t : State := { s with mem := { s.mem with stackSt := SMap.set .untrained st x s.mem.stackSt } }
  if old = .ready ∧ x ≠ .ready then t.err (hbmPg st) HBM.E_STACK_FAILED (addrInfo (st * 0xC00000000)) else t

/-- The lines of a stack: 48 GiB of 64 bytes. -/
def stackLines : Nat := 0xC00000000 / 64

/-- The entries of a stack's buffers, of one buffer, of a die's buffers. -/
def State.stackEntries (s : State) (st : Nat) : List WcbEntry := s.mem.wcb.filter fun e => s.lineStack e.line == st
def State.pcEntries (s : State) (pc : Nat) : List WcbEntry := s.mem.wcb.filter fun e => s.linePc e.line == pc
def State.dieEntries (s : State) (die : Nat) : List WcbEntry := s.mem.wcb.filter fun e => s.lineStack e.line / 2 == die

/-- Every entry of a stack's buffers is written back: before self-refresh and before a die reset (R282). -/
def State.flushStack (s : State) (st : Nat) : State := s.writebackAll (s.stackEntries st)

/-! ## Scrubbing (R276, R277) -/

/-- What a scrub of a line leaves: the state, whether a word was corrected and rewritten. -/
structure ScrubOut where
  st    : State
  fixed : Bool

/-- The names of lines of stored rows that lie at a line of HBM. -/
def State.rowLinesAt (s : State) (line : Nat) : List Nat :=
  let names := (s.mem.cells.map (·.1)) ++ s.mem.ecc.map fun p => 16 * p.1
  (((names.filter fun a => decide (rowSpace ≤ a ∧ a < farSpace)).map fun a => a / 64 * 64).eraseDups).filter fun n =>
    s.lineAddr n == line

/-- The scrubber reads a line from the array, not through the buffer; it rewrites the corrected words in the same
access, and logs an uncorrectable word with SCRUB set, unchanged (R277). -/
def State.scrubLine (s : State) (line : Nat) : ScrubOut :=
  let pg := hbmPg (s.lineStack line)
  let rd := (line :: s.rowLinesAt line).flatMap fun n => (List.range 4).map fun k => (n / 16 + k, s.wordRead (n / 16 + k))
  let s := s.count64 pg HBM.LINE_READS 1
  let fixed := rd.filter fun p => p.2.2.1
  let s := fixed.foldl (fun (s : State) p => s.wordStore p.1 p.2.1 0) s
  let s := (rd.filter fun p => p.2.2.2).foldl (fun (s : State) p => s.hbmUe (line + 16 * (p.1 % 4)) true) s
  if fixed.isEmpty then { st := s, fixed := false }
  else { st := (s.count64 pg HBM.LINE_WRITES 1).count pg HBM.SCRUB_CORRECTED 1, fixed := true }

/-- SCRUB_REWRITE: a line that a correcting demand read queued is read again and rewritten; one found without error is
neither rewritten nor counted (R276). -/
def State.scrubQueued (s : State) (line : Nat) : State :=
  if s.mem.scrubQ.contains line then
    let t : State := { s with mem := { s.mem with scrubQ := s.mem.scrubQ.filter (· != line) } }
    (t.scrubLine line).st
  else s

def execScrubRewrite (line : Nat) (s : State) : Res := .next (s.scrubQueued line)

/-- A completed scrub period of a stack: SCRUB_PASSES counts it, and the corrections per HBM row begin anew (R277,
R278). -/
def State.scrubPass (s : State) (st : Nat) : State :=
  let s := s.count (hbmPg st) HBM.SCRUB_PASSES 1
  { s with mem := { s.mem with rowCe := s.mem.rowCe.filter fun p => p.1 / 2 ^ 48 != st } }

/-- PATROL_SCRUB: with SCRUB_EN set, the patrol reads the line at which it stands; a correctable line is rewritten and
its correction counts toward CE_ROW_LIMIT (R277, R278). -/
def State.patrol (s : State) (line : Nat) : State :=
  let st := s.lineStack line
  let pos := SMap.get 0 st s.mem.patrol
  let on := bit (s.reg (hbmPg st) HBM.SCRUB_CONFIG) 31
  if on && s.stackState st == .ready && decide (line = st * 0xC00000000 + 64 * pos) && decide (st < s.variant.stacks) then
    let r := s.scrubLine line
    let s := if r.fixed then r.st.rowCorrected line else r.st
    let nxt := if pos + 1 = stackLines then 0 else pos + 1
    let s : State := { s with mem := { s.mem with patrol := SMap.set 0 st nxt s.mem.patrol } }
    if nxt = 0 then s.scrubPass st else s
  else s

def execPatrolScrub (line : Nat) (s : State) : Res := .next (s.patrol line)

/-! ## Writebacks (R279, R282) -/

/-- WCB_EVICT: a buffer with no free entry writes back its oldest, for the write that waits; the wait's cycles are the
event's own (R279). -/
def State.wcbEvict (s : State) (pc cycles : Nat) : State :=
  let l := s.pcEntries pc
  match l with
  | e :: _ =>
    if l.length ≥ 64 then
      let wp := wcbPg (s.lineStack e.line / 2)
      ((s.writeback e).count wp WCB.FULL_EVICTIONS 1).count64 wp WCB.FULL_WAIT_CYCLES cycles
    else s
  | [] => s

def execWcbEvict (pc cycles : Nat) (s : State) : Res := .next (s.wcbEvict pc cycles)

/-- WCB_FULL_WRITEBACK: an entry whose mask is all ones is written back (R279). -/
def State.wcbFull (s : State) (line : Nat) : State :=
  match s.wcbFind line with
  | some e => if e.data.all Option.isSome then s.writeback e else s
  | none => s

def execWcbFullWriteback (line : Nat) (s : State) : Res := .next (s.wcbFull line)

/-- The FLUSH_LOG2 that counts at a beat: a change counts from the first multiple of the new period after its commit
(R295). -/
def State.flushLog (s : State) (die beat : Nat) : Nat :=
  match SMap.find die s.mem.flushNew with
  | some (old, from_) => if beat < from_ then old else s.reg (wcbPg die) WCB.WCB_CONFIG % 32
  | none => s.reg (wcbPg die) WCB.WCB_CONFIG % 32

/-- WCB_CONFIG of a die has been committed with another period. -/
def State.flushChange (s : State) (die old : Nat) : State :=
  let p := 2 ^ (s.reg (wcbPg die) WCB.WCB_CONFIG % 32)
  { s with mem := { s.mem with flushNew := SMap.put die (old, (s.beat / p + 1) * p) s.mem.flushNew } }

/-- Whether a die's beat flush is due at the present beat (R282, R295). -/
def State.flushDue (s : State) (die : Nat) : Bool :=
  decide (s.beat % 2 ^ s.flushLog die s.beat = 0) &&
  SMap.find die s.mem.flushed != some s.beat && decide (0 < s.beat) && decide (die < s.variant.computeDies)

/-- WCB_BEAT_FLUSH: at a beat that is a multiple of 2^FLUSH_LOG2 every dirty entry of the die's buffers is written back;
BEAT_FLUSHES counts each buffer that had one (R282). -/
def State.wcbBeatFlush (s : State) (die : Nat) : State :=
  if s.flushDue die then
    let l := s.dieEntries die
    let n := ((l.map fun e => s.linePc e.line).eraseDups).length
    let s := (s.writebackAll l).count (wcbPg die) WCB.BEAT_FLUSHES n
    { s with mem := { s.mem with flushed := SMap.put die s.beat s.mem.flushed } }
  else s

def execWcbBeatFlush (die : Nat) (s : State) : Res := .next (s.wcbBeatFlush die)

/-- WCB_IDLE_WRITEBACK: a pseudo-channel with no other work writes back an entry (R282). -/
def State.wcbIdle (s : State) (line : Nat) : State :=
  match s.wcbFind line with
  | some e => s.writeback e
  | none => s

def execWcbIdleWriteback (line : Nat) (s : State) : Res := .next (s.wcbIdle line)

end Sys2Proof.Machine
end

