-- ==== Sys2Proof/Machine/Ports.lean ====
section
/-! DEFINITION. Ply ports: training, lane loss, the flits of a link, retry, stop flits, rerouting, resending
(13_fabric_links_and_host.md R299 to R319). -/

namespace Sys2Proof.Machine

/-! ## CRC-32C (R301) -/

/-- One bit of the reflected CRC of polynomial 0x1EDC_6F41. -/
def crcBit (c : Nat) : Nat := if c % 2 = 1 then (c / 2) ^^^ 0x82F63B78 else c / 2

/-- One byte. -/
def crcByte (c : Nat) (b : Byte) : Nat :=
  crcBit (crcBit (crcBit (crcBit (crcBit (crcBit (crcBit (crcBit (c ^^^ b.toNat))))))))

/-- The CRC-32C of a list of bytes. -/
def crc32c (bs : List Byte) : Nat := (bs.foldl crcByte 0xFFFFFFFF) ^^^ 0xFFFFFFFF

/-! ## The link unit (Table 13.1) -/

/-- The link unit of a flit as a number. -/
def linkUnit (f : List Byte) : Nat := leNat (f.take 16)
def flitCrc (f : List Byte) : Nat := linkUnit f % 2 ^ 32
def flitType (f : List Byte) : Nat := bits (linkUnit f) 103 100
def flitAck (f : List Byte) : Nat := bits (linkUnit f) 115 104
def flitSeq (f : List Byte) : Nat := bits (linkUnit f) 127 116

/-- Whether a flit is 512 bytes with a good CRC (R300, R301). -/
def flitGood (f : List Byte) : Bool := f.length == 512 && flitCrc f == crc32c (f.drop 4)

/-- The credit returns of a link unit: VC × 2 + CLASS, units freed. -/
def flitCreds (f : List Byte) : List (Nat × Nat) :=
  (List.range 4).filterMap fun i =>
    let c := bits (linkUnit f) (47 + 16 * i) (32 + 16 * i)
    if c % 4096 = 0 then none else some (c / 8192 * 2 + c / 4096 % 2, c % 4096)

/-! ## The bytes of a flit (Tables 13.1 and 13.4) -/

end Sys2Proof.Machine

namespace Sys2Proof
open Machine

/-- ARG0 and ARG1 of a packet: the entries of a batch, the status of a refusal, else as the packet's own layout has it, which the
manual gives only in part (Table 14.5; log entry 11). -/
def Pkt.arg (p : Pkt) (i : Nat) : Nat :=
  match p.body, i with
  | .scatter _ _ _ es, 0 => es.length
  | .nack _ _ st, 0 => st
  | .redUp u, 0 => b2n u.norm.isSome * 2 ^ 31 + b2n u.copy * 2 ^ 30 + u.fmt % 4 * 2 ^ 28 + min u.lifts 4095 * 2 ^ 16 + u.ranks % 2 ^ 16
  | .redDown u, 0 => u.kind % 4 * 2 ^ 30 + u.fmt % 4 * 2 ^ 28 + min u.lifts 0xFFFF
  | .redUp u, 1 => u.inst
  | .redDown u, 1 => u.inst
  | _, _ => (Config.argWord p i).toNat

/-- The payload of a reduction chunk: scale unit, norm trailer, blocks (Table 14.4, R351). -/
def chunkBytes (fmt : Nat) (norm : Option Nat) (blocks : List WireBlock) : List Byte :=
  (if blocks.isEmpty then [] else padTo 16 0 (blocks.map fun b => BitVec.ofNat 8 b.scale)) ++
  (match norm with
    | some n => leBytes 16 n
    | none => []) ++
  blocks.flatMap fun b => elemBytes (if fmt = 0 then 2 else 1) (padTo 32 0 b.codes)

/-- The header of a packet (Table 13.4). -/
def Pkt.header (p : Pkt) : List Byte :=
  let h := p.hdr
  [h.dstMod * 2 ^ 17 + h.dstDie * 2 ^ 14 + h.dstSq * 2 ^ 8 + p.body.type,
   h.srcMod * 2 ^ 17 + h.srcDie * 2 ^ 14 + h.srcSq * 2 ^ 8 + h.hops * 4,
   h.job * 2 ^ 20 + h.vc * 2 ^ 17 + b2n h.upper * 2 ^ 16 + h.len * 2 ^ 7 + b2n h.more * 64 + b2n h.resent * 32 + b2n h.echk * 16,
   h.seq * 2 ^ 8,
   h.epoch * 2 ^ 16 + h.rdie % 2 * 2 ^ 12 + h.rctx,
   h.listVer * 2 ^ 16 + h.rank,
   p.arg 0, p.arg 1].flatMap (leBytes 4)

/-- Unit n of a packet: of its header, or of its payload (R305). -/
def Pkt.unit (p : Pkt) (n : Nat) : List Byte :=
  if n < 2 then (p.header.drop (16 * n)).take 16
  else match p.body with
  | .redUp u => padTo 16 0 (((chunkBytes u.fmt u.norm u.blocks).drop (16 * (n - 2))).take 16)
  | .redDown u => padTo 16 0 (((chunkBytes u.fmt u.norm u.blocks).drop (16 * (n - 2))).take 16)
  | _ => (List.range 16).map fun j => Config.payloadByte p (16 * (n - 2) + j)

end Sys2Proof

namespace Sys2Proof.Machine

/-- The units of a part. -/
def FlitPart.bytes (x : FlitPart) : List Byte := (List.range x.count).flatMap fun i => x.pkt.unit (x.first + i)

/-- Bytes 4 to 511 of a flit: the rest of its link unit, then 31 payload units (R300). -/
def Flit.body (f : Flit) : List Byte :=
  let cred (i : Nat) : Nat := match f.creds[i]? with
    | some (c, n) => c / 2 * 2 ^ 13 + c % 2 * 2 ^ 12 + n % 4096
    | none => 0
  leBytes 8 (cred 0 + cred 1 * 2 ^ 16 + cred 2 * 2 ^ 32 + cred 3 * 2 ^ 48) ++
    leBytes 4 (f.fseq % 4096 * 2 ^ 20 + f.ack % 4096 * 2 ^ 8 + f.ftype % 16 * 16) ++
    padTo 496 0 (f.parts.flatMap FlitPart.bytes ++ f.data)

/-- The 512 bytes of a flit, its CRC first (R300, R301). -/
def Flit.bytes (f : Flit) : List Byte := leBytes 4 (crc32c f.body) ++ f.body

/-! ## Register writes that act -/

/-- Whether register accesses to a page work in the module's state: none in RESET; in BOOT_FAILED reads of MGT and SEC and
the management island's; after a thermal trip the management island's (Table 17.1, R406). -/
def State.pageOpen (s : State) (page : Nat) (write secure : Bool) : Bool :=
  match s.mgtState with
  | 0 => false
  | 3 => secure || (!write && (page == mgtPg || page == secPg))
  | 6 => secure
  | _ => true

/-- A write that acts on a page: dropped where the page is not mapped or not open, refused and logged where the world
forbids it (R9, R426, R435). -/
def State.guardWrite (s : State) (page off : Nat) (sw secure : Bool) (f : State → State) : State :=
  if (pageInfo s.variant page).isNone || !(s.pageOpen page true secure) then s
  else if !secure && (sw || s.pageClosed page secure) then s.violation true 0 (pageAddr page off)
  else f s

/-! ## Rerouting (R311) -/

/-- The packets that a list of flits carries any unit of. -/
def flitPkts (l : List Flit) : List Pkt := (l.flatMap fun f => f.parts.map (·.pkt)).eraseDups

/-- A packet that the flit stream of a port ends in the middle of is discarded: its LEN lies beyond the end (R306). -/
def State.cutPacket (s : State) (port : Nat) : State :=
  let x := s.port port
  if x.rxPart.isEmpty then s
  else ((s.setPort port { x with rxPart := [] }).count fabPg FAB.BAD_PACKETS 1).err fabPg PLY.E_BAD_PACKET
    (bits (leNat ((x.rxPart.drop 4).take 4)) 31 17)

/-- Packets queued for a port that can no longer carry them, and those with an unacknowledged flit, are routed again with
RESENT set; REROUTED counts them (R311). -/
def State.reroute (s : State) (port : Nat) : State :=
  let s := s.cutPacket port
  let x := s.port port
  let ps := (flitPkts x.retry ++ x.txPart.map (·.pkt)).eraseDups ++ x.queue
  let s := s.setPort port { x with queue := [], txPart := [], retry := [], used := [], owed := [] }
  let s := s.count (plyPg port) PLY.REROUTED ps.length
  ps.foldl (fun s p => s.forwardBut (port :: p.via.toList) { p with hdr := { p.hdr with resent := true } }) s

/-- A port enters FAILED (Table 13.2, Table 13.13). -/
def State.portFail (s : State) (port : Nat) : State :=
  let s := s.setPort port { s.port port with st := .failed, width := 0 }
  (s.err (plyPg port) PLY.E_PORT_FAILED port).reroute port

/-- A port enters RETRAINING: packets wait and the retry buffer is kept; RETRAINS counts it (Table 13.2). -/
def State.portRetrain (s : State) (port : Nat) : State :=
  let x := s.port port
  (s.setPort port { x with st := .retraining, before := x.width, cap := x.width, width := 0, nakAck := 4096, nakRun := 0 }).count
    (plyPg port) PLY.RETRAINS 1

/-! ## Training and lanes (R299, R303, R304, R452, R453) -/

/-- TARGET_LANES of a port. -/
def State.targetLanes (s : State) (port : Nat) : Nat := bits (s.reg (plyPg port) PLY.PLY_CONFIG) 30 27

/-- The width a port runs at with a set of good lanes: the largest of 8, 4, 2 and 1 that is no greater than both the good
lanes and TARGET_LANES; 0 with none (R304). -/
def State.laneWidth (s : State) (port lanes : Nat) : Nat :=
  let n := min (popcount 8 lanes) (s.targetLanes port)
  if 8 ≤ n then 8 else if 4 ≤ n then 4 else if 2 ≤ n then 2 else if 1 ≤ n then 1 else 0

/-- The partner the rack wiring rule gives a backplane port (Table 13.6); none for an optical port. -/
def State.wiredPartner (s : State) (port : Nat) : Option (Nat × Nat) :=
  let me := s.modId
  let at_ (j x : Nat) : Nat := me / 32 * 32 + (modBoard me ^^^ j) * 4 + (modSlot me ^^^ x)
  if port < 2 then some (at_ 0 1, port)
  else if port < 4 then some (at_ 0 port, port)
  else if port < 11 then some (at_ (port - 3) 0, port)
  else if port < 16 then some (at_ (port - 10) 2, port)
  else none

/-- Whether the partner found by training is the one expected (R299). -/
def State.partnerOk (s : State) (port m p : Nat) : Bool :=
  match s.wiredPartner port with
  | some w => w == (m, p)
  | none =>
    let e := s.reg (plyPg port) PLY.EXPECT
    !(e.testBit 31) || (e % 2 ^ 15 == m && bits e 20 16 == p)

/-- Whether an optical port has an optical module it may use (R453); a backplane port needs none. -/
def State.cageOk (s : State) (port : Nat) : Bool := decide (port < 16) || SMap.find port s.boot.cages == some true

/-- An attempt to train failed: the third makes the port FAILED (Table 13.2). -/
def State.trainFailed (s : State) (port : Nat) : State :=
  let x := s.port port
  let s := s.setPort port { x with attempts := x.attempts + 1 }
  if x.attempts + 1 ≥ 3 then s.portFail port else s

/-- PORT_TRAIN_DONE: the outcome of an attempt to train a port (R299, R303). -/
def State.portTrain (s : State) (port : Nat) (r : TrainResult) : State :=
  let x := s.port port
  if !(portPresent s.variant port) || x.st != .training then s
  else
    let w := s.laneWidth port r.lanes
    if !r.ok || w = 0 || !(s.cageOk port) then s.trainFailed port
    else
      let x' : Port := { x with partner := some (r.partner, r.pport), delay := r.delay, lanes := r.lanes, attempts := 0 }
      if s.partnerOk port r.partner r.pport then
        (s.setPort port { x' with st := if w = 8 then .active else .degraded, width := w }).pump port
      else (s.setPort port { x' with st := .miswired, width := 0 }).err (plyPg port) PLY.E_MISWIRED port

def execPortTrainDone (port : Nat) (r : TrainResult) (s : State) : Res := .next (s.portTrain port r)

/-- Whether a port is ACTIVE or DEGRADED. -/
def Port.carries (x : Port) : Bool := x.st == .active || x.st == .degraded

/-- LANE_FAULT: a lane of a working port is faulty: RETRAINING (R304). -/
def State.laneFault (s : State) (port lane : Nat) : State :=
  let x := s.port port
  if x.carries then
    (s.setPort port { x with lanes := if x.lanes.testBit lane then x.lanes - 2 ^ lane else x.lanes }).portRetrain port
  else s

def execLaneFault (port lane : Nat) (s : State) : Res := .next (s.laneFault port lane)

/-- An ACK covers every flit up to its FSEQ: they leave the retry buffer. -/
def ackFlits (ack : Nat) (l : List Flit) : List Flit :=
  if l.any fun f => f.fseq == ack then (l.dropWhile fun f => f.fseq != ack).drop 1 else l

/-- The flits of the retry buffer are sent again, in order, with the ACK of the moment (R302). -/
def State.resendFlits (s : State) (port : Nat) : State :=
  let x := s.port port
  ((x.retry.foldl (fun s f => s.emit (.flit port { f with ack := x.lastRx })) s).setPort port { x with ackSent := x.lastRx }).count64
    (plyPg port) PLY.FLITS_TX x.retry.length

/-- RETRAIN_DONE: a retraining ends on the widest usable width and the flits that the partner has not accepted, by the FSEQ the two
ends exchange, are sent again, or the port fails; a lower width than before counts and is flagged (R304). -/
def State.retrainDone (s : State) (port lanes ack : Nat) : State :=
  let x := s.port port
  if x.st != .retraining then s
  else
    let w := min (s.laneWidth port lanes) x.cap
    let s := s.setPort port { x with lanes := lanes }
    if w = 0 then s.portFail port
    else
      let s := s.setPort port { x with
        lanes := lanes, st := if w = 8 then .active else .degraded, width := w, retry := ackFlits ack x.retry }
      let s := s.resendFlits port
      let s := if w < x.before then (s.count (plyPg port) PLY.LANE_DEGRADES 1).err (plyPg port) PLY.E_LANE_DEGRADED port else s
      s.pump port

def execRetrainDone (port : Nat) (r : RetrainResult) (s : State) : Res := .next (s.retrainDone port r.lanes r.ack)

/-! ## Retry (R302) -/

/-- A link unit's ACK and credits take effect (R302, R307). -/
def State.linkUnit (s : State) (port : Nat) (f : List Byte) : State :=
  let x := s.port port
  let used := (flitCreds f).foldl (fun u c => SMap.set 0 c.1 (SMap.get 0 c.1 u - c.2) u) x.used
  (s.setPort port { x with retry := ackFlits (flitAck f) x.retry, used := used }).pump port

/-- The receiver discards a flit and sends one NAK, and no other until a flit is accepted (R302). -/
def State.sendNak (s : State) (port : Nat) : State :=
  let x := s.port port
  if x.nakSent then s else (s.setPort port { x with nakSent := true }).sendFlit port (x.ctrl 2)

/-- Take the complete packets out of the payload received so far: a packet's buffer units are owed to the partner; one
with a bad TYPE or VC is discarded. The packet itself arrives as its own event. Units of zeros hold no packet (log
entry 11). -/
def State.rxPackets (s : State) (port : Nat) : Nat → State
  | 0 => s
  | n + 1 =>
    let x := s.port port
    if x.rxPart.length < 32 then s
    else if (x.rxPart.take 16).all (· == 0) then
      (s.setPort port { x with rxPart := x.rxPart.drop 16 }).rxPackets port n
    else
      let w2 := leNat ((x.rxPart.drop 8).take 4)
      let units := 2 + bits w2 15 7
      if x.rxPart.length < 16 * units then s
      else
        let vc := bits w2 19 17
        let cls := vc * 2 + bits w2 16 16
        let src := bits (leNat ((x.rxPart.drop 4).take 4)) 31 17
        let s := s.setPort port
          { x with rxPart := x.rxPart.drop (16 * units), owed := SMap.set 0 cls (SMap.get 0 cls x.owed + units) x.owed }
        let s := if typeVc (leNat (x.rxPart.take 1)) vc then s
          else (s.count fabPg FAB.BAD_PACKETS 1).err fabPg PLY.E_BAD_PACKET src
        s.rxPackets port n

/-- A DATA flit is accepted: its packets are taken, and its ACK and credits take effect (R302). -/
def State.flitTake (s : State) (port : Nat) (f : List Byte) : State :=
  let x := s.port port
  let s := s.setPort port
    { x with rxNext := (x.rxNext + 1) % 4096, nakSent := false, rxPart := x.rxPart ++ f.drop 16 }
  ((s.count64 (plyPg port) PLY.FLITS_RX 1).rxPackets port (32 + x.rxPart.length / 16)).linkUnit port f

/-- A flit arrives on a port (R301, R302): a bad CRC discards it, a reserved FTYPE too; a DATA flit is accepted when its
FSEQ is the next expected. What the FEC corrects in it, and the codewords it cannot correct in one that is bad, are free values
(R329; log entry 6). -/
def State.flitRx (s : State) (port : Nat) (f : List Byte) : State :=
  let pg := plyPg port
  if !(portPresent s.variant port) || !(s.port port).carries then s
  else
    let s := s.countFree pg PLY.FEC_CORRECTED
    if !(flitGood f) then
      let (n, s) := s.draw
      ((s.count pg PLY.FEC_UNCORRECTED n).count pg PLY.CRC_ERRORS 1).sendNak port
    else if flitType f ≥ 5 then s.count pg PLY.BAD_FLITS 1
    else if flitType f ≠ 0 then s.linkUnit port f
    else if flitSeq f ≠ (s.port port).rxNext then s.sendNak port
    else s.flitTake port f

/-- DATA_FLIT_RX: a DATA flit is accepted in sequence or discarded with a NAK (R301, R302). -/
def execDataFlitRx (port : Nat) (flit : List Byte) (s : State) : Res := .next (s.flitRx port flit)

/-- IDLE_FLIT: an idle flit carries an ACK and credit returns (R300, R307). -/
def execIdleFlit (port : Nat) (flit : List Byte) (s : State) : Res := .next (s.flitRx port flit)

/-- NAK_RX: every flit after the acknowledged one is sent again; REPLAY_LIMIT consecutive NAKs with one ACK make the port
retrain (R302). -/
def State.nakRx (s : State) (port ack : Nat) : State :=
  let x := s.port port
  let pg := plyPg port
  if !x.carries then s
  else
    let retry := ackFlits ack x.retry
    let run := if x.nakAck = ack then x.nakRun + 1 else 1
    let s := s.setPort port { x with retry := retry, nakAck := ack, nakRun := run }
    let s := s.count pg PLY.REPLAYS 1
    if run ≥ bits (s.reg pg PLY.PLY_CONFIG) 15 8 then (s.err pg PLY.E_REPLAY_LIMIT port).portRetrain port
    else (s.resendFlits port).pump port

def execNakRx (port ack : Nat) (s : State) : Res := .next (s.nakRx port ack)

/-! ## Stop flits (R319) -/

/-- STOP_FLIT_RX: the port enters STOPPED, its packets are routed again, the management core is informed (R319). -/
def State.stopRx (s : State) (port m : Nat) : State :=
  let x := s.port port
  if x.carries || x.st == .miswired then
    let s := s.setPort port { x with st := .stopped, width := 0 }
    let s := (s.count (plyPg port) PLY.STOP_RX 1).err (plyPg port) PLY.E_STOP_RX port
    (s.reroute port).emit (.inform "stop flit" m)
  else s

def execStopFlitRx (port m reason : Nat) (s : State) : Res := .next ((s.stopRx port m).emit (.inform "stop reason" reason))

/-- The module sends a STOP flit 16 times on every port that can carry flits (R319). -/
def State.sendStops (s : State) (reason : Nat) : State :=
  ((List.range 24).filter fun p => (s.port p).carries || (s.port p).st == .miswired).foldl
    (fun s p =>
      let f : Flit := { (s.port p).ctrl 4 with data := leBytes 2 s.modId ++ leBytes 1 reason }
      (List.range 16).foldl (fun s _ => s.sendFlit p f) s) s

/-! ## Resending and acknowledging (R309, R310) -/

/-- How far SEQ b lies behind a, modulo 2^24. -/
def seqBehind (a b : Nat) : Nat := (a + 2 ^ 24 - b % 2 ^ 24) % 2 ^ 24

/-- An E2E_ACK frees every copy it covers; progress ends a run of resends, and waiting packets go (R309, R310). -/
def State.onE2eAck (s : State) (p : Pkt) : State :=
  match p.body with
  | .e2eAck vc upTo =>
    let t := s.txStream p.hdr.srcMod vc
    let left := t.copies.filter fun c => decide (seqBehind upTo c.1 ≥ 2 ^ 23)
    let s := s.setTx p.hdr.srcMod vc
      { t with copies := left, tries := if left.length < t.copies.length then 0 else t.tries }
    s.drainWaiting s.fab.waiting.length
  | _ => s

/-- E2E_ACK_TIMER: a stream with packets delivered and not acknowledged is acknowledged within a beat (R309). -/
def State.e2eAckTimer (s : State) (src vc : Nat) : State :=
  if (s.rxStream src vc).due > 0 then s.ackStream src vc else s

def execE2eAckTimer (srcMod vc : Nat) (s : State) : Res := .next (s.e2eAckTimer srcMod vc)

/-- E2E_RESEND: every packet of a stream not acknowledged within E2E_TIMEOUT beats is sent again with RESENT on the route
now in force; after E2E_TRIES resends without progress UNREACHABLE is set (R310). -/
def State.e2eResend (s : State) (dst vc : Nat) : State :=
  let t := s.txStream dst vc
  let late := t.copies.filter fun c => decide (c.2.2 + s.e2eTimeout ≤ s.beat)
  if late.isEmpty then s
  else
    let mark (p : Pkt) : Pkt := { p with hdr := { p.hdr with resent := true } }
    let copies := t.copies.map fun c => if c.2.2 + s.e2eTimeout ≤ s.beat then (c.1, mark c.2.1, s.beat) else c
    let s := s.setTx dst vc { t with copies := copies, tries := t.tries + 1 }
    let s := s.count fabPg FAB.E2E_RESENDS late.length
    let s := if t.tries + 1 = s.e2eTries then
        (s.err fabPg PLY.E_UNREACHABLE dst).emit (.inform "unreachable" dst) else s
    late.foldl (fun s c => (s.owe .resend false (32 + 16 * c.2.1.hdr.len)).forward none (mark c.2.1)) s

def execE2eResend (dstMod vc : Nat) (s : State) : Res := .next (s.e2eResend dstMod vc)

/-! ## Forwarding (R306, R312) -/

/-- A packet for another module is forwarded: HOPS rises by one; at 63 it is discarded. One for a lost module goes to its
substitute on a stream of its own, which may be this module itself, or is dropped and refused (R306, R312). -/
def State.passOn (s : State) (port : Option Nat) (p : Pkt) : State :=
  if p.hdr.hops ≥ 63 then s.count fabPg FAB.HOP_DISCARDS 1
  else
    let p := { p with hdr := { p.hdr with hops := p.hdr.hops + 1 } }
    match s.substitute p.hdr.dstMod with
    | none =>
      let s := (s.count fabPg FAB.LOST_DROPS 1).err fabPg PLY.E_LOST_DROP p.hdr.dstMod
      s.nackPkt p 0x0021
    | some d =>
      if d = p.hdr.dstMod then s.forward port p
      else
        let k := (p.hdr.srcMod + 1) * 2 ^ 18 + d * 8 + p.hdr.vc
        let t := SMap.get ({} : TxStream) k s.fab.tx
        let s : State := { s with fab := { s.fab with tx := SMap.set {} k { t with next := (t.next + 1) % 2 ^ 24 } s.fab.tx } }
        let p : Pkt := { p with hdr := { p.hdr with dstMod := d, seq := if p.body.streamed then t.next else p.hdr.seq } }
        if d = s.modId then { s with fab := { s.fab with loop := s.fab.loop ++ [{ p with via := none }] } } else s.forward port p

end Sys2Proof.Machine
end

