-- ==== Sys2Proof/Machine/Tempo.lean ====
section
/-! DEFINITION. Tempo: the states of the beat counter, marks, holdover (10_commands_queues_tempo.md R236 to R240, R318). -/

namespace Sys2Proof.Machine

/-- The tempo state in TMP_STATE (Table 10.11): 0 FREE, 1 ACQUIRE, 2 LOCKED, 3 HOLDOVER, 4 MASTER. -/
def State.tempoSt (s : State) : Nat := bits (s.reg tmpPg TMP.TMP_STATE) 31 28

/-- Set TMP_STATE: the state, the hop count, the master, the port followed. -/
def State.setTempo (s : State) (st hops master port : Nat) : State :=
  s.setReg tmpPg TMP.TMP_STATE (st * 2 ^ 28 + hops % 256 * 2 ^ 20 + master % 2 ^ 15 * 32 + port % 32)

/-- Set the state alone. -/
def State.setTempoSt (s : State) (st : Nat) : State :=
  let r := s.reg tmpPg TMP.TMP_STATE
  s.setReg tmpPg TMP.TMP_STATE (st * 2 ^ 28 + r % 2 ^ 28)

/-- Whether a port carries marks (R318). -/
def State.marksOn (s : State) (port : Nat) : Bool :=
  portPresent s.variant port && ((s.port port).carries || (s.port port).st == .miswired)

/-- The ports of MARK_PORTS whose link is up. -/
def State.markPorts (s : State) : List Nat :=
  (List.range 24).filter fun p => bit (s.reg tmpPg TMP.TMP_CONFIG) p && s.marksOn p

/-- SKEW_LIMIT in units of 0.25 ns. -/
def State.skewLimit (s : State) : Nat := 4 * (s.reg tmpPg TMP.SKEW_LIMIT % 2 ^ 16)

/-- The ports whose last mark is at most 1,024 beats old: port, master, hop count (R239). -/
def State.freshMarks (s : State) : List (Nat × Nat × Nat) :=
  s.tempo.ports.filterMap fun p =>
    if s.marksOn p.1 ∧ s.beat < p.2.2.2 + 1024 then some (p.1, p.2.1, p.2.2.1) else none

/-- Whether a source of marks is preferred: the lower master, then the lower hop count, then the lower port (R238). -/
def markBefore (a b : Nat × Nat × Nat) : Bool :=
  if a.2.1 ≠ b.2.1 then decide (a.2.1 < b.2.1)
  else if a.2.2 ≠ b.2.2 then decide (a.2.2 < b.2.2) else decide (a.1 < b.1)

/-- The source a follower follows. -/
def bestMark (l : List (Nat × Nat × Nat)) : Option (Nat × Nat × Nat) :=
  l.foldl (fun (b : Option (Nat × Nat × Nat)) x =>
    match b with
    | none => some x
    | some y => if markBefore x y then some x else some y) none

/-- The beat a mark gives here: its own, and the whole beats that its offset and the link delay take (R238, R318). -/
def State.markBeat (s : State) (port : Nat) (m : Mark) : Nat := (m.beat + (m.txOffset + (s.port port).delay) / 4000) % 2 ^ 64

/-- A follower disciplines its counter by a mark of the port it follows (Table 10.6). -/
def State.discipline (s : State) (port : Nat) (m : Mark) : State :=
  let near := decide (m.offset.natAbs ≤ s.skewLimit)
  let st := s.tempoSt
  let s := s.setReg tmpPg TMP.OFFSET (m.offset % 2 ^ 16).toNat
  if st = 0 then
    let s := s.setTempo 1 m.hops m.master port
    let b := s.markBeat port m
    { s with beat := b, tempo := { s.tempo with good := 0, last := b, ports := [(port, m.master, m.hops, b)] } }
  else if st = 2 then
    let s := s.setTempo 2 m.hops m.master port
    if near then s else (s.count tmpPg TMP.SKEW_ALARMS 1).err tmpPg TMP.E_SKEW_EXCEEDED port
  else
    let good := if near then s.tempo.good + 1 else 0
    let s := s.setTempo (if good ≥ 4 then 2 else st) m.hops m.master port
    { s with tempo := { s.tempo with good := if good ≥ 4 then 0 else good } }

/-- The first payload unit of a MARK flit (R318). -/
def markUnit (beat master hops txOffset : Nat) : List Byte :=
  leBytes 8 beat ++ leBytes 2 master ++ leBytes 1 hops ++ leBytes 1 0 ++ leBytes 4 txOffset

/-- Send a mark on a port: TX_OFFSET, from the start of the beat to the flit's first symbol, is a free value (R318; log
entry 6). -/
def State.sendMark (s : State) (port beat master hops : Nat) : State :=
  let (t, s) := s.draw
  s.sendFlit port { (s.port port).ctrl 3 with data := markUnit beat master hops (t % 2 ^ 32) }

/-- A follower forwards a mark on its other mark ports (R238). -/
def State.forwardMark (s : State) (port : Nat) (m : Mark) : State :=
  (s.markPorts.filter (· != port)).foldl (fun s p => s.sendMark p m.beat m.master ((m.hops + 1) % 256)) s

/-- MARK_RX: a tempo mark arrives; a bad CRC discards it; a follower takes it when it comes from the port it follows, and
forwards it (R238, R239, R318). The master takes none. -/
def State.markRx (s : State) (port : Nat) (m : Mark) : State :=
  if !(s.marksOn port) then s
  else if !m.crcOk then s.count tmpPg TMP.MARKS_BAD 1
  else
    let s := s.count tmpPg TMP.MARKS_RX 1
    if s.tempoSt = 4 then s
    else
      let s := s.forwardMark port m
      let s : State := { s with tempo := { s.tempo with last := s.beat, ports :=
        (s.tempo.ports.filter fun x => !(x.1 == port && x.2.1 == m.master)) ++ [(port, m.master, m.hops, s.beat)] } }
      let l := s.freshMarks
      let s := match bestMark l with
        | some (p, w, _) => if p = port ∧ w = m.master then s.discipline port m else s
        | none => s
      if l.any fun x => x.2.1 != m.master then s.err tmpPg TMP.E_MASTER_CONFLICT port else s

def execMarkRx (port : Nat) (m : Mark) (s : State) : Res := .next (s.markRx port m)

/-- MARK_SEND: at a beat that is a multiple of 64 the master sends a mark on every mark port, once (R238). -/
def State.markSend (s : State) : State :=
  if s.tempoSt = 4 ∧ s.beat % 64 = 0 ∧ s.tempo.sent ≠ some s.beat then
    let s := s.markPorts.foldl (fun s p => s.sendMark p s.beat s.modId 0) s
    { s with tempo := { s.tempo with sent := some s.beat } }
  else s

def execMarkSend (s : State) : Res := .next s.markSend

/-- TEMPO_HOLDOVER: a LOCKED follower without a valid mark for 1,024 beats holds over (R239). -/
def State.tempoHoldover (s : State) : State :=
  if s.tempoSt = 2 ∧ s.tempo.last + 1024 ≤ s.beat then
    let s := s.setTempoSt 3
    let s : State := { s with tempo := { s.tempo with good := 0 } }
    (s.count tmpPg TMP.HOLDOVERS 1).err tmpPg TMP.E_HOLDOVER (s.reg tmpPg TMP.TMP_STATE % 32)
  else s

def execTempoHoldover (s : State) : Res := .next s.tempoHoldover

/-- A commit sets or clears MASTER (R239): in FREE the counter is loaded from SET_BEAT. -/
def State.setMaster (s : State) (on : Bool) : State :=
  if on then
    if s.tempoSt = 4 then s
    else
      let s : State := if s.tempoSt = 0 then { s with beat := s.reg tmpPg TMP.SET_BEAT } else s
      s.setTempo 4 0 s.modId 0
  else if s.tempoSt = 4 then
    let s := s.setTempoSt 3
    let s : State := { s with tempo := { s.tempo with good := 0, last := s.beat } }
    (s.count tmpPg TMP.HOLDOVERS 1).err tmpPg TMP.E_HOLDOVER 0
  else s

end Sys2Proof.Machine
end

