-- ==== Sys2Proof/Machine/Castle.lean ====
section
/-! DEFINITION. Castling, the binding table, member lists, epochs and RESYNC (15_jobs_binding_twin.md R363 to R375). -/

namespace Sys2Proof.Machine

/-! ## The castle list (Tables 15.1 and 15.2) -/

/-- Entry i of a castle list from its 16 bytes, and whether a reserved bit of it is set. -/
def castleEntry (b : List Byte) : CastleEntry × Bool :=
  let w (o n : Nat) : Nat := leNat ((b.drop o).take n)
  let kind := w 0 1
  let f := w 1 1
  let j := w 2 2
  let arg := w 12 4
  let unbind := f.testBit 7
  ({ kind := kind, unbind := unbind, job := j % 4096, first := w 4 4, count := w 8 4, arg := arg % 256 },
   kind ≥ 8 || f % 128 != 0 || decide (j ≥ 4096) ||
     (if kind = 7 then !unbind && (decide (arg ≥ 256) || arg == 0) else arg != 0))

/-- How many resources of a KIND the variant numbers. -/
def kindLimit (v : Variant) (kind : Nat) : Nat :=
  match kind with
  | 0 => 64 * v.computeDies
  | 1 => 32768 * v.computeDies
  | 2 => 4096 * v.computeDies
  | 3 => 4096 * v.computeDies
  | 4 => 4096
  | 5 => 4096 * v.fabricDies
  | 6 => 256
  | _ => 1

/-- Resources per die of KINDs 1 to 3. -/
def kindDie (kind : Nat) : Option Nat := if kind = 1 then some 32768 else if kind = 2 ∨ kind = 3 then some 4096 else none

/-- Whether an entry names an absent resource, crosses dies, or has a KIND 7 count other than 1 (R383). -/
def CastleEntry.bad (e : CastleEntry) (v : Variant) : Bool :=
  (e.kind == 7 && (e.count != 1 || e.first != 0)) ||
  (decide (0 < e.count) && decide (e.first + e.count > kindLimit v e.kind)) ||
  (decide (0 < e.count) && match kindDie e.kind with
    | some n => e.first / n != (e.first + e.count - 1) / n
    | none => false)

/-- Whether two entries name one resource. -/
def CastleEntry.meets (a b : CastleEntry) : Bool :=
  a.kind == b.kind && (if a.kind = 7 then !a.unbind && !b.unbind && a.job == b.job
    else a.count != 0 && b.count != 0 && decide (a.first < b.first + b.count) && decide (b.first < a.first + a.count))

/-- Whether any two entries of a list overlap. -/
def entriesMeet : List CastleEntry → Bool
  | [] => false
  | e :: es => es.any e.meets || entriesMeet es

/-- Whether an entry names a resource. -/
def CastleEntry.names (e : CastleEntry) (kind n : Nat) : Bool :=
  e.kind == kind && decide (e.first ≤ n) && decide (n < e.first + e.count)

/-- Whether a list names a resource. -/
def castleNames (es : List CastleEntry) (kind n : Nat) : Bool := es.any fun e => e.names kind n

/-- Set or clear the binding of a resource. -/
def bindSet (kind n : Nat) (j : Option Nat) (l : List (Nat × Nat)) : List (Nat × Nat) :=
  match j with
  | some j => SMap.put (kind * 2 ^ 24 + n) j l
  | none => SMap.del (kind * 2 ^ 24 + n) l

/-- The binding table after a list of entries; KIND 7 binds nothing. -/
def bindAll (es : List CastleEntry) (l : List (Nat × Nat)) : List (Nat × Nat) :=
  es.foldl (fun l e =>
    if e.kind = 7 then l
    else (List.range e.count).foldl (fun l i => bindSet e.kind (e.first + i) (if e.unbind then none else some e.job) l) l) l

/-- The jobs of a binding table. -/
def boundJobs (l : List (Nat × Nat)) : List Nat := (l.map (·.2)).eraseDups

/-- The requester a castling acts for: the world that committed it, and no job. -/
def castleReq (secure : Bool) : Req := { secure := secure }

/-- Read the castle list of n entries; the Boolean tells of a reserved bit or an unreadable word in it. -/
def State.castleList (s : State) (secure : Bool) (addr n : Nat) : State × List CastleEntry × Bool :=
  let r := s.memRead (castleReq secure) addr (16 * n)
  let es := (List.range n).map fun i => castleEntry ((r.data.drop (16 * i)).take 16)
  (r.st, es.map (·.1), !r.ue.isEmpty || es.any (·.2))

/-- Whether a castle list is refused (R368, R383). -/
def State.castleListBad (s : State) (secure : Bool) (es : List CastleEntry) : Bool :=
  es.any (fun e => e.bad s.variant) || entriesMeet es || (!secure && es.any fun e => e.kind == 6) ||
  decide ((boundJobs (bindAll es s.bnd.bound)).length > 256)

/-! ## Steps 1 to 3 (R367, R369) -/

/-- Whether a command uses a castled resource. -/
def Cmd.castledBy (c : Cmd) (es : List CastleEntry) : Bool :=
  castleNames es 0 c.msq || castleNames es 1 c.q ||
  (match c.ctx with
    | .waitObj k => castleNames es 3 k && decide (k < 6 * 4096) || (decide (6 * 4096 ≤ k) && castleNames es 4 (k - 6 * 4096))
    | .coll k .. => castleNames es 5 k
    | _ => false)

/-- Responses a command still awaits: board accesses, rows, results, acknowledged entries, reports. -/
def Cmd.awaited (c : Cmd) : Nat :=
  match c.ctx with
  | .dma w _ => w.length
  | .fsignal _ => 1
  | .sample x => x.sent.foldl (fun n b => n + b.2.length) 0
  | .aliasWait ms .. => ms.length
  | .gather x => x.sent.length
  | .scatter x => x.sent.foldl (fun n b => n + b.left) 0
  | .store x => x.sent.foldl (fun n b => n + b.left) 0
  | .shadow n .. => n
  | _ => 0

/-- One entry of the unbind report (Table 15.4). -/
def reportEntry (kind scope die waiters num job v rest : Nat) : List Byte :=
  leBytes 1 kind ++ leBytes 1 (scope % 2 * 128 + die % 8) ++ leBytes 2 (min waiters 0xFFFF) ++ leBytes 2 num ++ leBytes 2 (job % 4096) ++
  leBytes 4 v ++ leBytes 4 rest

/-- The objects an unbind or a castling affects: those named and bound, and those owned by a castled square (R262,
R264). -/
def State.castledObjs (s : State) (es : List CastleEntry) : List Nat :=
  (((s.bnd.bound.map (·.1)).filterMap fun b =>
      let kind := b / 2 ^ 24
      let n := b % 2 ^ 24
      if (kind = 3 ∨ kind = 4) ∧ castleNames es kind n then some (if kind = 3 then n else fabricObj n) else none) ++
    (s.arb.objs.filter fun p => decide (p.1 < 6 * 4096) && p.2.state == .active && castleNames es 0 p.2.owner).map (·.1)).eraseDups

/-- Examine and orphan one object: its LEFTOVER entry, if it is away from rest (R264). -/
def State.examine (s : State) (key : Nat) : State × List (List Byte) :=
  let o := s.obj key
  let w := (s.objWaiters key).length
  let job := (s.objJob key).getD 0
  let away := o.value ≠ o.rest ∨ 0 < w ∨ o.state = .orphaned
  let t := if o.state = .orphaned then s else s.orphan key
  if away then
    ((t.count bndPg BND.LEFTOVERS 1).err bndPg BND.E_LEFTOVER job,
     [reportEntry 1 (b2n (decide (6 * 4096 ≤ key))) (key / 4096 % 6) w (key % 4096) job o.value o.rest])
  else (t, [])

/-- Orphan a list of objects with their report entries. -/
def State.examineAll (s : State) (ks : List Nat) : State × List (List Byte) :=
  ks.foldl (fun (a : State × List (List Byte)) k => let (s, e) := a.1.examine k; (s, a.2 ++ e)) (s, [])

/-- Abort the instances of castled contexts, with their report entries (R336). -/
def State.castleCtxs (s : State) (es : List CastleEntry) : State × List (List Byte) :=
  ((s.red.map (·.1)).filter fun k => castleNames es 5 k).foldl (fun (a : State × List (List Byte)) k =>
    let s := a.1
    let x := s.ctx k
    if x.st = .active then
      (s.ctxOrphan k, a.2 ++ [reportEntry 3 (k / 4096) 0 0 (k % 4096) (s.ctxJob k) x.last 0])
    else a) (s, [])

/-- Clear ENABLE of a queue and forget the descriptors read ahead. -/
def State.queueOff (s : State) (q : Nat) : State :=
  let s := s.setQreg q QMG.Q_CONFIG (s.qreg q QMG.Q_CONFIG % 2 ^ 31)
  s.setQst q { s.qst q with fetched := [] }

/-- The queues that hold a state or a binding. -/
def State.knownQueues (s : State) : List Nat :=
  ((s.queues.map fun (p : Nat × QState) => p.1) ++
    s.bnd.bound.filterMap (fun (b : Nat × Nat) => if b.1 / 2 ^ 24 = 1 then some (b.1 % 2 ^ 24) else none)).eraseDups

/-- Write the report's header (R369). -/
def State.reportHeader (s : State) (secure : Bool) (base beat done n cut : Nat) : State :=
  (s.memWrite (castleReq secure) base (leBytes 8 beat ++ leBytes 8 done ++ leBytes 4 n ++ leBytes 4 cut ++ leBytes 8 0)).st

/-- Write the unbind report: as many entries as REPORT_MAX allows (R369). -/
def State.writeReport (s : State) (secure : Bool) (es : List (List Byte)) : State :=
  let base := s.reg bndPg BND.REPORT_BASE
  let n := min es.length (s.reg bndPg BND.REPORT_MAX % 2 ^ 16)
  let cut := es.length - n
  let s := s.reportHeader secure base s.beat 0 n cut
  let s := (s.memWrite (castleReq secure) (base + 32) (es.take n).flatten).st
  if cut = 0 then s else (s.count bndPg BND.REPORT_TRUNCATED cut).err bndPg BND.E_REPORT_TRUNCATED 0

/-- Report entries of the queues that commands ended from. -/
def queueEntries (cs : List Cmd) : List (List Byte) :=
  ((cs.map (·.q)).eraseDups).map fun q =>
    let mine := cs.filter fun c => c.q == q
    reportEntry 2 0 (qDie q) 0 (qNum q) ((mine.head?.map fun c => c.desc.job).getD 0) mine.length 0

/-- Whether a castling ends a command: it uses a castled resource and has no status yet. A wait that has been released completes
(R258, R367; log entry 43). -/
def Cmd.orphanedBy (c : Cmd) (es : List CastleEntry) : Bool :=
  c.castledBy es && (!c.done || (c.ended.isNone && !(decide (0x0A ≤ c.desc.opcode) && decide (c.desc.opcode ≤ 0x0D))))

/-- A command ends with ORPHAN, its effects in place or not (R367). -/
def State.orphanCmd (s : State) (id : Nat) : State :=
  let s := match s.cmd? id with
    | some c => s.strictCount c
    | none => s
  ((s.mapCmd id fun c => { c with done := true, ended := some (c.ended.getD .orphan) }).unwait id).dropWaits id

/-- The commands that a castling gave ORPHAN: those on a castled resource, and the waiters of objects and the members of
instances that it orphaned. They are listed as they stood before. -/
def State.orphanedFrom (s old : State) : List Cmd :=
  old.cmds.filter fun c => c.ended != some .orphan && (s.cmd? c.id).any fun x => x.ended == some .orphan

/-- A castling starts at the beat of its commit: castled resources stop work, their commands end with ORPHAN, objects and
contexts are orphaned, the unbind report is written (R367, R369); castled squares wake (R392). -/
def State.castleStart (s : State) (secure : Bool) (es : List CastleEntry) : State :=
  let old := s
  -- objects are examined with the waiters they held (R262, R264)
  let (s, left) := s.examineAll (s.castledObjs es)
  let s : State := (old.cmds.filter fun c => c.orphanedBy es).foldl (fun (s : State) c => s.orphanCmd c.id) s
  let (s, ctxs) := s.castleCtxs es
  let ended := s.orphanedFrom old
  let s := s.count bndPg BND.ORPHANED_CMDS ended.length
  let s : State := (s.knownQueues.filter fun q => castleNames es 1 q).foldl State.queueOff s
  let s := s.writeReport secure (left ++ queueEntries ended ++ ctxs)
  let s : State := ((s.pwr.sq.map (·.1)).filter fun m => castleNames es 0 m).foldl State.wakeSquare s
  let s := (s.setReg bndPg BND.CASTLE_BEAT s.beat).setReg bndPg BND.CASTLE_COUNT 0
  let s := s.dropShadow bndPg BND.CASTLE_COUNT
  { s with
    bnd := { s.bnd with
      castle := some (({
          beat := s.beat
          entries := es
          secure := secure
          base := s.reg bndPg BND.REPORT_BASE
          waiting := (ended.filter fun c => 0 < c.awaited).map fun c => (c.id, c.awaited) } : Castle)) } }

/-! ## Step 4 (R365, R367) -/

/-- What binding or unbinding does to one resource (Table 15.1); a castled square's floor is zero (R391). -/
def State.bindOne (s : State) (e : CastleEntry) (n : Nat) : State :=
  match e.kind with
  | 0 =>
    let s := s.setSqp n { s.sqp n with f := 0 }
    if e.unbind then s else s.scsReset n
  | 1 => s.queueOff n
  | 2 => s.setReg (qmgPg (n / 4096)) QMG.CQ_CONFIG (s.reg (qmgPg (n / 4096)) QMG.CQ_CONFIG (n % 4096) % 2 ^ 31) (n % 4096)
  | 3 => if e.unbind then s else s.uninit n
  | 4 => if e.unbind then s else s.uninit (fabricObj n)
  | 5 => if e.unbind then s.setCtx n { last := (s.ctx n).last } else s.setCtx n {}
  | 6 =>
    if e.unbind then { s with mem := { s.mem with regUnbound := (s.mem.regUnbound.filter (· != n)) ++ [n] } }
    else
      let w := s.reg secPg SEC.REGION_ENTRY3 n
      let s := s.setReg secPg SEC.REGION_ENTRY3 (w - bits w 27 16 * 2 ^ 16 + e.job * 2 ^ 16) n
      { s with mem := { s.mem with regUnbound := s.mem.regUnbound.filter (· != n) } }
  | _ => if e.unbind then s else s.setReg bndPg BND.JOB_SHARE e.arg e.job

/-- A job that is no longer bound loses its SHARE, its member list and its LIST_VER (R364). -/
def State.dropJob (s : State) (j : Nat) : State :=
  (((s.setJob j {}).setReg bndPg BND.JOB_SHARE 16 j).dropShadow bndPg BND.JOB_SHARE j)

/-- The jobs a castle list names for a SHARE. -/
def shareJobs (es : List CastleEntry) : List Nat := (es.filter fun e => e.kind == 7 && !e.unbind).map (·.job)

/-- CASTLE_BIND: in beat B + 1 the new bindings take effect and each resource is initialised or released (R367). A job bound
anew starts without a list and with SHARE 16, one no longer bound loses them, and an unbound one takes none (R364, R370). -/
def State.castleBind (s : State) : State :=
  match s.bnd.castle with
  | none => s
  | some c =>
    if c.bound ∨ s.beat < c.beat + 1 then s
    else
      -- commands that had finished complete under the old bindings
      let s := (s.cmds.filter fun x => x.done && x.castledBy c.entries).foldl State.complete s
      let before := boundJobs s.bnd.bound
      let bound := bindAll c.entries s.bnd.bound
      let after := boundJobs bound
      let s := (after.filter fun j => !(before.contains j)).foldl State.dropJob s
      let s : State := { s with bnd := { s.bnd with bound := bound, castle := some ({ c with bound := true }) } }
      let s := c.entries.foldl (fun s e => (List.range e.count).foldl (fun s i => s.bindOne e (e.first + i)) s) s
      ((before ++ shareJobs c.entries).filter fun j => !(after.contains j)).foldl State.dropJob s

def execCastleBind (s : State) : Res := .next s.castleBind

/-- A response of a command that a castling ended has arrived (R367). -/
def State.castleGot (s : State) (id n : Nat) : State :=
  match s.bnd.castle with
  | none => s
  | some c =>
    let w := c.waiting.filterMap fun p => if p.1 = id then (if p.2 ≤ n then none else some (p.1, p.2 - n)) else some p
    { s with bnd := { s.bnd with castle := some ({ c with waiting := w }) } }

/-- CASTLE_COMPLETE: the first beat boundary after step 4 and the last response, at B + 2,000 at the latest (R367). -/
def State.castleComplete (s : State) : State :=
  match s.bnd.castle with
  | none => s
  | some c =>
    if c.bound ∧ c.beat + 2 ≤ s.beat ∧ (c.waiting.isEmpty ∨ c.beat + 2000 ≤ s.beat) then
      let s := (s.setReg bndPg BND.CASTLE_BEATS (s.beat - c.beat)).count bndPg BND.CASTLES_DONE 1
      let s := (s.memWrite (castleReq c.secure) (c.base + 8) (leBytes 8 s.beat)).st
      { s with bnd := { s.bnd with castle := none } }
    else s

def execCastleComplete (s : State) : Res := .next s.castleComplete

/-- Whether a packet of the old job reaches a resource that a castling holds: it is refused with UNBOUND (R367). -/
def State.castledPkt (s : State) (p : Pkt) : Bool :=
  match s.bnd.castle with
  | none => false
  | some c =>
    !c.bound &&
    ((decide (p.hdr.dstDie < 6) && castleNames c.entries 0 (p.hdr.dstDie * 64 + p.hdr.dstSq)) ||
      (match p.body with
        | .fsignal _ o _ => castleNames c.entries 4 o
        | .barArrive o .. => castleNames c.entries 4 o
        | .barRelease o => castleNames c.entries 4 o
        | .barEnd o _ => castleNames c.entries 4 o
        | .redUp _ => castleNames c.entries 5 p.ctx
        | .redDown _ => castleNames c.entries 5 p.ctx
        | _ => false))

/-! ## Member lists (R371, R372, R196) -/

/-- The list of n module IDs at an address; the Boolean tells of an uncorrectable word. -/
def State.readList (s : State) (secure : Bool) (addr n : Nat) : State × List Nat × Bool :=
  let r := s.memRead (castleReq secure) addr (2 * n)
  (r.st, elems 2 r.data, !r.ue.isEmpty)

/-- Whether a list repeats an ID. -/
def listRepeats : List Nat → Bool
  | [] => false
  | m :: ms => ms.contains m || listRepeats ms

/-- Rows of a job owned here that change homes under a new list: those without a MOVED entry whose home differs, and every
row when this module leaves the list (R196). -/
def State.listMoves (s : State) (j : Nat) (new : List Nat) : List RowKey :=
  (s.ownedRows j).filter fun k =>
    s.homeIn new k != s.modId && (s.migOut k).isNone &&
    (s.homeIn (s.job j).members k == s.modId || !(new.contains s.modId))

/-- Begin the migrations of a change of list at beat b: each new home is told, and where this module leaves the list and is not
the row's default home, so is that home, whose MOVED entry changes (R196). -/
def State.startMoves (s : State) (j b : Nat) (new : List Nat) : State :=
  if (s.job j).members.isEmpty then s
  else (s.listMoves j new).foldl (fun s k =>
    let dest := s.holder (s.homeIn new k)
    let home := s.defaultHome k
    let s := (s.putOut { key := k, dest := dest, affinity := false, flip := some b }).plcSend dest j (.flipNotice k dest b s.modId)
    if home = s.modId ∨ home = dest then s else s.plcSend home j (.flipNotice k dest b s.modId)) s

/-- Migrations that a commit armed for this beat flip now where the list installed takes their rows to the same home; the
others do not take place (R196). -/
def State.armedMoves (s : State) (j : Nat) (new : List Nat) : State :=
  (s.plc.out.filter fun m => m.key.job == j && !m.affinity && m.phase != .sent && !(s.twinSt.assumed.contains m.key)).foldl
    (fun s m =>
      if m.dest = s.holder (s.homeIn new m.key) then s.putOut { m with flip := some s.beat } else s.abandonOut m.key) s

/-- Rows of a job that this module, as their default home, knows to live elsewhere or on their way: those with an entry, and
those on their way here by an earlier list. -/
def State.knownRows (s : State) (j : Nat) : List RowKey :=
  (s.plc.dir.filterMap fun p => if p.2.key.job = j then some p.2.key else none) ++
  (s.plc.inn.filterMap fun m => if m.key.job = j ∧ m.byList ∧ m.owner = false then some m.key else none)

/-- Rows of a job whose owner a new list keeps and whose default home it changes from this module: the new default home is
told who serves them, and where those between flip and transfer are until then (R183, R196; log entry 84). -/
def State.tellHomes (s : State) (j : Nat) (new : List Nat) : State :=
  ((s.knownRows j).filter fun k => s.homeIn (s.job j).members k == s.modId && ((s.migOut k).all fun m => m.affinity)).foldl
    (fun s k =>
      let home := s.holder (s.homeIn new k)
      let owner := s.resolveDir k
      if home = s.modId ∨ home = owner ∨ !(new.contains owner) then s
      else
        let old := if s.flipped k then ((s.migIn k).map (·.old)).getD owner
          else match kget k s.plc.back with
            | some (n, o) => if n = owner then o else owner
            | none => owner
        s.plcSend home j (.flipNotice k owner s.beat old)) s

/-- MOVED entries that a new list ends: those that name the default home, and shortcuts to a module that left; a default home
keeps its own until the row has moved (R183, R196). -/
def State.listEntries (s : State) (j : Nat) (old : List Nat) : State :=
  let new := (s.job j).members
  (s.plc.dir.filter fun p => p.2.key.job == j && p.2.kind == 1 &&
      (s.defaultHome p.2.key == p.2.owner || (!(new.contains p.2.owner) && s.homeIn old p.2.key != s.modId))).foldl
    (fun s p => s.dirDel p.2.key) s

/-- A list is installed: LIST_VER rises, rows change homes (R371, R196). -/
def State.installList (s : State) (j : Nat) (new : List Nat) : State :=
  let x := s.job j
  let s := ((s.armedMoves j new).startMoves j s.beat new).tellHomes j new
  let s := (s.setJob j { members := new, ver := (x.ver + 1) % 65536, prev := x.members, since := s.beat }).listEntries j x.members
  (((s.count bndPg BND.LIST_CHANGES 1).setReg bndPg BND.MLIST_COUNT 0 j).dropShadow bndPg BND.MLIST_COUNT j).fbarListed j

/-- MOVE_READY of a job, when a change of its list is armed or made: every row owned here that it takes away has reached
FORWARD (R196). -/
def State.moveReady (s : State) (j : Nat) : Bool :=
  let x := s.job j
  let l := s.plc.out.filter fun m => m.key.job == j && !m.affinity
  (!x.next.isEmpty || !x.prev.isEmpty) && (s.listMoves j (if x.next.isEmpty then x.members else x.next)).isEmpty &&
  l.all fun m => m.phase != .chosen && m.phase != .prepare

/-! ## Epochs (R373 to R375) -/

/-- Forget every register of the pages a predicate picks: they hold their reset values (R8). -/
def State.wipeRegs (s : State) (f : Nat → Nat → Bool) : State :=
  let keep (k : Nat) : Bool := !(f (k / 4096 / 2 ^ 20) (k / 4096 % 2 ^ 20))
  { s with regs := { s.regs with
      live := s.regs.live.filter fun p => keep p.1
      shadow := s.regs.shadow.filter fun p => keep p.1
      latch := s.regs.latch.filter fun p => keep p.1
      armed := s.regs.armed.filter fun a => keep (regKey a.page 0 0) } }

/-- Whether a page is one of a square's seven. -/
def squarePageOf (msq page : Nat) : Bool := decide (sqPg msq ≤ page) && decide (page < sqPg msq + 16)

/-- A square's pages take their reset values; NS keeps what management firmware has set (log entry 25). -/
def State.wipeSquare (s : State) (msq : Nat) : State :=
  let ns := (List.range 7).map fun i => s.reg (sqPage msq i) HDR.WORLD
  let s := s.wipeRegs fun p _ => squarePageOf msq p
  (List.range 7).foldl (fun s i => s.setReg (sqPage msq i) HDR.WORLD ((ns[i]?).getD 0)) s

/-- A unit's epoch advances and it becomes STALE; a STALE square's objects are orphaned (R262, R373). -/
def State.staleOne (s : State) (u cause : Nat) : State :=
  let s : State := { s with bnd := { s.bnd with
    epoch := SMap.set 0 u ((s.unitEpoch u + 1) % 65536) s.bnd.epoch
    stale := if s.bnd.stale.contains u then s.bnd.stale else s.bnd.stale ++ [u]
    cause := SMap.put u cause s.bnd.cause } }
  let s := (s.count bndPg BND.STALE_EVENTS 1).err bndPg BND.E_UNIT_STALE u
  if u < 384 then s.orphanOwned u else s

/-- The squares of a stack's die. -/
def stackSquares (st : Nat) : List Nat := (List.range 64).map fun i => st / 2 * 64 + i

/-- A unit loses state: with a stack, every square of its die goes STALE (R373). -/
def State.unitStale (s : State) (u cause : Nat) : State :=
  let s := s.staleOne u cause
  if u < 384 then s else (stackSquares (u - 384)).foldl (fun s m => s.staleOne m cause) s

/-- Whether a unit exists. -/
def State.unitPresent (s : State) (u : Nat) : Bool :=
  if u < 384 then s.squarePresent u else decide (u - 384 < s.variant.stacks)

/-- Whether a unit may not be resynchronised: it is absent, or a square whose die's stack is still STALE (R374). -/
def State.resyncBad (s : State) (u : Nat) : Bool :=
  !(s.unitPresent u) ||
  (decide (u < 384) && (s.isStale (384 + u / 64 * 2) || s.isStale (384 + u / 64 * 2 + 1)))

/-- The jobs of a unit: a square's, or those of a stack's die. -/
def State.unitJobs (s : State) (u : Nat) : List Nat :=
  if u < 384 then (s.jobOf 0 u).toList else ((stackSquares (u - 384)).filterMap fun m => s.jobOf 0 m).eraseDups

/-- RESYNC of a unit: STALE is cleared, the epoch kept, the job's members told; a square holds reset values and a zero
Scoresheet (R374, R375). -/
def State.resync (s : State) (u : Nat) : State :=
  if !(s.isStale u) then s
  else
    let s : State := { s with bnd := { s.bnd with
      stale := s.bnd.stale.filter (· != u)
      cause := SMap.del u s.bnd.cause } }
    let s := s.count bndPg BND.RESYNCS 1
    let s := if u < 384 then (s.wipeSquare u).scsReset u else s
    (s.unitJobs u).foldl (fun s j => (s.otherMembers j).foldl (fun s m => s.plcSend m j (.epochNotice u (s.unitEpoch u))) s) s

/-- The unit a RESYNC names: KIND, index. -/
def resyncUnit (kind idx : Nat) : Nat := if kind = 1 then 384 + idx else idx

/-- The checks of BND_RESYNC (R374). -/
def resyncCheck : Check := lateCheck
  (fun _ c => firstOf [(c.desc.f 0 30 9 != 0 || !(c.desc.zeroWords [1, 2, 3, 4, 5, 6, 7]) ||
    (!(c.desc.bitB 0 31) && decide (384 ≤ c.desc.f 0 8 0)), .configInvalid)])
  fun s c =>
  let d := c.desc
  let stack := d.bitB 0 31
  let idx := d.f 0 8 0
  let u := resyncUnit (b2n stack) idx
  firstOf [(s.resyncBad u ||
    (if stack then (stackSquares idx).any fun m => s.squarePresent m && s.jobOf 0 m != some d.job
     else s.jobOf 0 idx != some d.job), .configInvalid)]

/-- BND_RESYNC clears STALE on a square or a stack; INFO0 returns the epoch (R374). -/
def execBndResync (q : Nat) (d : Desc) (s : State) : Res :=
  .next (s.command q d resyncCheck fun s c =>
    let u := resyncUnit (b2n (d.bitB 0 31)) (d.f 0 8 0)
    (s.resync u).addCmd { c with done := true, info0 := s.unitEpoch u })

/-- A write to RESYNC_CMD: as BND_RESYNC without the binding checks; a failing write sets RESYNC_REFUSED (R374). -/
def State.resyncWrite (s : State) (v : Nat) : State :=
  let idx := v % 512
  let u := resyncUnit (v / 2 ^ 31) idx
  if v / 512 % 2 ^ 22 != 0 || (v / 2 ^ 31 == 0 && decide (384 ≤ idx)) || s.resyncBad u then s.err bndPg BND.E_RESYNC_REFUSED u
  else s.resync u

def execResyncCmd (v : Word) (secure : Bool) (s : State) : Res :=
  .next (s.guardWrite bndPg BND.RESYNC_CMD false secure fun s => s.resyncWrite v.toNat)

/-- EPOCH_NOTICE: the epoch of a member's square is recorded (R375). -/
def State.onEpochNotice (s : State) (p : Pkt) : State :=
  match p.body with
  | .epochNotice u e =>
    { s with bnd := { s.bnd with learned := SMap.set 0 (p.hdr.srcMod * 512 + u) e s.bnd.learned } }
  | _ => s

/-- STACK_CONTENTS_LOST: the stack leaves the ready state or loses its contents; it and its die's squares go STALE
(R373). -/
def State.stackLost (s : State) (st : Nat) : State :=
  if st < s.variant.stacks then (s.setStack st .failed).unitStale (384 + st) 4 else s

def execStackContentsLost (stack : Nat) (s : State) : Res := .next (s.stackLost stack)

/-- RETURN_TO_SERVICE: management firmware returns a repaired unit: its epoch advances and it is STALE; a stack is ready
again (R373). -/
def State.returnUnit (s : State) (stack : Bool) (unit : Nat) : State :=
  let u := if stack then 384 + unit else unit
  if s.unitPresent u then (if stack then s.setStack unit .ready else s).unitStale u 3 else s

def execReturnToService (isStack : Bool) (unit : Nat) (s : State) : Res := .next (s.returnUnit isStack unit)

end Sys2Proof.Machine
end

