-- ==== Sys2Proof/Machine/Endings.lean ====
section
/-! DEFINITION. Commands that end early: what they leave undefined; modules declared lost (13_fabric_links_and_host.md
R312, 10_commands_queues_tempo.md R232, R243). -/

namespace Sys2Proof.Machine

/-! ## Undefined outputs (R243) -/

/-- The slots of a square's gradient window in use (R160). -/
def State.windowSlots (s : State) (msq : Nat) : List Nat := (List.range (s.rk msq).used).map fun j => s.gwinBase msq + j

/-- The slots a command of the matrix, vector or receiving unit targets. -/
def State.cmdSlots (s : State) (c : Cmd) : List Nat :=
  let d := c.desc
  match d.opcode with
  | 0x20 => if mmCoarse d then [] else (List.range ((mmArgs d).rows * (mmArgs d).cols)).map fun j => d.f 5 15 0 + j
  | 0x28 => if roClear d then scsSlots d else []
  | 0x29 => scsSlots d
  | 0x33 => if vsFunc d = 2 then [] else (List.range (vsRows d)).map fun j => vsSlot d + j
  | 0x34 => if vuRatio d then [vuSlot d, vuSlot d + 1] else []
  | 0x70 => (List.range (glRows d * glNeurons d)).map fun j => glSlot d + j
  | 0x53 => s.windowSlots c.msq
  | 0x54 => s.windowSlots c.msq
  | 0x55 => s.windowSlots c.msq
  | _ => []

/-- The rows of an array: start and bytes of each. -/
def VxArr.rowList (a : VxArr) : List (Nat × Nat) := (List.range a.rows).map fun i => (a.addr + i * a.stride, a.len)

/-- The arrays of square memory that a command of the matrix, Scoresheet or vector unit writes. -/
def cmdArrays (d : Desc) : List (Nat × Nat) :=
  match d.opcode with
  | 0x20 => if mmCoarse d then [(d.f 7 21 0, (mmArgs d).rows * (mmArgs d).cols * 8)] else []
  | 0x30 => (vsOuts d).flatMap VxArr.rowList
  | 0x31 => (vaOut d).rowList
  | 0x32 => (vsOuts d).flatMap VxArr.rowList
  | 0x33 => (vsOuts d).flatMap VxArr.rowList
  | 0x28 =>
    ((List.range (roRows d)).map fun i => (roOut d + i * (d.f 7 31 16 * 32), roRowBytes d)) ++
    (if roMx d then [(d.f 3 21 0, roRows d * ((roCols d + 31) / 32))] else [])
  | 0x34 =>
    let n := vuCount d
    [(vuW d, 6 * n)] ++
    (match vuOpt d with
      | 0 => []
      | 1 => [(vuM d, 6 * n)]
      | 2 => [(vuM d, vuV d - vuM d + 6 * n)]
      | _ => []) ++
    (if vuHasWc d then [(vuWc d, vxOutRow (vuWcFmt d) n)] else []) ++
    (if vuWcMx d then [(vuWcScale d, (n + 31) / 32)] else [])
  | _ => []

/-- What Table 10.4 names for a command that an event ends: the counts of what it has done until then (log entry 70). -/
def Cmd.infoSoFar (c : Cmd) : Nat × Nat :=
  match c.ctx with
  | .sample x => x.info
  | .aliasWait _ built bad => (built, bad)
  | .gather x => (x.rows, x.hits)
  | .scatter x => (x.count, x.skip)
  | .store x => (x.rows, x.bad)
  | .settle _ rows => (rows, 0)
  | _ => (c.info0, c.info1)

/-- The outputs, slots and rows of a command that an ending event ends become free values (R152, R243). -/
def State.spoil (s : State) (c : Cmd) : State :=
  let d := c.desc
  match c.ctx with
    | .dma _ _ => s.dmaSpoil d
    | .flush _ => s.dmaSpoil d
    | .sample x => s.sampleSpoil c x
    | .gather _ => (s.strictCount c).gatherSpoil c
    | .scatter _ => s.scatterSpoil c
    | .store x => s.storeSpoil c x
    | .coll k .. => s.collSpoil c (s.ctx k)
    | _ => (cmdArrays d).foldl (fun s a => s.fillFree c.msq a) (s.freeSlots c.msq (s.cmdSlots c))

/-- An ending event ends a command: its outputs are undefined, its information is what it has done, and nothing waits for it any
more (R230, R232). -/
def State.stopCmd (s : State) (c : Cmd) (st : Status) : State :=
  let s := (s.spoil c).mapCmd c.id fun c => { c with
    done := true, ended := some (c.ended.getD st), info0 := min c.infoSoFar.1 0xFFFFFFFF, info1 := min c.infoSoFar.2 0xFFFFFFFF }
  (s.unwait c.id).dropWaits c.id

/-! ## Modules declared lost (R312) -/

/-- Whether a command waits on a module that a test names. -/
def State.waitsOn (s : State) (hit : Nat → Bool) (c : Cmd) : Bool :=
  match c.ctx with
  | .dma w _ => w.any fun e => hit (s.boardMod (if e.2.2 = 0 then e.2.1 else dmaSrc c.desc))
  | .fsignal t => hit t
  | .sample x => x.sent.any fun b => hit b.1
  | .aliasWait ms _ _ => ms.any hit
  | .gather x => x.sent.any fun b => hit b.1
  | .scatter x => x.sent.any fun b => hit b.target
  | .store x => (x.sent.any fun b => hit b.target) || (hit s.twinId && s.twinSt.adjWaits.contains c.id)
  | .shadow .. => hit s.twinId
  | _ => false

/-- End the commands that wait on a lost module with LINK_LOST (R312). -/
def State.endWaiters (s : State) (hit : Nat → Bool) : State :=
  (s.cmds.filter fun c => !c.done && s.waitsOn hit c).foldl (fun s c => s.stopCmd c .linkLost) s

/-- The image writes awaited of a lost twin: a command's wait ends with it, a batch's write is skipped (R378). -/
def State.twinLost (s : State) : State :=
  let ws := s.twinSt.adjWaits
  let s : State := { s with twinSt := { s.twinSt with adjWaits := [], own := [], later := [] } }
  ws.foldl (fun s id =>
    if s.plc.batches.any fun b => b.id == id then (s.count bndPg BND.SHADOW_SKIPPED 1).storeDone id 0 none 0 else s) s

/-- Fabric barriers after a loss: where both modules of a pair are lost the instance ends with LINK_LOST (R261); else the
nodes here, some of them perhaps the lost member's, are looked at again. -/
def State.fbarLost (s : State) (n : FNode) : State :=
  let l := s.setMembers n.job n.ver n.first n.count
  if l.any s.pairGone then (s.fbarEnd n.job n.obj .linkLost).fbarReplay n.job n.obj n.later
  else
    let gs := treeGroups l
    let (s, got, passed, root) := s.fbarUp n.job n.obj n.first n.count n.ver l gs gs n.got n.passed
    if root then (s.fbarDown n.job n.obj n.first n.count n.ver).fbarReplay n.job n.obj n.later
    else s.setFnode { n with got := got, passed := passed }

/-- A fabric barrier of this module whose set has lost both modules of a pair. -/
def State.fbarPairLost (s : State) (b : FBarrier) : Bool :=
  match s.cmd? b.cmd with
  | none => false
  | some c => (s.setMembers c.desc.job b.ver b.first b.count).any s.pairGone

def State.barriersLost (s : State) : State :=
  let s := s.fbarsEnd (s.arb.fbars.filter s.fbarPairLost) .linkLost
  s.arb.fnodes.foldl State.fbarLost s

/-- Packets of this module's queues that go to a lost module take the substitute's address, or are dropped (R312). -/
def State.requeue (s : State) (m : Nat) (port : Nat) : State :=
  let x := s.port port
  let (gone, stay) := x.queue.partition fun p => p.hdr.dstMod == m
  let s := s.setPort port { x with queue := stay }
  gone.foldl (fun s p => if p.hdr.srcMod = s.modId then s.sendPkt p else s.passOn p.via { p with hdr := { p.hdr with hops := p.hdr.hops - 1 } }) s

/-- The streams between this module and another are freed, with their resend copies (R312). -/
def State.freeStreams (s : State) (m : Nat) : State :=
  { s with fab := { s.fab with
      tx := s.fab.tx.filter fun t => t.1 / 8 != m
      rx := s.fab.rx.filter fun t => t.1 / 8 != m } }

/-- Everything a declaration of loss sets off on this module (R312). -/
def State.declareLost (s : State) (m : Nat) (sub : Option Nat) : State :=
  let hit (t : Nat) : Bool := t == m || s.substitute t == some m
  let s := s.endWaiters hit
  let s : State := { s with fab := { s.fab with lost := SMap.put m sub s.fab.lost } }
  let s := (s.setReg fabPg FAB.LOST_COUNT s.fab.lost.length).setRecovery
  let s := s.freeStreams m
  -- ports whose partner is the lost module are as FAILED for routing
  let s := ((List.range 24).filter fun p => (s.port p).partner.map (·.1) == some m).foldl State.reroute s
  let s := (List.range 24).foldl (fun s p => s.requeue m p) s
  let waiting := s.fab.waiting.filter fun p => p.hdr.dstMod == m
  let s : State := { s with fab := { s.fab with waiting := s.fab.waiting.filter fun p => p.hdr.dstMod != m } }
  let s := waiting.foldl State.sendPkt s
  let s := if m = s.twinId then s.twinLost else s
  let s := s.hostGone m
  let s := (s.plcLost m).moveWaits.redLost m sub.isSome
  (s.barriersLost.drainWaiting s.fab.waiting.length).pumpBatches

/-- LOST_CMD with OP 2: refused where LOST_SUB names the lost module or one already lost (R312). -/
def State.declareSub (s : State) (m : Nat) : State :=
  let x := s.reg fabPg FAB.LOST_SUB % 2 ^ 15
  if x = m ∨ s.isLost x then s.err fabPg PLY.E_LOST_REFUSED m else s.declareLost m (some x)

/-- LOST_CMD with OP 3 clears the declaration (R312). -/
def State.clearLost (s : State) (m : Nat) : State :=
  let s : State := { s with fab := { s.fab with lost := SMap.del m s.fab.lost } }
  let s := s.setReg fabPg FAB.LOST_COUNT s.fab.lost.length
  (List.range 24).foldl State.pump s

/-- LOST_DECLARE: LOST_CMD with OP 1. -/
def execLostDeclare (m : Nat) (secure : Bool) (s : State) : Res :=
  .next (s.guardWrite fabPg FAB.LOST_CMD true secure fun s => s.declareLost (m % 2 ^ 15) none)

def execLostDeclareSub (m : Nat) (secure : Bool) (s : State) : Res :=
  .next (s.guardWrite fabPg FAB.LOST_CMD true secure fun s => s.declareSub (m % 2 ^ 15))

def execLostClear (m : Nat) (secure : Bool) (s : State) : Res :=
  .next (s.guardWrite fabPg FAB.LOST_CMD true secure fun s => s.clearLost (m % 2 ^ 15))

/-- LOST_CMD written as a register: the operation its OP names. -/
def State.lostWrite (s : State) (v : Nat) : State :=
  match bits v 31 30 with
  | 1 => s.declareLost (v % 2 ^ 15) none
  | 2 => s.declareSub (v % 2 ^ 15)
  | 3 => s.clearLost (v % 2 ^ 15)
  | _ => s

end Sys2Proof.Machine
end

