-- ==== Sys2Proof/Machine/Twin.lean ====
section
/-! DEFINITION. Twin shadows, heartbeats, failover and replacement (15_jobs_binding_twin.md R376 to R381,
19_module_interface.md R456). -/

namespace Sys2Proof.Machine

/-- Every step "none" of SHADOW_GEN and HOLD_GEN (Table 15.8). -/
def noGen : Nat := 0xFFFFFFFF

def State.setTw (s : State) (x : TwinState) : State := { s with twinSt := x }

/-! ## BND_SHADOW and BND_SEAL (R377) -/

def shKind (d : Desc) : Nat := d.f 0 31 30
def shTable (d : Desc) : Nat := d.f 0 29 18
def shFull (d : Desc) : Bool := d.bitB 0 17
def shStep (d : Desc) : Nat := d.b 1
def shAddr (d : Desc) : Nat := d.f 2 21 0
def shCount (d : Desc) : Nat := d.f 3 31 12

/-- The generation of a job that this module has open at its twin. -/
def State.ownGen (s : State) (job : Nat) : Option OpenGen := s.twinSt.own.find? fun g => g.job == job

/-- Whether a step is newer than the newest one sealed (R337, R377). -/
def State.newGen (s : State) (job step : Nat) : Bool :=
  let g := s.reg bndPg BND.SHADOW_GEN job
  g == noGen || newer32 step g

/-- The body checks of BND_SHADOW (R377). -/
def shadowBad (s : State) (d : Desc) : Bool :=
  (shKind d != 0 && !((s.tbl d.job (shTable d)).any Tbl.emb)) ||
  !(s.newGen d.job (shStep d)) ||
  (s.ownGen d.job).any (fun g => g.step == shStep d && g.full != shFull d)

/-- Body errors of BND_SHADOW by its own fields (Table 15.6, R377). -/
def shadowBody (d : Desc) : Bool :=
  let bytes := if shKind d = 0 then 32 + 16 * shCount d else 8 * shCount d
  shKind d == 3 || d.f 0 16 0 != 0 || d.f 2 31 22 != 0 || d.f 3 11 0 != 0 || !(d.zeroWords [4, 5, 6, 7]) ||
  (shKind d != 2 && packedBad (shAddr d) bytes)

/-- The count of indices a command uses: a touch list's is the smaller of COUNT and the header's (Table 15.5). -/
def State.shUsed (s : State) (c : Cmd) : State × Nat × Bool :=
  let d := c.desc
  if shKind d = 0 then
    let n := s.readElems c.msq (shAddr d) 4 1
    (n.st, min (shCount d) ((n.codes[0]?).getD 0), !n.ue.isEmpty)
  else (s, shCount d, false)

/-- The checks of BND_SHADOW (R377). -/
def shadowCheck : Check where
  body _ c := firstOf [(decide (shKind c.desc < 2) && shCount c.desc == 0, .empty), (shadowBody c.desc, .configInvalid)]
  rest s c :=
    let d := c.desc
    if shadowBad s d then (s, some .configInvalid)
    else
      let (s, n, u) := s.shUsed c
      if u then (s, some .guardUncorrectable)
      else if shKind d ≠ 2 ∧ n = 0 then (s, some .empty) else (s, none)

/-- The rows a command names, and whether their list was uncorrectable. -/
def State.shRows (s : State) (c : Cmd) : State × List (Option RowKey) × Bool :=
  let d := c.desc
  if shKind d = 2 then (s, ((s.ownedRows d.job).filter fun k => k.table == shTable d).map some, false)
  else
    let (s, n, _) := s.shUsed c
    if shKind d = 0 then
      let r := s.readElems c.msq (shAddr d + 32) 16 n
      (r.st, r.codes.map fun e => r.st.rowKey d.job (bits e 63 52) (bits e 47 0), !r.ue.isEmpty)
    else
      let r := s.readElems c.msq (shAddr d) 8 n
      (r.st, r.codes.map fun e => r.st.rowKey d.job (shTable d) e, !r.ue.isEmpty)

/-- Send one shadow write to the twin. -/
def State.sendShadow (s : State) (cmd job step : Nat) (full : Bool) (i : ShadowItem) : State :=
  (s.send 6 0 s.twinId 6 0 job (.shadowWrite cmd job step full i)).count64 bndPg BND.SHADOW_BYTES (shadowBytes i)

/-- Open a generation, or go on with it; changes of placement that waited for it go first (R378). -/
def State.openGen (s : State) (job step : Nat) (full : Bool) : State :=
  if (s.ownGen job).any fun g => g.step == step then s
  else
    let x := s.twinSt
    let mine := x.later.filter fun i => i.1 == job
    let s := s.setTw { x with own := (x.own.filter fun g => g.job != job) ++ [{ job := job, step := step, full := full }],
                              later := x.later.filter fun i => i.1 != job }
    mine.foldl (fun s i => s.sendShadow 0 job step full i.2) s

/-- Read what the twin keeps of a row owned here: planes 1 to 3, or the row image of a shadowed adjacency row (R280, R290,
R376). -/
def State.shadowRead (s : State) (q : Req) (k : RowKey) : RowAcc × Option ShadowItem :=
  let t := s.keyTbl k
  let r := s.row k
  if t.emb then
    let (x, ps) := [1, 2, 3].foldl (fun (m : RowAcc × List (List Nat)) p =>
      if !(t.hasPlane p) then (m.1, m.2 ++ [t.codes r.planes p])
      else
        let (x, cs) := m.1.st.planeRead q k p
        let (s, cs) := x.st.freeWords (t.planeFmt p).bytes x.bad cs
        ({ st := s, bad := m.1.bad ++ x.bad, world := m.1.world || x.world, cfg := m.1.cfg || x.cfg }, m.2 ++ [cs]))
      (({ st := s } : RowAcc), ([] : List (List Nat)))
    (x, some (.planes k ((ps[0]?).getD []) ((ps[1]?).getD []) ((ps[2]?).getD [])))
  else if t.shadow then ({ st := s.rowVisit k }, some (.adj k r.adj))
  else ({ st := s }, none)

/-- Read what the twin keeps of several rows, in order. -/
def State.shadowReads (s : State) (q : RowKey → Req) (ks : List RowKey) : RowAcc × List ShadowItem :=
  ks.foldl (fun (m : RowAcc × List ShadowItem) k =>
    let (x, i) := m.1.st.shadowRead (q k) k
    ({ st := x.st, bad := m.1.bad ++ x.bad, world := m.1.world || x.world, cfg := m.1.cfg || x.cfg }, m.2 ++ i.toList))
    ({ st := s }, [])

/-- A shadow command that writes nothing for want of a twin (R377). -/
def State.shadowSkip (s : State) (c : Cmd) : State :=
  ((s.count bndPg BND.SHADOW_SKIPPED 1).err bndPg BND.E_SHADOW_SKIPPED c.q).doneWith c 0 0

/-- BND_SHADOW streams planes 1 to 3 of rows owned here; rows not owned here are skipped (R377). Its reads are the command's, so
the region table checks them; what it refuses and uncorrectable words are recorded (R232, R290; log entry 102). -/
def State.shadowRun (s : State) (c : Cmd) : State :=
  let d := c.desc
  if !s.shadowTwin then s.shadowSkip c
  else
    let (s, rows, u) := s.shRows c
    if u then (s.addCmd c).endCmd c.id .guardUncorrectable
    else
      let mine := rows.filterMap fun r => r.bind fun k => if s.owns k && (s.keyTbl k).emb then some k else none
      let (x, items) := s.shadowReads (fun k => Req.command k.job c.q) mine
      let s := (x.st.openGen d.job (shStep d) (shFull d)).addCmd
        { c with done := items.isEmpty, info1 := rows.length - items.length
                 ue := !x.bad.isEmpty, world := x.world, cfg := x.cfg
                 ctx := if items.isEmpty then .none else .shadow items.length 0 (rows.length - items.length) }
      items.foldl (fun s i => s.sendShadow c.id d.job (shStep d) (shFull d) i) s

/-- BND_SHADOW streams rows into the twin's shadow generation for a step (R377). -/
def execBndShadow (q : Nat) (d : Desc) (s : State) : Res := .next (s.command q d shadowCheck State.shadowRun)

/-- The checks of BND_SEAL: another step than the open generation's, or one made unusable, is refused while there is a
twin to write to (R377). -/
def sealCheck : Check := lateCheck
  (fun _ c => if c.desc.zeroWords [1, 2, 3, 4, 5, 6, 7] then none else some .configInvalid)
  fun s c =>
    if s.shadowTwin && !((s.ownGen c.desc.job).any fun g => g.step == c.desc.b 0 && !g.dead) then some .configInvalid else none

/-- BND_SEAL seals the open generation (R377). -/
def State.sealRun (s : State) (c : Cmd) : State :=
  let d := c.desc
  if !s.shadowTwin then s.shadowSkip c
  else
    let full := (s.ownGen d.job).any fun g => g.full
    (s.addCmd { c with ctx := .shadow 1 0 0 }).sendShadow c.id d.job (d.b 0) full .seal

def execBndSeal (q : Nat) (d : Desc) (s : State) : Res := .next (s.command q d sealCheck State.sealRun)

/-! ## The holder (R376) -/

/-- Put an item into the image, whole rows replaced. -/
def TwinState.apply (x : TwinState) (i : ShadowItem) : TwinState :=
  match i with
  | .planes k a b c =>
    { x with image := kput k { (kget k x.image).getD {} with planes := { p1 := a, p2 := b, p3 := c } } x.image }
  | .adj k a => { x with image := kput k { (kget k x.image).getD {} with adj := a } x.image }
  | .remove k => { x with image := kdel k x.image }
  | .moved k (some m) => { x with moved := kput k m x.moved }
  | .moved k none => { x with moved := kdel k x.moved }
  | .seal => x

/-- Bytes of a shadow row, and of the region in use: the image and the journals. -/
def ShadowRow.bytes (r : ShadowRow) : Nat :=
  6 * (r.planes.p1.length + r.planes.p2.length + r.planes.p3.length) + 16 + 16 * r.adj.edges.length

def TwinState.used (x : TwinState) : Nat :=
  x.image.foldl (fun n r => n + ShadowRow.bytes r.2) 0 + 16 * x.moved.length +
  x.gens.foldl (fun n g => n + g.items.foldl (fun m i => m + shadowBytes i) 0) 0

/-- Whether a sealed generation of a job waits to be folded. -/
def TwinState.folding (x : TwinState) (job : Nat) : Bool := x.gens.any fun g => g.job == job && g.isSealed

/-- The image without the embedding rows of a job, which a FULL generation writes anew (R376; log entry 94). -/
def TwinState.clearRows (x : TwinState) (job : Nat) : TwinState :=
  { x with image := x.image.filter fun r => r.1.job != job || r.2.planes == {} }

/-- A job's image is no longer valid: a FULL generation has begun to write it (R376). -/
def State.openFull (s : State) (job : Nat) : State :=
  let x := s.twinSt.clearRows job
  (s.setTw { x with valid := x.valid.filter (· != job) }).setReg bndPg BND.HOLD_GEN noGen job

/-- Discard a job's unsealed generation with all that it wrote: a journal counts in JOURNAL_DISCARDS, a FULL one has left no valid
image (R376). -/
def State.dropGen (s : State) (job : Nat) : State :=
  let x := s.twinSt
  let old := x.gens.filter fun g => g.job == job && !g.isSealed
  (s.setTw { x with gens := x.gens.filter fun g => !(g.job == job && !g.isSealed) }).count bndPg BND.JOURNAL_DISCARDS
    (old.filter fun g => !g.full).length

/-- Acknowledge a shadow write, with the word that the region was full; changes that follow rows await no answer unless
they found it full. -/
def State.shadowReply (s : State) (p : Pkt) (cmd : Nat) (full : Bool) : State :=
  if cmd = 0 ∧ !full then s else s.reply p (.shadowAck cmd full)

/-- The unsealed generation of a job and step. -/
def TwinState.openAt (x : TwinState) (job step : Nat) : Option ShadowGen :=
  x.gens.find? fun g => g.job == job && g.step == step && !g.isSealed

/-- Change the unsealed generation of a job and step. -/
def TwinState.mapGen (x : TwinState) (job step : Nat) (f : ShadowGen → ShadowGen) : TwinState :=
  { x with gens := x.gens.map fun g => if g.job = job ∧ g.step = step ∧ !g.isSealed then f g else g }

/-- Open a generation: an unsealed one of the job is discarded, and a FULL one begins the image anew (R376). -/
def State.beginGen (s : State) (job step : Nat) (full : Bool) : State :=
  let s := s.dropGen job
  let s := if full then s.openFull job else s
  s.setTw { s.twinSt with gens := s.twinSt.gens ++ [{ job := job, step := step, full := full }] }

/-- Record a write into the open generation of its job, opening one where none of that step is open. A FULL generation writes the
image in place of the rows cleared at its opening; the image is valid, and stands for the job, from its seal on (R376). A job without a valid image takes only FULL generations. A generation one of whose writes found the
region full records nothing more and cannot be sealed (R377). -/
def State.shadowRecord (s : State) (p : Pkt) (cmd job step : Nat) (full : Bool) (i : ShadowItem) : State :=
  let have_ := (s.twinSt.openAt job step).isSome
  if !have_ ∧ !full ∧ !(s.twinSt.valid.contains job) then s.nackPkt p 0x0040
  else
    let s := if have_ then s else s.beginGen job step full
    let x := s.twinSt
    if (x.openAt job step).any ShadowGen.dead ∨ (i ≠ .seal ∧ x.used + shadowBytes i > s.reg bndPg BND.SHADOW_SIZE) then
      (s.setTw (x.mapGen job step fun g => { g with dead := true })).shadowReply p cmd true
    else match i with
    | .seal =>
      if full then
        let y := (((x.openAt job step).map ShadowGen.items).getD []).foldl TwinState.apply x
        ((s.setTw { y with gens := y.gens.filter fun g => g.job != job, valid := y.valid ++ [job] }).setReg bndPg BND.HOLD_GEN step
          job).shadowReply p cmd false
      else (s.setTw (x.mapGen job step fun g => { g with isSealed := true })).shadowReply p cmd false
    | _ =>
      ((s.setTw (x.mapGen job step fun g => { g with items := g.items ++ [i] })).owe .shadow true (shadowBytes i)).shadowReply p cmd
        false

/-- The adjacency row an item writes or removes. -/
def adjKey : ShadowItem → Option RowKey
  | .adj k _ => some k
  | .remove k => some k
  | _ => none

/-- A load's write into the image: what an unsealed generation holds of that row is older and gives way. -/
def TwinState.load (x : TwinState) (i : ShadowItem) : TwinState :=
  let older (g : ShadowGen) : ShadowGen :=
    if g.isSealed then g else { g with items := g.items.filter fun j => (adjKey j).isNone || adjKey j != adjKey i }
  { x with gens := x.gens.map older }.apply i

/-- A shadow write at the holder. A load of an adjacency row goes into the image itself; both wait for a fold in progress
(R376, R378). -/
def State.onShadowWrite (s : State) (p : Pkt) : State :=
  match p.body with
  | .shadowWrite cmd job step full i =>
    if s.twinSt.folding job then s.setTw { s.twinSt with held := s.twinSt.held ++ [p] }
    else
      let load := match i with
        | .adj _ _ => cmd != 0 && !full
        | _ => false
      if load then
        if s.twinSt.used + shadowBytes i > s.reg bndPg BND.SHADOW_SIZE then s.shadowReply p cmd true
        else ((s.setTw (s.twinSt.load i)).owe .shadow true (shadowBytes i)).shadowReply p cmd false
      else s.shadowRecord p cmd job step full i
  | _ => s

/-- Fold a job's sealed generation into the image; HOLD_GEN takes its step (R376). -/
def State.foldNow (s : State) (job : Nat) : State :=
  match s.twinSt.gens.find? fun g => g.job == job && g.isSealed with
  | none => s
  | some g =>
    let x := g.items.foldl TwinState.apply s.twinSt
    let n := (g.items.map shadowBytes).sum
    (((s.setTw { x with gens := x.gens.filter (· != g) }).owe .shadow false n).owe .shadow true n).setReg bndPg BND.HOLD_GEN g.step job

/-- FOLD_COMPLETE: the fold ends; writes that waited for it are recorded in order, up to the next seal (R376). -/
def State.foldDone (s : State) (job : Nat) : State :=
  if s.twinSt.folding job then
    let s := s.foldNow job
    let (mine, rest) := s.twinSt.held.partition fun p => match p.body with
      | .shadowWrite _ j _ _ _ => j == job
      | _ => false
    mine.foldl State.onShadowWrite (s.setTw { s.twinSt with held := rest })
  else s

def execFoldComplete (job : Nat) (s : State) : Res := .next (s.foldDone job)

/-- Mark the open generation of a job as unusable (R377). -/
def State.killGen (s : State) (job : Nat) : State :=
  let x := s.twinSt
  (s.setTw { x with own := x.own.map fun g => if g.job = job then { g with dead := true } else g }).err bndPg BND.E_SHADOW_FULL job

/-- A seal is acknowledged: SHADOW_GEN takes the step (R377). -/
def State.sealed (s : State) (c : Cmd) : State :=
  let x := s.twinSt
  (((s.setTw { x with own := x.own.filter fun g => g.job != c.desc.job }).setReg bndPg BND.SHADOW_GEN (c.desc.b 0) c.desc.job).count
    bndPg BND.SEALS 1).finish c.id

/-- The twin's acknowledgement reaches the module (R377, R378). -/
def State.onShadowAck (s : State) (p : Pkt) : State :=
  match p.body with
  | .shadowAck cmd full =>
    let load := s.twinSt.adjWaits.contains cmd
    let s := if full && !load then s.killGen p.hdr.job else s
    if load then
      let s := s.setTw { s.twinSt with adjWaits := dropOne cmd s.twinSt.adjWaits }
      (if full then s.err bndPg BND.E_SHADOW_FULL p.hdr.job else s).storeDone cmd 0 none 0
    else match s.cmd? cmd with
      | none => s
      | some c =>
        match c.ctx with
        | .shadow left rows skipped =>
          if c.desc.opcode = 0x92 then
            if full then s.mapCmd cmd fun c => { c with cfg := true, done := true, ctx := .none } else s.sealed c
          else
            let rows := rows + b2n (!full)
            s.mapCmd cmd fun c => { c with
              cfg := c.cfg || full, done := left ≤ 1, info0 := min rows 0xFFFFFFFF
              ctx := if left ≤ 1 then .none else .shadow (left - 1) rows skipped }
        | _ => s
  | _ => s

/-! ## Heartbeats (R380, R456) -/

def State.hbPeriod (s : State) : Nat := bits (s.reg bndPg BND.HEARTBEAT) 15 0
def State.hbMiss (s : State) : Nat := bits (s.reg bndPg BND.HEARTBEAT) 23 16

/-- HEARTBEAT_SEND: every HB_PERIOD beats each twin port carries a heartbeat with the TWIN state; in ASSUMED also the
module ID carried (R380). -/
def State.heartbeatSend (s : State) : State :=
  let due := match s.twinSt.sentHb with
    | none => true
    | some b => decide (b + s.hbPeriod ≤ s.beat)
  if due then
    let s := s.setTw { s.twinSt with sentHb := some s.beat }
    ((List.range 2).filter fun p => (s.port p).carries).foldl
      (fun s p => s.emit (.heartbeat p s.twin (if s.twin = 3 then s.twinId else 0))) s
  else s

def execHeartbeatSend (s : State) : Res := .next s.heartbeatSend

/-- What a heartbeat says of this module: CARRIED when an ASSUMED twin names it, else PAIRED (R456). -/
def State.pairFrom (s : State) (state assumed : Nat) : State :=
  s.setTwin (if state = 3 ∧ assumed = s.modId then 5 else 0)

/-- HEARTBEAT_RX: a heartbeat arrives on P0 or P1. It ends the wait of stage 8, NO_TWIN once the slot is occupied, and
TWIN_SILENT; a newcomer whose twin is PAIRED again has been handed its shard (R380, R381, R456). -/
def State.heartbeatRx (s : State) (port state assumed : Nat) : State :=
  if port ≥ 2 then s
  else
    let x := s.twinSt
    let s := s.setTw { x with lastHb := s.beat, missed := 0, waitTo := none }
    if x.waitTo.isSome then s.pairFrom state assumed
    else match s.twin with
      | 1 => if x.sense then s.setTwin 0 else s
      | 2 => if s.isLost s.twinId then s else s.pairFrom state assumed
      | 5 => if state = 0 then s.setTwin 0 else s
      | _ => s

def execHeartbeatRx (port state assumed : Nat) (s : State) : Res := .next (s.heartbeatRx port state assumed)

/-- A paired module enters TWIN_SILENT (R380). -/
def State.twinSilent (s : State) : State :=
  ((s.setTwin 2).err bndPg BND.E_TWIN_SILENT 0).emit (.inform "twin silent" s.twinId)

/-- HEARTBEAT_TIMEOUT: heartbeats missed on both ports count; HB_MISS in a row take a PAIRED module to TWIN_SILENT
(R380). -/
def State.heartbeatTimeout (s : State) : State :=
  let x := s.twinSt
  let n := if s.hbPeriod = 0 then 0 else (s.beat - x.lastHb) / s.hbPeriod
  if !s.ready || n ≤ x.missed || x.waitTo.isSome then s
  else
    let s := (s.setTw { x with missed := n }).count bndPg BND.HB_MISSED (n - x.missed)
    if n ≥ s.hbMiss ∧ s.twin = 0 then s.twinSilent else s

def execHeartbeatTimeout (s : State) : Res := .next s.heartbeatTimeout

/-- TWIN_SENSE_CHANGE: a new counted level, ignored in RESET (R455). A fall acts at the next beat boundary, when the pins are
sampled, so an ASSUME written in the same beat takes effect first (R457); a rise while NO_TWIN waits for heartbeats (R456). -/
def State.twinSense (s : State) (level : Bool) : State :=
  if s.mgtState = 0 then s else s.setTw { s.twinSt with sense := level, fell := !level && s.twinSt.sense }

/-- The beat boundary after a fall of TWIN_SENSE: a PAIRED module enters TWIN_SILENT; in the other states it changes nothing
(R456). -/
def State.twinFall (s : State) : State :=
  if !s.twinSt.fell then s
  else
    let s := s.setTw { s.twinSt with fell := false }
    if s.twin = 0 ∧ s.ready = true then s.twinSilent else s

def execTwinSenseChange (level : Bool) (s : State) : Res := .next (s.twinSense level)

/-- Stage 8 sets the TWIN state: NO_TWIN with the slot empty, else a wait for a heartbeat (R456). -/
def State.twinStart (s : State) : State :=
  if s.twinSt.sense then s.setTw { s.twinSt with waitTo := some (s.beat + s.hbMiss * s.hbPeriod), lastHb := s.beat, missed := 0 }
  else s.setTwin 1

/-- TWIN_WAIT_TIMEOUT: no heartbeat came within that time (R456). -/
def State.twinWaitEnd (s : State) : State :=
  match s.twinSt.waitTo with
  | some b => if b ≤ s.beat then (s.setTw { s.twinSt with waitTo := none }).twinSilent else s
  | none => s

def execTwinWaitTimeout (s : State) : Res := .next s.twinWaitEnd

/-! ## ASSUME (R380) -/

/-- The jobs the placement knows: those with rows, tables, images or lists. -/
def State.twinJobs (s : State) : List Nat :=
  ((s.twinSt.image.map fun (p : RowKey × ShadowRow) => p.1.job) ++ (s.bnd.jobs.map fun (p : Nat × JobInfo) => p.1) ++ s.twinSt.valid).eraseDups

/-- Take one row of the image as owner copy. The image holds no plane 0 and no version of it: they are free values until
plane 0 is rewritten; an alias table is not valid (R380; log entry 27). -/
def State.assumeRow (s : State) (p : RowKey × ShadowRow) : State :=
  let k := p.1
  let t := s.keyTbl k
  let row : Row := if t.emb then { planes := p.2.planes } else { adj := { p.2.adj with aliasValid := false, aliasTab := [] } }
  let (s, row) := if t.emb then
      let (s, codes) := s.freeCodes (2 ^ (8 * (t.planeFmt 0).bytes)) (List.replicate (t.planeLen 0) 0)
      let (v, s) := s.draw
      (s, { row with planes := { row.planes with p0 := codes }, ver := v % 4096 })
    else (s, row)
  let s := s.setPlc { s.plc with rows := kput k row s.plc.rows }
  s.dirOwner k s.modId

/-- ASSUME: the image becomes the owner copy of the lost module's rows, with its MOVED entries; the module holds both
positions (R380). It acts when the twin is declared lost with this module as substitute. -/
def State.assumeTwin (s : State) : State :=
  if SMap.find s.twinId s.fab.lost ≠ some (some s.modId) ∨ s.carries then s
  else
    let jobs := s.twinJobs
    let s := jobs.foldl State.foldNow s
    let s := jobs.foldl State.dropGen s
    let x := s.twinSt
    let image := x.image
    let moved := x.moved
    let s := (s.setTw { x with image := [], moved := [], valid := [], gens := [], held := [], own := []
                               assumed := image.map fun (p : RowKey × ShadowRow) => p.1 }).setTwin 3
    let s := jobs.foldl (fun s j => s.setReg bndPg BND.HOLD_GEN noGen j) s
    let s := image.foldl State.assumeRow s
    let s := (moved.filter fun p => p.2 != s.twinId && p.2 != s.modId).foldl
      (fun s p => (s.dirPut { kind := 1, key := p.1, owner := p.2 }).1) s
    s.fbarAssume.setRecovery

/-- ASSUME: TWIN_CMD with 1 (R380). -/
def execAssume (secure : Bool) (s : State) : Res :=
  .next (s.guardWrite bndPg BND.TWIN_CMD true secure State.assumeTwin)

/-! ## Replacement (R381) -/

/-- The rows this module carries for its twin: those it assumed, and those of the twin's position loaded since. -/
def State.carriedRows (s : State) : List RowKey :=
  (s.plc.rows.map fun (p : RowKey × Row) => p.1).filter fun k =>
    s.owns k && (s.twinSt.assumed.contains k || s.homeIn (s.job k.job).members k == s.twinId)

/-- MOVED entries this module holds as the default home in its twin's place: the row and its owner (R183, R380). -/
def State.carriedMoved (s : State) : List (RowKey × Nat) :=
  (s.plc.dir.filter fun e => e.2.kind == 1 && s.homeIn (s.job e.2.key.job).members e.2.key == s.twinId).map fun e =>
    (e.2.key, e.2.owner)

/-- Tell the newcomer where the rows live that are away from its position: as their default home it holds their MOVED entries
(R183, R381; log entry 104). -/
def State.tellMoved (s : State) : State :=
  (s.carriedMoved.filter fun p => p.2 != s.twinId).foldl
    (fun s p => s.plcSend s.twinId p.1.job (.flipNotice p.1 p.2 s.beat p.2)) s

/-- The FULL image of this module's own shard of a job, sealed at the newest step sealed before (R381). -/
def State.refillImage (s : State) (carried : List RowKey) (job : Nat) : State :=
  let step := s.reg bndPg BND.SHADOW_GEN job
  let rows := (s.ownedRows job).filter fun k => !(carried.contains k)
  let other := s.carriedMoved.map (·.1)
  let moved := (s.plc.dir.filter fun e => e.2.key.job == job && e.2.kind == 1 && !(other.contains e.2.key)).map fun e =>
    ShadowItem.moved e.2.key (some e.2.owner)
  let (x, items) := s.shadowReads (fun _ => Req.device) rows
  let s := x.st
  let s := (items ++ moved).foldl (fun s i => s.sendShadow 0 job step true i) s
  s.sendShadow 0 job step true .seal

/-- REFILL: every assumed row goes to the newcomer through PREPARE and FORWARD, and a FULL image of this module's shard is
written into the newcomer's shadow region (R381). -/
def State.refillTwin (s : State) : State :=
  if s.twin ≠ 3 then s
  else
    let rows := s.carriedRows
    let s := (s.setTw { s.twinSt with refill := true, assumed := rows }).setTwin 4
    let s := rows.foldl (fun s k =>
      (s.putOut { key := k, dest := s.twinId, affinity := false }).migPrepare k) s
    let s := s.tellMoved
    s.twinJobs.foldl (State.refillImage · rows) s

/-- REFILL: TWIN_CMD with 2 (R381). -/
def execRefill (secure : Bool) (s : State) : Res :=
  .next (s.guardWrite bndPg BND.TWIN_CMD true secure State.refillTwin)

/-- TWIN_CMD written as a register (Table 15.8). -/
def State.twinWrite (s : State) (v : Nat) : State :=
  match bits v 31 30 with
  | 1 => s.assumeTwin
  | 2 => s.refillTwin
  | _ => s

/-- What the twin keeps of a row it hands back: its image. -/
def State.imageOf (s : State) (k : RowKey) : Option (RowKey × ShadowRow) :=
  let r := s.row k
  match s.shadowOf k r with
  | some (.planes _ a b c) => some (k, { planes := { p1 := a, p2 := b, p3 := c } })
  | some (.adj _ a) => some (k, { adj := a })
  | _ => none

/-- HANDBACK: at HANDBACK_BEAT the assumed rows flip to the newcomer, this module keeps its copy of them, with the MOVED entries
it held in the newcomer's place, as the image of the newcomer's shard, and is PAIRED (R376, R381; log entry 104). -/
def State.handback (s : State) : State :=
  let b := s.reg bndPg BND.HANDBACK_BEAT
  if s.twin ≠ 4 ∨ b = 0 ∨ s.beat < b then s
  else
    let rows := s.twinSt.assumed
    let moved := s.carriedMoved
    let jobs := ((rows.map fun (k : RowKey) => k.job) ++ moved.map fun p => p.1.job).eraseDups
    let image := rows.filterMap s.imageOf
    let s := s.tellMoved
    let s := moved.foldl (fun s p => s.dirDel p.1) s
    let s := jobs.foldl (fun s j => s.setReg bndPg BND.HOLD_GEN (s.reg bndPg BND.SHADOW_GEN j) j) s
    let s := rows.foldl (fun s k => match s.migOut k with
      | some m => (s.putOut { m with flip := some b }).migTransfer k
      | none => s) s
    (s.setTw { s.twinSt with image := image, moved := moved, valid := jobs, refill := false, assumed := [] }).setTwin 0

def execHandback (s : State) : Res := .next s.handback

end Sys2Proof.Machine
end

