-- ==== Sys2Proof/Machine/Power.lean ====
section
/-! DEFINITION. Power, sleep, the governor, calibration, clocks and trims, thermal control, the coolant stop and the
thermal trip (16_power_and_thermal.md R385 to R411; R258). -/

namespace Sys2Proof.Machine

def State.setPwr (s : State) (p : PwrState) : State := { s with pwr := p }

/-! ## The module's state (R412, R460) -/

/-- Set MGT_STATE: state, stage, reason (Table 17.11); a change of state is reported by an in-band interrupt (R414,
R460). -/
def State.setMgt (s : State) (st stage reason : Nat) : State :=
  let old := s.mgtState
  let s := s.setReg mgtPg MGT.MGT_STATE (st * 2 ^ 28 + stage * 2 ^ 24 + reason * 2 ^ 16)
  if old = st then s else s.emit (.inform "in-band interrupt" 1)

def State.mgtStage (s : State) : Nat := bits (s.reg mgtPg MGT.MGT_STATE) 27 24

/-- Whether the module is in COOLANT_STOP or THERMAL_TRIP. -/
def State.halted (s : State) : Bool := s.mgtState == 5 || s.mgtState == 6

/-! ## RAMP (R391) -/

def rampBad (d : Desc) : Bool := d.f 0 30 11 != 0 || decide (d.f 0 10 0 > 1024) || !(d.zeroWords [1, 2, 3, 4, 5, 6, 7])

/-- Effective thermal cap of a die (R403). -/
def State.thermalCap (s : State) (die : Nat) : Nat := s.reg (thmPg die) THM.THM_CAP % 2048

/-- The cap C of a die's squares: the governor's, below the die's thermal cap (R394, R395). -/
def State.capNow (s : State) (die : Nat) : Nat := min (s.thermalCap die) ((SMap.find die s.pwr.caps).getD s.pwr.cap)

/-- The cap C of a square (R394, R395). -/
def State.capOf (s : State) (msq : Nat) : Nat := s.capNow (msq / 64)

/-- RAMP sets the floor F of the issuing square; with WAIT it completes at a beat boundary (R391). -/
def State.rampRun (s : State) (c : Cmd) : State :=
  let f := c.desc.f 0 10 0
  let s := s.setSqp c.msq { s.sqp c.msq with f := f }
  if c.desc.bitB 0 31 then s.addCmd { c with ctx := .ramp f } else s.doneWith c 0 0

/-- The check of RAMP. -/
def rampCheck : Check := pureCheck fun _ c => if rampBad c.desc then some .configInvalid else none

/-- RAMP sets the floor of the issuing square (R391). -/
def execRamp (q : Nat) (d : Desc) (s : State) : Res :=
  .next (s.command q d rampCheck State.rampRun)

/-- At a beat boundary the waiting RAMPs whose floor, or a cap below it, the allowance has reached complete; INFO0 is L,
INFO1 tells that the cap held it (R391). -/
def State.rampsDone (s : State) : State :=
  s.cmds.foldl (fun s c =>
    match c.ctx with
    | .ramp f =>
      let l := (s.sqp c.msq).l
      let k := s.capOf c.msq
      if c.done then s
      else if f ≤ l then s.mapCmd c.id fun c => { c with done := true, info0 := l }
      else if l = k ∧ k < f then s.mapCmd c.id fun c => { c with done := true, info0 := l, info1 := 1 }
      else s
    | _ => s) s

/-! ## PWR_SLEEP (R392) -/

def sleepBad (d : Desc) : Bool := d.f 0 29 0 != 0 || !(d.zeroWords [3, 4, 5, 6, 7])

/-- PWR_SLEEP asks the issuing square to sleep; a WAKE_BEAT already past cancels it (R392). -/
def State.sleepRun (s : State) (c : Cmd) : State :=
  let d := c.desc
  let wake := d.b 1 + d.b 2 * 2 ^ 32
  let s := if wake ≠ 0 ∧ wake ≤ s.beat then s
    else s.setSqp c.msq { s.sqp c.msq with sleep := .entering (d.bitB 0 31) (d.bitB 0 30) wake }
  s.doneWith c 0 0

/-- The check of PWR_SLEEP. -/
def sleepCheck : Check := pureCheck fun _ c => if sleepBad c.desc then some .configInvalid else none

/-- PWR_SLEEP asks the issuing square to sleep (R392). -/
def execPwrSleep (q : Nat) (d : Desc) (s : State) : Res :=
  .next (s.command q d sleepCheck State.sleepRun)

/-- SLEEP_ENTER: every unit of the square is idle: it sleeps with L = 0; SLEEPS counts it (R392). -/
def State.sleepEnter (s : State) (msq : Nat) : State :=
  let x := s.sqp msq
  match x.sleep with
  | .entering keep db wake =>
    if !(s.squareIdle msq) then s
    else (s.setSqp msq { x with sleep := .asleep keep db wake, l := 0 }).count pwrPg PWR.SLEEPS 1
  | _ => s

def execSleepEnter (msq : Nat) (s : State) : Res := .next (s.sleepEnter msq)

/-- WAKE_BEAT: a square wakes at WAKE_BEAT when this is not zero; before the sleep begins it cancels it (R392). -/
def State.wakeDue (s : State) (msq : Nat) : State :=
  match (s.sqp msq).sleep with
  | .asleep _ _ w => if w ≠ 0 ∧ w ≤ s.beat then s.wakeSquare msq else s
  | .entering _ _ w => if w ≠ 0 ∧ w ≤ s.beat then s.wakeSquare msq else s
  | _ => s

def execWakeBeat (msq : Nat) (s : State) : Res := .next (s.wakeDue msq)

/-- Forget the bytes of a range: they read as after power-on (log entry 4). -/
def State.loseRange (s : State) (a n : Nat) : State :=
  { s with mem := { s.mem with
      cells := s.mem.cells.filter fun c => !(decide (a ≤ c.1 ∧ c.1 < a + n))
      ecc := s.mem.ecc.filter fun c => !(decide (a ≤ 16 * c.1 ∧ 16 * c.1 < a + n)) } }

/-- A queue's window returns to its reset values. -/
def State.loseQueue (s : State) (q : Nat) : State :=
  let drop (l : List (Nat × DWord)) : List (Nat × DWord) :=
    [QMG.Q_CONFIG, QMG.Q_BASE, QMG.Q_HEAD, QMG.Q_TAIL].foldl (fun l o => SMap.del (regKey (qmgPg (qDie q)) (qNum q) o) l) l
  { s with
    regs := { s.regs with live := drop s.regs.live, shadow := drop s.regs.shadow }
    queues := SMap.del q s.queues }

/-- What a square loses in a sleep that keeps no state: its memory, Scoresheet, pages, receiving state and queues
(R392). -/
def State.loseSquare (s : State) (msq : Nat) : State :=
  let qs := s.knownQueues.filter fun q => s.qSquare q == msq && qDie q == msq / 64
  let s := (s.wipeSquare msq).loseRange (sqmAddr msq 0) 0x400000
  let s := qs.foldl State.loseQueue (s.scsReset msq)
  { s with rook := SMap.del msq s.rook }

/-- WAKE_COMPLETE: waking takes 16 beats, or 64 after a sleep that lost state, when the square wakes STALE (R392). -/
def State.wakeComplete (s : State) (msq : Nat) : State :=
  let x := s.sqp msq
  match x.sleep with
  | .waking keep since =>
    if s.beat < since + (if keep then 16 else 64) then s
    else
      let s := s.setSqp msq { x with sleep := .awake }
      if keep then s else (s.loseSquare msq).staleOne msq 2
  | _ => s

def execWakeComplete (msq : Nat) (s : State) : Res := .next (s.wakeComplete msq)

/-- SLEEP_WAKE: a write of 1 to a square's bit wakes it (R392). -/
def State.sleepWake (s : State) (k v : Nat) : State :=
  ((List.range 32).filter fun n => v.testBit n && s.squarePresent (32 * k + n)).foldl (fun s n => s.wakeSquare (32 * k + n)) s

def execSleepWake (k : Nat) (v : Word) (secure : Bool) (s : State) : Res :=
  .next (if k < 12 then s.guardWrite pwrPg (PWR.SLEEP_WAKE0 + 4 * k) false secure fun s => s.sleepWake k v.toNat else s)

/-! ## Clock gating (R258) -/

/-- Whether a queue has nothing to start now: empty, halted, held by an Arbiter wait, or waiting for NOT_BEFORE. -/
def State.queueQuiet (s : State) (q : Nat) : Bool :=
  let x := s.qst q
  x.halted || s.qWaiting q ||
  (match x.fetched with
    | [] => s.qAvail q == 0
    | d :: _ => decide (s.beat < d.notBefore))

/-- Whether a square may gate its clocks (R258). -/
def State.mayGate (s : State) (msq : Nat) : Bool :=
  s.squareIdle msq && (s.knownQueues.filter fun q => s.qEnabled q && s.qSquare q == msq).all s.queueQuiet

/-- CLOCK_GATE: a square with nothing to run gates its clocks for a number of cycles, which GATED_CYCLES counts (R258). -/
def State.clockGate (s : State) (msq cycles : Nat) : State :=
  if s.squarePresent msq && s.mayGate msq then
    let s := s.count64 (arbPg (msq / 64)) ARB.GATED_CYCLES cycles
    s.setPwr { s.pwr with gated := (s.pwr.gated.filter (· != msq)) ++ [msq] }
  else s

def execClockGate (msq cycles : Nat) (s : State) : Res := .next (s.clockGate msq cycles)

/-- Gated squares that have something to run wake (R258). -/
def State.ungateReady (s : State) : State :=
  s.setPwr { s.pwr with gated := s.pwr.gated.filter s.mayGate }

/-! ## Modes and limits (R386, R393, R394) -/

/-- Whether the module is RESTRICTED: it has not reached READY since its reset, or TEST or RECOVERY is set (R393). -/
def State.restricted (s : State) : Bool :=
  !(s.ready || s.boot.opened) || (s.reg pwrPg PWR.PWR_CONFIG).testBit 30 || (s.reg pwrPg PWR.PWR_MODE).testBit 0

/-- SLOPE as it applies: halved, and never below 1, under the drift response (R388). -/
def State.slope (s : State) : Nat :=
  let x := bits (s.reg pwrPg PWR.PWR_CONFIG) 26 16
  if s.pwr.drift.on then max 1 (x / 2) else x

/-- The load band of a power: a value on a boundary belongs to the higher band (R398). -/
def State.bandOf (s : State) (w : Nat) : Nat :=
  let d := s.variant.designPower
  if w * 100 < 10 * d then 0 else if w * 100 < 40 * d then 1 else if w * 100 < 70 * d then 2 else 3

/-- The band in force: that of the last completed period (R398). -/
def State.band (s : State) : Nat := s.bandOf s.pwr.lastAvg

/-- Four times a value of the record of the band in force, or of the fused default times 1.25 (R399). -/
def State.calValue (s : State) (f : Nat → Nat) (fused : Nat) : Nat :=
  match SMap.find s.band s.pwr.records with
  | some r => 4 * f r
  | none => 5 * fused

/-- a_s in 1/4 mW (R395, R399). -/
def State.coef (s : State) (msq : Nat) : Nat := s.calValue (fun r => Config.calCoef r msq) (Config.fusedCoef msq)

/-- The part of the estimate that is not the squares', in mW: P_static + P_fabric + P_hbm + P_optics (R395, R399; log entry
28). -/
def State.basePower (s : State) (traffic : Nat) : Nat :=
  let dies := (List.range 8).filter (diePresent s.variant)
  (dies.foldl (fun n d => n + s.calValue (fun r => Config.calStatic r d) (Config.fusedStatic d)) 0 +
    traffic * s.calValue Config.calFabric Config.fusedFabric) / 4 +
  Config.hbmPower ((List.range s.variant.stacks).filter fun st => s.stackState st == .ready).length +
  Config.opticsPower (s.boot.cages.filter fun c => c.2).length

/-- Demand D of a square from the events of its units, weighted by the record in force (R387, R388). -/
def State.demandOf (s : State) (events : List Nat) : Nat :=
  min 1024 ((List.range events.length).foldl (fun n i =>
    n + (events[i]?).getD 0 * s.calValue (fun r => Config.calWeight r i) (Config.fusedWeight i)) 0 / 2 ^ 22)

/-- The estimate before K, in mW, with every allowance capped at c; `base` is the part that is not the squares', in mW
(R395). -/
def State.estimate (s : State) (base c : Nat) : Nat :=
  base + s.pwr.sq.foldl (fun n p => n + s.coef p.1 * min p.2.l c / 4096) 0

/-- Sums over the newest n beats of the window: measured W, current, estimated mW, and their count. -/
def winSums (w : List (Nat × Nat × Nat)) (n : Nat) : Nat × Nat × Nat × Nat :=
  (w.take n).foldl (fun a x => (a.1 + x.1, a.2.1 + x.2.1, a.2.2.1 + x.2.2, a.2.2.2 + 1)) (0, 0, 0, 0)

/-- The estimate times K, in mW: the ratio of measured to estimated power over the last 1,000 beats, clamped to 0.85 to
1.15 (R395). -/
def State.corrected (s : State) (est : Nat) : Nat :=
  let (m, _, e, _) := winSums s.pwr.win 1000
  if e = 0 then est
  else if m * 1000 * 100 ≤ 85 * e then est * 85 / 100
  else if m * 1000 * 100 ≥ 115 * e then est * 115 / 100
  else est * (m * 1000) / e

/-- Whether the measured power window governs: PEAK_LIMIT applies in RESTRICTED only (R394). -/
def State.peakLimit (s : State) : Option Nat := if s.restricted then some (s.reg pwrPg PWR.PEAK_LIMIT % 2 ^ 16) else none

/-- The power, in mW, that CURRENT_LIMIT allows at the present input voltage. -/
def State.currentPower (s : State) : Nat := s.reg pwrPg PWR.CURRENT_LIMIT % 256 * (s.reg pwrPg PWR.V_IN % 2 ^ 16)

/-- Every power limit lowered by GUARD_PCT percent under the drift response (R396). -/
def State.guarded (s : State) (mW : Nat) : Nat :=
  if s.pwr.drift.on then mW * (100 - bits (s.reg pwrPg PWR.DRIFT_CONFIG) 15 8) / 100 else mW

/-- The largest cap, 0 to 1,024, that keeps the corrected estimate within a limit in mW. -/
def State.fitCap (s : State) (base limit : Nat) : Nat :=
  ((List.range 1025).reverse.find? fun c => decide (s.corrected (s.estimate base c) ≤ limit)).getD 0

/-- The fast loop: the cap and its cause (R395). -/
def State.fastCap (s : State) (base : Nat) : Nat × Nat :=
  let a := match s.peakLimit with
    | some w => s.fitCap base (w * 1000)
    | none => 1024
  let b := s.fitCap base s.currentPower
  if a < 1024 ∧ a ≤ b then (a, 2) else if b < 1024 then (b, 3) else (1024, 0)

/-- Whether the averages of a full window exceed PEAK_LIMIT, and CURRENT_LIMIT (R386, R394). -/
def State.windowOver (s : State) : Bool × Bool :=
  let (m, i, _, n) := winSums s.pwr.win 2000
  if n < 2000 then (false, false)
  else
    (match s.peakLimit with
      | some w => decide (m > w * n)
      | none => false,
     decide (i > s.reg pwrPg PWR.CURRENT_LIMIT % 256 * 100 * n))

/-- Governing on measurement while the drift response is in force: the cap falls or rises by the slope as the last
1,000-beat average lies above the lowered limit or more than 5 percent below it (R396). -/
def State.driftCap (s : State) : Nat :=
  let (m, _, _, n) := winSums s.pwr.win 1000
  let lim := s.guarded (min ((s.peakLimit.map (· * 1000)).getD s.currentPower) s.currentPower)
  if m * 1000 > lim * n then s.pwr.cap - s.slope
  else if m * 1000 * 100 < 95 * lim * n then min 1024 (s.pwr.cap + s.slope)
  else s.pwr.cap

/-- The governor at a beat (R386, R394 to R396). While a measured average lies over its limit, every cap falls by the slope,
a cap that a die's temperature holds too. -/
def State.governor (s : State) (base : Nat) : State :=
  let (c, why) := if s.pwr.drift.on then (s.driftCap, 4) else s.fastCap base
  let (po, io) := s.windowOver
  let c' := if po || io then min c (s.pwr.cap - s.slope) else c
  let why := if c' = 1024 then 0 else if po then 2 else if io then 3 else why
  let s := if po || io then s.err pwrPg PWR.E_PEAK_OVER 0 else s
  let s := s.count pwrPg PWR.PEAK_CAPPED_BEATS (b2n (why == 2 || po))
  let s := s.count pwrPg PWR.CURRENT_CAPPED_BEATS (b2n (why == 3 || io))
  let caps := if po || io then (List.range s.variant.computeDies).map fun d => (d, min c (s.capNow d - s.slope)) else []
  s.setPwr { s.pwr with cap := c', why := why, caps := caps }

/-! ## Activity (R387 to R390) -/

/-- L moves toward T by at most the slope. -/
def moveTo (l t slope : Nat) : Nat := if l ≤ t then min t (l + slope) else max t (l - slope)

/-- The squares whose power state is away from rest, or whose demand is reported. -/
def State.activeSquares (s : State) (demand : List (Nat × Nat)) : List Nat :=
  (s.pwr.sq.map (·.1) ++ demand.map (·.1)).eraseDups.filter s.squarePresent

/-- One square at a beat boundary: its demand, and its allowance moved toward min(C, max(D, F)) (R388); a sleeping square
has L = 0; in a coolant stop or trip L falls by 128 (R405). -/
def State.allowOne (s : State) (demand : List (Nat × Nat)) (msq : Nat) : State :=
  let x := s.sqp msq
  let d := min 1024 ((SMap.find msq demand).getD 0)
  let awake := match x.sleep with
    | .awake => true
    | .entering .. => true
    | _ => false
  let l := if !awake then 0
    else if s.halted then x.l - 128
    else moveTo x.l (min (s.capOf msq) (max d x.f)) s.slope
  s.setSqp msq { x with d := d, l := l }

/-- Ballast fills what the work of a beat leaves of the allowances; its cycles are a free value (R390). -/
def State.ballast (s : State) : State :=
  if !s.halted && s.pwr.sq.any (fun p => decide (p.2.d < p.2.l)) then s.countFree pwrPg PWR.BALLAST_CYCLES else s

/-! ## The sensors of a beat (R386, R395, R405) -/

/-- UV_WARN and OV_WARN of an input voltage in mV; none measured yet reads 0 (R449, Table 19.8). -/
def uvWarn (mV : Nat) : Bool := decide (mV ≠ 0 ∧ mV < 50000)
def ovWarn (mV : Nat) : Bool := decide (60000 < mV)

/-- The input voltage is measured: a warning newly set is reported, and the module knows whether the input would let it start
(R449, R460). In RESET only the latter counts, and only a START_THRESHOLD makes it true again. -/
def State.warnInput (s : State) (mV : Nat) : State :=
  let ok := decide (50000 ≤ mV) && (!s.boot.ovLatch || decide (mV ≤ 60000))
  if s.mgtState = 0 then { s with boot := { s.boot with inputOk := s.boot.inputOk && ok } }
  else
    let old := s.reg pwrPg PWR.V_IN % 2 ^ 16
    let s : State := { s with boot := { s.boot with inputOk := ok } }
    let s := s.setReg pwrPg PWR.V_IN (mV % 2 ^ 16)
    if (uvWarn mV && !uvWarn old) || (ovWarn mV && !ovWarn old) then s.emit (.inform "in-band interrupt" 4) else s

/-- One beat's measurements enter the window and the registers (R395, R407). -/
def State.measure (s : State) (i : BeatIn) : State :=
  let est := s.estimate (s.basePower i.traffic) 1024
  let s := s.setPwr { s.pwr with win := ((i.measuredW, i.current10mA, est) :: s.pwr.win).take 2000 }
  let s := (s.warnInput i.mV).setReg pwrPg PWR.I_IN (i.current10mA % 2 ^ 16)
  let (m, _, e, n) := winSums s.pwr.win 1000
  let s := s.setReg pwrPg PWR.P_NOW (min (e / n / 1000) 0xFFFF * 2 ^ 16 + min (m / n) 0xFFFF)
  let (m, _, _, n) := winSums s.pwr.win 2000
  if n = 2000 then s.setReg pwrPg PWR.PEAK_WINDOW (max (s.reg pwrPg PWR.PEAK_WINDOW) (min (m / n) 0xFFFF)) else s

/-! ## Stops (R405, R406) -/

/-- Whether a coolant stop or a thermal trip acts: after stage 1, in any state that is not already a stop (R413). -/
def State.mayStop (s : State) : Bool :=
  match s.mgtState with
  | 1 => decide (2 ≤ s.mgtStage)
  | 2 => true
  | 3 => true
  | _ => false

/-- What a coolant stop and a trip have in common (Table 16.3): no command starts or completes, STOP flits, the ports
carry no packets. -/
def State.stopModule (s : State) (st reason bit : Nat) : State :=
  let s := s.setMgt st 0 0
  let s := s.sendStops reason
  let s := (List.range 24).foldl (fun s p => if (s.port p).carries ∨ (s.port p).st = .retraining then
    s.setPort p { s.port p with st := .stopped, width := 0 } else s) s
  { s with keep := { s.keep with cause := s.keep.cause ||| 2 ^ bit } }

/-- COOLANT_STOP: the second low sample in a row; C is the beat of the first (R405). -/
def State.coolantStop (s : State) : State :=
  if !s.mayStop then s
  else
    let s := s.setPwr { s.pwr with stopC := some (s.pwr.coolLow.getD (s.beat - 1)) }
    let s : State := { s with boot := { s.boot with coolant := false } }
    ((s.stopModule 5 1 2).err pwrPg PWR.E_COOLANT_STOP 0).emit (.inform "in-band interrupt" 2)

def execCoolantStop (s : State) : Res := .next s.coolantStop

/-- THERMAL_TRIP: Table 16.3 from C + 1, with reason code 2; it applies over a coolant stop (R406). -/
def State.thermalTrip (s : State) : State :=
  if s.mayStop ∨ s.mgtState = 5 then
    let s := s.setPwr { s.pwr with stopC := some (s.beat - 1) }
    s.stopModule 6 2 3
  else s

def execThermalTrip (_die : Nat) (s : State) : Res := .next s.thermalTrip

/-- Whether beat C + n of a stop has come. -/
def State.stopAt (s : State) (n : Nat) : Bool :=
  s.halted && (match s.pwr.stopC with
    | some c => decide (c + n ≤ s.beat)
    | none => false)

/-- COOLANT_CLOCKS_STOP: at C + 9 L is zero on every square and the clocks stop (Table 16.3). -/
def State.clocksStop (s : State) : State :=
  if s.stopAt 9 then s.setPwr { s.pwr with sq := s.pwr.sq.map fun p => (p.1, { p.2 with l := 0 }) } else s

def execCoolantClocksStop (s : State) : Res := .next s.clocksStop

/-- COOLANT_WCB_FLUSH: at C + 10 the write-combining buffers are written back (R282). -/
def State.stopFlush (s : State) : State := if s.stopAt 10 then s.writebackAll s.mem.wcb else s

def execCoolantWcbFlush (s : State) : Res := .next s.stopFlush

/-- COOLANT_SELF_REFRESH: by C + 40 every stack is in self-refresh, its buffers written back before (R282). -/
def State.stopRefresh (s : State) : State :=
  if s.stopAt 40 then
    ((List.range s.variant.stacks).filter fun st => s.stackState st == .ready).foldl
      (fun s st => (s.flushStack st).setStack st .selfRefresh) s
  else s

def execCoolantSelfRefresh (s : State) : Res := .next s.stopRefresh

/-- Whether the management island of F0 holds a register page (log entry 106). -/
def islandPage (page : Nat) : Bool := page == mgtPg || page == secPg || page == fwuPg || page == pwrPg

/-- THERMAL_TRIP_RAILS_OFF: every rail but the management island's turns off, so everything outside the island is lost, HBM contents
included: what is left is what a reset keeps, the island's pages and the count of beats (R406; log entry 106). -/
def State.railsOff (s : State) : State :=
  if s.mgtState = 6 then
    { pending := s.pending
      outbox := s.outbox
      rsp := s.rsp
      told := s.told
      free := s.free
      variant := s.variant
      keep := s.keep
      boot := s.boot
      beat := s.beat
      regs := (s.wipeRegs fun p _ => !(islandPage p)).regs
      pwr := { win := s.pwr.win, stopC := s.pwr.stopC }
      twinSt := { sense := s.twinSt.sense } }
  else s

def execThermalTripRailsOff (s : State) : Res := .next s.railsOff

/-- COOLANT_OK is high: stage 1, where it waits, may raise the rails, and its budget runs from here (R413); a rise after a low
sample is counted (R405). -/
def State.coolantHigh (s : State) : State :=
  let rose := s.pwr.coolLow.isSome && !s.boot.coolant
  let s : State := { s with boot := { s.boot with coolant := true } }
  let s := if s.mgtState = 1 ∧ s.mgtStage = 1 ∧ bits (s.reg mgtPg MGT.MGT_STATE) 23 16 = 3
    then ({ s with boot := { s.boot with stageMs := 0 } } : State).setMgt 1 1 0 else s
  if rose then s.count pwrPg PWR.COOLANT_GLITCHES 1 else s

/-- The sample of COOLANT_OK at a beat: two low samples in a row stop the module (R405). It is not sampled in RESET (R455). -/
def State.coolantSample (s : State) (ok : Bool) : State :=
  if s.mgtState = 0 then s
  else if s.halted then s
  else if ok then (s.coolantHigh).setPwr { s.coolantHigh.pwr with coolLow := none }
  else
    let s : State := { s with boot := { s.boot with coolant := false } }
    match s.pwr.coolLow with
    | none => s.setPwr { s.pwr with coolLow := some s.beat }
    | some c => if c < s.beat then s.coolantStop else s

/-- COOLANT_OK_RISE: the level rises between two samples. It ends no stop, and neither cancels a low sample nor starts anything
but stage 1 (R405, R413). -/
def State.coolantRise (s : State) : State := if s.mgtState = 0 ∨ s.halted = true then s else s.coolantHigh

def execCoolantOkRise (s : State) : Res := .next s.coolantRise

/-! ## Drift and recalibration (R396 to R400) -/

/-- Start a recalibration of the band in force. -/
def State.recalStart (s : State) : State := s.setPwr { s.pwr with recal := some (s.band, 0) }

/-- What the drift response does at the beat boundary (R396). -/
def State.driftBegin (s : State) : State :=
  if s.pwr.driftDue then
    ((s.setPwr { s.pwr with driftDue := false, drift := { on := true } }).count pwrPg PWR.DRIFT_EVENTS 1).err pwrPg
      PWR.E_ESTIMATOR_DRIFT 0 |>.recalStart
  else s

/-- The drift watch at the end of a period (R396, R397). -/
def State.driftStep (s : State) (bad : Bool) : State :=
  let ms := bits (s.reg pwrPg PWR.DRIFT_CONFIG) 23 16
  let x := s.pwr.drift
  if !x.on then
    let off := if bad then x.off + 1 else 0
    if off ≥ ms then s.setPwr { s.pwr with drift := { x with off := 0 }, driftDue := true }
    else s.setPwr { s.pwr with drift := { x with off := off } }
  else if !x.written then s
  else if bad then
    ((s.setPwr { s.pwr with drift := { x with agree := 0, written := false } }).count pwrPg PWR.DRIFT_EVENTS 1).recalStart
  else if x.agree + 1 ≥ ms then s.setPwr { s.pwr with drift := {} }
  else s.setPwr { s.pwr with drift := { x with agree := x.agree + 1 } }

/-- A recalibration at the end of a period: a change of band starts it again in the new band (R397, R400). -/
def State.recalStep (s : State) : State :=
  match s.pwr.recal with
  | none => s
  | some (b, n) => if b = s.band then s.setPwr { s.pwr with recal := some (b, n + 1) } else s.recalStart

/-- Whether the measured and the estimated power of a period disagree: sums of W and of mW before K (R396). -/
def State.disagree (s : State) (m e : Nat) : Bool :=
  let diff := if 1000 * m ≤ e then e - 1000 * m else 1000 * m - e
  decide (diff * 100 > bits (s.reg pwrPg PWR.DRIFT_CONFIG) 31 24 * (1000 * m))

/-- DRIFT_PERIOD: the end of a 1,000-beat period: the band in force, the drift watch, a recalibration (R396 to R400). -/
def State.driftPeriod (s : State) : State :=
  if s.beat % 1000 ≠ 0 ∨ s.pwr.lastPeriod = some s.beat then s
  else
    let (m, _, e, n) := winSums s.pwr.win 1000
    let old := s.band
    let s := s.setPwr { s.pwr with lastAvg := m / n, lastPeriod := some s.beat }
    let s := if s.band ≠ old ∧ (SMap.find s.band s.pwr.records).isNone then s.err pwrPg PWR.E_CAL_DEFAULT 0 else s
    (s.recalStep).driftStep (s.disagree m e)

/-- The averages compared are the module's own, of its window; the row's operands repeat them to the reader. -/
def execDriftPeriod (_measuredW _estimatedW : Nat) (s : State) : Res := .next s.driftPeriod

/-- RECAL_COMPLETE: after 256 periods in one band the record is written, stored in flash, and valid (R400). -/
def State.recalDone (s : State) : State :=
  match s.pwr.recal with
  | none => s
  | some (b, n) =>
    if n < 256 then s
    else
      let (_, s) := s.draw
      let r := s.free
      let s := s.setPwr { s.pwr with
        recal := none, records := SMap.put b r s.pwr.records
        drift := if s.pwr.drift.on then { s.pwr.drift with written := true, agree := 0 } else s.pwr.drift }
      ({ s with keep := { s.keep with cal := SMap.put b r s.keep.cal } } : State).count pwrPg PWR.RECAL_DONE 1

def execRecalComplete (s : State) : Res := .next s.recalDone

/-- INVALIDATE clears every CAL_VALID bit (R400). -/
def State.calInvalidate (s : State) : State := s.setPwr { s.pwr with records := [] }

def execRecal (secure : Bool) (s : State) : Res := .next (s.guardWrite pwrPg PWR.CAL_CMD true secure State.recalStart)
def execInvalidate (secure : Bool) (s : State) : Res := .next (s.guardWrite pwrPg PWR.CAL_CMD true secure State.calInvalidate)

/-- CAL_CMD written as a register. -/
def State.calWrite (s : State) (v : Nat) : State :=
  let s := if v.testBit 1 then s.calInvalidate else s
  if v.testBit 0 then s.recalStart else s

/-! ## Clocks and trims (R401, R402) -/

/-- FMAX of a square in MHz (R401). -/
def fmaxOf (msq : Nat) : Nat := 1000 + 10 * (Config.fmaxStep msq).val

/-- FREQ_LIMIT that a die's clocks follow: its own while a raised one waits for the rail (R401). -/
def State.clockLimit (s : State) (die : Nat) : Nat :=
  (SMap.find die s.pwr.clock).getD (s.reg pwrPg PWR.PWR_CONFIG % 2048)

/-- The clock of a square: min(FMAX, FREQ_LIMIT), less what ageing took (R401, R402). -/
def State.clockOf (s : State) (msq : Nat) : Nat :=
  min (fmaxOf msq) (s.clockLimit (msq / 64)) - SMap.get 0 msq s.pwr.derate

/-- The clock a die's rail serves: the committed FREQ_LIMIT's, which a raise gives the voltage first and the clocks once the rail
has settled (R401). -/
def State.railClock (s : State) (msq : Nat) : Nat :=
  min (fmaxOf msq) (s.reg pwrPg PWR.PWR_CONFIG % 2048) - SMap.get 0 msq s.pwr.derate

/-- A committed FREQ_LIMIT: a raise waits for the rail of each die to settle, a lowering acts at once (R401). -/
def State.freqChange (s : State) (old new : Nat) : State :=
  if old < new then
    let dies := List.range s.variant.computeDies
    s.setPwr { s.pwr with
      clock := dies.foldl (fun l d => SMap.put d ((SMap.find d l).getD old) l) s.pwr.clock
      settling := dies }
  else s.setPwr { s.pwr with clock := [], settling := [] }

/-- RAIL_SETTLED: the raised voltage of a die has settled, and its clocks rise (R401). -/
def State.railSettled (s : State) (die : Nat) : State :=
  if s.pwr.settling.contains die then
    s.setPwr { s.pwr with settling := s.pwr.settling.filter (· != die), clock := SMap.del die s.pwr.clock }
  else s

def execRailSettled (die : Nat) (s : State) : Res := .next (s.railSettled die)

/-- The trim of a die in mV: +25 at first start-up (R402). -/
def State.trimOf (s : State) (die : Nat) : Int := SMap.get 25 die s.pwr.trim
def State.setTrim (s : State) (die : Nat) (t : Int) : State := s.setPwr { s.pwr with trim := SMap.set 25 die t s.pwr.trim }

/-- Whether AGEING_TRIM governs a die: FREQ_MODE selects it, or a change from it waits for the die's next idle beat
(R402, R408). -/
def State.ageing (s : State) (die : Nat) : Bool := (s.reg pwrPg PWR.PWR_CONFIG).testBit 31 != s.pwr.modeDue.contains die

/-- TRIM_RAISE: a monitor of a square reports its slack. Below 20 ps the die's trim rises by one step at once; at the top
the square loses 10 MHz (R402). In FIXED_TABLE the slack is only reported. -/
def State.trimRaise (s : State) (die msq : Nat) (slack : Int) : State :=
  if msq / 64 ≠ die ∨ !(s.squarePresent msq) then s
  else
    let s := s.setPwr { s.pwr with slack := SMap.put msq slack s.pwr.slack }
    if !(s.ageing die) || decide (20 ≤ slack) then s
    else if s.trimOf die < 40 then
      let s := (s.setTrim die (s.trimOf die + 5)).count pwrPg PWR.TRIM_RAISES 1
      s.setPwr { s.pwr with raised := SMap.put die s.beat s.pwr.raised }
    else
      let s := s.setPwr { s.pwr with derate := SMap.put msq (SMap.get 0 msq s.pwr.derate + 10) s.pwr.derate }
      s.err pwrPg PWR.E_AGE_DERATE msq

def execTrimRaise (die msq : Nat) (slack : Int) (s : State) : Res := .next (s.trimRaise die msq slack)

/-- Whether a unit of a die's squares runs a command. -/
def State.dieBusy (s : State) (die : Nat) : Bool :=
  s.cmds.any fun c => c.msq / 64 == die && !c.done && (unitOf c.desc.opcode).exclusive

/-- Whether every square of a die was idle, gated or asleep in the beat that ended, and no trim was raised in it (R402). -/
def State.dieIdle (s : State) (die : Nat) : Bool :=
  !(s.dieBusy die) && !(s.pwr.worked.contains die) && SMap.find die s.pwr.raised != some (s.beat - 1)

/-- A beat begins: the dies that work in it from its start. -/
def State.markWork (s : State) : State :=
  s.setPwr { s.pwr with worked := (List.range s.variant.computeDies).filter s.dieBusy }

/-- An idle beat of a die: a change of FREQ_MODE sets the trim to +25 mV; under AGEING_TRIM the trim is re-planned, one
step lower when every monitor shows slack above 45 ps (R402, R408). -/
def State.replan (s : State) (die : Nat) : State :=
  if !(s.dieIdle die) then s
  else if s.pwr.modeDue.contains die then
    (s.setPwr { s.pwr with modeDue := s.pwr.modeDue.filter (· != die) }).setTrim die 25
  else if !(s.ageing die) then s
  else
    let high := (List.range 64).all fun i => decide (45 < SMap.get 0 (die * 64 + i) s.pwr.slack)
    let s := if high ∧ s.trimOf die > -50 then s.setTrim die (s.trimOf die - 5) else s
    s.count pwrPg PWR.TRIM_REPLANS 1

/-! ## Thermal control (R403) -/

/-- Insert into a sorted list. -/
def insertSorted (x : Int) : List Int → List Int
  | [] => [x]
  | y :: ys => if x ≤ y then x :: y :: ys else y :: insertSorted x ys

/-- Twice the median of a list of readings. -/
def median2 (l : List Int) : Int :=
  let m := l.foldl (fun a x => insertSorted x a) []
  let n := m.length
  (m[(n - 1) / 2]?).getD 0 + (m[n / 2]?).getD 0

/-- Whether a reading, in 0.125 °C, is excluded: out of −40 to 150 °C, or more than 20 °C from the median (R403). -/
def excluded (med2 x : Int) : Bool :=
  decide (x < -320) || decide (x > 1200) || decide (2 * x - med2 > 320) || decide (med2 - 2 * x > 320)

/-- thermal_cap of R403, T in 0.125 °C and the limits in °C. -/
def thermalCapOf (t : Int) (throttle tjmax : Nat) : Nat :=
  if t < 8 * throttle then 1024
  else if t ≥ 8 * tjmax then 0
  else 1024 - (768 * (t - 8 * throttle) / (8 * ((tjmax : Int) - throttle))).toNat

/-- The hottest of a list of (index, reading). -/
def hottest (l : List (Nat × Int)) : Option (Nat × Int) :=
  l.foldl (fun b x => match b with
    | none => some x
    | some y => if x.2 > y.2 then some x else some y) none

/-- The hottest stack of a compute die. -/
def State.stackHot (s : State) (die : Nat) : Option Int :=
  match SMap.find (2 * die) s.pwr.stackT, SMap.find (2 * die + 1) s.pwr.stackT with
  | some a, some b => some (max a b)
  | some a, none => some a
  | none, b => b

/-- The thermal cap of a die from its hottest valid sensor and hottest stack; at most 512 with more than 16 sensors
excluded (R403). -/
def State.dieCap (s : State) (die : Nat) (hot : Option (Nat × Int)) (nbad : Nat) : Nat :=
  let c := s.reg (thmPg die) THM.THM_CONFIG
  let a := match hot with
    | some (_, t) => thermalCapOf t (bits c 31 24) (bits c 23 16)
    | none => 1024
  let b := if die < 6 then match s.stackHot die with
      | some t => thermalCapOf t (bits c 15 8) (bits c 15 8 + 10)
      | none => 1024
    else 1024
  min (min a b) (if nbad > 16 then 512 else 1024)

/-- THERMAL_SAMPLE: the sensors of a die are sampled, faulty ones excluded, its thermal cap evaluated; 115 °C trips
(R403, R406). -/
def State.thermalSample (s : State) (die : Nat) (temps : List Int) : State :=
  let pg := thmPg die
  if (pageInfo s.variant pg).isNone then s
  else
    let med := median2 temps
    let ix := (List.range temps.length).map fun i => (i, (temps[i]?).getD 0)
    let bad := ix.filter fun x => excluded med x.2
    let hot := hottest (ix.filter fun x => !(excluded med x.2))
    let cap := s.dieCap die hot bad.length
    let old := s.thermalCap die
    let t := (hot.map (·.2)).getD 0
    let wasHot := s.pwr.tj.contains die
    let isHot := hot.isSome && decide (t ≥ 8 * (bits (s.reg pg THM.THM_CONFIG) 23 16 : Int))
    let s := s.setPwr { s.pwr with
      temps := SMap.put die temps s.pwr.temps
      tj := (s.pwr.tj.filter (· != die)) ++ (if isHot then [die] else []) }
    let s := s.setReg pg THM.SENSORS_EXCLUDED bad.length
    let s := s.setReg pg THM.THM_CAP cap
    let s := s.setReg pg THM.THM_STATE (twos 12 t * 2 ^ 20 + ((hot.map (·.1)).getD 0) % 256 * 2 ^ 12 +
      (if die < 6 then twos 12 ((s.stackHot die).getD 0) else 0))
    let s := match bad.head? with
      | some (i, _) => s.err pg THM.E_SENSOR_FAULT i
      | none => s
    let s := if cap < 1024 ∧ old = 1024 then s.err pg THM.E_THROTTLING ((hot.map (·.1)).getD 0) else s
    let s := if isHot && !wasHot then
        (s.count pg THM.TJ_EVENTS 1).err pg THM.E_TJ_EXCEEDED ((hot.map (·.1)).getD 0) else s
    if hot.isSome ∧ t ≥ 920 then s.thermalTrip else s

def execThermalSample (die : Nat) (temps : List Int) (s : State) : Res := .next (s.thermalSample die temps)

/-- HBM_TEMP_REPORT: a stack reports its temperature; the next sample of its die uses it (R403). -/
def State.stackTemp (s : State) (st : Nat) (t : Int) : State :=
  if st < s.variant.stacks then
    let s := s.setPwr { s.pwr with stackT := SMap.put st t s.pwr.stackT }
    let pg := thmPg (st / 2)
    s.setReg pg THM.THM_STATE (s.reg pg THM.THM_STATE / 4096 * 4096 + twos 12 ((s.stackHot (st / 2)).getD 0))
  else s

def execHbmTempReport (stack : Nat) (temp : Int) (s : State) : Res := .next (s.stackTemp stack temp)

/-- THROTTLE_BEATS of every die (Table 16.8). -/
def State.throttleBeats (s : State) : State :=
  (List.range 8).foldl (fun s d => if s.thermalCap d < 1024 ∧ (pageInfo s.variant (thmPg d)).isSome then
    s.count (thmPg d) THM.THROTTLE_BEATS 1 else s) s

/-! ## A beat (R388 to R396, R402, R405) -/

/-- What a beat boundary does to power: drift, measurement, the governor, allowances, ballast, RAMPs, trims, the coolant
sample and the steps of a stop. -/
def State.powerBeat (s : State) (i : BeatIn) : State :=
  let s := s.driftBegin.measure i
  let s := if s.halted then s else s.governor (s.basePower i.traffic)
  let demand := i.events.map fun e => (e.1, s.demandOf e.2)
  let s := (s.activeSquares demand).foldl (fun s m => s.allowOne demand m) s
  let s := if s.halted then s else s.ballast.rampsDone
  let s := if s.halted then s else ((List.range s.variant.computeDies).foldl State.replan s).markWork
  let s := s.throttleBeats.coolantSample i.coolantOk
  s.clocksStop.stopFlush.stopRefresh

end Sys2Proof.Machine
end

