-- ==== Sys2Proof/Machine/Commits.lean ====
section
/-! DEFINITION. The commit of a page's shadows: the checks of every page's chapter and what adopting the new values does
(18_register_pages.md R441 to R444; R94, R117, R143, R170, R199, R215, R245, R248, R291, R293, R295, R297, R331, R334,
R361, R371, R383, R408, R411). -/

namespace Sys2Proof.Machine

/-! ## What a commit adopts -/

/-- Whether a page has committed fields. -/
def PT.commits : PT → Bool
  | .sq => false | .mxu => false | .arb => false | .fwu => false | .mgt => false
  | _ => true

/-- The page, window and offset of a register key. -/
def keyPage (k : Nat) : Nat := k / 4096 / 2 ^ 20
def keyWin (k : Nat) : Nat := k / 4096 % 2 ^ 20
def keyOff (k : Nat) : Nat := k % 4096

/-- Whether a commit of a world adopts a register: CM, and CM+SW for the secure world only (R443). -/
def RegRow.adopts (r : RegRow) (secure : Bool) : Bool := r.acc == .cm && (secure || !r.sw)

/-- The pending shadows of a page that a commit of a world adopts: their keys and values (R441, R443). -/
def State.adopted (s : State) (page : Nat) (secure : Bool) : List (Nat × Nat) :=
  s.regs.shadow.filterMap fun p =>
    if keyPage p.1 = page then
      match pageRow s.variant page (keyOff p.1) with
      | some r => if r.adopts secure then some (p.1, p.2.toNat) else none
      | none => none
    else none

/-- A commit in progress: the state it finds, its page and world. -/
structure Cand where
  s      : State
  page   : Nat
  secure : Bool

/-- The value a register of the page would have after the commit. -/
def Cand.val (c : Cand) (off : Nat) (win : Nat := 0) : Nat :=
  match pageRow c.s.variant c.page off with
  | some r => if r.adopts c.secure then c.s.shadow c.page off win else c.s.reg c.page off win
  | none => 0

/-- Its live value. -/
def Cand.old (c : Cand) (off : Nat) (win : Nat := 0) : Nat := c.s.reg c.page off win

/-- Whether the commit would change it. -/
def Cand.changes (c : Cand) (off : Nat) (win : Nat := 0) : Bool := c.val off win != c.old off win

/-- Whether the commit adopts a pending write of a window's register. -/
def Cand.pending (c : Cand) (off win : Nat) : Bool :=
  (c.s.adopted c.page c.secure).any fun p => p.1 == regKey c.page win off

/-- A number outside a range. -/
def outside (n lo hi : Nat) : Bool := decide (n < lo) || decide (hi < n)

/-- Whether a range of bytes is aligned and wholly in present HBM. -/
def hbmArea (v : Variant) (align a n : Nat) : Bool := a % align == 0 && inHbm v a n

/-- The pages' checks: for each register that may be refused, its offset and whether it is (R444: FIELD names the first in
ascending offset; a check that concerns several registers is charged to the first of them, DEDUCED, log entry 29). -/
abbrev Checks := List (Nat × Bool)

/-! ## Square pages -/

/-- R94. -/
def Cand.scs (c : Cand) (msq : Nat) : Checks :=
  let g := c.val SCS.SCS_CONFIG % 1024
  let x := c.s.sheet msq
  let busy := !x.groups.isEmpty || !x.queue.isEmpty ||
    c.s.cmds.any fun m => m.msq == msq && !m.done && unitOf m.desc.opcode == .scs
  [(SCS.SCS_CONFIG, outside g 1 512 || (g != c.old SCS.SCS_CONFIG % 1024 && busy))]

/-- R117. -/
def Cand.vxu (c : Cand) (msq : Nat) : Checks :=
  let cfg := c.val VXU.RLOG_CONFIG
  let en := cfg.testBit 5
  let busy := c.s.cmds.any fun m => m.msq == msq && !m.done && m.desc.opcode == 0x35
  [ (VXU.RLOG_BASE, (en && !(hbmArea c.s.variant 64 (c.val VXU.RLOG_BASE) (16 * 2 ^ bits cfg 4 0))) || busy),
    (VXU.RLOG_CONFIG, outside (bits cfg 4 0) 4 16) ]

/-- R143. -/
def Cand.knt (c : Cand) : Checks :=
  let b := c.val KNT.PLOG_BASE
  let n := c.val KNT.PLOG_SIZE
  [ (KNT.PLOG_BASE, !(hbmArea c.s.variant 64 b (16 * n))),
    (KNT.PLOG_SIZE, n == 0),
    (KNT.SPLIT_THRESHOLD, outside (c.val KNT.SPLIT_THRESHOLD) 4096 0x80000000) ]

/-- R170. -/
def Cand.rook (c : Cand) (msq : Nat) : Checks :=
  let w := c.val ROOK.GWIN_CONFIG
  let g := c.val ROOK.SEG_CONFIG
  let wb := bits w 31 16
  let wn := bits w 15 0
  let gb := bits g 31 16
  let gn := bits g 15 0
  let t := c.val ROOK.TOUCH_MAX
  let ta := c.val ROOK.TOUCH_ADDR
  let ob := c.val ROOK.OVF_BASE
  let on_ := c.val ROOK.OVF_SIZE
  let lim := c.s.slotLimit msq
  let x := c.s.rk msq
  let held := !x.ents.isEmpty || x.used != 0 || !x.ovf.isEmpty || !x.segs.isEmpty ||
    c.s.cmds.any fun m => m.msq == msq && !m.done && unitOf m.desc.opcode == .rook
  let chg (off : Nat) : Bool := held && c.changes off
  [ (ROOK.GWIN_CONFIG, chg ROOK.GWIN_CONFIG || (wn != 0 && decide (wb + wn > lim)) ||
      (wn != 0 && gn != 0 && decide (wb < gb + gn) && decide (gb < wb + wn)) || ((wn == 0) != (t == 0))),
    (ROOK.SEG_CONFIG, chg ROOK.SEG_CONFIG || (gn != 0 && decide (gb + gn > lim))),
    (ROOK.TOUCH_ADDR, chg ROOK.TOUCH_ADDR || ta % 32 != 0 || !(inSqm ta (32 + 16 * t))),
    (ROOK.TOUCH_MAX, chg ROOK.TOUCH_MAX || decide (t > 262142)),
    (ROOK.OVF_BASE, chg ROOK.OVF_BASE || ob % 64 != 0 || (on_ != 0 && !(inHbm c.s.variant ob on_))),
    (ROOK.OVF_SIZE, chg ROOK.OVF_SIZE || on_ % 64 != 0) ]

/-- R215. -/
def Cand.gmb (c : Cand) : Checks := [(GMB.GMB_THETA, bits (c.val GMB.GMB_THETA) 30 23 == 255)]

/-! ## Die pages -/

/-- Whether a range lies wholly in the square memory of one present square (R218). -/
def State.inOneSquare (s : State) (a n : Nat) : Bool :=
  let o := a - 0x3E0000000000
  decide (0x3E0000000000 ≤ a) && s.squarePresent (o / 0x800000) && inSqm (o % 0x800000) n

/-- Commands of a queue started and not completed (Table 10.9). -/
def State.inFlight (s : State) (q : Nat) : Nat := (s.cmds.filter fun c => c.q == q).length

/-- R245. -/
def Cand.qmg (c : Cand) (die : Nat) : Checks :=
  let s := c.s
  let n := s.reg c.page QMG.QSEL
  let q := die * 32768 + n
  let cfg := c.val QMG.Q_CONFIG n
  let was := c.old QMG.Q_CONFIG n
  let en := cfg.testBit 31
  let on_ := was.testBit 31
  let lg := bits cfg 21 17
  let base := c.val QMG.Q_BASE n
  let k := s.reg c.page QMG.CQSEL
  let ccfg := c.val QMG.CQ_CONFIG k
  let cwas := c.old QMG.CQ_CONFIG k
  let cen := ccfg.testBit 31
  let con := cwas.testBit 31
  let clg := bits ccfg 4 0
  let cbase := c.val QMG.CQ_BASE k
  [ (QMG.Q_CONFIG, outside lg 4 20 || (en && (s.jobOf 1 q).isNone) ||
      (on_ && (lg != bits was 21 17 || bits cfg 27 22 != bits was 27 22)) || (on_ && !en && s.inFlight q != 0)),
    (QMG.Q_BASE, (on_ && c.changes QMG.Q_BASE n) ||
      (en && (base % 64 != 0 || !(inHbm s.variant base (64 * 2 ^ lg) || s.inOneSquare base (64 * 2 ^ lg))))),
    (QMG.CQ_CONFIG, outside clg 4 20 || (cen && (s.jobOf 2 (die * 4096 + k)).isNone) || (con && clg != bits cwas 4 0)),
    (QMG.CQ_BASE, (con && c.changes QMG.CQ_BASE k) || (cen && !(hbmArea s.variant 64 cbase (16 * 2 ^ clg)))) ]

/-- R293. -/
def Cand.hbm (c : Cand) : Checks :=
  [ (HBM.SCRUB_CONFIG, outside (bits (c.val HBM.SCRUB_CONFIG) 9 0) 1 720),
    (HBM.REPAIR_CONFIG, bits (c.val HBM.REPAIR_CONFIG) 7 0 == 0) ]

/-- R295. -/
def Cand.wcb (c : Cand) : Checks := [(WCB.WCB_CONFIG, outside (bits (c.val WCB.WCB_CONFIG) 4 0) 0 20)]

/-- R411. -/
def Cand.thm (c : Cand) : Checks :=
  let v := c.val THM.THM_CONFIG
  let th := bits v 31 24
  [(THM.THM_CONFIG, outside th 60 104 || outside (bits v 23 16) (th + 1) 110 || outside (bits v 15 8) 60 95)]

/-! ## Pages of F0 and the fabric dies -/

/-- R248. -/
def Cand.tmp (c : Cand) : Checks := [(TMP.SKEW_LIMIT, outside (bits (c.val TMP.SKEW_LIMIT) 15 0) 1 1000)]

/-- Replicas held by this module. -/
def State.replicasHeld (s : State) : Nat := (s.plc.dir.filter fun p => p.2.kind == 2).length

/-- Bytes of a directory copy (Table 8.8). -/
def dirBytes : Nat := 2 ^ 30

/-- R199. -/
def Cand.plc (c : Cand) : Checks :=
  let s := c.s
  let v := s.variant
  let cfg := c.val PLC.PLC_CONFIG
  let d0 := c.val PLC.DIR_BASE0
  let d1 := c.val PLC.DIR_BASE1
  let st (d : Nat) : Nat := d / 0xC00000000
  let used := !s.plc.dir.isEmpty
  let rb := c.val PLC.REPL_BASE
  let rn := c.val PLC.REPL_SIZE
  let rheld := s.replicasHeld != 0
  let meets (d : Nat) : Bool := rn != 0 && decide (rb < d + dirBytes) && decide (d < rb + rn)
  let j := s.reg plcPg PLC.JOB_SEL
  let th := c.val PLC.JOB_THRESH j
  let mig := c.val PLC.JOB_MIG j
  let win (off : Nat) : Bool := c.pending off j && !(s.jobBound j)
  [ (PLC.PLC_CONFIG, outside (bits cfg 31 24) 50 100 || outside (bits cfg 23 16) 16 255 || outside (bits cfg 15 0) 64 65535),
    (PLC.SKETCH_CONFIG, outside (bits (c.val PLC.SKETCH_CONFIG) 4 0) 10 30),
    (PLC.DIR_BASE0, !(hbmArea v dirBytes d0 dirBytes) || st d0 == st d1 ||
      (decide (v.computeDies > 1) && st d0 / 2 == st d1 / 2) || (used && c.changes PLC.DIR_BASE0)),
    (PLC.DIR_BASE1, !(hbmArea v dirBytes d1 dirBytes) || (used && c.changes PLC.DIR_BASE1)),
    (PLC.REPL_BASE, rb % 64 != 0 || (rn != 0 && !(inHbm v rb rn)) || meets d0 || meets d1 || (rheld && c.changes PLC.REPL_BASE)),
    (PLC.REPL_SIZE, rn % 64 != 0 || (rheld && c.changes PLC.REPL_SIZE)),
    (PLC.JOB_CONFIG, win PLC.JOB_CONFIG),
    (PLC.JOB_THRESH, bits th 31 16 == 0 || decide (bits th 15 0 ≥ bits th 31 16) || win PLC.JOB_THRESH),
    (PLC.JOB_MIG, bits mig 31 24 == 0 || bits mig 23 16 == 0 || bits mig 15 0 == 0 || win PLC.JOB_MIG) ]

/-- R408. -/
def Cand.pwr (c : Cand) : Checks :=
  let cfg := c.val PWR.PWR_CONFIG
  let pk := bits (c.val PWR.PEAK_LIMIT) 15 0
  let d := c.val PWR.DRIFT_CONFIG
  [ (PWR.PWR_CONFIG, outside (bits cfg 26 16) 1 1024 || outside (bits cfg 10 0) 1000 1250),
    (PWR.PEAK_LIMIT, outside pk 500 6720 || decide (pk < bits (c.s.reg pwrPg PWR.P_NOW) 15 0)),
    (PWR.CURRENT_LIMIT, outside (bits (c.val PWR.CURRENT_LIMIT) 7 0) 10 120),
    (PWR.DRIFT_CONFIG, outside (bits d 31 24) 1 50 || bits d 23 16 == 0 || outside (bits d 15 8) 0 50) ]

/-- A region entry as the commit would leave it. -/
def Cand.region (c : Cand) (n : Nat) : Nat :=
  c.val SEC.REGION_ENTRY0 n + c.val SEC.REGION_ENTRY1 n * 2 ^ 32 + c.val SEC.REGION_ENTRY2 n * 2 ^ 64 +
    c.val SEC.REGION_ENTRY3 n * 2 ^ 96

/-- Whether a region entry is refused: LIMIT below BASE, or a range outside the present HBM and the far window. -/
def regionBad (v : Variant) (e : Nat) : Bool :=
  let b := bits e 29 0
  let l := bits e 93 64
  decide (l < b) || !(inHbm v (b * 65536) ((l + 1 - b) * 65536) || inFar (b * 65536) ((l + 1 - b) * 65536))

/-- Whether two region entries overlap. -/
def regionsMeet (a b : Nat) : Bool := decide (bits a 29 0 ≤ bits b 93 64) && decide (bits b 29 0 ≤ bits a 93 64)

/-- Whether any two of a list of region entries overlap. -/
def anyMeet : List Nat → Bool
  | [] => false
  | e :: es => es.any (regionsMeet e) || anyMeet es

/-- R291: all 256 entries together. -/
def Cand.sec (c : Cand) : Checks :=
  let es := ((List.range 256).map c.region).filter fun e => e.testBit 127
  [(SEC.REGION_ENTRY0, es.any (regionBad c.s.variant) || anyMeet es)]

/-- ROLE of a host port. -/
def State.hxRole (s : State) (h : Nat) : Nat := if h < s.variant.fabricDies then bits (s.reg (hxpPg h) HXP.HXP_CONFIG) 31 30 else 0

/-- The host ports a decoder's PORTS names. -/
def decPorts (ctrl : Nat) : List Nat :=
  match bits ctrl 30 29 with
  | 0 => [0] | 1 => [1] | 2 => [0, 1] | _ => []

/-- R297. Far accesses end within the step that made them, so none is outstanding at a commit. -/
def Cand.far (c : Cand) : Checks :=
  let s := c.s
  let n := s.reg farPg FAR.DEC_SEL
  let b := c.val FAR.DEC_BASE n
  let z := c.val FAR.DEC_SIZE n
  let k := c.val FAR.DEC_CTRL n
  let en := k.testBit 31
  let clash := (List.range 8).any fun m => m != n && (c.old FAR.DEC_CTRL m).testBit 31 &&
    decide (b < c.old FAR.DEC_BASE m + c.old FAR.DEC_SIZE m) && decide (c.old FAR.DEC_BASE m < b + z)
  [ (FAR.DEC_BASE, en && (b % 2 ^ 28 != 0 || !(inFar b z) || clash)),
    (FAR.DEC_SIZE, en && (z == 0 || z % 2 ^ 28 != 0)),
    (FAR.DEC_CTRL, bits k 30 29 == 3 || bits k 28 26 == 7 || (en && (decPorts k).any fun h => s.hxRole h != 2)) ]

/-- R334. -/
def Cand.hxp (c : Cand) (h : Nat) : Checks :=
  let s := c.s
  let v := c.val HXP.HXP_CONFIG
  let role := bits v 31 30
  let was := bits (c.old HXP.HXP_CONFIG) 31 30
  let up := bits (s.reg c.page HXP.HXP_STATE) 31 28 == 2
  let named := (List.range 8).any fun m => (s.reg farPg FAR.DEC_CTRL m).testBit 31 && (decPorts (s.reg farPg FAR.DEC_CTRL m)).contains h
  [(HXP.HXP_CONFIG, role == 3 || outside (bits v 29 24) 32 40 || (role != was && up) || (was == 2 && role != 2 && named))]

/-- Whether any port carries packets. The start-up commit of stage 6, which follows the training of stage 5, is not refused
for it (DEDUCED, log entry 32). -/
def State.anyCarries (s : State) : Bool :=
  !(s.mgtState == 1 && s.mgtStage == 6) && (List.range 24).any fun p => (s.port p).carries

/-- The VC_CREDIT registers. -/
def creditRegs : List Nat := (List.range 8).map fun i => PLY.VC_CREDIT0 + 4 * i

/-- R331, the port's own registers. -/
def Cand.ply (c : Cand) (port : Nat) : Checks :=
  let cfg := c.val PLY.PLY_CONFIG
  let t := bits cfg 30 27
  let sum := creditRegs.foldl (fun n o => n + bits (c.val o) 27 16 + bits (c.val o) 11 0) 0
  [ (PLY.PLY_CONFIG, !([1, 2, 4, 8].contains t) || bits cfg 15 8 == 0),
    (PLY.LANE_SER_LIMIT, bits (c.val PLY.LANE_SER_LIMIT) 23 0 == 0) ] ++
  creditRegs.map fun o =>
    (o, outside (bits (c.val o) 27 16) 64 4095 || outside (bits (c.val o) 11 0) 64 4095 || decide (sum > 24576) ||
      (c.changes o && (c.s.port port).st != .off))

/-- R331, the module's fabric registers in the page of P0. -/
def Cand.fab (c : Cand) : Checks :=
  let s := c.s
  let co := c.val FAB.FAB_COORD
  let d := c.val FAB.FAB_DIMS
  let dx := bits d 29 20
  let dy := bits d 19 10
  let dz := bits d 9 0
  let e := c.val FAB.E2E_CONFIG
  let base := c.val FAB.E2E_BASE
  let size := c.val FAB.E2E_SIZE
  [ (FAB.FAB_ID, c.changes FAB.FAB_ID && s.anyCarries),
    (FAB.FAB_COORD, (bits co 31 30 == 1 && s.variant != .kta8) || decide (bits co 29 20 ≥ dx) || decide (bits co 19 10 ≥ dy) ||
      decide (bits co 9 0 ≥ dz)),
    (FAB.FAB_DIMS, dx == 0 || dy == 0 || dz == 0 || decide (dx * dy * dz > 1024)),
    (FAB.E2E_CONFIG, bits e 31 24 == 0 || bits e 15 0 == 0),
    (FAB.E2E_BASE, !(hbmArea s.variant 64 base size) || (c.changes FAB.E2E_BASE && s.anyCarries)),
    (FAB.E2E_SIZE, size == 0 || size % 64 != 0 || (c.changes FAB.E2E_SIZE && s.anyCarries)) ]

/-- R361. -/
def Cand.red (c : Cand) (rdie : Nat) : Checks :=
  let s := c.s
  let n := s.reg c.page RED.CTX_SEL
  let v := c.val RED.CTX_CONFIG n
  let b := c.val RED.SPILL_BASE
  let z := c.val RED.SPILL_SIZE
  let busy := s.red.any fun p => p.1 / 4096 == rdie && p.2.st == .active
  [ (RED.CTX_CONFIG, bits v 23 16 == 0 || (v.testBit 31 && bits v 14 0 == 0) || (v.testBit 31 && v.testBit 30) ||
      (c.pending RED.CTX_CONFIG n && (s.ctx (ctxKey rdie n)).st == .active)),
    (RED.SPILL_BASE, b % 64 != 0 || (z != 0 && !(inHbm s.variant b z)) || (busy && c.changes RED.SPILL_BASE)),
    (RED.SPILL_SIZE, z % 64 != 0 || (busy && c.changes RED.SPILL_SIZE)) ]

/-! ## The BND page (R366, R371, R383) -/

/-- Whether a beat is a declared boundary of a job: awaited, or reached in this beat (R190). -/
def State.isBoundary (s : State) (j b : Nat) : Bool :=
  b != 0 && (s.reg plcPg PLC.JOB_NEXT_BEAT j == b || SMap.find j s.plc.lastB == some b)

/-- Whether a beat is a declared boundary of some bound job. -/
def State.someBoundary (s : State) (b : Nat) : Bool := (boundJobs s.bnd.bound).any fun j => s.isBoundary j b

/-- The jobs of which this module holds a generation of the twin's shard. -/
def State.holdsGen (s : State) : Bool := s.regs.live.any fun p => keyPage p.1 == bndPg && keyOff p.1 == BND.HOLD_GEN

/-- The scheduled commit of a page. -/
def State.armed (s : State) (page : Nat) : Option Arm := s.regs.armed.find? fun a => a.page == page

/-- BND_STATE.CASTLE: 2 while a castling runs, 1 while a castle commit is armed (R367). -/
def State.castleCode (s : State) : Nat :=
  if s.bnd.castle.isSome then 2
  else if (s.armed bndPg).isSome && bits (s.shadow bndPg BND.CASTLE_COUNT) 10 0 != 0 then 1 else 0

/-- The range checks of R383. -/
def Cand.bnd (c : Cand) : Checks :=
  let s := c.s
  let n := bits (c.val BND.CASTLE_COUNT) 10 0
  let j := s.reg bndPg BND.JOB_SEL
  let m := bits (c.val BND.MLIST_COUNT j) 15 0
  let ca := c.val BND.CASTLE_ADDR
  let ma := c.val BND.MLIST_BASE j
  let b := c.val BND.SHADOW_BASE
  let z := c.val BND.SHADOW_SIZE
  let h := c.val BND.HANDBACK_BEAT
  let hb := c.val BND.HEARTBEAT
  let moved (off : Nat) : Bool := c.changes off && s.holdsGen
  [ (BND.CASTLE_ADDR, n != 0 && (!(hbmArea s.variant 64 ca (16 * n)) || s.castleCode != 0)),
    (BND.CASTLE_COUNT, decide (n > 1024)),
    (BND.REPORT_BASE, c.val BND.REPORT_BASE % 64 != 0),
    (BND.REPORT_MAX, bits (c.val BND.REPORT_MAX) 15 0 == 0),
    (BND.JOB_SHARE, bits (c.val BND.JOB_SHARE j) 7 0 == 0),
    (BND.MLIST_BASE, m != 0 && !(hbmArea s.variant 64 ma (2 * m))),
    (BND.MLIST_COUNT, decide (m > 32768)),
    (BND.SHADOW_BASE, !(hbmArea s.variant (2 ^ 30) b z) || moved BND.SHADOW_BASE),
    (BND.SHADOW_SIZE, z % 2 ^ 30 != 0 || moved BND.SHADOW_SIZE),
    (BND.HEARTBEAT, bits hb 23 16 == 0 || bits hb 15 0 == 0),
    (BND.HANDBACK_BEAT, c.changes BND.HANDBACK_BEAT && h != 0 && (!(s.someBoundary h) || s.twin != 4)) ]

/-- Whether a member list is refused (R371). -/
def State.memberListBad (s : State) (j : Nat) (l : List Nat) : Bool :=
  let live := (s.job j).members
  l.any (fun m => decide (m ≥ 2 ^ 15)) || listRepeats l || (!(l.contains s.modId) && !(live.contains s.modId)) ||
  (!live.isEmpty && !(s.isBoundary j s.beat))

/-- What a BND commit reads: the castle list and the member list, and whether they are refused. -/
structure BndRead where
  s       : State
  castle  : List CastleEntry := []
  members : List Nat := []
  bad     : Checks := []

/-- Read and check the lists a BND commit names; one whose own place already fails is not read. -/
def Cand.bndLists (c : Cand) : BndRead :=
  let n := bits (c.val BND.CASTLE_COUNT) 10 0
  let j := c.s.reg bndPg BND.JOB_SEL
  let m := bits (c.val BND.MLIST_COUNT j) 15 0
  let ca := c.val BND.CASTLE_ADDR
  let ma := c.val BND.MLIST_BASE j
  let r : BndRead := { s := c.s }
  let r : BndRead :=
    if n = 0 ∨ 1024 < n ∨ hbmArea c.s.variant 64 ca (16 * n) = false ∨ c.s.castleCode ≠ 0 then r
    else
      let (s, es, bad) := r.s.castleList c.secure ca n
      { r with s := s, castle := es, bad := [(BND.CASTLE_ADDR, bad || s.castleListBad c.secure es)] }
  if m = 0 ∨ 32768 < m ∨ hbmArea c.s.variant 64 ma (2 * m) = false then r
  else
    let (s, l, bad) := r.s.readList c.secure ma m
    { r with s := s, members := l, bad := r.bad ++ [(BND.MLIST_BASE, bad || s.memberListBad j l)] }

/-! ## Refusal and adoption (R441, R444) -/

/-- Adopted shadows that hold a set reserved bit. -/
def Cand.reserved (c : Cand) : Checks :=
  (c.s.adopted c.page c.secure).map fun p =>
    (keyOff p.1,
     match pageRow c.s.variant c.page (keyOff p.1) with
      | some r => p.2 ||| r.mask != r.mask
      | none => false)

/-- The checks of the page's chapter. -/
def Cand.checks (c : Cand) (i : PageInfo) : Checks :=
  let msq := i.die * 64 + i.inst
  match i.pt with
  | .scs => c.scs msq | .vxu => c.vxu msq | .knt => c.knt | .rook => c.rook msq | .gmb => c.gmb
  | .qmg => c.qmg i.die | .hbm => c.hbm | .wcb => c.wcb | .thm => c.thm
  | .tmp => c.tmp | .plc => c.plc | .bnd => c.bnd | .pwr => c.pwr | .far => c.far | .sec => c.sec
  | .red => c.red (i.die - 6) | .hxp => c.hxp i.inst
  | .ply => if i.inst = 0 then c.ply 0 ++ c.fab else c.ply i.inst
  | .sq => [] | .mxu => [] | .arb => [] | .fwu => [] | .mgt => []

/-- The offset of the first failing register. -/
def firstBad (l : Checks) : Option Nat :=
  (l.filter (·.2)).foldl (fun (m : Option Nat) p => match m with
    | some o => some (min o p.1)
    | none => some p.1) none

/-- The live set adopts the shadows. -/
def Cand.adopt (c : Cand) (s : State) : State :=
  (c.s.adopted c.page c.secure).foldl (fun (s : State) p =>
    (s.setReg c.page (keyOff p.1) p.2 (keyWin p.1)).dropShadow c.page (keyOff p.1) (keyWin p.1)) s

/-- A commit of a queue window: a changed ring starts at zero counts (R245); a queue that is enabled anew is not halted and
reads its ring again (R235). -/
def Cand.adoptQueue (c : Cand) (die : Nat) (s : State) : State :=
  let n := c.s.reg c.page QMG.QSEL
  let q := die * 32768 + n
  let k := c.s.reg c.page QMG.CQSEL
  let was := c.old QMG.Q_CONFIG n
  let now := c.val QMG.Q_CONFIG n
  let s := if c.changes QMG.Q_BASE n || bits was 21 17 != bits now 21 17 then
      ((s.setQreg q QMG.Q_HEAD 0).setQreg q QMG.Q_TAIL 0).setQst q { s.qst q with fetched := [] } else s
  -- a queue enabled while an image is being written stops the write at its next sector (R422)
  let s : State := if now.testBit 31 && bits (s.reg fwuPg FWU.FWU_STATE) 31 28 == 3 then
      { s with boot := { s.boot with fwu := { s.boot.fwu with stop := 4 } } }
    else s
  let s := if !(was.testBit 31) && now.testBit 31 then s.setQst q { s.qst q with fetched := [], halted := false }
    else if was.testBit 31 && !(now.testBit 31) then s.setQst q { s.qst q with fetched := [] } else s
  if c.changes QMG.CQ_BASE k || bits (c.old QMG.CQ_CONFIG k) 4 0 != bits (c.val QMG.CQ_CONFIG k) 4 0 then
    (s.setCqreg die k QMG.CQ_HEAD 0).setCqreg die k QMG.CQ_TAIL 0 else s

/-- A commit of a port's registers (Table 13.2): ENABLE set starts training, ENABLE cleared takes the port to OFF, a raised
TARGET_LANES retrains a degraded port. -/
def Cand.adoptPort (c : Cand) (port : Nat) (s : State) : State :=
  let was := c.old PLY.PLY_CONFIG
  let now := c.val PLY.PLY_CONFIG
  let x := s.port port
  if was.testBit 31 && !(now.testBit 31) then (s.reroute port).setPort port {}
  else if !(was.testBit 31) && now.testBit 31 && x.st == .off then s.setPort port { x with st := .training, attempts := 0 }
  else if x.st == .degraded && decide (bits now 30 27 > x.width) && bits now 30 27 != bits was 30 27 then
    let t := s.portRetrain port
    t.setPort port { t.port port with cap := 8 }
  else s

/-- What a PWR commit does beside adopting: a software clear of RECOVERY yields to the device's own setting in the same beat
(R393); clocks follow FREQ_LIMIT (R401); FREQ_MODE takes effect at each die's next idle beat, and a change taken back before it
has none (R408; log entry 95). -/
def Cand.adoptPwr (c : Cand) (s : State) : State :=
  let was := c.old PWR.PWR_CONFIG
  let now := c.val PWR.PWR_CONFIG
  let s := if (c.old PWR.PWR_MODE).testBit 0 && s.pwr.recBeat == some s.beat then s.setReg pwrPg PWR.PWR_MODE 1 else s
  let s := if bits was 10 0 = bits now 10 0 then s else s.freqChange (bits was 10 0) (bits now 10 0)
  if was.testBit 31 = now.testBit 31 then s
  else s.setPwr { s.pwr with modeDue := (List.range s.variant.computeDies).filter fun d => !(s.pwr.modeDue.contains d) }

/-- Thresholds of a job that a PLC commit changes before its first boundary: those from before apply until then (R199). -/
def Cand.adoptThresh (c : Cand) (s : State) : State :=
  let j := c.s.reg plcPg PLC.JOB_SEL
  if (SMap.find j s.plc.eff).isSome then s
  else s.setPlc { s.plc with eff := SMap.put j (c.s.reg plcPg PLC.JOB_THRESH j, c.s.reg plcPg PLC.JOB_MIG j) s.plc.eff }

/-- Rows that a member list named at the arming was to take away stay where they are when that commit is disarmed (R196). -/
def State.dropMoves (s : State) (j : Nat) : State :=
  let l : List MigOut := s.plc.out.filter fun m => m.key.job == j && !m.affinity && m.phase != .sent && !(s.twinSt.assumed.contains m.key)
  (l.foldl (fun s m => s.abandonOut m.key) s).setJob j { s.job j with next := [] }

/-- So it is for every job that a commit leaves without the list it was armed with. -/
def State.dropArmed (s : State) (but : Option Nat) : State :=
  ((s.bnd.jobs.filter fun p => !(p.2.next.isEmpty) && some p.1 != but).map (·.1)).foldl State.dropMoves s

/-- What adopting does on each page. -/
def Cand.effects (c : Cand) (i : PageInfo) (r : BndRead) (s : State) : State :=
  let msq := i.die * 64 + i.inst
  match i.pt with
  | .scs => if c.changes SCS.SCS_CONFIG then (s.scsReset msq).setReg c.page SCS.SLOT_LIMIT (s.slotLimit msq) else s
  | .vxu =>
    if c.changes VXU.RLOG_BASE || bits (c.old VXU.RLOG_CONFIG) 4 0 != bits (c.val VXU.RLOG_CONFIG) 4 0 then
      (s.setReg c.page VXU.RLOG_HEAD 0).setReg c.page VXU.RLOG_TAIL 0 else s
  | .qmg => (c.adoptQueue i.die s).ungateReady
  | .plc => c.adoptThresh s
  | .wcb => if c.changes WCB.WCB_CONFIG then s.flushChange i.die (c.s.flushLog i.die c.s.beat) else s
  | .tmp =>
    let was := (c.old TMP.TMP_CONFIG).testBit 31
    let now := (c.val TMP.TMP_CONFIG).testBit 31
    if was = now then s else s.setMaster now
  | .bnd =>
    let j := c.s.reg bndPg BND.JOB_SEL
    let s := s.dropArmed (if r.members.isEmpty then none else some j)
    let s := if r.members.isEmpty then s else s.installList j r.members
    if bits (c.val BND.CASTLE_COUNT) 10 0 = 0 then s else s.castleStart c.secure r.castle
  | .pwr => c.adoptPwr s
  | .ply => c.adoptPort i.inst s
  | _ => s

/-- Record a commit's result (Table 18.2). -/
def State.commitStatus (s : State) (page result : Nat) (late : Bool) (field code : Nat) : State :=
  s.setReg page HDR.COMMIT_STATUS (result * 2 ^ 28 + b2n late * 2 ^ 27 + field % 2 ^ 10 * 2 ^ 16 + code)

/-- A refused BND commit that would have castled (R383). -/
def Cand.castleRefused (c : Cand) (i : PageInfo) (s : State) : State :=
  if i.pt = .bnd ∧ bits (c.val BND.CASTLE_COUNT) 10 0 ≠ 0 then
    (s.count bndPg BND.CASTLES_REFUSED 1).err bndPg BND.E_CASTLE_REFUSED 0
  else s

/-- The commit of a page by a world (R441, R443, R444): refused with CONFIG_INVALID and FIELD, or adopted as a whole. A member
list that is refused takes no row away (R196). -/
def State.commit (s : State) (page : Nat) (secure late : Bool) : State :=
  match pageInfo s.variant page with
  | none => s
  | some i =>
    let c : Cand := { s := s, page := page, secure := secure }
    let r : BndRead := if i.pt = .bnd then c.bndLists else { s := s }
    match firstBad (c.reserved ++ c.checks i ++ r.bad) with
    | some off =>
      let s := (c.castleRefused i r.s).commitStatus page 2 late (off / 4) 0x0040
      if page = bndPg then s.dropArmed none else s
    | none => (c.effects i r (c.adopt r.s)).commitStatus page 1 late 0 0

/-! ## Immediate and scheduled commits (R441, R442, R443) -/

/-- Disarm a page's scheduled commit. -/
def State.disarm (s : State) (page : Nat) : State :=
  match s.armed page with
  | none => s
  | some _ =>
    let s : State := { s with regs := { s.regs with armed := s.regs.armed.filter fun a => a.page != page } }
    if page = bndPg then s.dropArmed none else s

/-- Whether a write to a page's commit registers has any effect: the page exists and has committed fields (R438). -/
def State.canCommit (s : State) (page : Nat) : Bool :=
  match pageInfo s.variant page with
  | some i => i.pt.commits
  | none => false

/-- A non-secure write of COMMIT to a secure page is dropped and recorded (R443). -/
def State.commitClosed (s : State) (page off : Nat) (src : Nat := 0) : State :=
  (s.violation true src (pageAddr page off)).commitStatus page 2 false 0 0x0031

/-- A write of COMMIT: GO commits at once and disarms (R441). -/
def State.commitGo (s : State) (page v : Nat) (secure : Bool) (src : Nat := 0) : State :=
  if !(s.pageOpen page true secure) then s
  else if s.pageClosed page secure then
    if s.canCommit page then s.commitClosed page HDR.COMMIT src else s.violation true src (pageAddr page HDR.COMMIT)
  else if s.canCommit page && v.testBit 0 then
    let t := s.commit page secure false
    { t with regs := { t.regs with armed := t.regs.armed.filter fun a => a.page != page } }
  else s

/-- COMMIT_GO. -/
def execCommitGo (page : Nat) (v : Word) (secure : Bool) (s : State) : Res := .next (s.commitGo page v.toNat secure)

/-- The rows a member list takes away begin to move when its commit is armed, to flip at its beat (R196). -/
def State.armMoves (s : State) (secure : Bool) (b : Nat) : State :=
  let j := s.reg bndPg BND.JOB_SEL
  let c : Cand := { s := s, page := bndPg, secure := secure }
  let m := bits (c.val BND.MLIST_COUNT j) 15 0
  let ma := c.val BND.MLIST_BASE j
  if m = 0 ∨ (s.job j).members.isEmpty ∨ m > 32768 ∨ !(hbmArea s.variant 64 ma (2 * m)) then s
  else
    let (s, l, bad) := s.readList secure ma m
    if bad || l.any (fun x => decide (x ≥ 2 ^ 15)) || listRepeats l then s
    else
      let s := s.setPlc { s.plc with out := s.plc.out.map fun (o : MigOut) =>
        if o.key.job = j ∧ o.affinity = false ∧ o.phase ≠ .sent ∧ !(s.twinSt.assumed.contains o.key) then { o with flip := some b } else o }
      (s.startMoves j b l).setJob j { s.job j with next := l }

/-- A write to the upper word of COMMIT_BEAT, or to the pair, arms a scheduled commit; zero disarms (R442). -/
def State.arm (s : State) (page : Nat) (secure : Bool) : State :=
  let v := s.reg page HDR.COMMIT_BEAT
  if v = 0 then s.disarm page
  else
    let b := max v (s.beat + 1)
    let a : Arm := { page := page, beat := b, secure := secure, late := decide (v ≤ s.beat) }
    let s : State := { s with regs := { s.regs with armed := (s.regs.armed.filter fun x => x.page != page) ++ [a] } }
    let s := s.commitStatus page 3 false 0 0
    if page = bndPg then s.armMoves secure b else s

/-- A write to COMMIT_BEAT: its value, whether it reaches the upper word; a non-secure one meets a secure world's armed
commit and is dropped (R443). -/
def State.commitBeat (s : State) (page v : Nat) (arms secure : Bool) (src : Nat := 0) : State :=
  if !(s.pageOpen page true secure) then s
  else if s.pageClosed page secure then s.violation true src (pageAddr page HDR.COMMIT_BEAT)
  else if !(s.canCommit page) then s
  else if !secure && (match s.armed page with
      | some a => a.secure
      | none => false) then s.violation true src (pageAddr page HDR.COMMIT_BEAT)
  else
    let s := s.setReg page HDR.COMMIT_BEAT v
    if arms then s.arm page secure else s

/-- COMMIT_ARM: a 64-bit write of COMMIT_BEAT, or a write of its upper word. -/
def execCommitArm (page : Nat) (v : DWord) (wide secure : Bool) (s : State) : Res :=
  .next (s.commitBeat page (if wide then v.toNat else s.reg page HDR.COMMIT_BEAT % 2 ^ 32 + v.toNat % 2 ^ 32 * 2 ^ 32) true secure)

/-- SCHEDULED_COMMIT: the armed commit takes effect at step 1 of its beat, or of the first beat after it that comes, with LATE, and
disarms (R241, R442). -/
def State.scheduled (s : State) (page : Nat) : State :=
  match s.armed page with
  | some a =>
    if a.beat ≤ s.beat then
      ({ s with regs := { s.regs with armed := s.regs.armed.filter fun x => x.page != page } } : State).commit page a.secure
        (a.late || decide (a.beat < s.beat))
    else s
  | none => s

def execScheduledCommit (page : Nat) (s : State) : Res := .next (s.scheduled page)

/-- CANCEL disarms: a non-secure one only what the non-secure world armed (R443). -/
def State.cancel (s : State) (page : Nat) (secure : Bool) : State :=
  match s.armed page with
  | some a => if secure || !a.secure then s.disarm page else s
  | none => s

/-- DISCARD reloads the shadows, the non-secure world's those without SW, and disarms as CANCEL does (R443). -/
def State.discard (s : State) (page : Nat) (secure : Bool) : State :=
  let gone := (s.adopted page secure).map (·.1)
  let s : State := { s with regs := { s.regs with shadow := s.regs.shadow.filter fun p => !(gone.contains p.1) } }
  s.cancel page secure

/-- A write of CONTROL (Table 18.2). -/
def State.control (s : State) (page v : Nat) (secure : Bool) : State :=
  let s := if v.testBit 0 then s.discard page secure else s
  if v.testBit 1 then s.cancel page secure else s

/-- CANCEL: a write of CONTROL with bit 1. -/
def execCancel (page : Nat) (secure : Bool) (s : State) : Res :=
  .next (s.guardWrite page HDR.CONTROL false secure fun s => s.control page 2 secure)

/-- DISCARD: a write of CONTROL with bit 0. -/
def execDiscard (page : Nat) (secure : Bool) (s : State) : Res :=
  .next (s.guardWrite page HDR.CONTROL false secure fun s => s.control page 1 secure)

end Sys2Proof.Machine
end

