-- ==== Sys2Proof/Machine/Images.lean ====
section
/-! DEFINITION. Firmware images, the boot record, the slots and their measurements (17_bringup_firmware_security.md R415 to
R419, R430). -/

namespace Sys2Proof.Machine

/-! ## Images (R417, R418) -/

/-- A little-endian field of an image. -/
def imgNat (b : List Byte) (off n : Nat) : Nat := leNat ((b.drop off).take n)

/-- The header region's size. -/
def hdrBytes : Nat := 0x8000

def imgSvn (b : List Byte) : Nat := imgNat b 8 4
def imgBodyLen (b : List Byte) : Nat := imgNat b 16 4
def imgDigest (b : List Byte) : List Byte := (b.drop 128).take 64

/-- A 512-bit digest as 64 bytes. -/
def digestBytes (d : BitVec 512) : List Byte := leBytes 64 d.toNat

/-- Whether a range of an image holds only zeros. -/
def imgZero (b : List Byte) (lo hi : Nat) : Bool := ((b.drop lo).take (hi - lo)).all (· == 0)

/-- The checks of R418 on a header region, in its order: 0 passed, else the outcome of Table 17.6. -/
def headerStatus (v : Variant) (svnMin : Nat) (b : List Byte) : Nat :=
  if decide (b.length < hdrBytes) || imgNat b 0 4 != 0x4B465731 || imgNat b 4 2 != 1 || !(imgZero b 20 64) ||
      !(imgZero b 192 256) || !(imgZero b 30048 32768) || decide (imgNat b 6 2 ≥ 8) ||
      outside (imgBodyLen b) 4096 67076096 || imgBodyLen b % 4096 != 0 then 1
  else if !((imgNat b 6 2).testBit v.imageBit) then 3
  else if Config.shake256 ((b.drop 64).take 64) != Config.rootDigest then 1
  else if !(Config.slhVerify ((b.drop 64).take 64) (b.take 256) ((b.drop 256).take 29792)) then 1
  else if imgSvn b < svnMin then 2
  else 0

/-- The body of an image. -/
def imgBody (b : List Byte) : List Byte := (b.drop hdrBytes).take (imgBodyLen b)

/-- Whether the body is whole and its digest that of the header. -/
def bodyGood (b : List Byte) : Bool :=
  (imgBody b).length == imgBodyLen b && digestBytes (Config.shake256 (imgBody b)) == imgDigest b

/-- Whether an image verifies, and otherwise why not (R418, Table 17.6). -/
def imageStatus (v : Variant) (svnMin : Nat) (b : List Byte) : Nat :=
  match headerStatus v svnMin b with
  | 0 => if bodyGood b then 0 else 1
  | n => n

/-! ## The boot record (R416) -/

/-- A copy of a boot record as the flash holds it: bytes 0 to 59, and their CRC-32C. -/
def BootRec.bytes (r : BootRec) : List Byte :=
  let b := leBytes 4 r.seq ++ leBytes 1 (r.next % 2) ++ leBytes 1 (b2n r.lock) ++ leBytes 2 0 ++ leBytes 4 r.count ++ List.replicate 48 0
  b ++ leBytes 4 (crc32c b)

/-- The record a copy holds, where its CRC matches. -/
def bootCopy (b : List Byte) : Option BootRec :=
  if b.length = 64 ∧ imgNat b 60 4 = crc32c (b.take 60) then
    some { seq := imgNat b 0 4, next := imgNat b 4 1, lock := imgNat b 5 1 != 0, count := imgNat b 8 4 }
  else none

/-- The copy in force and its contents; with no valid copy, the record of R416 and copy 1, so that copy 0 is written next. -/
def KeepState.inForce (k : KeepState) : Nat × BootRec :=
  match bootCopy k.rec0, bootCopy k.rec1 with
  | some a, some b => if newer32 b.seq a.seq then (1, b) else (0, a)
  | some a, none => (0, a)
  | none, some b => (1, b)
  | none, none => (1, {})

def State.bootRec (s : State) : BootRec := s.keep.inForce.2

/-- Write the boot record: the other copy, with SEQ + 1. -/
def State.bootWrite (s : State) (f : BootRec → BootRec) : State :=
  let (i, r) := s.keep.inForce
  let r' : BootRec := f r
  let r' : BootRec := { r' with seq := (r.seq + 1) % 2 ^ 32 }
  if i = 0 then { s with keep := { s.keep with rec1 := r'.bytes } } else { s with keep := { s.keep with rec0 := r'.bytes } }

/-! ## The flash (R415) and the slots -/

/-- Bytes of a slot (Table 17.3). -/
def slotBytes : Nat := 0x4000000

/-- The byte at a flash address: the slots, the two copies of the boot record, the certificate chain; erased flash reads ones
(Table 17.3). The calibration records stand as `KeepState.cal`, in a layout the spec does not give (log entry 28). -/
def State.flashByte (s : State) (a : Nat) : Byte :=
  let at_ (l : List Byte) (i : Nat) : Byte := (l[i]?).getD 0xFF
  if a < 0x4000000 then at_ s.keep.slotA a
  else if a < 0x8000000 then at_ s.keep.slotB (a - 0x4000000)
  else if a < 0x8008000 then at_ s.keep.rec0 (a - 0x8000000)
  else if a < 0x8010000 then at_ s.keep.rec1 (a - 0x8008000)
  else if 0x8200000 ≤ a ∧ a < 0x8300000 ∧ a - 0x8200000 < Config.certChainLen then Config.certChain (a - 0x8200000)
  else 0xFF

/-- Slot 0 is A, slot 1 is B. -/
def State.slot (s : State) (n : Nat) : List Byte := if n = 0 then s.keep.slotA else s.keep.slotB

/-- Write a slot, which holds no more than its range (Table 17.3). -/
def State.setSlot (s : State) (n : Nat) (b : List Byte) : State :=
  let b := b.take slotBytes
  if n = 0 then { s with keep := { s.keep with slotA := b } } else { s with keep := { s.keep with slotB := b } }

/-- A slot whose header region is erased never verifies (R421). -/
def eraseHeader (b : List Byte) : List Byte := List.replicate hdrBytes 0xFF#8 ++ b.drop hdrBytes

def State.slotStatus (s : State) (n : Nat) : Nat := imageStatus s.variant s.keep.svn (s.slot n)

/-- Measure a slot: header region and body, or the header region alone when the header fails (R430). -/
def State.measureSlot (s : State) (n : Nat) : State :=
  let b := s.slot n
  let hdr := b.take hdrBytes
  let m := digestBytes (Config.shake256 (if headerStatus s.variant s.keep.svn b = 0 then hdr ++ imgBody b else hdr))
  { s with boot := { s.boot with meas := SMap.put n m s.boot.meas } }

/-- What the FWU and MGT pages show of the slots and the boot record (Tables 17.10 and 17.11). -/
def State.showSlots (s : State) : State :=
  let r := s.bootRec
  let a := s.slotStatus 0 == 0
  let b := s.slotStatus 1 == 0
  let s := s.setReg fwuPg FWU.SLOT_STATE (b2n a * 2 ^ 31 + b2n b * 2 ^ 30 + r.next % 2 * 2 ^ 29 +
    s.boot.running.getD 0 * 2 ^ 28 + b2n r.lock * 2 ^ 27)
  let s := s.setReg fwuPg FWU.SLOT_A_SVN (if a then imgSvn s.keep.slotA else 0)
  let s := s.setReg fwuPg FWU.SLOT_B_SVN (if b then imgSvn s.keep.slotB else 0)
  s.setReg mgtPg MGT.BOOT_COUNT (r.count % 2 ^ 32)

end Sys2Proof.Machine
end

