-- ==== Sys2Proof/Machine/Boot.lean ====
section
/-! DEFINITION. Resets, the input supply, the start-up stages, ROM recovery, the module record, the I3C target, JTAG, the
host and CXL links and the optical cages (17_bringup_firmware_security.md R412 to R414, R424, R425, R428;
19_module_interface.md R448 to R462; 13_fabric_links_and_host.md R320, R326, R334). -/

namespace Sys2Proof.Machine

def State.setBoot (s : State) (b : BootState) : State := { s with boot := b }

/-! ## Reset (R412, R449) -/

/-- RESET: all state is lost but the fuses and the flash; the pins keep their levels, COOLANT_OK apart after a stop (R457), and
FWU_NONCE takes a fresh random value (R423). The commands waiting, the records of outputs and notices and the draws of free values
are the model's own. -/
def State.enterReset (s : State) : State :=
  let (nonce, s) := s.draw
  let b : BootState := {
    resetN := s.boot.resetN
    pwrGood := s.boot.pwrGood
    coolant := s.boot.coolant && !s.halted
    holdupN := s.boot.holdupN
    refclk := s.boot.refclk
    switch_ := s.boot.switch_
    inputOk := s.boot.inputOk
    ovLatch := s.boot.ovLatch
    ovLow := s.boot.ovLow
    tap := s.boot.tap
    cages := s.boot.cages }
  let t : State := {
    pending := s.pending
    outbox := s.outbox
    rsp := s.rsp
    told := s.told
    free := s.free
    variant := s.variant
    keep := s.keep
    boot := b
    twinSt := { sense := s.twinSt.sense } }
  let t := (t.setReg mgtPg MGT.MGT_STATE 0).setReg fwuPg FWU.FWU_NONCE (nonce % 2 ^ 64)
  if s.mgtState = 0 then t else t.emit (.inform "in-band interrupt" 1)

/-- Whether the module may leave RESET: the input is at or above the start threshold, PWR_GOOD and MOD_RESET_N high, and a latched over-voltage
trip has seen MOD_RESET_N low and then high (R449). -/
def State.mayStart (s : State) : Bool :=
  s.boot.inputOk && s.boot.resetN && s.boot.pwrGood && (!s.boot.ovLatch || s.boot.ovLow)

/-- Leave RESET: stage 0 of start-up begins (R413). -/
def State.tryStart (s : State) : State :=
  if s.mgtState = 0 ∧ s.mayStart = true then
    (s.setBoot { s.boot with ovLatch := false, ovLow := false }).setMgt 1 0 0
  else s

/-- Latch a STOP_CAUSE bit (Table 19.8). -/
def State.latchCause (s : State) (b : Nat) : State := { s with keep := { s.keep with cause := s.keep.cause ||| 2 ^ b } }

/-- MOD_RESET_ASSERT: RESET from any state. -/
def State.resetLow (s : State) : State :=
  let s := s.latchCause 5
  (s.setBoot { s.boot with resetN := false, ovLow := s.boot.ovLow || s.boot.ovLatch }).enterReset

def execModResetAssert (s : State) : Res := .next s.resetLow

/-- MOD_RESET_RELEASE: the rise resets every TAP and starts stage 0 once the module may leave RESET (R413, R449, R462). -/
def State.resetHigh (s : State) : State :=
  if s.boot.resetN then s
  else (s.setBoot { s.boot with resetN := true, tap := [] }).tryStart

def execModResetRelease (s : State) : Res := .next s.resetHigh

/-- PWR_GOOD_FALL: RESET. -/
def State.pwrGoodLow (s : State) : State :=
  let s := s.latchCause 4
  (s.setBoot { s.boot with pwrGood := false }).enterReset

def execPwrGoodFall (s : State) : Res := .next s.pwrGoodLow

/-- The input switch opens: every rail is off, the management island's too; STOP_CAUSE is cleared with the island, and
the bits of a trip are written as the supply fails (R449, R460). -/
def State.openInput (s : State) (cause : Nat) : State :=
  let s : State := { s with keep := { s.keep with cause := cause } }
  (s.setBoot { s.boot with switch_ := false, inputOk := false, tap := [] }).enterReset

/-- UNDER_VOLTAGE_TRIP: below 46.0 V. -/
def execUnderVoltageTrip (mV : Nat) (s : State) : Res := .next (if mV < 46000 then s.openInput 1 else s)

/-- OVER_VOLTAGE_TRIP: above 62.0 V, latched. Above 65 V the effect is not specified (R449). -/
def execOverVoltageTrip (mV : Nat) (s : State) : Res :=
  if 65000 < mV then .fault .inputAboveMaximum
  else .next (if 62000 < mV then (s.setBoot { s.boot with ovLatch := true, ovLow := !s.boot.resetN }).openInput 2 else s)

/-- REVERSE_POLARITY: the input switch opens. -/
def execReversePolarity (s : State) : Res := .next (s.openInput 0)

/-- START_THRESHOLD: the input is back at or above 50.0 V, after an over-voltage trip within 50 to 60 V: the input switch closes, so
the management island is powered (R462), and the module leaves RESET once the rest holds (R449). -/
def State.inputBack (s : State) (mV : Nat) : State :=
  if mV < 50000 ∨ (s.boot.ovLatch = true ∧ 60000 < mV) then s
  else (s.setBoot { s.boot with inputOk := true, switch_ := true }).tryStart

def execStartThreshold (mV : Nat) (s : State) : Res := .next (s.inputBack mV)

/-- UV_WARN: between 46 and 50 V the module keeps running. -/
def execUvWarn (mV : Nat) (s : State) : Res := .next (if 46000 ≤ mV ∧ mV < 50000 then s.warnInput mV else s)

/-- OV_WARN: between 60 and 62 V the module keeps running. -/
def execOvWarn (mV : Nat) (s : State) : Res := .next (if 60000 < mV ∧ mV ≤ 62000 then s.warnInput mV else s)

/-- MGT_MODULE_RESET: MGT_RESET with OP 1; RESETS goes on counting over the resets it counts (log entry 33). -/
def State.moduleReset (s : State) : State :=
  let n := (s.count mgtPg MGT.RESETS 1).reg mgtPg MGT.RESETS
  s.enterReset.tryStart.setReg mgtPg MGT.RESETS n

def execMgtModuleReset (secure : Bool) (s : State) : Res :=
  .next (s.guardWrite mgtPg MGT.MGT_RESET true secure State.moduleReset)

/-! ## Die reset (R414, R373) -/

/-- Whether a register page lies on a die. -/
def onDie (die page : Nat) : Bool := page / 16384 == die

/-- A die's pages take their reset values; NS keeps what management firmware has set (log entry 25). -/
def State.wipeDie (s : State) (die : Nat) : State :=
  let pages := s.regs.live.filterMap fun p =>
    if keyOff p.1 = HDR.WORLD ∧ onDie die (keyPage p.1) then some (keyPage p.1, p.2.toNat) else none
  let s := s.wipeRegs fun p _ => onDie die p
  let s := pages.foldl (fun s p => s.setReg p.1 HDR.WORLD p.2) s
  let s : State := { s with mem := { s.mem with flushNew := s.mem.flushNew.filter fun p => p.1 != die } }
  -- the repair lists, and the count of rows repaired since manufacture, stay with the stacks (R278, Table 12.6)
  [2 * die, 2 * die + 1].foldl (fun s st =>
    (s.setReg (hbmPg st) HBM.REPAIR_PENDING (s.mem.repair.filter fun r => r / 2 ^ 48 == st).length).setReg (hbmPg st) HBM.REPAIRED
      (SMap.get 0 st s.keep.repaired)) s

/-- MGT_DIE_RESET: the die's buffers are written back and its stacks go to self-refresh and keep their contents; its
squares, queues, objects and pages are reset; the squares become STALE (R414, R373). -/
def State.dieReset (s : State) (die : Nat) : State :=
  if s.variant.computeDies ≤ die then s
  else
    let sts := [2 * die, 2 * die + 1]
    let old := sts.map s.stackState
    let s := sts.foldl (fun s st => if s.stackState st = .ready then (s.flushStack st).setStack st .selfRefresh else s.flushStack st) s
    let sqs := (List.range 64).map fun i => die * 64 + i
    let gone := (s.cmds.filter fun c => c.msq / 64 == die).map fun (c : Cmd) => c.id
    let s : State := gone.foldl (fun s id => (s.unwait id).dropWaits id) s
    let s : State := { s with
      cmds := s.cmds.filter fun c => c.msq / 64 != die
      queues := s.queues.filter fun p => qDie p.1 != die }
    let s := sqs.foldl (fun s m => ((s.loseRange (sqmAddr m 0) 0x400000).scsReset m)) s
    let s : State := { s with rook := s.rook.filter fun p => p.1 / 64 != die }
    let s := (((s.arb.objs.map (·.1)).filter fun k => k / 4096 == die).foldl State.uninit s).wipeDie die
    let s : State := { s with pwr := { s.pwr with gated := s.pwr.gated.filter fun m => m / 64 != die } }
    let s := sqs.foldl (fun s m => (s.setSqp m {}).staleOne m 1) s
    (sts.zip old).foldl (fun s p => { s with mem := { s.mem with stackSt := SMap.set .untrained p.1 p.2 s.mem.stackSt } }) s

def execMgtDieReset (die : Nat) (secure : Bool) (s : State) : Res :=
  .next (s.guardWrite mgtPg MGT.MGT_RESET true secure fun s => s.dieReset die)

/-- MGT_RESET written as a register (Table 17.11). -/
def State.mgtResetWrite (s : State) (v : Nat) : State :=
  match bits v 31 30 with
  | 1 => s.moduleReset
  | 2 => s.dieReset (v % 8)
  | _ => s

/-! ## Failing stages and ROM recovery (R413, R424) -/

/-- ROM_RECOVERY: HX0 comes up in the endpoint role, P0 and P1 train (R424). -/
def State.enterRecovery (s : State) : State :=
  let s := (s.setMgt 4 0 0).err mgtPg MGT.E_RECOVERY 0
  let h := s.reg (hxpPg 0) HXP.HXP_CONFIG
  let s := s.setReg (hxpPg 0) HXP.HXP_CONFIG (h % 2 ^ 30 + 2 ^ 30)
  [0, 1].foldl (fun s p =>
    (s.setReg (plyPg p) PLY.PLY_CONFIG (s.reg (plyPg p) PLY.PLY_CONFIG ||| 2 ^ 31)).setPort p { s.port p with st := .training }) s

/-- Stage 0 ends with no slot that runs: the boot is counted, the record written once, both slots are measured (R419, R424). -/
def State.romFail (s : State) : State :=
  ((((s.measureSlot 0).measureSlot 1).bootWrite fun r => { r with count := (r.count + 1) % 2 ^ 32 }).showSlots).enterRecovery

/-- A stage fails: stage 0 enters ROM_RECOVERY, every other BOOT_FAILED, reported over I3C; there the ports and the rest of the
module outside the management island work no more (R412, R413). -/
def State.stageFail (s : State) (reason : Nat) : State :=
  let st := s.mgtStage
  if st = 0 then s.romFail
  else
    let s : State := { s with fab := { s.fab with ports := [] } }
    ((s.setMgt 3 st reason).err mgtPg MGT.E_STAGE_FAILED st).emit (.inform "in-band interrupt" 3)

/-- Budgets in ms (Table 17.2). -/
def stageBudget (st : Nat) : Nat := ([4000, 3000, 6000, 36000, 4000, 12000, 8000, 10000, 7000][st]?).getD 0

/-- Whether a stage's budget runs: stage 1 waits for the first beat with COOLANT_OK high outside it, which reason 3 tells (R413). -/
def State.budgetRuns (s : State) : Bool :=
  s.mgtState == 1 && (s.mgtStage != 1 || bits (s.reg mgtPg MGT.MGT_STATE) 23 16 != 3)

/-- Record the time of a stage. -/
def State.stageMs (s : State) (ms : Nat) : State := s.setReg mgtPg (MGT.STAGE_MS0 + 4 * s.mgtStage) (ms % 2 ^ 32)

/-- STAGE_BUDGET_EXPIRE: the present stage has taken more than its budget. -/
def State.budgetOut (s : State) (ms : Nat) : State :=
  if s.budgetRuns && decide (stageBudget s.mgtStage < ms) then (s.stageMs ms).stageFail 1 else s

def execStageBudgetExpire (ms : Nat) (s : State) : Res := .next (s.budgetOut ms)

/-- STAGE_FAILED: the present stage fails on its own condition; stage 5 never does (Table 17.2). -/
def State.stageFault (s : State) (reason : Nat) : State :=
  if s.mgtState = 1 ∧ s.mgtStage ≠ 5 then (s.stageFail 2).emit (.inform "stage failed" reason) else s

def execStageFailed (reason : Nat) (s : State) : Res := .next (s.stageFault reason)

/-- RECOVERY_ANNOUNCE: every second in ROM_RECOVERY, on both twin ports (R424). -/
def State.announce (s : State) : State :=
  if s.mgtState = 4 then
    [0, 1].foldl (fun s p => if (s.port p).carries then
      s.emit (.packet p { hdr := { dstMod := s.twinId, srcMod := s.modId, vc := 7 }, body := .announce }) else s) s
  else s

def execRecoveryAnnounce (s : State) : Res := .next s.announce

/-- RECOVERY_IMAGE_DONE: the image that came from the twin as FW_IMAGE packets, else the one that host software wrote through BAR0
(R424). The header is checked before anything is written, the body after; on success the record names slot A and the module resets.
HOLDUP_N holds the download (R425). -/
def State.recoveryImage (s : State) (host : List Byte) : State :=
  let b := if s.boot.fwu.image.isEmpty then host else s.boot.fwu.image
  let s := if s.mgtState = 4 ∧ s.boot.holdupN = true then s.setBoot { s.boot with fwu := {} } else s
  if s.mgtState ≠ 4 ∨ s.boot.holdupN = false then s
  else if headerStatus s.variant s.keep.svn b ≠ 0 then s.emit (.inform "recovery image refused" (headerStatus s.variant s.keep.svn b))
  else if bodyGood b then
    (((s.setSlot 0 b).bootWrite fun r => { r with next := 0 }).enterReset).tryStart
  else (((s.setSlot 0 (eraseHeader b)).measureSlot 0).showSlots).emit (.inform "recovery image failed" 1)

def execRecoveryImageDone (image : List Byte) (s : State) : Res := .next (s.recoveryImage image)

/-! ## The module record (R461) -/

def State.recNat (s : State) (off n : Nat) : Nat := leNat ((s.boot.record.drop off).take n)

/-- Whether a record sets a reserved bit or gives a ROLE of 3. -/
def recordBad (b : List Byte) : Bool :=
  let w (o n : Nat) : Nat := leNat ((b.drop o).take n)
  b.length != 64 || decide (w 0 2 ≥ 2 ^ 15) || decide (w 2 1 ≥ 16) || decide (w 3 1 ≥ 16) || w 3 1 % 4 == 3 || w 3 1 / 4 == 3 ||
  (w 8 4).testBit 30 || (List.range 8).any (fun i => bits (w (12 + 4 * i) 4) 30 21 != 0 || (w (12 + 4 * i) 4).testBit 15) ||
  w 55 9 != 0

/-- The ports the record enables at stage 5 start training (Table 19.9). -/
def State.trainPorts (s : State) : State :=
  let en := s.recNat 52 3
  let s := s.setReg fabPg FAB.FAB_ID (s.recNat 0 2 % 2 ^ 15)
  ((List.range 24).filter fun p => en.testBit p && portPresent s.variant p && (s.port p).st == .off).foldl (fun s p =>
    (s.setReg (plyPg p) PLY.PLY_CONFIG (s.reg (plyPg p) PLY.PLY_CONFIG ||| 2 ^ 31)).setPort p { s.port p with st := .training }) s

/-- RECORD_SUBMIT: the record is delivered; after ACCEPTED it is ignored until the next reset (R461). -/
def State.recordSubmit (s : State) (rec : List Byte) : State :=
  if s.mgtState = 0 ∨ s.boot.accepted = true then s
  else
    let s := s.setBoot { s.boot with record := rec, submitted := true, refused := false }
    if s.mgtState = 1 ∧ s.mgtStage = 5 ∧ recordBad rec = false then s.trainPorts else s

def execRecordSubmit (rec : List Byte) (s : State) : Res := .next (s.recordSubmit rec)

/-- ENTDAA: the dynamic address (R460). -/
def execEntdaa (addr : Nat) (s : State) : Res :=
  .next (if s.mgtState = 0 then s else s.setReg mgtPg MGT.I3C_STATE (2 ^ 31 + addr % 128))

/-! ## Stages (R413, Table 17.2) -/

/-- Management firmware writes a register: the shadow of a committed field, or the live value. -/
def State.fwWrite (s : State) (page off win v : Nat) : State :=
  match pageRow s.variant page off with
  | some r =>
    match r.acc with
    | .cm => s.setShadow page off v win
    | .rw => s.setReg page off (v &&& r.mask) win
    | _ => s
  | none => s

/-- Commit a list of pages as the secure world; whether every commit was accepted. -/
def State.fwCommit (s : State) (pages : List Nat) : State × Bool :=
  pages.foldl (fun (a : State × Bool) p =>
    if a.1.canCommit p then
      let t := a.1.commit p true false
      (t, a.2 && bits (t.reg p HDR.COMMIT_STATUS) 31 28 == 1)
    else a) (s, true)

/-- Write and commit the registers management firmware sets at a stage. -/
def State.firmware (s : State) (l : List (Nat × Nat × Nat × DWord)) : State × Bool :=
  let s := l.foldl (fun (s : State) (w : Nat × Nat × Nat × DWord) => s.fwWrite w.1 w.2.1 w.2.2.1 w.2.2.2.toNat) s
  s.fwCommit ((l.map fun (w : Nat × Nat × Nat × DWord) => w.1).eraseDups)

/-- Stage 0: the ROM tries the slot of NEXT_SLOT, then the other, measures both, and writes the boot record once, with
BOOT_COUNT raised; with no slot that verifies it goes to ROM_RECOVERY (R419, R424; log entry 63). -/
def State.stageRom (s : State) : State :=
  let first := s.bootRec.next % 2
  let run : Option Nat := if s.slotStatus first = 0 then some first else if s.slotStatus (1 - first) = 0 then some (1 - first) else none
  match run with
  | none => s.romFail
  | some n =>
    let s := (s.measureSlot 0).measureSlot 1
    let s := if n = first then s
      else (s.count mgtPg MGT.BOOT_FALLBACKS 1).err mgtPg MGT.E_BOOT_FALLBACK 0
    let s := s.bootWrite fun r => { r with next := n, count := (r.count + 1) % 2 ^ 32 }
    let s := (s.setBoot { s.boot with running := some n }).showSlots
    if s.boot.coolant then s.setMgt 1 1 0 else (s.setMgt 1 1 3).emit (.inform "waiting for COOLANT_OK" 1)

/-- Stage 1: the rails are up; every epoch is the boot count times 256 (R373). -/
def State.stageRails (s : State) : State :=
  let e := s.bootRec.count * 256 % 65536
  let units := List.range (64 * s.variant.computeDies) ++ (List.range s.variant.stacks).map (384 + ·)
  let s : State := { s with bnd := { s.bnd with epoch := units.foldl (fun m u => SMap.set 0 u e m) s.bnd.epoch } }
  s.setMgt 1 2 0

/-- Stage 2: the calibration records of the flash are loaded (R399). -/
def State.stageFirmware (s : State) (valid : Nat) : State :=
  let s := s.setPwr { s.pwr with records := s.keep.cal.filter fun p => valid.testBit p.1 }
  ((List.range s.variant.stacks).foldl (fun s st => s.setStack st .training) s).setMgt 1 3 0

/-- Stage 3: every stack is ready; rows repaired, and rows that found no spare (R278). -/
def State.stageHbm (s : State) (i : StageIn) : State :=
  let s := (List.range s.variant.stacks).foldl (fun s st => s.setStack st .ready) s
  let rep := i.repaired.foldl (fun m (p : Nat × Nat) => SMap.set 0 p.1 (SMap.get 0 p.1 m + p.2) m) s.keep.repaired
  let s : State := { s with keep := { s.keep with repaired := rep } }
  let s := (List.range s.variant.stacks).foldl (fun s st => s.setReg (hbmPg st) HBM.REPAIRED (SMap.get 0 st rep)) s
  let s := (i.exhausted.filter fun a => decide (a / 0xC00000000 < s.variant.stacks)).foldl (fun s a =>
    s.err (hbmPg (a / 0xC00000000)) HBM.E_REPAIR_EXHAUSTED (addrInfo a)) s
  s.setMgt 1 4 0

/-- Stage 4 ends; stage 5 trains the ports the record enables. -/
def State.stageUcie (s : State) : State :=
  let s := s.setMgt 1 5 0
  if s.boot.submitted && !(recordBad s.boot.record) then s.trainPorts else s

/-- The fabric registers and roles of the record, as firmware writes them (R313, Table 19.9). -/
def State.recordWrites (s : State) : State :=
  let s := s.setShadow fabPg FAB.FAB_ID (s.recNat 0 2)
  let s := (s.setShadow fabPg FAB.FAB_COORD (s.recNat 4 4)).setShadow fabPg FAB.FAB_DIMS (s.recNat 8 4)
  let s := ((List.range 8).filter fun i => portPresent s.variant (16 + i)).foldl (fun s i =>
    s.setShadow (plyPg (16 + i)) PLY.EXPECT (s.recNat (12 + 4 * i) 4)) s
  let s := (List.range s.variant.fabricDies).foldl (fun s h =>
    s.setShadow (hxpPg h) HXP.HXP_CONFIG (s.reg (hxpPg h) HXP.HXP_CONFIG % 2 ^ 30 + s.recNat 3 1 / 4 ^ h % 4 * 2 ^ 30)) s
  let f := s.recNat 2 1
  let s := s.setReg (hxpPg 0) HXP.INTR_ROUTE (b2n (f.testBit 1) * 2 ^ 31 + bits f 3 2)
  (List.range 4).foldl (fun s i =>
    let w := s.recNat (44 + 2 * i) 2
    s.setReg fwuPg (FWU.FWU_NEXT0 + 4 * i) (w / 2 ^ 15 * 2 ^ 31 + w % 2 ^ 15)) s

/-- The pages the record's registers lie in. -/
def State.recordPages (s : State) : List Nat :=
  [fabPg] ++ (((List.range 8).filter fun i => portPresent s.variant (16 + i)).map fun i => plyPg (16 + i)) ++
    (List.range s.variant.fabricDies).map hxpPg

/-- The endpoint ports' clock mode: common clock where REFCLK is valid at stage 6, else SRIS (R457). -/
def State.pickClocks (s : State) : State :=
  let ports := (List.range s.variant.fabricDies).filter fun h => s.hxRole h == 1
  { s with host := { s.host with sris := if s.boot.refclk then [] else ports } }

/-- Stage 6: the record is committed with the registers firmware sets; a bad record or a refused commit fails the stage
(R461). -/
def State.stageRecord (s : State) (i : StageIn) : State :=
  if !s.boot.submitted then s
  else if recordBad s.boot.record then
    ((s.setBoot { s.boot with refused := true, submitted := false }).emit (.inform "in-band interrupt" 5)).stageFail 2
  else
    let s := i.firmware.foldl (fun (s : State) (w : Nat × Nat × Nat × DWord) => s.fwWrite w.1 w.2.1 w.2.2.1 w.2.2.2.toNat) s.recordWrites
    let (s, ok) := s.fwCommit ((s.recordPages ++ i.firmware.map fun (w : Nat × Nat × Nat × DWord) => w.1).eraseDups)
    if ok then
      let s := ((s.setBoot { s.boot with accepted := true }).emit (.inform "in-band interrupt" 5)).pickClocks
      let s := s.setMgt 1 7 0
      if (s.recNat 2 1).testBit 0 then
        (s.firmware [(tmpPg, TMP.TMP_CONFIG, 0, BitVec.ofNat 64 (s.reg tmpPg TMP.TMP_CONFIG ||| 2 ^ 31))]).1
      else s
    else ((s.setBoot { s.boot with refused := true, submitted := false }).emit (.inform "in-band interrupt" 5)).stageFail 2
/-- The pages of a die-level area and of the squares of a variant. -/
def allPages (v : Variant) : List Nat :=
  ((List.range 8).filter (diePresent v)).flatMap fun die =>
    (if die < 6 then (List.range 64).flatMap fun i => (List.range 7).map fun k => die * 16384 + i * 256 + k else []) ++
      ((List.range 128).filter fun q => (pageInfo v (diePage die q)).isSome).map (diePage die)

/-- Insert a range into a list sorted by base. -/
def insertRange (x : Nat × Nat) : List (Nat × Nat) → List (Nat × Nat)
  | [] => [x]
  | y :: ys => if x.1 ≤ y.1 then x :: y :: ys else y :: insertRange x ys

/-- The 64 KiB blocks of the HBM that no enabled region covers, as ranges. -/
def State.freeBlocks (s : State) : List (Nat × Nat) :=
  let used := (s.enabledRegions.map fun n => (bits (s.regionEntry n) 29 0, bits (s.regionEntry n) 93 64)).foldl
    (fun l x => insertRange x l) []
  let top := s.variant.stacks * 0xC00000000 / 65536
  let r := used.foldl (fun (a : Nat × List (Nat × Nat)) e =>
    (max a.1 (e.2 + 1), if a.1 < min e.1 top then a.2 ++ [(a.1, min e.1 top - 1)] else a.2)) (0, [])
  if r.1 < top then r.2 ++ [(r.1, top - 1)] else r.2

/-- The entries of stage 8: a non-secure ANY_JOB region over each range of HBM that stage 6 left free (Table 17.2). -/
def State.openWrites (s : State) : List (Nat × Nat × Nat × DWord) :=
  let l := s.freeBlocks
  let ns := ((List.range 256).drop 16).filter fun n => !(s.enabledRegions.contains n)
  (l.zip ns).flatMap fun p =>
    [(secPg, SEC.REGION_ENTRY0, p.2, BitVec.ofNat 64 p.1.1), (secPg, SEC.REGION_ENTRY1, p.2, 0),
     (secPg, SEC.REGION_ENTRY2, p.2, BitVec.ofNat 64 p.1.2), (secPg, SEC.REGION_ENTRY3, p.2, 0xE0000000)]

/-- Stage 8: pages of working units become non-secure, firmware's open region is committed, the module is READY (R428). -/
def State.stageOpen (s : State) (i : StageIn) : State :=
  let failed := ((List.range 24).filter fun p => portPresent s.variant p && (s.port p).st == .failed).map plyPg
  let s := s.setBoot { s.boot with failed := failed }
  let s := ((allPages s.variant).filter fun p => !(failed.contains p)).foldl (fun s p => s.setReg p HDR.WORLD 1) s
  let s := (s.firmware i.firmware).1
  let s := (s.firmware s.openWrites).1
  if s.tempoSt = 2 ∨ s.tempoSt = 4 then ((s.setBoot { s.boot with opened := true }).setMgt 2 0 0).twinStart else s

/-- BOOT_STAGE_DONE: the present stage finishes when its condition holds, within its budget, and the next begins (R413). -/
def State.stageDone (s : State) (i : StageIn) : State :=
  if !s.budgetRuns then s
  else
    let n := s.mgtStage
    if stageBudget n < i.ms then s.budgetOut i.ms
    else
      let t := s.stageMs i.ms
      match n with
      | 0 => t.stageRom
      | 1 => t.stageRails
      | 2 => t.stageFirmware i.calValid
      | 3 => t.stageHbm i
      | 4 => t.stageUcie
      | 5 => if (List.range 24).any fun p => (s.port p).st == .training then s else t.setMgt 1 6 0
      | 6 => if s.boot.submitted then t.stageRecord i else s
      | 7 => if s.tempoSt = 2 ∨ s.tempoSt = 4 then t.setMgt 1 8 0 else s
      | _ => if s.tempoSt = 2 ∨ s.tempoSt = 4 then t.stageOpen i else s

def execBootStageDone (i : StageIn) (s : State) : Res := .next (s.stageDone i)

/-! ## Side band (R455) -/

/-- Whether the side-band inputs are sampled: not in RESET. -/
def State.sampled (s : State) : Bool := s.mgtState != 0

/-! ## Boundary scan (R462) -/

/-- Load an instruction into a die's TAP: answered while the management island is powered; the ones that touch pins load as
BYPASS unless MOD_RESET_N is low. -/
def State.tapLoad (s : State) (die instr : Nat) (pins : Bool) : State :=
  if !(diePresent s.variant die) || !s.boot.switch_ then s
  else
    let n := if pins && s.boot.resetN then 0 else instr
    s.setBoot { s.boot with tap := SMap.put die n s.boot.tap }

def execBypass (die : Nat) (s : State) : Res := .next (s.tapLoad die 0 false)

/-- IDCODE: the die's word is answered on TDO. -/
def execIdcode (die : Nat) (s : State) : Res :=
  .next (if !(diePresent s.variant die) || !s.boot.switch_ then s
    else (s.tapLoad die 1 false).emit (.jtag die "IDCODE" (Config.idcode die)))

def execSamplePreload (die : Nat) (s : State) : Res := .next (s.tapLoad die 2 true)
def execExtest (die : Nat) (s : State) : Res := .next (s.tapLoad die 3 true)
def execClamp (die : Nat) (s : State) : Res := .next (s.tapLoad die 4 true)
def execHighz (die : Nat) (s : State) : Res := .next (s.tapLoad die 5 true)

/-- TRST: every TAP is reset. -/
def execTrst (s : State) : Res := .next (s.setBoot { s.boot with tap := [] })

/-! ## Host and CXL links (R288, R320, R326, R334, R457) -/

/-- Whether a host port is present and has a role. -/
def State.hxIs (s : State) (h role : Nat) : Bool := decide (h < s.variant.fabricDies) && s.hxRole h == role

/-- Set HXP_STATE: state, width, rate. -/
def State.setHx (s : State) (h st width rate : Nat) : State :=
  s.setReg (hxpPg h) HXP.HXP_STATE (st * 2 ^ 28 + width % 256 * 2 ^ 20 + rate % 256 * 2 ^ 12)

def State.hxState (s : State) (h : Nat) : Nat := bits (s.reg (hxpPg h) HXP.HXP_STATE) 31 28

/-- A host port's link is lost. -/
def State.hxDown (s : State) (h st : Nat) : State :=
  ((s.setHx h st 0 0).count (hxpPg h) HXP.LINK_DOWNS 1).err (hxpPg h) HXP.E_LINK_DOWN 0

/-- The BAR2 size of a host port, from its configuration (R334). -/
def State.bar2Config (s : State) (h : Nat) : Nat := bits (s.reg (hxpPg h) HXP.HXP_CONFIG) 29 24

/-- The BAR2 size in force on a host port: that of its last conventional reset or first link, else its configuration's
(R334). -/
def State.bar2Log (s : State) (h : Nat) : Nat := (SMap.find h s.host.bar2).getD (s.bar2Config h)

/-- HOST_LINK_UP: the PCIe link is trained. -/
def execHostLinkUp (port width rate : Nat) (s : State) : Res :=
  .next (if s.hxIs port 1 then
      ({ s with host := { s.host with bar2 := SMap.put port (s.bar2Log port) s.host.bar2 } } : State).setHx port 2 width rate
    else s)

/-- HOST_LINK_DOWN: the host sees a surprise down (R326). -/
def execHostLinkDown (port : Nat) (s : State) : Res :=
  .next (if s.hxIs port 1 && s.hxState port == 2 then s.hxDown port 3 else s)

/-- REFCLK_LOSS: an up PCIe link goes down and retrains in SRIS (R457). -/
def execRefclkLoss (port : Nat) (s : State) : Res :=
  .next (let s := s.setBoot { s.boot with refclk := false }
    if s.hxIs port 1 && s.hxState port == 2 then
      let s : State := { s with host := { s.host with sris := (s.host.sris.filter (· != port)) ++ [port] } }
      s.hxDown port 1
    else s)

/-- CXL_LINK_UP: far accesses resume. The width and rate it trained at are not given (free values). -/
def execCxlLinkUp (port : Nat) (s : State) : Res :=
  .next (if s.hxIs port 2 then
      let (w, s) := s.draw
      let (r, s) := s.draw
      ({ s with host := { s.host with cxlDown := s.host.cxlDown.filter (· != port) } } : State).setHx port 2 (w % 17) (r % 65)
    else s)

/-- CXL_LINK_DOWN: far accesses return uncorrectable (R288). -/
def execCxlLinkDown (port : Nat) (s : State) : Res :=
  .next (if s.hxIs port 2 && s.hxState port == 2 then
      let s : State := { s with host := { s.host with cxlDown := (s.host.cxlDown.filter (· != port)) ++ [port] } }
      ((s.hxDown port 0).count farPg FAR.LINK_DOWNS 1).err farPg FAR.E_LINK_DOWN 0
    else s)

/-- CONVENTIONAL_RESET: BAR2_LOG2 takes effect (R334); MSI-X is masked and nothing pending, as PCIe resets it. -/
def execConventionalReset (port : Nat) (s : State) : Res :=
  .next (if s.hxIs port 1 then
      { s with host := { s.host with
          bar2 := SMap.put port (s.bar2Config port) s.host.bar2
          msix := []
          waiting := [] } }
    else s)

/-- MSIX_VECTOR_UNMASK: the mask of a vector in the table is cleared, and a pending one is sent (R327). -/
def execMsixVectorUnmask (vec : Nat) (s : State) : Res :=
  .next (if s.endpointPort.isNone || decide (vec ≥ 2048) then s
    else s.setMsix vec { SMap.get ({} : MsixEntry) vec s.host.msix with masked := false })

/-! ## Optical cages (R453) -/

/-- Whether a port has a cage. -/
def State.hasCage (s : State) (port : Nat) : Bool := decide (16 ≤ port) && portPresent s.variant port

/-- OPTICAL_INSERT: reported over I3C; an optical module that is not accepted stays in low-power mode. -/
def execOpticalInsert (port : Nat) (accepted : Bool) (s : State) : Res :=
  .next (if s.hasCage port then
      (s.setBoot { s.boot with cages := SMap.put port accepted s.boot.cages }).emit (.inform "in-band interrupt" 6)
    else s)

/-- OPTICAL_REMOVE: reported over I3C; a working port has lost its lanes and retrains. -/
def execOpticalRemove (port : Nat) (s : State) : Res :=
  .next (if s.hasCage port then
      let s := (s.setBoot { s.boot with cages := SMap.del port s.boot.cages }).emit (.inform "in-band interrupt" 6)
      if (s.port port).carries then (s.setPort port { s.port port with lanes := 0 }).portRetrain port else s
    else s)

end Sys2Proof.Machine
end

