-- ==== Sys2Proof/Machine/Firmware.lean ====
section
/-! DEFINITION. The update chain, the owner lock, fuses, attestation, the management mailbox
(17_bringup_firmware_security.md R419 to R433). -/

namespace Sys2Proof.Machine

def State.setFwu (s : State) (x : FwuSt) : State := s.setBoot { s.boot with fwu := x }

/-- The state of Table 17.5 and the last outcome of Table 17.6. -/
def State.fwuState (s : State) : Nat := bits (s.reg fwuPg FWU.FWU_STATE) 31 28
def State.setFwuState (s : State) (st : Nat) : State :=
  s.setReg fwuPg FWU.FWU_STATE (st * 2 ^ 28 + s.reg fwuPg FWU.FWU_STATE % 2 ^ 28)
def State.setOutcome (s : State) (st o : Nat) : State := s.setReg fwuPg FWU.FWU_STATE (st * 2 ^ 28 + o * 2 ^ 24)

/-- Whether management firmware runs: from stage 3 on, and while the module is READY or stopped (Table 17.2). -/
def State.firmwareRuns (s : State) : Bool :=
  match s.mgtState with
  | 1 => decide (3 ≤ s.mgtStage)
  | 2 => true
  | 5 => true
  | _ => false

/-! ## Ranges of non-secure memory -/

/-- Whether a range lies wholly in one enabled non-secure region (R431, R432). -/
def State.inOpenRegion (s : State) (a n : Nat) : Bool :=
  s.enabledRegions.any fun k =>
    let e := s.regionEntry k
    e.testBit 126 && regionCovers e a && regionCovers e (a + n - 1)

/-- A non-secure read for no job. -/
def State.openRead (s : State) (a n : Nat) : State × List Byte :=
  let r := s.memRead { secure := false } a n
  (r.st, r.data)

/-! ## Outcomes (R420, R433) -/

/-- Append an outcome to the origin's report (R420). -/
def State.reportOutcome (s : State) (m outcome svn : Nat) : State :=
  let n := s.reg fwuPg FWU.REPORT_COUNT
  let s := if n < s.reg fwuPg FWU.REPORT_MAX then
      (s.memWrite Req.device (s.reg fwuPg FWU.REPORT_ADDR + 8 * n) (leBytes 8 (m % 2 ^ 15 + outcome % 256 * 2 ^ 16 + svn % 2 ^ 32 * 2 ^ 32))).st
    else s
  s.setReg fwuPg FWU.REPORT_COUNT ((n + 1) % 2 ^ 32)

/-- Count and flag an outcome of this module. -/
def State.flagOutcome (s : State) (o : Nat) : State :=
  let s := if 1 ≤ o ∧ o ≤ 3 then (s.count fwuPg FWU.VERIFY_FAILS 1).err fwuPg FWU.E_VERIFY_FAIL s.modId else s
  let s := if 4 ≤ o ∧ o ≤ 6 then s.count fwuPg FWU.REFUSALS 1 else s
  if 4 ≤ o ∧ o ≤ 7 then s.err fwuPg FWU.E_REFUSED s.modId else s

/-- An image met a busy module: BUSY is the last outcome, and the state stays (Tables 17.6 and 17.10). -/
def State.setBusy (s : State) : State := s.setOutcome s.fwuState 8

/-- Send an outcome to the origin of its image. -/
def State.sendOutcome (s : State) (origin o svn : Nat) : State :=
  if origin = s.modId then s.reportOutcome s.modId o svn else s.send 6 0 origin 6 0 0 (.fwuOutcome o svn)

/-- An image ends with an outcome: state, record, report. -/
def State.fwuEnd (s : State) (st o : Nat) : State :=
  let x := s.boot.fwu
  ((s.setOutcome st o).flagOutcome o).sendOutcome x.origin o (imgSvn x.image)

/-! ## Receiving an image -/

/-- Whether an image is being received, verified or written. -/
def State.fwuBusy (s : State) : Bool := s.fwuState == 1 || s.fwuState == 2 || s.fwuState == 3

/-- FWU_START: this module is the origin; a bad length or source ends at once with VERIFY_FAIL (R420, R432). -/
def State.fwuStart (s : State) : State :=
  let a := s.reg fwuPg FWU.FWU_SRC
  let n := s.reg fwuPg FWU.FWU_LEN
  if !s.firmwareRuns then s
  else if s.fwuBusy then
    let (s, b) := s.openRead a 12
    s.setBusy.reportOutcome s.modId 8 (imgSvn b)
  else
    let s := s.setReg fwuPg FWU.REPORT_COUNT 0
    let x : FwuSt := { s.boot.fwu with image := [], whole := true, origin := s.modId, src := s.modId }
    if outside n 36864 67108864 || !(s.inOpenRegion a n) then (s.setFwu x).fwuEnd 6 1
    else
      let (s, b) := s.openRead a n
      (s.setFwu { x with image := b }).setFwuState 1

def execFwuStart (secure : Bool) (s : State) : Res :=
  .next (s.guardWrite fwuPg FWU.FWU_CMD false secure State.fwuStart)

/-- FWU_IMAGE_COMPLETE: RECEIVING ends, verification begins. -/
def State.fwuComplete (s : State) : State :=
  if s.fwuState = 1 then (s.count fwuPg FWU.IMAGES_RX 1).setFwuState 2 else s

def execFwuImageComplete (s : State) : Res := .next s.fwuComplete

/-- A piece of an image arrives: it continues the image its sender began, begins one, or meets a busy module and is
discarded with BUSY, once per image; the piece without MORE is its image's last (R305, R420, Table 17.6). In ROM recovery it fills the
ROM's buffer with one image (R424). -/
def State.onFwImage (s : State) (p : Pkt) : State :=
  match p.body with
  | .fwImage origin data =>
    let x := s.boot.fwu
    let goes : FwuSt := { x with image := x.image ++ data, whole := !p.hdr.more }
    if s.mgtState = 4 then (if x.whole then s else s.setFwu goes)
    else if !s.firmwareRuns then s
    else if s.fwuState = 1 ∧ x.src = p.hdr.srcMod ∧ x.whole = false then s.setFwu goes
    else if s.fwuBusy then
      if leNat (data.take 4) = 0x4B465731 then s.setBusy.sendOutcome origin 8 (imgSvn data) else s
    else (s.setFwu { x with image := data, whole := !p.hdr.more, origin := origin, src := p.hdr.srcMod }).setFwuState 1
  | _ => s

/-- A member's outcome reaches the origin; an announcement tells the twin's firmware of a module in ROM recovery. -/
def State.onFwuOutcome (s : State) (p : Pkt) : State :=
  match p.body with
  | .fwuOutcome o svn => s.reportOutcome p.hdr.srcMod o svn
  | .announce => s.emit (.inform "recovery announced" p.hdr.srcMod)
  | _ => s

/-! ## Verifying, forwarding, writing (R420 to R422) -/

/-- The conditions that refuse a write, in order: IN_MOTION, HOLDUP, LOCKED; 0 with none (R422). -/
def State.writeRefused (s : State) : Nat :=
  if s.knownQueues.any (fun q => s.qEnabled q) || (s.regs.live.any fun p =>
      keyOff p.1 == QMG.Q_CONFIG && keyPage p.1 % 16384 == 0x3080 && keyPage p.1 / 16384 < 6 && p.2.toNat.testBit 31) || !s.cmds.isEmpty then 4
  else if !s.boot.holdupN then 5
  else if s.bootRec.lock then 6
  else 0

/-- Bytes of an image a packet carries: the most a packet can (R305). -/
def fwPiece : Nat := 8176

/-- Send an image to a module as one message: consecutive packets, every one but the last carrying MORE (R305). -/
def State.sendImage (s : State) (m origin : Nat) (b : List Byte) : State :=
  let n := (b.length + fwPiece - 1) / fwPiece
  (List.range n).foldl (fun s i => s.sendPkt
    { hdr := { dstMod := m, srcMod := s.modId, more := decide (i + 1 < n) }
      body := .fwImage origin ((b.drop (i * fwPiece)).take fwPiece) }) s

/-- The VALID successors. -/
def State.successors (s : State) : List Nat :=
  (List.range 4).filterMap fun i =>
    let w := s.reg fwuPg (FWU.FWU_NEXT0 + 4 * i)
    if w.testBit 31 then some (w % 2 ^ 15) else none

/-- Forward an image to every successor. -/
def State.forwardImage (s : State) : State :=
  let x := s.boot.fwu
  let l := s.successors
  (l.foldl (fun s m => s.sendImage m x.origin x.image) s).count fwuPg FWU.IMAGES_FWD l.length

/-- The slot that is not running. -/
def State.idleSlot (s : State) : Nat := 1 - s.boot.running.getD 0

/-- FWU_VERIFY_DONE: an image that fails ends; one already staged ends; any other is forwarded, then written unless
refused (R420, R422, Table 17.6). -/
def State.fwuVerified (s : State) : State :=
  if s.fwuState ≠ 2 then s
  else
    let x := s.boot.fwu
    match imageStatus s.variant s.keep.svn x.image with
    | 0 =>
      if x.staged = some (imgDigest x.image, imgSvn x.image) then s.fwuEnd 4 9
      else
        let s := s.forwardImage
        match s.writeRefused with
        | 0 =>
          let n := s.idleSlot
          (((s.setSlot n (eraseHeader (s.slot n))).measureSlot n).showSlots.setFwu
            { s.boot.fwu with staged := none, stop := 0 }).setFwuState 3
        | o => s.fwuEnd 5 o
    | o => s.fwuEnd 6 o

def execFwuVerifyDone (s : State) : Res := .next s.fwuVerified

/-- A refusal condition that arises during WRITING stops the write: the slot has no header (R422). -/
def State.fwuRecheck (s : State) : State :=
  if s.fwuState ≠ 3 then s
  else match s.writeRefused with
    | 0 => s
    | o => s.fwuEnd 5 o

/-- The outcome that stops a write before its last step: a condition that holds, or one that arose during it (R422). -/
def State.writeStopped (s : State) : Nat := if s.writeRefused = 0 then s.boot.fwu.stop else s.writeRefused

/-- FWU_WRITE_DONE: the slot is written, read back and verified, and NEXT_SLOT names it; a flash error fails, and so does a slot
that does not verify now, which the minimum SVN may have outrun (R421). -/
def State.fwuWritten (s : State) (ok : Bool) : State :=
  if s.fwuState ≠ 3 then s
  else match s.writeStopped with
    | 0 =>
      if ok then
        let n := s.idleSlot
        let b := s.boot.fwu.image
        let s := s.setSlot n b
        if s.slotStatus n = 0 then
          let s := (s.bootWrite fun r => { r with next := n }).measureSlot n
          (s.showSlots.setFwu { s.boot.fwu with staged := some (imgDigest b, imgSvn b) }).fwuEnd 4 0
        else ((s.measureSlot n).showSlots).fwuEnd 6 7
      else s.fwuEnd 6 7
    | o => s.fwuEnd 5 o

def execFwuWriteDone (flashOk : Bool) (s : State) : Res := .next (s.fwuWritten flashOk)

/-- HOLDUP_CHANGE: a new counted level of HOLDUP_N; asserted, it stops a write (R422, R455). -/
def execHoldupChange (level : Bool) (s : State) : Res :=
  .next (if s.sampled then (s.setBoot { s.boot with holdupN := level }).fwuRecheck else s)

/-! ## Owner key, lock, fuses (R419, R423) -/

/-- ENROLL: the digest of the owner key is blown once. -/
def State.enroll (s : State) : State :=
  if !s.firmwareRuns then s
  else if s.keep.ownerDigest.isSome then s.err fwuPg FWU.E_OWNER_SET s.modId
  else
    let (s, k) := s.openRead (s.reg fwuPg FWU.FWU_SRC) 64
    { s with keep := { s.keep with ownerDigest := some (digestBytes (Config.shake256 k)) } }

def execEnroll (secure : Bool) (s : State) : Res := .next (s.guardWrite fwuPg FWU.FWU_CMD false secure State.enroll)

/-- FWU_NONCE: the value drawn last, or that of the first reset (R423). -/
def State.nonce (s : State) : Nat :=
  if (SMap.find (regKey fwuPg 0 FWU.FWU_NONCE) s.regs.live).isSome then s.reg fwuPg FWU.FWU_NONCE else Config.firstNonce.toNat

/-- Whether a LOCK message is good for this module. -/
def State.lockGood (s : State) (b : List Byte) : Bool :=
  let key := (b.drop 32).take 64
  s.keep.ownerDigest == some (digestBytes (Config.shake256 key)) && Config.slhVerify key (b.take 32) ((b.drop 96).take 29792) &&
  imgNat b 4 4 == s.modId && imgNat b 8 8 == s.nonce && imgZero b 16 32 &&
  (imgNat b 0 4 == 1 || imgNat b 0 4 == 2)

/-- LOCK: a good message is applied by a boot record write, any other sets LOCK_AUTH; FWU_NONCE is renewed (R423). -/
def State.lockCmd (s : State) : State :=
  if !s.firmwareRuns then s
  else
    let (s, b) := s.openRead (s.reg fwuPg FWU.FWU_SRC) (96 + 29792)
    let s := if s.lockGood b then (s.bootWrite fun r => { r with lock := imgNat b 0 4 == 1 }).showSlots
      else s.err fwuPg FWU.E_LOCK_AUTH s.modId
    let (x, s) := s.draw
    (s.setReg fwuPg FWU.FWU_NONCE (x % 2 ^ 64)).fwuRecheck

def execLock (secure : Bool) (s : State) : Res := .next (s.guardWrite fwuPg FWU.FWU_CMD false secure State.lockCmd)

/-- SERVE_RECOVERY: the running image goes to a module in ROM recovery (R424). -/
def State.serveRecovery (s : State) (m : Nat) : State :=
  match s.boot.running with
  | some n => if s.firmwareRuns then s.sendImage m s.modId ((s.slot n).take (hdrBytes + imgBodyLen (s.slot n))) else s
  | none => s

def execServeRecovery (target : Nat) (secure : Bool) (s : State) : Res :=
  .next (s.guardWrite fwuPg FWU.FWU_CMD false secure fun s => s.serveRecovery target)

/-- RAISE_SVN: fuse bits are blown up to the running image's SVN, at most 64; never cleared (R419). -/
def State.raiseSvn (s : State) : State :=
  match s.boot.running with
  | some n =>
    if s.firmwareRuns then
      ({ s with keep := { s.keep with svn := max s.keep.svn (min 64 (imgSvn (s.slot n))) } } : State).showSlots
    else s
  | none => s

def execRaiseSvn (secure : Bool) (s : State) : Res := .next (s.guardWrite fwuPg FWU.FWU_CMD true secure State.raiseSvn)

/-- FWU_CMD written as a register (Table 17.10); RAISE_SVN from the secure world only. -/
def State.fwuWrite (s : State) (v : Nat) (secure : Bool) : State :=
  match v % 16 with
  | 1 => s.fwuStart
  | 2 => s.lockCmd
  | 3 => s.enroll
  | 4 => s.serveRecovery (bits v 30 16)
  | 5 => if secure then s.raiseSvn else s.violation true 0 (pageAddr fwuPg FWU.FWU_CMD)
  | _ => s

/-! ## Attestation (R430, R431) -/

/-- The windows of a CM+SW register: the eight far decoders; the region entries follow on their own; any other register has one
(log entry 108). -/
def swWindows (page : Nat) (r : RegRow) : List Nat :=
  if r.sel = 0 then [0] else if page = secPg then [] else List.range 8

/-- Live words of a CM+SW register, in all its windows. -/
def State.swWords (s : State) (page : Nat) (r : RegRow) : List Nat :=
  if r.acc = .cm ∧ r.sw = true then
    (swWindows page r).flatMap fun w =>
      let v := s.reg page r.off w
      if r.wide then [v % 2 ^ 32, v / 2 ^ 32] else [v]
  else []

/-- Measurement 4: the CM+SW fields of every present page in ascending address, then the region entries. Only die-level
pages have such fields. -/
def State.configWords (s : State) : List Nat :=
  ((List.range 8).flatMap fun die => (List.range 128).flatMap fun q =>
    match pageInfo s.variant (diePage die q) with
    | some i => (pageRows i.pt i.inst).flatMap fun r => s.swWords (diePage die q) r
    | none => []) ++
  (List.range 256).flatMap fun n =>
    (List.range 4).map fun k => s.reg secPg (SEC.REGION_ENTRY0 + 4 * k) n

/-- Entry i of the report (Table 17.8). -/
def attEntry (i : Nat) (verifies running : Bool) (digest : List Byte) : List Byte :=
  leBytes 4 i ++ leBytes 4 (b2n verifies + 2 * b2n running) ++ digest

/-- Bytes 0 to 511 of the report, as they stand when it starts. -/
def State.attBody (s : State) : List Byte :=
  let r := s.bootRec
  let run := s.boot.running
  let slotDigest (n : Nat) : List Byte := (SMap.find n s.boot.meas).getD (List.replicate 64 0)
  let m4 := digestBytes (Config.shake256 (s.configWords.flatMap (leBytes 4)))
  let own := s.keep.ownerDigest.getD []
  leBytes 4 0x41545331 ++ leBytes 2 1 ++ leBytes 2 5 ++ leBytes 2 s.modId ++ leBytes 2 (2 ^ s.variant.imageBit) ++
  leBytes 4 r.count ++ leBytes 8 s.keep.serial ++ leBytes 8 s.beat ++
  (List.range 8).flatMap (fun i => leBytes 4 (s.reg secPg (SEC.ATT_NONCE0 + 4 * i))) ++
  leBytes 4 (run.getD 0 + r.next % 2 * 2 + b2n r.lock * 4 + s.keep.svn % 128 * 8) ++ List.replicate 60 0 ++
  attEntry 0 false false (digestBytes Config.romDigest) ++
  attEntry 1 (s.slotStatus 0 == 0) (run == some 0) (slotDigest 0) ++
  attEntry 2 (s.slotStatus 1 == 0) (run == some 1) (slotDigest 1) ++
  attEntry 3 false false (digestBytes (Config.fuseDigest own s.keep.svn s.keep.serial)) ++
  attEntry 4 false false m4 ++ List.replicate 24 0

/-- Bytes of a report and of the certificate chain. -/
def attBytes (kind : Nat) : Nat := if kind = 1 then 512 + 49856 else Config.certChainLen

/-- Start a report (kind 1) or a copy of the chain (kind 2), or refuse it (R431). -/
def State.attStart (s : State) (kind : Nat) : State :=
  let a := s.reg secPg SEC.ATT_ADDR
  if s.boot.att != 0 || a % 64 != 0 || !(s.inOpenRegion a (attBytes kind)) then
    (s.setReg secPg SEC.ATT_STATUS (3 * 2 ^ 28)).err secPg SEC.E_ATT_REFUSED (addrInfo a)
  else
    (s.setBoot { s.boot with att := kind, attAddr := a, attBody := if kind = 1 then s.attBody else [] }).setReg
      secPg SEC.ATT_STATUS (2 ^ 28)

def execAttReport (secure : Bool) (s : State) : Res := .next (s.guardWrite secPg SEC.ATT_CMD false secure fun s => s.attStart 1)
def execAttChain (secure : Bool) (s : State) : Res := .next (s.guardWrite secPg SEC.ATT_CMD false secure fun s => s.attStart 2)

/-- ATT_CMD written as a register (Table 17.9). -/
def State.attWrite (s : State) (v : Nat) : State :=
  match v % 4 with
  | 1 => s.attStart 1
  | 2 => s.attStart 2
  | _ => s

/-- ATT_DONE: the report with its signature, or the chain, is in place (R431). -/
def State.attFinish (s : State) : State :=
  let x := s.boot
  if x.att = 0 then s
  else
    let n := attBytes x.att
    let data := if x.att = 1 then x.attBody ++ (List.range 49856).map (Config.slhSign x.attBody)
      else (List.range n).map Config.certChain
    let s := (s.memWrite Req.device x.attAddr data).st
    let s := s.setBoot { s.boot with att := 0, attBody := [] }
    (s.setReg secPg SEC.ATT_STATUS (2 * 2 ^ 28 + n % 2 ^ 24)).count secPg SEC.ATT_DONE 1

def execAttDone (s : State) : Res := .next s.attFinish

/-! ## The management mailbox (R428) -/

def State.mbox (s : State) (i : Nat) : Nat := s.reg mgtPg (MGT.MBOX0 + 4 * i)

/-- A region entry made of four words. -/
def wordsEntry (l : List Nat) : Nat := (l[0]?).getD 0 + (l[1]?).getD 0 * 2 ^ 32 + (l[2]?).getD 0 * 2 ^ 64 + (l[3]?).getD 0 * 2 ^ 96

/-- Whether a range touches one of firmware's secure reservations: an enabled secure entry among 0 to 15. -/
def State.touchesReserve (s : State) (e : Nat) : Bool :=
  (s.enabledRegions.filter (· < 16)).any fun n => !((s.regionEntry n).testBit 126) && regionsMeet e (s.regionEntry n)

/-- Firmware commits a region entry at once where the requested beat is zero; else the request runs until its commit has taken effect
(log entry 109). Refused, it leaves nothing pending. -/
def State.regionCommit (s : State) (n : Nat) (words : List Nat) (b : Nat) : State × Nat :=
  let w := (List.range 4).foldl (fun (s : State) i => s.setShadow secPg (SEC.REGION_ENTRY0 + 4 * i) ((words[i]?).getD 0) n) s
  let c : Cand := { s := w, page := secPg, secure := true }
  if (firstBad (c.reserved ++ c.sec)).isSome then (s, 0x0040)
  else if b = 0 then (w.commit secPg true false, 0)
  else
    let w := (w.setReg secPg HDR.COMMIT_BEAT b).arm secPg true
    (w.setBoot { w.boot with mboxRun := true }, 0)

/-- A mailbox request that waits for its beat ends with its commit: OK, or CONFIG_INVALID where the commit was refused or taken
back. -/
def State.mboxDone (s : State) : State :=
  if !s.boot.mboxRun || s.regs.armed.any (fun a => a.page == secPg) then s
  else
    let ok := bits (s.reg secPg HDR.COMMIT_STATUS) 31 28 == 1
    let s := s.setBoot { s.boot with mboxRun := false }
    (if ok then s else s.discard secPg true).setReg mgtPg MGT.MBOX_STATUS (if ok then 0 else 0x0040)

/-- The beat a request names. -/
def State.mboxBeat (s : State) : Nat := s.mbox 5 + s.mbox 6 * 2 ^ 32

/-- REGION_SET. -/
def State.regionSet (s : State) : State × Nat :=
  let n := bits (s.mbox 0) 15 8
  let ws := (List.range 4).map fun i => s.mbox (1 + i)
  let e := wordsEntry ws
  if n < 16 ∨ e.testBit 126 = false then (s, 0x0040)
  else if s.touchesReserve e then (s, 0x0031)
  else s.regionCommit n ws s.mboxBeat

/-- REGION_CLEAR. -/
def State.regionClear (s : State) : State × Nat :=
  let n := bits (s.mbox 0) 15 8
  if n < 16 then (s, 0x0040)
  else
    let w3 := s.reg secPg SEC.REGION_ENTRY3 n
    let ws := (List.range 3).map (fun i => s.reg secPg (SEC.REGION_ENTRY0 + 4 * i) n) ++ [w3 % 2 ^ 31]
    s.regionCommit n ws s.mboxBeat

/-- Whether a page's WORLD is fixed at NS 1 (R427). -/
def worldFixed (page : Nat) : Bool := page == secPg || page == fwuPg || page == mgtPg

/-- Set a page's WORLD. -/
def State.setWorld (s : State) (page v : Nat) : State := if worldFixed page then s else s.setReg page HDR.WORLD (v % 2)

/-- WORLD_SET. -/
def State.worldSet (s : State) : State × Nat :=
  let page := s.mbox 1 % 2 ^ 29 / 4096
  if (pageInfo s.variant page).isNone || s.boot.failed.contains page then (s, 0x0040)
  else (s.setWorld page (s.mbox 2), 0)

/-- Submit the mailbox: firmware performs the request and leaves its status; an OP that Table 17.7 does not list is
refused. While a request runs, SUBMIT does nothing. -/
def State.mboxSubmit (s : State) : State :=
  if !s.firmwareRuns || s.boot.mboxRun then s
  else
    let (s, st) := match s.mbox 0 % 256 with
      | 1 => s.regionSet
      | 2 => s.regionClear
      | 3 => s.worldSet
      | _ => (s, 0x0040)
    if s.boot.mboxRun then s else s.setReg mgtPg MGT.MBOX_STATUS st

/-- A mailbox request of one OP. -/
def State.mboxOp (s : State) (op : Nat) (secure : Bool) : State :=
  if s.mbox 0 % 256 = op then s.guardWrite mgtPg MGT.MBOX_CTRL false secure State.mboxSubmit else s

def execRegionSet (secure : Bool) (s : State) : Res := .next (s.mboxOp 1 secure)
def execRegionClear (secure : Bool) (s : State) : Res := .next (s.mboxOp 2 secure)
def execWorldSet (secure : Bool) (s : State) : Res := .next (s.mboxOp 3 secure)

end Sys2Proof.Machine
end

