-- ==== Sys2Proof/Machine/Interface.lean ====
section
/-! DEFINITION. The module's outside as its board meets it: the I3C target's registers and identity, the pairs of the
mezzanines, the boundary-scan chain, the ordering codes (19_module_interface.md R451, R455, R460 to R462, R464). Transfers over
I3C come with the beat in which the board makes them (log entry 107). -/

namespace Sys2Proof.Machine

/-- The identity of the PCIe function: device ID and the fused vendor ID (Table 13.9). -/
def State.pcieId (s : State) : Nat := s.variant.deviceId * 2 ^ 16 + Config.pcieVendor % 2 ^ 16

/-! ## The I3C target (R460) -/

/-- The 48-bit provisional ID: the fused vendor identifier, the variant code, the serial number's low bits. -/
def State.i3cPid (s : State) : Nat :=
  Config.i3cVendor % 2 ^ 15 * 2 ^ 33 + s.variant.code * 2 ^ 28 + s.keep.serial % 2 ^ 28

/-- BCR: able to interrupt, with one payload byte; and DCR. -/
def i3cBcr : Nat := 0x06
def i3cDcr : Nat := 0x00

/-- INPUT_STATUS: V_IN in units of 10 mV, OV_WARN and UV_WARN, which are not set in RESET (R449). -/
def State.inputStatus (s : State) : Nat :=
  let v := s.reg pwrPg PWR.V_IN % 2 ^ 16
  let on := s.mgtState != 0
  v / 10 * 2 ^ 16 + b2n (on && ovWarn v) * 2 + b2n (on && uvWarn v)

/-- SIGNALS: the counted levels of the side band; 0 until the first sample after a reset (Table 19.8). -/
def State.i3cSignals (s : State) : Nat :=
  if s.pwr.win.isEmpty then 0 else b2n s.twinSt.sense * 8 + b2n s.boot.holdupN * 4 + b2n s.boot.coolant * 2 + b2n s.boot.pwrGood

/-- The 32-bit register at an index of Table 19.8, the record apart. -/
def State.i3cWord (s : State) (i : Nat) : Nat :=
  match i with
  | 0x00 => s.variant.code * 2 ^ 24 + s.variant.deviceId
  | 0x04 => bits (s.reg mgtPg MGT.MGT_STATE) 31 16 * 2 ^ 16 + s.twin
  | 0x08 => s.i3cSignals
  | 0x0C => s.inputStatus
  | 0x10 => s.keep.cause % 64
  | 0x60 => b2n s.boot.refused * 4 + b2n s.boot.accepted * 2
  | _ => 0

/-- A byte read at an index: registers are little-endian, a read past 0x67 is zero. -/
def State.i3cRead (s : State) (i : Nat) : Byte :=
  if 0x20 ≤ i ∧ i < 0x60 then (s.boot.record[i - 0x20]?).getD 0
  else BitVec.ofNat 8 (s.i3cWord (i / 4 * 4) / 256 ^ (i % 4))

/-- A byte written at an index: STOP_CAUSE clears the bits written 1, a byte of the record is kept until it is accepted, SUBMIT
delivers the record as RECORD_SUBMIT does (R460, R461). -/
def State.i3cWrite (s : State) (i v : Nat) : State :=
  if i = 0x10 then { s with keep := { s.keep with cause := s.keep.cause - (s.keep.cause &&& v % 256) } }
  else if 0x20 ≤ i ∧ i < 0x60 then
    if s.boot.accepted then s
    else s.setBoot { s.boot with record := (padTo 64 0 s.boot.record).set (i - 0x20) (BitVec.ofNat 8 v) }
  else if i = 0x60 ∧ v % 2 = 1 then s.recordSubmit (padTo 64 0 s.boot.record)
  else s

/-- One private transfer: it needs a dynamic address and the powered island; the index counts up byte by byte, and the bytes read go
out. -/
def State.i3cTransfer (s : State) (x : I3cAcc) : State :=
  if s.mgtState = 0 ∨ s.boot.switch_ = false ∨ (s.reg mgtPg MGT.I3C_STATE).testBit 31 = false then s
  else if x.wr then
    (List.range x.data.length).foldl (fun (s : State) k => s.i3cWrite (x.index + k) ((x.data[k]?).getD 0).toNat) s
  else s.emit (.i3c ((List.range x.data.length).map fun k => s.i3cRead (x.index + k)))

/-- What the board presents at a beat beside COOLANT_OK: a counted level of PWR_GOOD, which the always-on clock samples while the
island is powered, in RESET too; the presence of REFCLK, whose loss is an event of its own; transfers over I3C (R455, R457,
R460; log entry 107). -/
def State.boardIn (s : State) (i : BeatIn) : State :=
  let s := if s.boot.switch_ = false ∨ i.pwrGood = s.boot.pwrGood then s
    else if i.pwrGood then (s.setBoot { s.boot with pwrGood := true }).tryStart else s.pwrGoodLow
  let s := if s.mgtState ≠ 0 ∧ i.refclk = true then s.setBoot { s.boot with refclk := true } else s
  i.i3c.foldl State.i3cTransfer s

/-! ## The mezzanines (R451) -/

/-- The pair of a Ply port's lane on its mezzanine; `rx` is the direction. -/
def plyPair (port lane : Nat) (rx : Bool) : Nat := 16 * (port % 8) + 2 * lane + b2n rx

/-- The pair of a lane of the host port that shares the mezzanine. -/
def hostPair (lane : Nat) (rx : Bool) : Nat := 128 + 2 * lane + b2n rx

/-- Row, and columns of ground, true and complement, of a pair. -/
def pairPlace (k : Nat) : Nat × Nat × Nat × Nat := (k / 8 + 1, 3 * (k % 8) + 1, 3 * (k % 8) + 2, 3 * (k % 8) + 3)

/-! ## The boundary-scan chain (R462) -/

/-- The dies of the chain from TDI to TDO: F0, the present compute dies, F1. -/
def tapChain (v : Variant) : List Nat := ([6, 0, 1, 2, 3, 4, 5, 7] : List Nat).filter (diePresent v)

/-! ## Ordering codes (R464) -/

/-- The ordering code of a variant (Table 19.11). -/
def orderingCode : Variant → String
  | .kta2 => "KLT-KTA2-096G-A"
  | .kta4 => "KLT-KTA4-288G-A"
  | .kta8 => "KLT-KTA8-576G-A"

end Sys2Proof.Machine
end

