-- ==== Sys2Proof/Machine/Registers.lean ====
section
/-! DEFINITION. Register accesses: what a read returns, what a write does (00_scope.md R9 and R10, 03_matrix_unit.md R65,
18_register_pages.md R434 to R446). -/

namespace Sys2Proof.Machine

/-! ## Values the device computes -/

/-- Whether a page belongs to a square. -/
def PT.ofSquare : PT → Bool
  | .sq => true | .mxu => true | .vxu => true | .scs => true | .knt => true | .rook => true | .gmb => true
  | _ => false

/-- The module square of a square page. -/
def PageInfo.msq (i : PageInfo) : Nat := i.die * 64 + i.inst

/-- The unit of a page: a square, or a stack as 384 + i (R373). -/
def PageInfo.stUnit (i : PageInfo) : Option Nat :=
  if i.pt.ofSquare then some i.msq else if i.pt = .hbm then some (384 + i.inst) else none

/-- Present and bound, with the job, as Q_STATE, CQ_STATE and OBJ_STATE show a binding. -/
def bindBits (j : Option Nat) (boundBit jobLo : Nat) : Nat :=
  match j with
  | some x => 2 ^ boundBit + x * 2 ^ jobLo
  | none => 0

/-- The header's read-only registers (Table 18.2). -/
def State.headerValue (s : State) (i : PageInfo) (page off : Nat) : Option Nat :=
  if off = HDR.PAGE_ID then some (i.pt.code * 2 ^ 24 + i.die * 2 ^ 16 + i.inst)
  else if off = HDR.STATUS then
    some (b2n (s.armed page).isSome * 2 ^ 31 +
      b2n (s.reg page HDR.ERR_STATUS &&& s.reg page HDR.ERR_ENABLE != 0) * 2 ^ 30 +
      b2n ((i.stUnit.map s.isStale).getD false) * 2 ^ 29)
  else if off = HDR.EPOCH then some ((i.stUnit.map s.unitEpoch).getD 0)
  else if off = HDR.BIND_JOB then some (if i.pt.ofSquare then bindBits (s.jobOf 0 i.msq) 31 0 else 0)
  else if off = HDR.COMMIT_BEAT ∧ i.pt.commits = false then some 0
  else none

/-- SQ_STATE: asleep, STALE, clock-gated, or running (Table 18.4). -/
def State.sqState (s : State) (msq : Nat) : Nat :=
  let code := match (s.sqp msq).sleep with
    | .asleep keep _ _ => if keep then 2 else 3
    | .waking keep _ => if keep then 2 else 3
    | _ => if s.isStale msq then 4 else if s.pwr.gated.contains msq then 1 else 0
  code * 2 ^ 28

/-- SCS_STATE (Table 4.8). -/
def State.scsState (s : State) (msq : Nat) : Nat :=
  (List.range 16).foldl (fun n b => n + b2n (s.waitingPromotion msq b).isSome * 2 ^ (16 + b)) (s.sheet msq).groups.length

/-- Updates now in the conflict queues, at most 32 a bank (R79). -/
def State.queuedNow (s : State) (msq : Nat) : Nat :=
  (List.range 16).foldl (fun n b => n + min 32 ((s.sheet msq).bankQueue b).length) 0

/-- STATE of Q_STATE (Table 10.9). -/
def State.qStateCode (s : State) (q : Nat) : Nat :=
  let x := s.qst q
  if !(s.qEnabled q) then 0
  else if x.halted then 5
  else if s.qAvail q = 0 then 1
  else match x.fetched with
    | [] => 3
    | d :: _ =>
      if s.beat < d.notBefore then 2
      else if s.qWaiting q || (d.dep && s.cmds.any fun c => some c.id == x.last) ||
          (d.opcode == 1 && s.cmds.any fun c => c.q == q) then 3
      else 4

/-- OBJ_STATE (Table 11.6). -/
def State.objState (s : State) (key : Nat) : Nat :=
  let o := s.obj key
  let st := match o.state with
    | .uninit => 0
    | .active => 1
    | .orphaned => 2
  st * 2 ^ 30 + b2n o.take * 2 ^ 29 + bindBits (s.objJob key) 28 16 + b2n (s.barrierOn key) * 2 ^ 14 +
    (if key / 4096 = 6 then 0 else o.owner % 512)

/-- HBM_STATE (Table 12.6). -/
def State.hbmState (s : State) (st : Nat) : Nat :=
  let code := match s.stackState st with
    | .untrained => 0
    | .training => 1
    | .ready => 2
    | .selfRefresh => 3
    | .failed => 4
  code * 2 ^ 28 + s.ueLogUsed st

/-- The CXL state of a host port in FAR_STATE (Table 12.10). -/
def State.farState (s : State) (h : Nat) : Nat :=
  if h < s.variant.fabricDies ∧ bits (s.reg (hxpPg h) HXP.HXP_CONFIG) 31 30 = 2 then
    match s.hxState h with
    | 1 => 1
    | 2 => 2
    | _ => 3
  else 0

/-- PLY_STATE (Tables 13.2 and 13.11). -/
def State.plyState (s : State) (p : Nat) : Nat :=
  let x := s.port p
  let code := match x.st with
    | .off => 0
    | .training => 1
    | .active => 2
    | .degraded => 3
    | .retraining => 4
    | .failed => 5
    | .miswired => 6
    | .stopped => 7
  code * 2 ^ 28 + (if x.carries then x.width * 2 ^ 24 else 0) + x.lanes % 256 * 2 ^ 16

/-- CTX_STATE (Table 14.11). -/
def State.ctxState (s : State) (k : Nat) : Nat :=
  match s.jobOf 5 k with
  | none => 0
  | some j =>
    let code := match (s.ctx k).st with
      | .idle => 1
      | .active => 2
      | .done => 3
      | .aborted => 4
    code * 2 ^ 28 + j * 2 ^ 12

/-- Chunks of the present instance whose result this node does not hold (Table 14.9). -/
def State.ctxPending (s : State) (k : Nat) : Nat :=
  let x := s.ctx k
  if x.st = .active then x.nchunks - (x.downs.filter fun d => d.kind == 0).length else 0

/-- BND_STATE with CASTLE and the jobs bound (Table 15.8). -/
def State.bndState (s : State) : Nat :=
  s.castleCode * 2 ^ 28 + s.twin * 2 ^ 24 + (s.bnd.bound.map (·.2)).eraseDups.length

/-- UNIT_EPOCH of the selected unit (Table 15.8). -/
def State.unitReg (s : State) (sel : Nat) : Nat :=
  let u := resyncUnit (bits sel 31 31) (bits sel 8 0)
  b2n (s.isStale u) * 2 ^ 31 + SMap.get 0 u s.bnd.cause * 2 ^ 28 + s.unitEpoch u % 2 ^ 16

/-- MLIST_STATE of a job (Table 15.8). -/
def State.mlistState (s : State) (j : Nat) : Nat :=
  let x := s.job j
  x.ver % 2 ^ 16 * 2 ^ 16 + (match s.ownRank x.members with
    | some r => 2 ^ 15 + r % 2 ^ 15
    | none => 0)

/-- PWR_STATE (Table 16.5). -/
def State.pwrState (s : State) : Nat :=
  b2n s.restricted * 2 ^ 31 + bits (s.reg pwrPg PWR.PWR_MODE) 0 0 * 2 ^ 30 + b2n s.pwr.drift.on * 2 ^ 29 +
  b2n (s.mgtState == 5) * 2 ^ 28 + b2n (s.mgtState == 6) * 2 ^ 27 + s.band * 2 ^ 22 +
  (List.range 4).foldl (fun n b => n + b2n (SMap.find b s.pwr.records).isSome * 2 ^ (18 + b)) 0

/-- DIE_CAP of the selected die: the lowest cap and its cause; 0 until the governor has run after a reset (Table 16.4). -/
def State.dieCapReg (s : State) (die : Nat) : Nat :=
  if diePresent s.variant die && !s.pwr.win.isEmpty then
    let t := s.thermalCap die
    let g := if die < 6 then (SMap.find die s.pwr.caps).getD s.pwr.cap else 1024
    if t < 1024 ∧ t ≤ g then 2 ^ 28 + t else if g < 1024 then s.pwr.why * 2 ^ 28 + g else 1024
  else 0

/-- DIE_VOLT of a compute die: its trim and its rail, the highest table voltage among its squares plus the trim (R401). -/
def State.dieVolt (s : State) (die : Nat) : Nat :=
  if die < s.variant.computeDies then
    let top := (List.range 64).foldl (fun n k => max n (Config.vTable die (s.railClock (die * 64 + k)))) 0
    twos 12 (s.trimOf die) * 2 ^ 16 + twos 12 ((top : Int) + s.trimOf die)
  else 0

/-- SENSOR_T of the selected sensor (Table 16.8). -/
def State.sensorT (s : State) (die n : Nat) : Nat :=
  match SMap.find die s.pwr.temps with
  | none => 0
  | some l => match l[n]? with
    | none => 0
    | some t => b2n (excluded (median2 l) t) * 2 ^ 31 + twos 12 t

/-- FUSE_STATE: the root digest is fused in every module (Table 17.9). -/
def State.fuseState (s : State) : Nat := 2 ^ 31 + b2n s.keep.ownerDigest.isSome * 2 ^ 30 + s.keep.svn % 128

/-- Registers of F0's single pages that show state. -/
def State.fabricValue (s : State) (i : PageInfo) (page off : Nat) : Option Nat :=
  match i.pt with
  | .tmp => if off = TMP.BEAT_NOW then some s.beat else none
  | .plc =>
    let j := s.reg plcPg PLC.JOB_SEL
    if off = PLC.REPLICAS_HELD then some s.replicasHeld
    else if PLC.JOB_CONFIG ≤ off ∧ off ≤ PLC.JOB_NEXT_BEAT ∧ s.jobBound j = false then some 0
    else if off = PLC.JOB_STATE then
      some (b2n (s.moveReady j) * 2 ^ 31 + (s.plc.rows.filter fun p => p.1.job == j && p.2.pend && s.owns p.1).length)
    else if off = PLC.UNDO_ROWS then
      some (s.plc.rows.filter fun p => p.1.job == j && p.2.undo.isSome && s.owns p.1).length
    else none
  | .bnd =>
    let j := s.reg bndPg BND.JOB_SEL
    if off = BND.BND_STATE then some s.bndState
    else if off = BND.MLIST_LEN then some (s.job j).members.length
    else if off = BND.MLIST_STATE then some (s.mlistState j)
    else if off = BND.UNIT_EPOCH then some (s.unitReg (s.reg bndPg BND.UNIT_SEL))
    else none
  | .pwr =>
    let m := s.reg pwrPg PWR.SQ_SEL
    if off = PWR.PWR_CAPS then some (s.variant.designPower * 2 ^ 16 + 120)
    else if off = PWR.PWR_STATE then some s.pwrState
    else if off = PWR.DIE_CAP then some (s.dieCapReg (s.reg pwrPg PWR.DIE_SEL))
    else if off = PWR.DIE_VOLT then some (s.dieVolt (s.reg pwrPg PWR.DIE_SEL))
    else if off = PWR.SQ_POINT then some (if s.squarePresent m then fmaxOf m * 2 ^ 16 + s.clockOf m else 0)
    else if off = PWR.SQ_ACT then some ((s.sqp m).l * 2 ^ 16 + (s.sqp m).f)
    else if off = PWR.SQ_SLACK then some (twos 16 (SMap.get 0 m s.pwr.slack))
    else none
  | .far => if off = FAR.FAR_STATE then some (s.farState 0 * 2 ^ 28 + s.farState 1 * 2 ^ 24) else none
  | .sec =>
    if off = SEC.SERIAL then some s.keep.serial else if off = SEC.FUSE_STATE then some s.fuseState else none
  | .red =>
    let k := ctxKey (i.die - 6) (s.reg page RED.CTX_SEL)
    if off = RED.CTX_STATE then some (s.ctxState k)
    else if off = RED.CTX_INST then some (s.ctx k).last
    else if off = RED.CTX_PENDING then some (s.ctxPending k)
    else if off = RED.RBUF_USED then some ((s.rbufUsed (i.die - 6) + 1023) / 1024)
    else none
  | .ply =>
    let x := s.port i.inst
    if off = PLY.PLY_CAPS then some (0x08352000 + i.inst)
    else if off = PLY.PLY_STATE then some (s.plyState i.inst)
    else if off = PLY.PLY_PARTNER then some (match x.partner with
      | some (m, p) => 2 ^ 31 + p * 2 ^ 16 + m
      | none => 0)
    else if off = PLY.LINK_DELAY then some (x.delay % 2 ^ 24)
    else none
  | .hxp => if off = HXP.INTR_ROUTE ∧ i.inst ≠ 0 then some 0 else none
  | .fwu => if off = FWU.FWU_NONCE then some s.nonce else none
  | .mgt => if off = MGT.MBOX_CTRL then some (b2n s.boot.mboxRun) else none
  | _ => none

/-- Registers of square and die pages that show state. -/
def State.dieValue (s : State) (i : PageInfo) (page off : Nat) : Option Nat :=
  match i.pt with
  | .sq =>
    if off = SQ.SQ_CAPS then some i.msq else if off = SQ.SQ_STATE then some (s.sqState i.msq) else none
  | .scs =>
    if off = SCS.SCS_STATE then some (s.scsState i.msq) else if off = SCS.QUEUED_NOW then some (s.queuedNow i.msq) else none
  | .qmg =>
    let q := i.die * 32768 + s.reg page QMG.QSEL
    if off = QMG.Q_STATE then
      some (s.qStateCode q * 2 ^ 28 + bindBits (s.jobOf 1 q) 27 12 + min 0xFFF (s.inFlight q))
    else if off = QMG.CQ_STATE then some (bindBits (s.jobOf 2 (i.die * 4096 + s.reg page QMG.CQSEL)) 31 0)
    else none
  | .arb =>
    let key := i.die * 4096 + s.reg page ARB.OBJ_SEL
    if off = ARB.ARB_CAPS then some (if i.die = 6 then 0x10001000 else 0x10000100)
    else if off = ARB.OBJ_VALUE then some (s.obj key).value
    else if off = ARB.OBJ_REST then some (s.obj key).rest
    else if off = ARB.OBJ_STATE then some (s.objState key)
    else if off = ARB.OBJ_WAITERS then some (s.objWaiters key).length
    else if off = ARB.BUSY_NOW then some (if i.die = 6 then (s.arb.fbars.filter fun b => s.cmdLive b.cmd).length else s.arb.barriers.length)
    else none
  | .hbm => if off = HBM.HBM_STATE then some (s.hbmState i.inst) else none
  | .wcb =>
    if off = WCB.DIRTY_NOW then some (s.mem.wcb.filter fun e => s.lineStack e.line / 2 == i.die).length else none
  | .thm =>
    if off = THM.THM_CAPS then some (if i.die < 6 then 0x01000073 else 0x00400073)
    else if off = THM.SENSOR_T then some (s.sensorT i.die (s.reg page THM.SENSOR_SEL))
    else none
  | _ => s.fabricValue i page off

/-- The whole value of a register as a read finds it: computed, by its access code, or its live value (R9). -/
def State.rowValue (s : State) (i : PageInfo) (page : Nat) (r : RegRow) : Nat :=
  let own := if r.off < 0x100 then s.headerValue i page r.off else s.dieValue i page r.off
  match own with
  | some v => v
  | none =>
    match r.acc with
    | .wo => 0
    | .cm => s.shadow page r.off (s.winOf page r)
    | _ => s.reg page r.off (s.winOf page r)

/-! ## Activity registers -/

/-- The command in progress on a unit of a square that a test accepts. -/
def State.running (s : State) (msq : Nat) (u : CUnit) (ok : Cmd → Bool) : Option Cmd :=
  s.cmds.find? fun c => c.msq == msq && !c.done && unitOf c.desc.opcode == u && ok c

/-- The n-th item of a list, counted round; 0 of an empty one. -/
def pickFrom (l : List Nat) (n : Nat) : Nat := (l[n % l.length]?).getD 0

/-- STATE and DEST of KNT_STATE for a command in progress (Table 6.12). A KNT_SAMPLE is seen only where it waits: for a request
slot with a destination still to come, or for the responses to destinations already sent, one of which is shown. An ALIAS_BUILD
has its rows here built and waits for the other owners. -/
def kntActivity (c : Cmd) (n : Nat) : Nat × Nat :=
  match c.ctx with
  | .sample x =>
    if x.todo < x.nodes.length then (5, x.todo) else (2, x.destOf (pickFrom (x.sent.flatMap (·.2)) n))
  | _ => (pickFrom [2, 4] n, n / 2 % 2 ^ 16)

/-- The code ROOK_STATE shows for a command in progress (Table 7.9): 7 where rows or entries are left that find no read or
batch slot, 8 where a gather only waits under STRICT, else what the command does. -/
def rookCode (c : Cmd) : Nat :=
  match c.ctx with
  | .gather x =>
    if !x.todo.isEmpty then 7
    else if x.open_.isEmpty && x.sent.isEmpty && !(x.wait.isEmpty) then 8
    else 1
  | .scatter x => if x.todo < x.n ∨ !x.open_.isEmpty then 7 else 2
  | .store x => if !x.todo.isEmpty || !x.open_.isEmpty then 7 else 3
  | _ =>
    match c.desc.opcode with
    | 0x50 => 1 | 0x51 => 2 | 0x53 => 4 | 0x54 => 5 | 0x55 => 6 | _ => 3

/-- What a unit's STATE register shows for a command in progress. A command is seen in progress only where it waits; the model
does not time the rest. A MATMUL is held with a flush or spill of one of its own passes and blocks (Table 3.8), a vector command
waits for the Scoresheet (Table 5.12), and so does a layer, held in one of its groups, or in the last once every pass is through
(Table 9.6). What the wait leaves open is a free value among what the tables list (log entry 36). -/
def State.activityOf (s : State) (pt : PT) (c : Cmd) (n : Nat) : Nat :=
  let opcode := c.desc.opcode
  match pt with
  | .mxu =>
    let a := mmArgs c.desc
    let passes := (passPairs (mxPieceCount a.aFmt) (mxPieceCount a.wFmt)).length
    let blocks := (a.k + a.kb - 1) / a.kb
    if c.spilled then 4 * 2 ^ 28 + (1 + n % passes) * 2 ^ 25 + n / passes % blocks
    else 4 * 2 ^ 28 + passes * 2 ^ 25 + (blocks - 1)
  | .vxu => 3 * 2 ^ 28 + opcode % 16 * 2 ^ 24
  | .knt => let k := kntActivity c n; k.1 * 2 ^ 28 + opcode % 16 * 2 ^ 24 + k.2
  | .rook => rookCode c * 2 ^ 28 + opcode % 16 * 2 ^ 24
  | .gmb =>
    let groups := match c.layer with
      | some l => l.groups
      | none => 1
    5 * 2 ^ 28 + (if s.drained c then groups - 1 else n % groups)
  | _ => 0

/-- The unit a page's STATE register reports on. -/
def PT.activity : PT → Option CUnit
  | .mxu => some .mxu | .vxu => some .vxu | .knt => some .knt | .rook => some .rook | .gmb => some .mxu
  | _ => none

/-- The command a page's STATE register reports on: the matrix unit's page shows a MATMUL that the array holds, the Gambit's a
GMB_LAYER until it completes. -/
def State.activeCmd (s : State) (i : PageInfo) (off : Nat) : Option Cmd :=
  if off = 0x108 then
    match i.pt.activity with
    | some u => s.running i.msq u fun c =>
      (i.pt != .mxu || (c.desc.opcode == 0x20 && !(s.drained c))) && (i.pt != .gmb || c.desc.opcode == 0x70)
    | none => none
  else none

/-! ## Reads -/

/-- Whether a 64-bit register latches: the counters and BEAT_NOW (R65, R247). -/
def latches (i : PageInfo) (r : RegRow) : Bool := r.wide && (r.cnt == 2 || (i.pt == .tmp && r.off == TMP.BEAT_NOW))

/-- A register access wakes a gated square (R258). -/
def State.touchPage (s : State) (i : PageInfo) : State := if i.pt.ofSquare then s.ungate i.msq else s

/-- The value of a register, a free value drawn where it shows the phase of a running command. -/
def State.readReg (s : State) (i : PageInfo) (page : Nat) (r : RegRow) : Nat × State :=
  match s.activeCmd i r.off with
  | some c =>
    let (n, s) := s.draw
    (s.activityOf i.pt c n, s)
  | none => (s.rowValue i page r, s)

/-- Whether the world forbids a requester a register (R9, R426, R427). -/
def State.rowClosed (s : State) (page : Nat) (r : RegRow) (secure : Bool) : Bool :=
  !secure && (r.sw || s.pageClosed page secure)

/-- A 32-bit read of a page (R9, R65, R434, R435). -/
def State.readAt (s : State) (page off : Nat) (secure : Bool) (src : Nat := 0) : Nat × State :=
  match pageInfo s.variant page, pageRow s.variant page off with
  | some i, some r =>
    if !(s.pageOpen page false secure) then (0, s)
    else if s.rowClosed page r secure then (0, s.violation true src (pageAddr page off))
    else
      let (v, s) := s.readReg i page r
      let s := s.touchPage i
      let k := regKey page 0 r.off
      if off = r.off then
        (v % 2 ^ 32,
          if latches i r then { s with regs := { s.regs with latch := SMap.put k (BitVec.ofNat 32 (v / 2 ^ 32)) s.regs.latch } }
          else s)
      else if latches i r then ((SMap.get 0 k s.regs.latch).toNat, s)
      else (v / 2 ^ 32 % 2 ^ 32, s)
  | some i, none => (0, if s.pageOpen page false secure then s.touchPage i else s)
  | none, _ => (0, s)

/-- The queue whose doorbell lies at an offset of a page slot (R220, R437). -/
def doorbellAt (v : Variant) (page off : Nat) : Option Nat :=
  let die := page / 16384
  let o := page % 16384
  if die < v.computeDies ∧ 0x30E0 ≤ o ∧ o < 0x3100 then some (die * 32768 + ((o - 0x30E0) * 4096 + off) / 4) else none

/-- The address of a queue's doorbell (R220, R437). -/
def doorbellAddr (q : Nat) : Nat := pageAddr (q / 32768 * 16384 + 0x30E0) 0 + 4 * (q % 32768)

/-- A 64-bit read of a pair: both words at once, with no latch (R434). -/
def State.readPair (s : State) (page off : Nat) (secure : Bool) (src : Nat := 0) : Nat × State :=
  match pageInfo s.variant page, pageRow s.variant page off with
  | some i, some r =>
    if r.wide && r.off == off then
      if !(s.pageOpen page false secure) then (0, s)
      else if s.rowClosed page r secure then (0, s.violation true src (pageAddr page off))
      else
        let (v, s) := s.readReg i page r
        (v % 2 ^ 64, s.touchPage i)
    else
      let (a, s) := s.readAt page off secure src
      let hidden := !secure && (s.rowClosed page r secure)
      -- one access logs one violation (R9)
      let (b, s) := if hidden && (match pageRow s.variant page (off + 4) with
          | some r2 => s.rowClosed page r2 secure
          | none => false) then (0, s) else s.readAt page (off + 4) secure src
      (a + b * 2 ^ 32, s)
  | _, _ =>
    let (b, s) := s.readAt page (off + 4) secure src
    (b * 2 ^ 32, s)

/-- The page slot and offset of a module-local address of the register space (R434). -/
def regPlace (a : Nat) : Option (Nat × Nat) :=
  if 0x3F0000000000 ≤ a ∧ a < 0x3F0020000000 then some ((a - 0x3F0000000000) / 4096, a % 4096) else none

/-- A read of a module-local address of the register space (R220, R434, R435). -/
def State.regRead (s : State) (a width : Nat) (secure : Bool) (src : Nat := 0) : Nat × State :=
  match regPlace a with
  | none => (0, s)
  | some (page, off) =>
    if (width ≠ 4 ∧ width ≠ 8) ∨ a % width ≠ 0 then (0, s)
    else match doorbellAt s.variant page off with
      | some q =>
        if !(s.pageOpen page false secure) then (0, s)
        else (s.qTail q + (if width = 8 then s.qTail (q + 1) * 2 ^ 32 else 0), s)
      | none => if width = 8 then s.readPair page off secure src else s.readAt page off secure src

/-- The access of the host, non-secure, at a register address of this module: behind a posted write not yet performed it waits
(R324, R325). -/
def regAcc (s : State) (a : Nat) (wr : Bool) (data : List Byte) : HostAcc :=
  { port := none, bar := 0, off := s.modId % 4 * 2 ^ 29 + (a - 0x3F0000000000), wr := wr, data := data }

/-- COUNTER_LATCH_READ: a 32-bit read, of the lower word of a 64-bit counter or of any register; the model keeps what it
returned. -/
def execCounterLatchRead (page off : Nat) (secure : Bool) (s : State) : Res :=
  .next (if !secure && s.hostHolds then s.hostHold (regAcc s (pageAddr page off) false (leBytes 4 0))
    else
      let (v, s) := s.regRead (pageAddr page off) 4 secure
      { s with rsp := BitVec.ofNat 64 v })

/-! ## Writes that act on the page -/

/-- A W1C write of ERR_STATUS: VALID of ERR_FIRST returns to 0 once every bit is clear (R440). -/
def State.errClear (s : State) (page v : Nat) : State :=
  let old := s.reg page HDR.ERR_STATUS
  let new := old - (old &&& v)
  let s := s.setReg page HDR.ERR_STATUS new
  if new = 0 then s.setReg page HDR.ERR_FIRST (s.reg page HDR.ERR_FIRST % 2 ^ 31) else s

/-- The counters that CNT_CLEAR leaves unchanged: the ratio log's (R116). -/
def keptCounter (pt : PT) (off : Nat) : Bool := pt == .vxu && off == VXU.RLOG_DROPPED

/-- CNT_CLEAR: the page's counters become zero; BANK_WIDE_PEAK restarts from the fullest bank, PEAK_WINDOW from nothing
(R65, R93, R407). -/
def State.cntClear (s : State) (i : PageInfo) (page : Nat) : State :=
  let s := (pageRows i.pt i.inst).foldl (fun (s : State) r =>
    if r.cnt != 0 && !(keptCounter i.pt r.off) then s.setReg page r.off 0 else s) s
  match i.pt with
  | .scs => s.setReg page SCS.BANK_WIDE_PEAK ((List.range 16).foldl (fun n b => max n ((s.sheet i.msq).wideIn b)) 0)
  | .pwr => s.setReg page PWR.PEAK_WINDOW 0
  | _ => s

/-- Offset of the control register of a page (Table 3.7); TMP has none. -/
def ctrlOff (pt : PT) : Option Nat := if pt = .sq then some 0x108 else if pt = .tmp then none else some 0x104

/-- UE_LOG_CLEAR empties a stack's log (R292). -/
def State.ueLogClear (s : State) (page : Nat) : State :=
  (List.range 16).foldl (fun s k => s.setReg page (HBM.UE_LOG0 + 8 * k) 0) s

/-- A write of a page's control register: CNT_CLEAR, COUNT_EN, and on an HBM page UE_LOG_CLEAR (Tables 3.7 and 12.6). -/
def State.ctrlWrite (s : State) (i : PageInfo) (page off v : Nat) : State :=
  let s := if v.testBit 0 then s.cntClear i page else s
  let s := s.setReg page off (v &&& 2)
  if i.pt = .hbm ∧ v.testBit 2 then s.ueLogClear page else s

/-- Forget the pending shadows of a page's window (R198, R244, R296, R360, R382). -/
def State.dropWindow (s : State) (page sel : Nat) (rows : List RegRow) : State :=
  let offs := (rows.filter fun r => r.sel == sel).map (·.off)
  { s with regs := { s.regs with shadow := s.regs.shadow.filter fun p => !(keyPage p.1 == page && offs.contains (keyOff p.1)) } }

/-- A select register: the window it selects is shown, with shadows reloaded from live values. -/
def State.selectWrite (s : State) (i : PageInfo) (page off v : Nat) : State :=
  (s.dropWindow page off (pageRows i.pt i.inst)).setReg page off v

/-- The select registers that reload their window; REGION_SEL and RT_SEL discard nothing (R432). -/
def selects (pt : PT) (off : Nat) : Bool :=
  match pt with
  | .qmg => off == QMG.QSEL || off == QMG.CQSEL
  | .plc => off == PLC.JOB_SEL
  | .bnd => off == BND.JOB_SEL
  | .red => off == RED.CTX_SEL
  | .far => off == FAR.DEC_SEL
  | _ => false

/-- A write of Q_HEAD: accepted while the queue is disabled and the ring would hold what lies between (R235). -/
def State.qHeadWrite (s : State) (q v : Nat) : State :=
  if !(s.qEnabled q) && decide ((s.qTail q + 2 ^ 32 - v % 2 ^ 32) % 2 ^ 32 ≤ 2 ^ s.qLog2 q) then
    (s.setQreg q QMG.Q_HEAD (v % 2 ^ 32)).setQst q { s.qst q with fetched := [] }
  else s.err (qmgPg (qDie q)) QMG.E_DB_INVALID q

/-- RESUME: a halted queue goes on at Q_HEAD (R235). -/
def State.resumeQueue (s : State) (q : Nat) : State := s.setQst q { s.qst q with halted := false, fetched := [] } |>.ungateReady

/-- A ring's tail moves to v when v is not ahead of the head nor more than the ring behind it (R114, R233). -/
def tailOk (head size v : Nat) : Bool := decide ((head + 2 ^ 32 - v % 2 ^ 32) % 2 ^ 32 ≤ size)

/-- CQ_TAIL (R233). -/
def State.cqTailWrite (s : State) (die cq v : Nat) : State :=
  if tailOk (s.cqreg die cq QMG.CQ_HEAD) (2 ^ bits (s.cqreg die cq QMG.CQ_CONFIG) 4 0) v then
    s.setCqreg die cq QMG.CQ_TAIL (v % 2 ^ 32) else s

/-- RLOG_TAIL (R114). -/
def State.rlogTailWrite (s : State) (page v : Nat) : State :=
  if tailOk (s.reg page VXU.RLOG_HEAD) (2 ^ bits (s.reg page VXU.RLOG_CONFIG) 4 0) v then
    s.setReg page VXU.RLOG_TAIL (v % 2 ^ 32) else s

/-- Writes of block registers with an effect of their own; none for any other register. -/
def State.blockWrite (s : State) (i : PageInfo) (page off v : Nat) (secure : Bool) : Option State :=
  if ctrlOff i.pt = some off then some (s.ctrlWrite i page off v)
  else if selects i.pt off then
    some (s.selectWrite i page off (v &&& ((pageRow s.variant page off).map (·.mask)).getD 0))
  else match i.pt with
  | .qmg =>
    let q := i.die * 32768 + s.reg page QMG.QSEL
    if off = QMG.Q_HEAD then some (s.qHeadWrite q v)
    else if off = QMG.Q_CMD then some (if v.testBit 0 then s.resumeQueue q else s)
    else if off = QMG.CQ_TAIL then some (s.cqTailWrite i.die (s.reg page QMG.CQSEL) v)
    else none
  | .vxu => if off = VXU.RLOG_TAIL then some (s.rlogTailWrite page v) else none
  | .ply =>
    if off = FAB.RT_ENTRY then
      if bits (s.reg fabPg FAB.RT_SEL) 10 10 = bits (s.reg fabPg FAB.ROUTE_BANK) 0 0 then some s else none
    else if off = FAB.LOST_CMD then some (s.lostWrite v) else none
  | .bnd =>
    if off = BND.TWIN_CMD then some (s.twinWrite v)
    else if off = BND.RESYNC_CMD then some (s.resyncWrite v) else none
  | .pwr =>
    if off = PWR.CAL_CMD then some (s.calWrite v)
    else if PWR.SLEEP_WAKE0 ≤ off ∧ off ≤ PWR.SLEEP_WAKE11 then some (s.sleepWake ((off - PWR.SLEEP_WAKE0) / 4) v) else none
  | .sec => if off = SEC.ATT_CMD then some (s.attWrite v) else none
  | .fwu => if off = FWU.FWU_CMD then some (s.fwuWrite v secure) else none
  | .mgt =>
    if off = MGT.MGT_RESET then some (s.mgtResetWrite v)
    else if off = MGT.MBOX_CTRL then some (if v.testBit 0 then s.mboxSubmit else s)
    -- the request stands while SUBMIT reads 1 (Table 17.11)
    else if MGT.MBOX0 ≤ off ∧ off ≤ MGT.MBOX7 ∧ s.boot.mboxRun = true then some s else none
  | .hxp => if off = HXP.INTR_ROUTE ∧ i.inst ≠ 0 then some s else none
  | _ => none

/-! ## Writes -/

/-- Replace one 32-bit half of a value. -/
def halfOf (old v : Nat) (upper : Bool) : Nat := if upper then old % 2 ^ 32 + v % 2 ^ 32 * 2 ^ 32 else old / 2 ^ 32 * 2 ^ 32 + v % 2 ^ 32

/-- Store a register by its access code: RW and WO set the bits that are not reserved, CM the shadow with every bit, RO
ignores (R9, R10). -/
def State.plainStore (s : State) (page : Nat) (r : RegRow) (f : Nat → Nat) : State :=
  let w := s.winOf page r
  match r.acc with
  | .rw => s.setReg page r.off (f (s.reg page r.off w) &&& r.mask) w
  | .wo => s.setReg page r.off (f (s.reg page r.off w) &&& r.mask) w
  | .cm => s.setShadow page r.off (f (s.shadow page r.off w)) w
  | _ => s

/-- A header register written (Table 18.2): none for one without effect of its own. -/
def State.headerWrite (s : State) (page off v : Nat) (secure : Bool) : Option State :=
  if off = HDR.CONTROL then some (if s.canCommit page then s.control page v secure else s)
  else if off = HDR.ERR_STATUS then some (s.errClear page v)
  else if off = HDR.WORLD then some (s.setWorld page v)
  else none

/-- A write that the world allows reaches a register: its own effect, or a plain store; `f` puts the bits written into the
register's value. -/
def State.storeReg (s : State) (i : PageInfo) (page off v : Nat) (r : RegRow) (f : Nat → Nat) (secure : Bool) : State :=
  let s := s.touchPage i
  let own := if off < 0x100 then s.headerWrite page off v secure else s.blockWrite i page off v secure
  own.getD (s.plainStore page r f)

/-- COMMIT and COMMIT_BEAT, which apply the world's rule themselves (R443). -/
def State.commitWrite (s : State) (page off v : Nat) (secure : Bool) (src : Nat) : Option State :=
  if off = HDR.COMMIT then some (s.commitGo page v secure src)
  else if off = HDR.COMMIT_BEAT then some (s.commitBeat page (halfOf (s.reg page HDR.COMMIT_BEAT) v false) false secure src)
  else if off = HDR.COMMIT_BEAT + 4 then some (s.commitBeat page (halfOf (s.reg page HDR.COMMIT_BEAT) v true) true secure src)
  else none

/-- A 32-bit write of a page (R9, R434, R435). -/
def State.writeAt (s : State) (page off v : Nat) (secure : Bool) (src : Nat := 0) : State :=
  match pageInfo s.variant page, pageRow s.variant page off with
  | some i, some r =>
    if !(s.pageOpen page true secure) then s
    else match s.commitWrite page off v secure src with
      | some t => t.touchPage i
      | none =>
        if s.rowClosed page r secure then s.violation true src (pageAddr page off)
        else s.storeReg i page off v r (fun old => if r.wide then halfOf old v (off != r.off) else v % 2 ^ 32) secure
  | some i, none => if s.pageOpen page true secure then s.touchPage i else s
  | none, _ => s

/-- A 64-bit write of a pair: a 64-bit register takes both words in one cycle, two registers take theirs lower first
(R434); one access logs one violation (R9). -/
def State.writePair (s : State) (page off v : Nat) (secure : Bool) (src : Nat := 0) : State :=
  match pageInfo s.variant page, pageRow s.variant page off with
  | some i, some r =>
    if r.wide && r.off == off then
      if !(s.pageOpen page true secure) then s
      else if off = HDR.COMMIT_BEAT then (s.commitBeat page v true secure src).touchPage i
      else if s.rowClosed page r secure then s.violation true src (pageAddr page off)
      else s.storeReg i page off v r (fun _ => v % 2 ^ 64) secure
    else
      let closed2 := match pageRow s.variant page (off + 4) with
        | some r2 => s.rowClosed page r2 secure
        | none => false
      let both := s.rowClosed page r secure && closed2
      let s := s.writeAt page off (v % 2 ^ 32) secure src
      if both then s else s.writeAt page (off + 4) (v / 2 ^ 32) secure src
  | _, _ => s.writeAt page (off + 4) (v / 2 ^ 32) secure src

/-- A doorbell rung: a gated square wakes (R220, R258). -/
def State.ring (s : State) (q v : Nat) : State := (s.ungate (s.qSquare q)).doorbell q (v % 2 ^ 32)

/-- A write of another width to a doorbell is ignored and counted (R220). -/
def State.ringBad (s : State) (q : Nat) : State :=
  (s.count (qmgPg (qDie q)) QMG.DB_IGNORED 1).err (qmgPg (qDie q)) QMG.E_DB_INVALID q

/-- A doorbell write of a width: 4 bytes, or 8 as two writes, the lower address first (R220). -/
def State.doorbellWrite (s : State) (q v width : Nat) : State :=
  if !(s.pageOpen (qmgPg (qDie q)) true false) then s
  else if width = 4 then s.ring q v
  else if width = 8 ∧ q % 2 = 0 then (s.ring q (v % 2 ^ 32)).ring (q + 1) (v / 2 ^ 32)
  else s.ringBad q

/-- A write to a module-local address of the register space (R220, R434, R435). -/
def State.regWrite (s : State) (a v width : Nat) (secure : Bool) (src : Nat := 0) : State :=
  match regPlace a with
  | none => s
  | some (page, off) =>
    match doorbellAt s.variant page off with
    | some q => if a % 4 = 0 then s.doorbellWrite q v width else if s.pageOpen page true secure then s.ringBad q else s
    | none =>
      if a % width ≠ 0 then s
      else if width = 4 then s.writeAt page off (v % 2 ^ 32) secure src
      else if width = 8 then s.writePair page off v secure src
      else s

/-! ## The rows -/

/-- REGISTER_WRITE: a write of any width to an address of the register space. -/
def execRegisterWrite (addr : Nat) (v : DWord) (width : Nat) (secure : Bool) (s : State) : Res :=
  .next (if !secure && s.hostHolds && (regPlace addr).isSome then s.hostHold (regAcc s addr true (leBytes width v.toNat))
    else s.regWrite addr v.toNat width secure)

/-- ERR_STATUS_CLEAR (R440). -/
def execErrStatusClear (page : Nat) (v : Word) (secure : Bool) (s : State) : Res :=
  .next (s.writeAt page HDR.ERR_STATUS v.toNat secure)

/-- CNT_CLEAR: a write of the page's control register (R65). -/
def execCntClear (page : Nat) (v : Word) (secure : Bool) (s : State) : Res :=
  .next (match (pageInfo s.variant page).bind fun i => ctrlOff i.pt with
    | some off => s.writeAt page off v.toNat secure
    | none => s)

/-- DOORBELL_WRITE (R220). -/
def execDoorbellWrite (q : Nat) (v : DWord) (width : Nat) (s : State) : Res :=
  .next (if qDie q ≥ s.variant.computeDies then s
    else if s.hostHolds then s.hostHold (regAcc s (doorbellAddr q) true (leBytes width v.toNat))
    else s.doorbellWrite q v.toNat width)

/-- Q_HEAD_WRITE (R235). -/
def execQHeadWrite (die : Nat) (v : Word) (secure : Bool) (s : State) : Res :=
  .next (s.writeAt (qmgPg die) QMG.Q_HEAD v.toNat secure)

/-- RESUME: a write of Q_CMD (R235). -/
def execResume (die : Nat) (v : Word) (secure : Bool) (s : State) : Res :=
  .next (s.writeAt (qmgPg die) QMG.Q_CMD v.toNat secure)

/-- QSEL_WRITE (R244). -/
def execQselWrite (die : Nat) (v : Word) (secure : Bool) (s : State) : Res :=
  .next (s.writeAt (qmgPg die) QMG.QSEL v.toNat secure)

/-- CQSEL_WRITE (R244). -/
def execCqselWrite (die : Nat) (v : Word) (secure : Bool) (s : State) : Res :=
  .next (s.writeAt (qmgPg die) QMG.CQSEL v.toNat secure)

/-- CQ_TAIL_WRITE (R233). -/
def execCqTailWrite (die : Nat) (v : Word) (secure : Bool) (s : State) : Res :=
  .next (s.writeAt (qmgPg die) QMG.CQ_TAIL v.toNat secure)

/-- RLOG_TAIL_WRITE (R114). -/
def execRlogTailWrite (msq : Nat) (v : Word) (secure : Bool) (s : State) : Res :=
  .next (s.writeAt (vxuPg msq) VXU.RLOG_TAIL v.toNat secure)

/-- PLC_JOB_SEL_WRITE (R198). -/
def execPlcJobSelWrite (v : Word) (secure : Bool) (s : State) : Res := .next (s.writeAt plcPg PLC.JOB_SEL v.toNat secure)

/-- BND_JOB_SEL_WRITE (R382). -/
def execBndJobSelWrite (v : Word) (secure : Bool) (s : State) : Res := .next (s.writeAt bndPg BND.JOB_SEL v.toNat secure)

/-- CTX_SEL_WRITE (R360). -/
def execCtxSelWrite (rdie : Nat) (v : Word) (secure : Bool) (s : State) : Res :=
  .next (s.writeAt (redPg rdie) RED.CTX_SEL v.toNat secure)

/-- DEC_SEL_WRITE (R296). -/
def execDecSelWrite (v : Word) (secure : Bool) (s : State) : Res := .next (s.writeAt farPg FAR.DEC_SEL v.toNat secure)

/-- UE_LOG_CLEAR: a write of HBM_CTRL (R292). -/
def execUeLogClear (stack : Nat) (v : Word) (secure : Bool) (s : State) : Res :=
  .next (s.writeAt (hbmPg stack) HBM.HBM_CTRL v.toNat secure)

/-- SCS_WINDOW_WRITE: a write through the Scoresheet window of a present square is dropped and sets RAW_WRITE (R85). -/
def State.scsWindowWrite (s : State) (a : Nat) : State :=
  match areaOf s.variant a with
  | .scs msq _ => s.err (scsPg msq) SCS.E_RAW_WRITE 0
  | _ => s

def execScsWindowWrite (addr : Nat) (s : State) : Res := .next (s.scsWindowWrite addr)

end Sys2Proof.Machine
end

