-- ==== Sys2Proof/Machine/Settle.lean ====
section
/-! DEFINITION. What goes on once Scoresheet updates have been absorbed: the commands and batches that waited for them
(04_scoresheet_and_epilogue.md R63, R79 to R82, 07_gather_and_scatter.md R159, R164, R165). -/

namespace Sys2Proof.Machine

/-- Let a command that waits for Scoresheet updates, or for notices, go on if it can. -/
def State.settleOne (s : State) (id : Nat) : State :=
  match s.cmd? id with
  | none => s
  | some c =>
    if c.done then s
    else match c.ctx with
      | .scsWait => if s.scsBusyAny id then s else s.finish id
      | .scsRead _ =>
        if c.desc.opcode = 0x28 then s.readoutNow c
        else if c.desc.opcode = 0x29 then s.clearNow c
        else s.ratioNow c
      | .settle .. => s.settleMore id
      | .release _ => s.releaseMore id
      | .scatter _ => s.scatterPump id
      | .store _ => s.storePump id
      | .coll .. => s.collContribute id
      | _ => s

/-- Let every command and batch that waits for updates go on, in the order the commands started; then the entries that drains
held back are taken (R166). -/
def State.settle (s : State) : State := ((s.cmds.map fun (c : Cmd) => c.id).foldl State.settleOne s).pumpBatches.releaseAll

/-- SCS_ADDEND: an addend of format `fmt` (Table 3.4, 7 being KM48), with its scale code for MXFP8, arrives at an entry of
a present square's Scoresheet (R74). DESIGN CHOICE: it comes with no queue, so an overflow by it records queue ID 0 (R95; log
entry 85). -/
def State.scsArrive (s : State) (msq slot fmt code scale : Nat) : State :=
  let e : ScatterEntry := { table := 0, node := 0, fmt := fmt, codes := [code], scales := [scale] }
  if s.squarePresent msq && decide (slot < s.slotLimit msq) then
    s.scsAdd msq slot (Ea.ofVal (e.vals.head?.getD .nan)) none 0
  else s

def execScsAddend (msq slot fmt code scale : Nat) (s : State) : Res := .next (s.scsArrive msq slot fmt code scale)

/-- SCS_QUEUE_ABSORB: the oldest ready update of a bank's queue is absorbed; what waited for it goes on (R79, R82). -/
def execScsQueueAbsorb (msq bank : Nat) (s : State) : Res :=
  .next (if s.squarePresent msq && !s.halted then (s.scsQueueStep msq bank).settle else s)

/-- A waiting promotion of a bank proceeds after so many cycles of waiting, which PROMOTION_WAIT counts; nothing where none
waits or no group is free (R80). -/
def State.promotionResume (s : State) (msq bank cycles : Nat) : State :=
  if s.squarePresent msq && !s.halted && (s.waitingPromotion msq bank).isSome && (s.freeGroup msq bank).isSome then
    ((s.count64 (scsPg msq) SCS.PROMOTION_WAIT cycles).scsPromoteStep msq bank).settle
  else s

/-- PROMOTION_RESUME: `cycles` are those the promotion waited for a group. -/
def execPromotionResume (msq bank cycles : Nat) (s : State) : Res := .next (s.promotionResume msq bank cycles)

end Sys2Proof.Machine
end

