-- ==== Sys2Proof/Machine/Packets.lean ====
section
/-! DEFINITION. Packets that arrive or are passed on, and host accesses through BAR2 (13_fabric_links_and_host.md R306,
R312, R315, R322 to R325; Tables 13.4 and 13.5). -/

namespace Sys2Proof.Machine

/-- Whether the fabric of this module carries packets: from the start-up stage that trains its ports, unless it has
stopped (Table 17.1). -/
def State.fabricUp (s : State) : Bool := s.mgtState == 1 || s.mgtState == 2 || s.mgtState == 4

/-! ## Responses -/

/-- The command a response answers, and how many responses it counts as (R367). -/
def respId : Body → Option (Nat × Nat)
  | .readRsp c rows => some (c, rows.length)
  | .sampleRsp c _ rs => some (c, rs.length)
  | .writeAck c _ _ n _ => some (c, n)
  | .fsignalAck c _ => some (c, 1)
  | .boardRsp tag .. => if tag < hostTag then some (tag / 2 ^ 32, 1) else none
  | .aliasReport c .. => some (c, 1)
  | .shadowAck c _ => some (c, 1)
  | .nack c .. => some (c, 1)
  | _ => none

/-- A command that waits on nothing any more: its late responses are discarded. -/
def State.settled (s : State) (id : Nat) : Bool := ((s.cmd? id).map fun (c : Cmd) => c.done).getD false

/-! ## Host accesses (R322 to R325) -/

/-- Bytes of an aperture: BAR2 holds sixteen (R323). -/
def State.apertureSize (s : State) (port : Nat) : Nat := 2 ^ (s.bar2Log port - 4)

/-- The variant in a slot of this board: this module's own, its twin's only while TWIN_SENSE shows one (log entry 90). -/
def State.slotVariant (s : State) (slot : Nat) : Option Variant :=
  let m := s.slotMod slot
  if m = s.modId then some s.variant
  else if m = s.twinId ∧ s.twinSt.sense = false then none
  else Config.slot slot

/-- What an aperture may target in a slot: its present HBM, the far tier, its present square windows (R323). -/
def apertureTarget (v : Variant) (a n : Nat) : Bool :=
  inHbm v a n || inFar a n ||
  (decide (0x3E0000000000 ≤ a) && decide (a + n ≤ 0x3E0000000000 + 64 * v.computeDies * 0x800000))

/-- The board physical address an offset of BAR2 reaches (R323); none where the access is an Unsupported Request. -/
def State.apertureAddr (s : State) (port off n : Nat) : Option Nat :=
  let sz := s.apertureSize port
  let w := s.reg (hxpPg port) (HXP.APERTURE0 + 8 * (off / sz))
  let a := w % 2 ^ 48 + off % sz
  if off / sz < 16 && w.testBit 63 && w % 2 ^ 48 % sz == 0 && decide (off % sz + n ≤ sz) &&
      (s.slotVariant (a / 2 ^ 46)).any fun v => apertureTarget v (boardLocal a) n then some a else none

/-- A host access to another slot travels as a message (R324). -/
def State.hostSend (s : State) (port m a : Nat) (wr : Bool) (data : List Byte) : State :=
  let t := hostTagOf port s.host.nextTag
  let s : State := { s with host := { s.host with nextTag := s.host.nextTag + 1 } }
  if wr then
    ({ s with host := { s.host with posted := s.host.posted ++ [(t, m, a)] } } : State).send 6 0 m 6 0 0
      (.boardWr t (boardLocal a) data [] true false)
  else
    ({ s with host := { s.host with reads := s.host.reads ++ [(t, m, a)] } } : State).send 6 0 m 6 0 0
      (.boardRd t (boardLocal a) data.length true)

/-- A host access through BAR2 is performed: here, or by a message to its slot (R323, R324). -/
def State.hostMem (s : State) (port off : Nat) (wr : Bool) (data : List Byte) : State :=
  match s.apertureAddr port off data.length with
  | none => s.hostMiss port wr off data.length
  | some a =>
    let m := s.boardMod a
    if m = s.modId then
      if wr then (s.memWrite {} (boardLocal a) data).st
      else
        let r := s.memRead {} (boardLocal a) data.length
        r.st.hostAnswer port r.data "completion"
    else if s.isLost m then s.hostLost port wr a
    else s.hostSend port m a wr data

/-- A host access through BAR0: slot k's register pages at k × 512 MiB; those of an absent slot are unmapped, read zero and take
no write (R322, R435). -/
def State.hostRegs (s : State) (port : Nat) (off : Nat) (wr : Bool) (data : List Byte) : State :=
  let k := off / 2 ^ 29
  let a := k * 2 ^ 46 + 0x3F0000000000 + off % 2 ^ 29
  let m := s.slotMod k
  if k ≥ 4 ∨ (s.slotVariant k).isNone then (if wr then s else s.hostAnswer port (List.replicate data.length 0) "completion")
  else if m = s.modId then
    if wr then s.regWrite (boardLocal a) (leNat data) data.length false 2
    else
      let (v, s) := s.regRead (boardLocal a) data.length false 2
      s.hostAnswer port (leBytes data.length v) "completion"
  else if s.isLost m then s.hostLost port wr a
  else s.hostSend port m a wr data

/-- An MSI-X table entry as a number: address, data, vector control with the mask in its bit 0 (Table 13.10; the layout is that
of PCIe, log entry 91). -/
def MsixEntry.image (e : MsixEntry) : Nat := e.addr + e.data * 2 ^ 64 + b2n e.masked * 2 ^ 96

/-- One byte of BAR4: the table, then the pending-bit array (R322). -/
def State.msixByte (s : State) (off : Nat) : Byte :=
  if off < 0x8000 then BitVec.ofNat 8 ((SMap.get ({} : MsixEntry) (off / 16) s.host.msix).image / 2 ^ (8 * (off % 16)))
  else if off < 0x8100 then
    BitVec.ofNat 8 ((List.range 8).foldl (fun n i => n + b2n (s.host.waiting.contains (8 * (off - 0x8000) + i)) * 2 ^ i) 0)
  else 0

/-- A byte of the table is written; the pending-bit array is read-only. -/
def State.msixPut (s : State) (off : Nat) (b : Byte) : State :=
  if off < 0x8000 then
    let v := off / 16
    let n := (SMap.get ({} : MsixEntry) v s.host.msix).image
    let k := 2 ^ (8 * (off % 16))
    let n := n - n / k % 256 * k + b.toNat * k
    s.setMsix v { addr := n % 2 ^ 64, data := n / 2 ^ 64 % 2 ^ 32, masked := n.testBit 96 }
  else s

/-- A host access through BAR4 (R322). -/
def State.hostMsix (s : State) (port off : Nat) (wr : Bool) (data : List Byte) : State :=
  if wr then ((List.range data.length).zip data).foldl (fun s p => s.msixPut (off + p.1) p.2) s
  else s.hostAnswer port ((List.range data.length).map fun i => s.msixByte (off + i)) "completion"

/-- A host access is performed. For a read, `data` has the length it asks for. -/
def State.hostDo (s : State) (a : HostAcc) : State :=
  match a.port with
  | some port =>
    match a.bar with
    | 0 => s.hostRegs port a.off a.wr a.data
    | 4 => s.hostMsix port a.off a.wr a.data
    | _ => s.hostMem port a.off a.wr a.data
  | none =>
    let addr := 0x3F0000000000 + a.off % 2 ^ 29
    if a.wr then s.regWrite addr (leNat a.data) a.data.length false
    else
      let (v, s) := s.regRead addr a.data.length false
      { s with rsp := BitVec.ofNat 64 v }

/-- Whether an access must wait for every earlier posted write: a read, and a write to a register page or doorbell (R325). -/
def State.hostWaits (s : State) (a : HostAcc) : Bool := (!a.wr || a.bar == 0) && !s.host.posted.isEmpty

/-- Perform the held accesses that may go on, oldest first (R325). -/
def State.hostDrain (s : State) : Nat → State
  | 0 => s
  | n + 1 =>
    match s.host.held with
    | [] => s
    | a :: r =>
      if s.hostWaits a then s
      else (({ s with host := { s.host with held := r } } : State).hostDo a).hostDrain n

/-- A host access arrives at a port in the endpoint role whose link is up. -/
def State.hostAccess (s : State) (port : Nat) (a : HostAcc) : State :=
  if s.hxIs port 1 && s.hxState port == 2 && s.fabricUp && !(a.data.isEmpty) then
    let s := s.count64 (hxpPg port) HXP.TLP_RX 1
    if s.host.held.isEmpty && !(s.hostWaits a) then s.hostDo a else s.hostHold a
  else s

/-- HOST_APERTURE_ACCESS: a read's `data` has the length it asks for, its contents unused. -/
def execHostApertureAccess (port : Nat) (a : BarAddr) (wr : Bool) (data : List Byte) (s : State) : Res :=
  .next (s.hostAccess port { port := some port, bar := a.bar, off := a.off, wr := wr, data := data })

/-! ## Board-level accesses (R270, R324) -/

/-- A board-level read: a host's of the register pages goes by their own rule, every other by the memory's. -/
def State.boardRead (s : State) (p : Pkt) : State :=
  match p.body with
  | .boardRd tag a n true =>
    if areaOf s.variant a = .regs then
      let (v, s) := s.regRead a n false 2
      s.reply p (.boardRsp tag 0 (leBytes n v) [])
    else s.onBoardRd p
  | _ => s.onBoardRd p

/-- A board-level write, likewise. -/
def State.boardWrite (s : State) (p : Pkt) : State :=
  match p.body with
  | .boardWr tag a data _ true _ =>
    if areaOf s.variant a = .regs then (s.regWrite a (leNat data) data.length false 2).reply p (.boardRsp tag 0 [] [])
    else s.onBoardWr p
  | _ => s.onBoardWr p

/-- A host access has been answered. -/
def State.hostDone (s : State) (tag : Nat) : State :=
  { s with host := { s.host with
    reads := s.host.reads.filter fun x => x.1 != tag, posted := s.host.posted.filter fun x => x.1 != tag } }

/-- A board-level response: a host's read completes, or its posted write is performed; else it is a command's. -/
def State.boardAnswer (s : State) (p : Pkt) : State :=
  match p.body with
  | .boardRsp tag _ data _ =>
    if tag < hostTag then s.onBoardRsp p
    else
      let known := s.host.reads.any fun x => x.1 == tag
      let s := s.hostDone tag
      let s := if known then s.hostAnswer (hostPortOf tag) data "completion" else s
      s.hostDrain s.host.held.length
  | _ => s

/-! ## Refusals (R306) -/

/-- A refusal of a host access made through this bridge (R324). -/
def State.hostNack (s : State) (tag st : Nat) : State :=
  let read := s.host.reads.any fun x => x.1 == tag
  let at_ := ((s.host.reads ++ s.host.posted).find? fun x => x.1 == tag).map fun x => x.2.2
  let s := s.hostDone tag
  let s := match at_ with
    | none => s
    | some a =>
      if st = 0x0021 then s.hostLost (hostPortOf tag) (!read) a
      else if read then (s.aerLog (hostPortOf tag) a).hostAnswer (hostPortOf tag) [] "completer abort" else s
  s.hostDrain s.host.held.length

/-- A shadow write of a load was refused: the command it belongs to ends, a batch goes on without it (R377, R378). -/
def State.shadowNack (s : State) (cmd st : Nat) : State :=
  let s : State := { s with twinSt := { s.twinSt with adjWaits := s.twinSt.adjWaits.filter (· != cmd) } }
  if s.plc.batches.any fun b => b.id == cmd then (s.count bndPg BND.SHADOW_SKIPPED 1).storeDone cmd 0 none 0
  else match s.cmd? cmd with
    | some c => if c.done then s else s.stopCmd c (Status.ofCode st)
    | none => s

/-- A NACK: the command that sent the packet completes with its status (R306); a host access, a fabric barrier or a batch
that sent it ends as its own rule says. -/
def State.onNack (s : State) (p : Pkt) : State :=
  match p.body with
  | .nack cmd tok st =>
    if cmd = noCmd + 1 then (s.fbarsEnd ((s.fbarsOf tok).getLast?.toList) (Status.ofCode st)).dropFnode p.hdr.job tok
    else if cmd = noCmd then s
    else if cmd ≥ 2 ^ 64 then s.hostNack (cmd * 2 ^ 32 + tok) st
    else if s.twinSt.adjWaits.contains cmd then s.shadowNack cmd st
    else match s.cmd? cmd with
      | some c => if c.done then s else s.stopCmd c (Status.ofCode st)
      | none => s
  | _ => s

/-! ## Delivery -/

/-- The unit a packet's TYPE names takes it (Table 13.5). -/
def State.dispatch (s : State) (p : Pkt) : State :=
  match p.body with
  | .readReq .. => s.onReadReq p
  | .readRsp .. => s.onReadRsp p
  | .sampleReq .. => s.onSampleReq p
  | .sampleRsp .. => s.onSampleRsp p
  | .scatter .. => s.onScatter p
  | .store .. => s.onStore p
  | .writeAck .. => (s.onWriteAck p).settle
  | .redUp .. => s.onRedUp p
  | .redDown .. => s.onRedDown p
  | .barArrive .. => s.onBarArrive p
  | .barRelease .. => s.onBarRelease p
  | .barEnd .. => s.onBarRelease p
  | .fsignal .. => s.onFsignal p
  | .fsignalAck .. => s.onFsignalAck p
  | .boardRd .. => s.boardRead p
  | .boardWr .. => s.boardWrite p
  | .boardRsp .. => s.boardAnswer p
  | .intr vec => s.raiseMsix vec
  | .pendingNotice .. => s.onPendingNotice p
  | .pendingNoticeAck .. => (s.onPendingNoticeAck p).settle
  | .refresh .. => s.onRefresh p
  | .refreshAck .. => s.onRefreshAck p
  | .replicaRequest .. => s.onReplicaRequest p
  | .replicaGrant .. => s.onReplicaGrant p
  | .replicaRefuse .. => s
  | .replicaDrop .. => s.onDropOrder p
  | .migCopy .. => s.onMigCopy p
  | .migCopyAck .. => s.onMigCopyAck p
  | .migChange .. => s.onMigrationChange p
  | .flipNotice .. => s.onFlipNotice p
  | .aliasRequest .. => s.onAliasRequest p
  | .aliasReport .. => s.onAliasReport p
  | .epochNotice .. => s.onEpochNotice p
  | .shadowWrite .. => s.onShadowWrite p
  | .shadowAck .. => s.onShadowAck p
  | .fwImage .. => s.onFwImage p
  | .fwuOutcome .. => s.onFwuOutcome p
  | .announce => s.onFwuOutcome p
  | .e2eAck .. => s.onE2eAck p
  -- the message is taken whole with its last packet (R305)
  | .part .. => s
  | .nack .. => s.onNack p

/-- A packet is delivered: a castling refuses those of the old job with UNBOUND and counts responses (R367); a response
whose command waits no longer is discarded. -/
def State.deliver (s : State) (p : Pkt) : State :=
  match respId p.body with
  | some (id, n) =>
    let s := s.castleGot id n
    if s.castledPkt p || s.settled id then s else s.dispatch p
  | none => if s.castledPkt p then s.nackPkt p 0x0012 else s.dispatch p

/-- A packet arrives at this module. -/
def State.receive (s : State) (p : Pkt) : State := if s.fabricUp then s.arrive State.deliver p else s

/-- A row's packet: of the TYPE the row names, or a part of a message of that TYPE (R305); else it is malformed (R306). -/
def State.receiveAs (s : State) (type : Nat) (ok : Bool) (p : Pkt) : State :=
  if ok || p.body.partOf type then s.receive p else s.badPacket p

/-! ## Forwarding (R306, R312, R315, R316) -/

/-- A packet comes in on a port: one for this module is received, any other is passed on. -/
def State.relay (s : State) (port : Nat) (p : Pkt) : State :=
  if !(s.fabricUp) || !(s.portUp port) then s
  else if p.hdr.dstMod = s.modId then s.receive p
  else s.passOn (some port) p

/-- PACKET_FORWARD: a packet that came in on a port; or, without a port, the queues here send what they may. -/
def execPacketForward (port : Option Nat) (p : Pkt) (s : State) : Res :=
  .next (match port with
    | some k => s.relay k p
    | none => (List.range 24).foldl State.pump (s.drainWaiting s.fab.waiting.length))

/-! ## The rows -/

/-- READ_REQ: rows of this owner are read and answered (R151, R183). -/
def execReadReq (p : Pkt) (s : State) : Res :=
  .next (s.receiveAs 0x01 (match p.body with | .readReq .. => true | _ => false) p)

/-- READ_RSP: rows come back to the gather that asked (R150, R152). -/
def execReadRsp (p : Pkt) (s : State) : Res :=
  .next (s.receiveAs 0x02 (match p.body with | .readRsp .. => true | _ => false) p)

/-- REPLICA_REQUEST (R191). -/
def execReplicaRequest (p : Pkt) (s : State) : Res :=
  .next (s.receiveAs 0x28 (match p.body with | .replicaRequest .. => true | _ => false) p)

/-- REPLICA_GRANT, or the refusal of a request (R191). -/
def execReplicaGrant (p : Pkt) (s : State) : Res :=
  .next (s.receiveAs 0x28 (match p.body with | .replicaGrant .. | .replicaRefuse .. => true | _ => false) p)

/-- SAMPLE_REQ: draws for rows held here (R127). -/
def execSampleReq (p : Pkt) (s : State) : Res :=
  .next (s.receiveAs 0x03 (match p.body with | .sampleReq .. => true | _ => false) p)

/-- SAMPLE_RSP (R128). -/
def execSampleRsp (p : Pkt) (s : State) : Res :=
  .next (s.receiveAs 0x04 (match p.body with | .sampleRsp .. => true | _ => false) p)

/-- SCATTER (R158 to R160). -/
def execScatter (p : Pkt) (s : State) : Res :=
  .next (s.receiveAs 0x05 (match p.body with | .scatter .. => true | _ => false) p)

/-- PENDING_NOTICE (R186). -/
def execPendingNotice (p : Pkt) (s : State) : Res :=
  .next (s.receiveAs 0x28 (match p.body with | .pendingNotice .. => true | _ => false) p)

/-- REFRESH (R191). -/
def execRefresh (p : Pkt) (s : State) : Res :=
  .next (s.receiveAs 0x28 (match p.body with | .refresh .. => true | _ => false) p)

/-- WRITE_ACK (R159). -/
def execWriteAck (p : Pkt) (s : State) : Res :=
  .next (s.receiveAs 0x06 (match p.body with | .writeAck .. => true | _ => false) p)

/-- STORE (R175). -/
def execStore (p : Pkt) (s : State) : Res :=
  .next (s.receiveAs 0x07 (match p.body with | .store .. => true | _ => false) p)

/-- RED_UP (R349, R350). -/
def execRedUp (p : Pkt) (s : State) : Res :=
  .next (s.receiveAs 0x10 (match p.body with | .redUp .. => true | _ => false) p)

/-- RED_DOWN (R351, R353). -/
def execRedDown (p : Pkt) (s : State) : Res :=
  .next (s.receiveAs 0x11 (match p.body with | .redDown .. => true | _ => false) p)

/-- BAR_ARRIVE (R260). -/
def execBarArrive (p : Pkt) (s : State) : Res :=
  .next (s.receiveAs 0x18 (match p.body with | .barArrive .. => true | _ => false) p)

/-- BAR_RELEASE, or the end of an instance by an abort (R260, R261). -/
def execBarRelease (p : Pkt) (s : State) : Res :=
  .next (s.receiveAs 0x19 (match p.body with | .barRelease .. | .barEnd .. => true | _ => false) p)

/-- FSIGNAL (R254). -/
def execFsignal (p : Pkt) (s : State) : Res :=
  .next (s.receiveAs 0x1A (match p.body with | .fsignal .. => true | _ => false) p)

/-- FSIGNAL_ACK (R254). -/
def execFsignalAck (p : Pkt) (s : State) : Res :=
  .next (s.receiveAs 0x1B (match p.body with | .fsignalAck .. => true | _ => false) p)

/-- BOARD_RD (R270). -/
def execBoardRd (p : Pkt) (s : State) : Res :=
  .next (s.receiveAs 0x20 (match p.body with | .boardRd .. => true | _ => false) p)

/-- BOARD_WR (R270). -/
def execBoardWr (p : Pkt) (s : State) : Res :=
  .next (s.receiveAs 0x21 (match p.body with | .boardWr .. => true | _ => false) p)

/-- BOARD_RSP (R270). -/
def execBoardRsp (p : Pkt) (s : State) : Res :=
  .next (s.receiveAs 0x22 (match p.body with | .boardRsp .. => true | _ => false) p)

/-- INTR: the bridging module raises the vector (R327). -/
def execIntr (p : Pkt) (s : State) : Res :=
  .next (s.receiveAs 0x24 (match p.body with | .intr .. => true | _ => false) p)

/-- MIGRATION_CHANGE: the copy of a row or a change of it (R194). -/
def execMigrationChange (p : Pkt) (s : State) : Res :=
  .next (s.receiveAs 0x28 (match p.body with | .migChange .. | .migCopy .. => true | _ => false) p)

/-- FLIP_NOTICE (R194). -/
def execFlipNotice (p : Pkt) (s : State) : Res :=
  .next (s.receiveAs 0x28 (match p.body with | .flipNotice .. => true | _ => false) p)

/-- EPOCH_NOTICE (R375). -/
def execEpochNotice (p : Pkt) (s : State) : Res :=
  .next (s.receiveAs 0x28 (match p.body with | .epochNotice .. => true | _ => false) p)

/-- FW_IMAGE (R420, R421). -/
def execFwImage (p : Pkt) (s : State) : Res :=
  .next (s.receiveAs 0x31 (match p.body with | .fwImage .. => true | _ => false) p)

/-- FWU_OUTCOME, or an announcement of recovery (R420, R418). -/
def execFwuOutcome (p : Pkt) (s : State) : Res :=
  .next (s.receiveAs 0x30 (match p.body with | .fwuOutcome .. | .announce => true | _ => false) p)

/-- E2E_ACK (R309, R310). -/
def execE2eAck (p : Pkt) (s : State) : Res :=
  .next (s.receiveAs 0x38 (match p.body with | .e2eAck .. => true | _ => false) p)

/-- NACK (R306). -/
def execNack (p : Pkt) (s : State) : Res :=
  .next (s.receiveAs 0x3F (match p.body with | .nack .. => true | _ => false) p)

/-- SHADOW_WRITE (R376). -/
def execShadowWrite (p : Pkt) (s : State) : Res :=
  .next (s.receiveAs 0x28 (match p.body with | .shadowWrite .. => true | _ => false) p)

/-- PENDING_NOTICE_ACK (R186). -/
def execPendingNoticeAck (p : Pkt) (s : State) : Res :=
  .next (s.receiveAs 0x28 (match p.body with | .pendingNoticeAck .. => true | _ => false) p)

/-- REFRESH_ACK (R193). -/
def execRefreshAck (p : Pkt) (s : State) : Res :=
  .next (s.receiveAs 0x28 (match p.body with | .refreshAck .. => true | _ => false) p)

/-- MIGRATION_COPY_ACK (R193). -/
def execMigrationCopyAck (p : Pkt) (s : State) : Res :=
  .next (s.receiveAs 0x28 (match p.body with | .migCopyAck .. => true | _ => false) p)

/-- REPLICA_DROP (R191). -/
def execReplicaDrop (p : Pkt) (s : State) : Res :=
  .next (s.receiveAs 0x28 (match p.body with | .replicaDrop .. => true | _ => false) p)

/-- ALIAS_BUILD_REQUEST (R139). -/
def execAliasBuildRequest (p : Pkt) (s : State) : Res :=
  .next (s.receiveAs 0x28 (match p.body with | .aliasRequest .. => true | _ => false) p)

/-- ALIAS_BUILD_REPORT (R139). -/
def execAliasBuildReport (p : Pkt) (s : State) : Res :=
  .next (s.receiveAs 0x28 (match p.body with | .aliasReport .. => true | _ => false) p)

/-- SHADOW_WRITE_ACK (R377). -/
def execShadowWriteAck (p : Pkt) (s : State) : Res :=
  .next (s.receiveAs 0x28 (match p.body with | .shadowAck .. => true | _ => false) p)

end Sys2Proof.Machine
end

