-- ==== Sys2Proof/Machine/Beats.lean ====
section
/-! DEFINITION. Reading descriptors, ageing, completion, deadlines, and what a beat does (10_commands_queues_tempo.md
R221, R225, R227, R236, R241 to R243). -/

namespace Sys2Proof.Machine

/-! ## Descriptors (R218, R221) -/

/-- The address of a queue's next descriptor to read. -/
def State.descAddr (s : State) (q : Nat) : Nat :=
  s.qreg q QMG.Q_BASE + 64 * ((s.qHead q + (s.qst q).fetched.length) % 2 ^ s.qLog2 q)

/-- Whether a queue has an available descriptor that has not been read. -/
def State.canFetch (s : State) (q : Nat) : Bool :=
  s.ready && s.qEnabled q && !((s.qst q).halted) && decide ((s.qst q).fetched.length < s.qAvail q) &&
  decide (qDie q < s.variant.computeDies)

/-- The world and job of a descriptor read: the queue's. -/
def State.fetchReq (s : State) (q : Nat) : Req :=
  match s.jobOf 1 q with
  | some j => Req.command j
  | none => { src := 1 }

/-- Read the next descriptor; an uncorrectable one halts the queue and sets DESC_UE (R221, R235). -/
def State.fetchDesc (s : State) (q : Nat) : State :=
  if s.canFetch q then
    let r := s.memRead (s.fetchReq q) (s.descAddr q) 64
    let s := r.st
    if r.ue.isEmpty then
      s.setQst q { s.qst q with fetched := (s.qst q).fetched ++ [(elems 4 r.data).map (BitVec.ofNat 32)] }
    else (s.haltQueue q).err (qmgPg (qDie q)) QMG.E_DESC_UE q
  else s

def execDescriptorFetch (q : Nat) (s : State) : Res := .next (s.fetchDesc q)

/-! ## Ageing and completion (R225, R227) -/

/-- PRIO_AGING: the queue has been ready for 4,096 cycles without starting. -/
def State.ageQueue (s : State) (q : Nat) : State :=
  if s.qReady q then s.setQst q { s.qst q with aged := true } else s

def execPrioAging (q : Nat) (s : State) : Res := .next (s.ageQueue q)

/-- COMMAND_COMPLETE: a command whose effects are in place completes; nothing completes in COOLANT_STOP or
THERMAL_TRIP (R405, R406). A drain's square then takes the entries it held (R166). -/
def State.completeCmd (s : State) (id : Nat) : State :=
  if s.halted then s
  else match s.cmd? id with
    | some c =>
      if !c.done then s
      else if c.desc.opcode = 0x55 then (s.complete c).releaseAll
      else s.complete c
    | none => s

def execCommandComplete (cmd : Nat) (s : State) : Res := .next (s.completeCmd cmd)

/-! ## Deadlines (R243, R261) -/

/-- A started command past its DEADLINE ends, and completes at once with its signalling: one that runs stops; one whose effects
are in place and that is not complete has undefined outputs too (R243). An arrival of its at a barrier stays counted (R259;
log entry 88). -/
def State.expireCmd (s : State) (id : Nat) : State :=
  match s.cmd? id with
  | none => s
  | some c =>
    if !(s.overdue c) then s
    else
      (s.stopCmd c .deadline).completeCmd id

/-- Heads of a queue past their DEADLINE complete without starting; checks 1 to 3 of R223 come first. -/
def State.expireHeads (s : State) (q : Nat) : Nat → State
  | 0 => s
  | n + 1 =>
    match (s.qst q).fetched with
    | [] => s
    | d :: _ =>
      if d.dlEn && decide (d.deadline ≤ s.beat) && s.ready && s.qEnabled q && !((s.qst q).halted) &&
          !(s.castled 0 (s.qSquare q)) && !(s.castled 1 q) then
        let (s, c) := s.takeHead q d
        let st := (s.headerCheck c).getD .deadline
        let s := (s.refusal c st).addCmd { c with done := true, ended := some st }
        (s.completeCmd c.id).expireHeads q n
      else s

/-- Step 3 of R241 for one queue: running commands in the order they started, then unstarted ones. -/
def State.expireQueue (s : State) (q : Nat) : State :=
  let late := (s.cmds.filter fun (c : Cmd) => c.q == q && s.overdue c).map fun (c : Cmd) => c.id
  let s := late.foldl State.expireCmd s
  s.expireHeads q (s.qst q).fetched.length

/-- Whether a scheduled commit is due and has not taken effect: step 1 of R241 comes first. -/
def State.commitDue (s : State) : Bool := s.regs.armed.any fun a => decide (a.beat ≤ s.beat)

/-- DEADLINE_EXPIRE. -/
def State.deadlineExpire (s : State) (q : Nat) : State :=
  if s.halted || s.commitDue then s else s.expireQueue q

def execDeadlineExpire (q : Nat) (s : State) : Res := .next (s.deadlineExpire q)

/-! ## The beat (R236, R241) -/

/-- Queues with commands in flight or descriptors read. -/
def State.liveQueues (s : State) : List Nat :=
  ((s.cmds.map fun (c : Cmd) => c.q) ++ s.queues.map fun (p : Nat × QState) => p.1).eraseDups

/-- Step 1: every scheduled commit that is due, page by page. -/
def State.beatCommits (s : State) : State :=
  (s.regs.armed.filterMap fun a => if a.beat ≤ s.beat then some a.page else none).foldl State.scheduled s

/-- Step 2: flips and declared boundaries. -/
def State.beatPlacement (s : State) : State :=
  let s := s.flipsDue.handback
  let s := ((s.plc.out.map fun (m : MigOut) => m.key).foldl State.migTransfer s)
  (boundJobs s.bnd.bound).foldl State.plcBoundary s

/-- Step 3: commands and collective instances whose DEADLINE has come. -/
def State.beatDeadlines (s : State) : State :=
  let s := s.liveQueues.foldl State.expireQueue s
  (s.red.map fun (p : Nat × RedCtx) => p.1).foldl (fun s k => (s.redDeadline k).redGrace k) s

/-- What else a beat's number brings on: castling, notices, retirements, decay, beat flushes, squares that wake, the
twin's heartbeat, tempo, the device's accesses to its own regions. -/
def State.beatTimers (s : State) : State :=
  let s := s.castleBind.castleComplete
  let s := (s.plc.out.map fun (m : MigOut) => m.key).foldl (fun s k => (s.flipNoticeSend k).retire k) s
  let s := (List.range s.variant.computeDies).foldl State.wcbBeatFlush s.sketchDecay
  let s := (s.pwr.sq.map fun (p : Nat × SqPwr) => p.1).foldl (fun s m => (s.wakeDue m).wakeComplete m) s
  s.twinFall.heartbeatSend.heartbeatTimeout.twinWaitEnd.markSend.tempoHoldover.ownTraffic

/-- BEAT: the 64-bit counter rises by one and the steps of R241 follow in order; step 4 makes heads eligible, so gated squares
that have one wake; host accesses that no posted write holds any more go on. In COOLANT_STOP, THERMAL_TRIP and BOOT_FAILED only power goes on; in RESET nothing does (R412; log entry 34). -/
def State.beatStep (s : State) (i : BeatIn) : State :=
  if s.mgtState = 0 then s
  else
    let s : State := { s with beat := (s.beat + 1) % 2 ^ 64 }
    if s.halted ∨ s.mgtState = 3 then s.powerBeat i
    else
      let s := ((s.beatCommits.mboxDone.beatPlacement.beatDeadlines.powerBeat i).beatTimers.settle).ungateReady
      s.hostDrain s.host.held.length

/-- BEAT: what the board presents (R455), and the beat. -/
def execBeat (i : BeatIn) (s : State) : Res := .next ((s.boardIn i).beatStep i)

end Sys2Proof.Machine
end

