-- ==== Sys2Proof/Machine/Dispatch.lean ====
section
/-! DEFINITION. One arm per command: its meaning. -/

namespace Sys2Proof.Machine

open Host

def exec (i : Instr) (s : State) : Host.Outcome State Fault Refusal :=
  match i with
  | .nop q d => Sys2Proof.Machine.execNop q d s
  | .fence q d => Sys2Proof.Machine.execFence q d s
  | .arbInit q d => Sys2Proof.Machine.execArbInit q d s
  | .arbSignal q d => Sys2Proof.Machine.execArbSignal q d s
  | .arbWaitGe q d => Sys2Proof.Machine.execArbWaitGe q d s
  | .arbTake q d => Sys2Proof.Machine.execArbTake q d s
  | .arbBarrier q d => Sys2Proof.Machine.execArbBarrier q d s
  | .arbFbarrier q d => Sys2Proof.Machine.execArbFbarrier q d s
  | .arbFsignal q d => Sys2Proof.Machine.execArbFsignal q d s
  | .dmaCopy q d => Sys2Proof.Machine.execDmaCopy q d s
  | .dmaFill q d => Sys2Proof.Machine.execDmaFill q d s
  | .ramp q d => Sys2Proof.Machine.execRamp q d s
  | .pwrSleep q d => Sys2Proof.Machine.execPwrSleep q d s
  | .matmul q d => Sys2Proof.Machine.execMatmul q d s
  | .scsReadout q d => Sys2Proof.Machine.execScsReadout q d s
  | .scsClear q d => Sys2Proof.Machine.execScsClear q d s
  | .vxMap q d => Sys2Proof.Machine.execVxMap q d s
  | .vxAgg q d => Sys2Proof.Machine.execVxAgg q d s
  | .vxConvert q d => Sys2Proof.Machine.execVxConvert q d s
  | .vxReduce q d => Sys2Proof.Machine.execVxReduce q d s
  | .vxUpdate q d => Sys2Proof.Machine.execVxUpdate q d s
  | .vxRatio q d => Sys2Proof.Machine.execVxRatio q d s
  | .kntSample q d => Sys2Proof.Machine.execKntSample q d s
  | .aliasBuild q d => Sys2Proof.Machine.execAliasBuild q d s
  | .rookGather q d => Sys2Proof.Machine.execRookGather q d s
  | .rookScatter q d => Sys2Proof.Machine.execRookScatter q d s
  | .rookStore q d => Sys2Proof.Machine.execRookStore q d s
  | .rookSettle q d => Sys2Proof.Machine.execRookSettle q d s
  | .rookRelease q d => Sys2Proof.Machine.execRookRelease q d s
  | .rookDrain q d => Sys2Proof.Machine.execRookDrain q d s
  | .plcTable q d => Sys2Proof.Machine.execPlcTable q d s
  | .plcLoad q d => Sys2Proof.Machine.execPlcLoad q d s
  | .plcDrop q d => Sys2Proof.Machine.execPlcDrop q d s
  | .plcStep q d => Sys2Proof.Machine.execPlcStep q d s
  | .plcKeep q d => Sys2Proof.Machine.execPlcKeep q d s
  | .plcRollback q d => Sys2Proof.Machine.execPlcRollback q d s
  | .gmbLayer q d => Sys2Proof.Machine.execGmbLayer q d s
  | .collAllreduce q d => Sys2Proof.Machine.execCollAllreduce q d s
  | .collNorm q d => Sys2Proof.Machine.execCollNorm q d s
  | .bndResync q d => Sys2Proof.Machine.execBndResync q d s
  | .bndShadow q d => Sys2Proof.Machine.execBndShadow q d s
  | .bndSeal q d => Sys2Proof.Machine.execBndSeal q d s
  | .descriptorFetch q => Sys2Proof.Machine.execDescriptorFetch q s
  | .prioAging q => Sys2Proof.Machine.execPrioAging q s
  | .commandComplete cmd => Sys2Proof.Machine.execCommandComplete cmd s
  | .deadlineExpire q => Sys2Proof.Machine.execDeadlineExpire q s
  | .beat b => Sys2Proof.Machine.execBeat b s
  | .scheduledCommit page => Sys2Proof.Machine.execScheduledCommit page s
  | .castleBind => Sys2Proof.Machine.execCastleBind s
  | .castleComplete => Sys2Proof.Machine.execCastleComplete s
  | .commitGo page v secure => Sys2Proof.Machine.execCommitGo page v secure s
  | .commitArm page v wide secure => Sys2Proof.Machine.execCommitArm page v wide secure s
  | .cancel page secure => Sys2Proof.Machine.execCancel page secure s
  | .discard page secure => Sys2Proof.Machine.execDiscard page secure s
  | .errStatusClear page v secure => Sys2Proof.Machine.execErrStatusClear page v secure s
  | .cntClear page v secure => Sys2Proof.Machine.execCntClear page v secure s
  | .counterLatchRead page off secure => Sys2Proof.Machine.execCounterLatchRead page off secure s
  | .registerWrite addr v width secure => Sys2Proof.Machine.execRegisterWrite addr v width secure s
  | .doorbellWrite q v width => Sys2Proof.Machine.execDoorbellWrite q v width s
  | .qHeadWrite die v secure => Sys2Proof.Machine.execQHeadWrite die v secure s
  | .resume die v secure => Sys2Proof.Machine.execResume die v secure s
  | .qselWrite die v secure => Sys2Proof.Machine.execQselWrite die v secure s
  | .cqselWrite die v secure => Sys2Proof.Machine.execCqselWrite die v secure s
  | .cqTailWrite die v secure => Sys2Proof.Machine.execCqTailWrite die v secure s
  | .rlogTailWrite msq v secure => Sys2Proof.Machine.execRlogTailWrite msq v secure s
  | .plcJobSelWrite v secure => Sys2Proof.Machine.execPlcJobSelWrite v secure s
  | .bndJobSelWrite v secure => Sys2Proof.Machine.execBndJobSelWrite v secure s
  | .ctxSelWrite rdie v secure => Sys2Proof.Machine.execCtxSelWrite rdie v secure s
  | .decSelWrite v secure => Sys2Proof.Machine.execDecSelWrite v secure s
  | .ueLogClear stack v secure => Sys2Proof.Machine.execUeLogClear stack v secure s
  | .scsWindowWrite addr => Sys2Proof.Machine.execScsWindowWrite addr s
  | .lostDeclare m secure => Sys2Proof.Machine.execLostDeclare m secure s
  | .lostDeclareSub m secure => Sys2Proof.Machine.execLostDeclareSub m secure s
  | .lostClear m secure => Sys2Proof.Machine.execLostClear m secure s
  | .assume secure => Sys2Proof.Machine.execAssume secure s
  | .refill secure => Sys2Proof.Machine.execRefill secure s
  | .handback => Sys2Proof.Machine.execHandback s
  | .resyncCmd v secure => Sys2Proof.Machine.execResyncCmd v secure s
  | .recal secure => Sys2Proof.Machine.execRecal secure s
  | .invalidate secure => Sys2Proof.Machine.execInvalidate secure s
  | .sleepWake k v secure => Sys2Proof.Machine.execSleepWake k v secure s
  | .attReport secure => Sys2Proof.Machine.execAttReport secure s
  | .attChain secure => Sys2Proof.Machine.execAttChain secure s
  | .attDone => Sys2Proof.Machine.execAttDone s
  | .fwuStart secure => Sys2Proof.Machine.execFwuStart secure s
  | .lock secure => Sys2Proof.Machine.execLock secure s
  | .enroll secure => Sys2Proof.Machine.execEnroll secure s
  | .serveRecovery target secure => Sys2Proof.Machine.execServeRecovery target secure s
  | .raiseSvn secure => Sys2Proof.Machine.execRaiseSvn secure s
  | .fwuImageComplete => Sys2Proof.Machine.execFwuImageComplete s
  | .fwuVerifyDone => Sys2Proof.Machine.execFwuVerifyDone s
  | .fwuWriteDone flashOk => Sys2Proof.Machine.execFwuWriteDone flashOk s
  | .mgtModuleReset secure => Sys2Proof.Machine.execMgtModuleReset secure s
  | .mgtDieReset die secure => Sys2Proof.Machine.execMgtDieReset die secure s
  | .regionSet secure => Sys2Proof.Machine.execRegionSet secure s
  | .regionClear secure => Sys2Proof.Machine.execRegionClear secure s
  | .worldSet secure => Sys2Proof.Machine.execWorldSet secure s
  | .recordSubmit rec => Sys2Proof.Machine.execRecordSubmit rec s
  | .entdaa addr => Sys2Proof.Machine.execEntdaa addr s
  | .bypass die => Sys2Proof.Machine.execBypass die s
  | .idcode die => Sys2Proof.Machine.execIdcode die s
  | .samplePreload die => Sys2Proof.Machine.execSamplePreload die s
  | .extest die => Sys2Proof.Machine.execExtest die s
  | .clamp die => Sys2Proof.Machine.execClamp die s
  | .highz die => Sys2Proof.Machine.execHighz die s
  | .trst => Sys2Proof.Machine.execTrst s
  | .modResetAssert => Sys2Proof.Machine.execModResetAssert s
  | .modResetRelease => Sys2Proof.Machine.execModResetRelease s
  | .pwrGoodFall => Sys2Proof.Machine.execPwrGoodFall s
  | .underVoltageTrip mV => Sys2Proof.Machine.execUnderVoltageTrip mV s
  | .overVoltageTrip mV => Sys2Proof.Machine.execOverVoltageTrip mV s
  | .reversePolarity => Sys2Proof.Machine.execReversePolarity s
  | .uvWarn mV => Sys2Proof.Machine.execUvWarn mV s
  | .ovWarn mV => Sys2Proof.Machine.execOvWarn mV s
  | .coolantStop => Sys2Proof.Machine.execCoolantStop s
  | .coolantClocksStop => Sys2Proof.Machine.execCoolantClocksStop s
  | .coolantWcbFlush => Sys2Proof.Machine.execCoolantWcbFlush s
  | .coolantSelfRefresh => Sys2Proof.Machine.execCoolantSelfRefresh s
  | .thermalTrip die => Sys2Proof.Machine.execThermalTrip die s
  | .thermalTripRailsOff => Sys2Proof.Machine.execThermalTripRailsOff s
  | .coolantOkRise => Sys2Proof.Machine.execCoolantOkRise s
  | .holdupChange level => Sys2Proof.Machine.execHoldupChange level s
  | .twinSenseChange level => Sys2Proof.Machine.execTwinSenseChange level s
  | .twinWaitTimeout => Sys2Proof.Machine.execTwinWaitTimeout s
  | .refclkLoss port => Sys2Proof.Machine.execRefclkLoss port s
  | .hostLinkDown port => Sys2Proof.Machine.execHostLinkDown port s
  | .cxlLinkDown port => Sys2Proof.Machine.execCxlLinkDown port s
  | .opticalInsert port accepted => Sys2Proof.Machine.execOpticalInsert port accepted s
  | .opticalRemove port => Sys2Proof.Machine.execOpticalRemove port s
  | .bootStageDone r => Sys2Proof.Machine.execBootStageDone r s
  | .stageBudgetExpire ms => Sys2Proof.Machine.execStageBudgetExpire ms s
  | .recoveryAnnounce => Sys2Proof.Machine.execRecoveryAnnounce s
  | .recoveryImageDone image => Sys2Proof.Machine.execRecoveryImageDone image s
  | .portTrainDone port r => Sys2Proof.Machine.execPortTrainDone port r s
  | .laneFault port lane => Sys2Proof.Machine.execLaneFault port lane s
  | .retrainDone port r => Sys2Proof.Machine.execRetrainDone port r s
  | .dataFlitRx port flit => Sys2Proof.Machine.execDataFlitRx port flit s
  | .nakRx port ack => Sys2Proof.Machine.execNakRx port ack s
  | .markSend => Sys2Proof.Machine.execMarkSend s
  | .markRx port m => Sys2Proof.Machine.execMarkRx port m s
  | .tempoHoldover => Sys2Proof.Machine.execTempoHoldover s
  | .stopFlitRx port m reason => Sys2Proof.Machine.execStopFlitRx port m reason s
  | .packetForward port p => Sys2Proof.Machine.execPacketForward port p s
  | .readReq p => Sys2Proof.Machine.execReadReq p s
  | .readRsp p => Sys2Proof.Machine.execReadRsp p s
  | .replicaRequest p => Sys2Proof.Machine.execReplicaRequest p s
  | .replicaGrant p => Sys2Proof.Machine.execReplicaGrant p s
  | .sampleReq p => Sys2Proof.Machine.execSampleReq p s
  | .sampleRsp p => Sys2Proof.Machine.execSampleRsp p s
  | .scatter p => Sys2Proof.Machine.execScatter p s
  | .pendingNotice p => Sys2Proof.Machine.execPendingNotice p s
  | .refresh p => Sys2Proof.Machine.execRefresh p s
  | .writeAck p => Sys2Proof.Machine.execWriteAck p s
  | .store p => Sys2Proof.Machine.execStore p s
  | .redUp p => Sys2Proof.Machine.execRedUp p s
  | .redDown p => Sys2Proof.Machine.execRedDown p s
  | .barArrive p => Sys2Proof.Machine.execBarArrive p s
  | .barRelease p => Sys2Proof.Machine.execBarRelease p s
  | .fsignal p => Sys2Proof.Machine.execFsignal p s
  | .fsignalAck p => Sys2Proof.Machine.execFsignalAck p s
  | .boardRd p => Sys2Proof.Machine.execBoardRd p s
  | .boardWr p => Sys2Proof.Machine.execBoardWr p s
  | .boardRsp p => Sys2Proof.Machine.execBoardRsp p s
  | .intr p => Sys2Proof.Machine.execIntr p s
  | .hostApertureAccess port a wr data => Sys2Proof.Machine.execHostApertureAccess port a wr data s
  | .migrationChange p => Sys2Proof.Machine.execMigrationChange p s
  | .flipNotice p => Sys2Proof.Machine.execFlipNotice p s
  | .epochNotice p => Sys2Proof.Machine.execEpochNotice p s
  | .fwImage p => Sys2Proof.Machine.execFwImage p s
  | .fwuOutcome p => Sys2Proof.Machine.execFwuOutcome p s
  | .e2eAck p => Sys2Proof.Machine.execE2eAck p s
  | .e2eAckTimer srcMod vc => Sys2Proof.Machine.execE2eAckTimer srcMod vc s
  | .nack p => Sys2Proof.Machine.execNack p s
  | .e2eResend dstMod vc => Sys2Proof.Machine.execE2eResend dstMod vc s
  | .redResend rdie rctx chunk => Sys2Proof.Machine.execRedResend rdie rctx chunk s
  | .redDeadlineAbort rdie rctx => Sys2Proof.Machine.execRedDeadlineAbort rdie rctx s
  | .abortGraceExpire rdie rctx => Sys2Proof.Machine.execAbortGraceExpire rdie rctx s
  | .kntBatchTimeout cmd target => Sys2Proof.Machine.execKntBatchTimeout cmd target s
  | .rookReadBatchTimeout cmd target => Sys2Proof.Machine.execRookReadBatchTimeout cmd target s
  | .rookScatterBatchTimeout cmd target => Sys2Proof.Machine.execRookScatterBatchTimeout cmd target s
  | .barrierTrackerGrant => Sys2Proof.Machine.execBarrierTrackerGrant s
  | .clockGate msq cycles => Sys2Proof.Machine.execClockGate msq cycles s
  | .sleepEnter msq => Sys2Proof.Machine.execSleepEnter msq s
  | .wakeBeat msq => Sys2Proof.Machine.execWakeBeat msq s
  | .wakeComplete msq => Sys2Proof.Machine.execWakeComplete msq s
  | .scsAddend msq slot fmt code scale => Sys2Proof.Machine.execScsAddend msq slot fmt code scale s
  | .scsQueueAbsorb msq bank => Sys2Proof.Machine.execScsQueueAbsorb msq bank s
  | .promotionResume msq bank cycles => Sys2Proof.Machine.execPromotionResume msq bank cycles s
  | .strictReadResume k => Sys2Proof.Machine.execStrictReadResume k s
  | .plcBoundary job => Sys2Proof.Machine.execPlcBoundary job s
  | .migrationPrepare k => Sys2Proof.Machine.execMigrationPrepare k s
  | .flipNoticeSend k => Sys2Proof.Machine.execFlipNoticeSend k s
  | .migrationTransfer k => Sys2Proof.Machine.execMigrationTransfer k s
  | .retire k => Sys2Proof.Machine.execRetire k s
  | .sketchDecay => Sys2Proof.Machine.execSketchDecay s
  | .scrubRewrite line => Sys2Proof.Machine.execScrubRewrite line s
  | .patrolScrub line => Sys2Proof.Machine.execPatrolScrub line s
  | .wcbEvict pc cycles => Sys2Proof.Machine.execWcbEvict pc cycles s
  | .wcbFullWriteback line => Sys2Proof.Machine.execWcbFullWriteback line s
  | .wcbBeatFlush die => Sys2Proof.Machine.execWcbBeatFlush die s
  | .wcbIdleWriteback line => Sys2Proof.Machine.execWcbIdleWriteback line s
  | .driftPeriod measuredW estimatedW => Sys2Proof.Machine.execDriftPeriod measuredW estimatedW s
  | .recalComplete => Sys2Proof.Machine.execRecalComplete s
  | .thermalSample die temps => Sys2Proof.Machine.execThermalSample die temps s
  | .hbmTempReport stack temp => Sys2Proof.Machine.execHbmTempReport stack temp s
  | .trimRaise die msq slack => Sys2Proof.Machine.execTrimRaise die msq slack s
  | .railSettled die => Sys2Proof.Machine.execRailSettled die s
  | .heartbeatSend => Sys2Proof.Machine.execHeartbeatSend s
  | .heartbeatRx port state assumed => Sys2Proof.Machine.execHeartbeatRx port state assumed s
  | .heartbeatTimeout => Sys2Proof.Machine.execHeartbeatTimeout s
  | .shadowWrite p => Sys2Proof.Machine.execShadowWrite p s
  | .foldComplete job => Sys2Proof.Machine.execFoldComplete job s
  | .idleFlit port flit => Sys2Proof.Machine.execIdleFlit port flit s
  | .pendingNoticeAck p => Sys2Proof.Machine.execPendingNoticeAck p s
  | .refreshAck p => Sys2Proof.Machine.execRefreshAck p s
  | .migrationCopyAck p => Sys2Proof.Machine.execMigrationCopyAck p s
  | .replicaDrop p => Sys2Proof.Machine.execReplicaDrop p s
  | .aliasBuildRequest p => Sys2Proof.Machine.execAliasBuildRequest p s
  | .aliasBuildReport p => Sys2Proof.Machine.execAliasBuildReport p s
  | .shadowWriteAck p => Sys2Proof.Machine.execShadowWriteAck p s
  | .stageFailed reason => Sys2Proof.Machine.execStageFailed reason s
  | .hostLinkUp port width rate => Sys2Proof.Machine.execHostLinkUp port width rate s
  | .cxlLinkUp port => Sys2Proof.Machine.execCxlLinkUp port s
  | .conventionalReset port => Sys2Proof.Machine.execConventionalReset port s
  | .stackContentsLost stack => Sys2Proof.Machine.execStackContentsLost stack s
  | .returnToService isStack unit => Sys2Proof.Machine.execReturnToService isStack unit s
  | .startThreshold mV => Sys2Proof.Machine.execStartThreshold mV s
  | .msixVectorUnmask vec => Sys2Proof.Machine.execMsixVectorUnmask vec s

end Sys2Proof.Machine
end

