-- ==== Sys2Proof/Safety.lean ====
section
/-! DEFINITION. What counts as a safe run, and the terms claims use: when a command starts, when a packet is taken, when a
write of a page acts. -/

namespace Sys2Proof.Machine

/-- The memory keeps its canonical form (12_memory_system.md). -/
def State.MemOk (s : State) : Prop := Memory.wf s.mem.cells = true

/-! ## Commands of a queue (R223 to R225) -/

/-- The record of the command d of queue q as it starts. -/
def State.newCmd (s : State) (q : Nat) (d : Desc) : Cmd :=
  { id := s.nextCmd, q := q, msq := s.qSquare q, desc := d, halt := s.qHaltOnErr q }

/-- The state in which the rest of its checks are made: its square's clocks run, its queue has had its turn, and it has been taken
from it. -/
def State.heads (s : State) (q : Nat) (d : Desc) : State := (((s.beginWork q d).takeTurn q).takeHead q d).1

/-- Whether the command d of queue q starts now and passes every check of R223, `check` being steps 5 and 6: the checks of its body
alone, made at the head of its queue, and those of what it reads, made as it starts. -/
def State.begins (s : State) (q : Nat) (d : Desc) (check : Check) : Bool :=
  s.startable q d && ((s.takeHead q d).1.headerCheck (s.newCmd q d)).isNone &&
  (check.body (s.takeHead q d).1 (s.newCmd q d)).isNone && (check.rest (s.heads q d) (s.newCmd q d)).2.isNone

/-- The state in which that command runs: it has been taken from its queue, its checks are made, CMDS_STARTED has
counted it. -/
def State.begun (s : State) (q : Nat) (d : Desc) (check : Check) : State :=
  (check.rest (s.heads q d) (s.newCmd q d)).1.count64 (qmgPg (qDie q)) QMG.CMDS_STARTED 1

/-! ## Packets (R306, R309) -/

/-- Whether a packet from another module arrives well formed and next on its stream, with nothing held behind it, while
the fabric is up. -/
def State.inSeq (s : State) (p : Pkt) : Bool :=
  s.fabricUp && decide (p.hdr.dstMod = s.modId) && decide (p.hdr.srcMod ≠ s.modId) && s.pktGood p &&
  (!p.body.streamed ||
    ((s.rxStream p.hdr.srcMod p.hdr.vc).held.isEmpty && decide ((s.rxStream p.hdr.srcMod p.hdr.vc).next = p.hdr.seq) &&
      decide (p.hdr.seq < 2 ^ 24)))

/-- The state once such a packet is accepted: its stream has moved on and PKTS_DELIVERED has counted it. -/
def State.taken (s : State) (p : Pkt) : State :=
  (if p.body.streamed then
    s.setRx p.hdr.srcMod p.hdr.vc
      { next := (p.hdr.seq + 1) % 2 ^ 24, held := [], due := (s.rxStream p.hdr.srcMod p.hdr.vc).due + 1 }
  else s).count64 fabPg FAB.PKTS_DELIVERED 1

/-- The same, after a castling has counted a response (R367). -/
def State.arrived (s : State) (p : Pkt) : State :=
  match respId p.body with
  | some (id, n) => (s.taken p).castleGot id n
  | none => s.taken p

/-- Whether such a packet reaches its unit: no epoch, castling or finished command refuses or discards it. -/
def State.delivers (s : State) (p : Pkt) : Bool :=
  s.inSeq p && !((s.taken p).epochBad p) && !((s.arrived p).castledPkt p) &&
  (match respId p.body with
    | some (id, _) => !((s.arrived p).settled id)
    | none => true)

/-- The acknowledgement that the 64th delivery of a stream sends, after what the unit did with the packet. -/
def State.acked (t : State) (p : Pkt) : State :=
  if p.body.streamed && decide ((t.rxStream p.hdr.srcMod p.hdr.vc).due ≥ 64) then t.ackStream p.hdr.srcMod p.hdr.vc else t

/-- The row of a TYPE, for a packet of a message that goes on in the next one (R305). -/
def partRow (type : Nat) (p : Pkt) : Instr :=
  match type with
  | 0x01 => .readReq p | 0x02 => .readRsp p | 0x03 => .sampleReq p | 0x04 => .sampleRsp p | 0x05 => .scatter p
  | 0x06 => .writeAck p | 0x07 => .store p | 0x10 => .redUp p | 0x11 => .redDown p | 0x18 => .barArrive p
  | 0x19 => .barRelease p | 0x1A => .fsignal p | 0x1B => .fsignalAck p | 0x20 => .boardRd p | 0x21 => .boardWr p
  | 0x22 => .boardRsp p | 0x24 => .intr p | 0x30 => .fwuOutcome p | 0x31 => .fwImage p | 0x38 => .e2eAck p
  | 0x3F => .nack p
  | _ => .refresh p

/-- The row of a packet's TYPE. -/
def rowOf (p : Pkt) : Instr :=
  match p.body with
  | .readReq .. => .readReq p | .readRsp .. => .readRsp p | .sampleReq .. => .sampleReq p | .sampleRsp .. => .sampleRsp p
  | .scatter .. => .scatter p | .writeAck .. => .writeAck p | .store .. => .store p
  | .redUp .. => .redUp p | .redDown .. => .redDown p
  | .barArrive .. => .barArrive p | .barRelease .. => .barRelease p | .barEnd .. => .barRelease p
  | .fsignal .. => .fsignal p | .fsignalAck .. => .fsignalAck p
  | .boardRd .. => .boardRd p | .boardWr .. => .boardWr p | .boardRsp .. => .boardRsp p | .intr .. => .intr p
  | .pendingNotice .. => .pendingNotice p | .pendingNoticeAck .. => .pendingNoticeAck p
  | .refresh .. => .refresh p | .refreshAck .. => .refreshAck p
  | .replicaRequest .. => .replicaRequest p | .replicaGrant .. => .replicaGrant p | .replicaRefuse .. => .replicaGrant p
  | .replicaDrop .. => .replicaDrop p
  | .migCopy .. => .migrationChange p | .migCopyAck .. => .migrationCopyAck p | .migChange .. => .migrationChange p
  | .flipNotice .. => .flipNotice p | .aliasRequest .. => .aliasBuildRequest p | .aliasReport .. => .aliasBuildReport p
  | .epochNotice .. => .epochNotice p | .shadowWrite .. => .shadowWrite p | .shadowAck .. => .shadowWriteAck p
  | .fwImage .. => .fwImage p | .fwuOutcome .. => .fwuOutcome p | .announce => .fwuOutcome p
  | .e2eAck .. => .e2eAck p | .nack .. => .nack p | .part t .. => partRow t p

/-! ## Writes of a page (R9, R426, R435) -/

/-- Whether a write of a page acts: the page is mapped and open, and the requester's world may write it; `sw` marks a
register that only the secure world writes. -/
def State.allows (s : State) (page : Nat) (sw secure : Bool) : Bool :=
  (pageInfo s.variant page).isSome && s.pageOpen page true secure && (secure || !(sw || s.pageClosed page secure))

/-- Whether a 32-bit write of an offset of a page reaches its register: the page is present and open, the offset assigned,
and the requester's world may write it (R9, R427, R435). -/
def State.Reaches (s : State) (page off : Nat) (secure : Bool) (i : PageInfo) (r : RegRow) : Prop :=
  pageInfo s.variant page = some i ∧ pageRow s.variant page off = some r ∧ s.pageOpen page true secure = true ∧
  s.rowClosed page r secure = false

end Sys2Proof.Machine
end

