-- ==== Sys2Proof/Certificates/Slice0/Obligations.lean ====
section
/-! DEFINITION. The obligations: statements for the provers, over the model of spec/. -/

open Sys2Proof Sys2Proof.Machine

/-! ## The queue of commands, and what every step keeps -/

/-- A step takes the command at the front of the queue and runs it on the state with the rest of the queue. -/
def Obligations.StepRunsFront : Prop :=
  ∀ (s : State) (c : Instr) (rest : List Instr), s.pending = c :: rest → step s = exec c { s with pending := rest }

/-- On an empty queue the block idles: the model's choice (log entry 2). -/
def Obligations.StepIdles : Prop := ∀ s : State, s.pending = [] → step s = .next s

/-- No command touches the queue of commands or the variant of the part. -/
def Obligations.CommandsKeepQueue : Prop :=
  ∀ (i : Instr) (s t : State), exec i s = .next t → t.pending = s.pending ∧ t.variant = s.variant

/-- Every command answers a next state in every state, but OVER_VOLTAGE_TRIP above 65 V, whose effect R449 does not
specify: that faults. Nothing is refused. -/
def Obligations.OnlyAboveMaximumStops : Prop :=
  ∀ (i : Instr) (s : State),
    (∃ t, exec i s = .next t) ∨
      (∃ mV, i = .overVoltageTrip mV ∧ 65000 < mV ∧ exec i s = .fault .inputAboveMaximum)

/-- Every step keeps the memory's canonical form: addresses strictly rise, and no byte is listed that an unlisted
address reads as. -/
def Obligations.StepKeepsMemoryForm : Prop :=
  ∀ s t : State, s.MemOk → step s = .next t → t.MemOk

/-- The memory after reset has the canonical form. -/
def Obligations.ResetMemoryForm : Prop := State.reset.MemOk

/-- Fuses are written once: over every step the serial number stays, the fused SVN never falls and a fused owner key
digest stays what it is. -/
def Obligations.FusesNeverFall : Prop :=
  ∀ s t : State, step s = .next t →
    t.keep.serial = s.keep.serial ∧ s.keep.svn ≤ t.keep.svn ∧
      ∀ d, s.keep.ownerDigest = some d → t.keep.ownerDigest = some d

/-! ## NOP, FENCE and the Arbiter (R228, R251 to R263, R282) -/

/-- NOP completes with OK at once, and a descriptor whose opcode names another command is none; so does a FENCE with no
dirty line in any write-combining buffer, and any other FENCE waits for exactly the lines dirty as it starts, counted in
FENCE_FLUSHES. -/
def Obligations.NopFenceComplete : Prop :=
  ∀ (s : State) (q : Nat) (d : Desc), s.begins q d bodyReserved = true →
    (d.opcode = 0 →
      exec (.nop q d) s = .next ((s.begun q d bodyReserved).addCmd { s.newCmd q d with done := true })) ∧
    (d.opcode ≠ 0 → exec (.nop q d) s = .next s) ∧
    (s.mem.wcb = [] →
      exec (.fence q d) s = .next ((s.begun q d bodyReserved).addCmd { s.newCmd q d with done := true })) ∧
    (s.mem.wcb ≠ [] →
      exec (.fence q d) s = .next (((s.begun q d bodyReserved).count (wcbPg (qDie q)) WCB.FENCE_FLUSHES 1).addCmd
        { s.newCmd q d with ctx := .fence (s.mem.wcb.map (·.line)) }))

/-- ARB_INIT sets VALUE, REST and KIND, makes the object ACTIVE and the issuing square its owner, and is done; every
other object, the memory and every other command are as they were. -/
def Obligations.ArbInitCompletes : Prop :=
  ∀ (s : State) (q : Nat) (d : Desc), s.begins q d arbInitCheck = true →
    ∃ t, exec (.arbInit q d) s = .next t ∧
      t.obj (s.newCmd q d).arbKey =
        { value := d.b 1, rest := d.b 2, take := d.bitB 3 30, state := .active,
          owner := if (s.newCmd q d).arbFabric then 0 else s.qSquare q } ∧
      (∀ k, k ≠ (s.newCmd q d).arbKey → t.obj k = s.obj k) ∧ t.mem = s.mem ∧
      t.cmds = s.cmds ++ [{ s.newCmd q d with done := true }]

/-- ARB_SIGNAL adds N to its object, saturating at 0xFFFF_FFFF, and is done. On a GE object every WAIT_GE whose
threshold the new VALUE meets is released, its command's effects in place, and no other; no other object changes. -/
def Obligations.ArbSignalReleases : Prop :=
  ∀ (s : State) (q : Nat) (d : Desc), s.begins q d arbSignalCheck = true → (s.obj (s.newCmd q d).arbKey).take = false →
    ∃ t, exec (.arbSignal q d) s = .next t ∧
      (t.obj (s.newCmd q d).arbKey).value = min ((s.obj (s.newCmd q d).arbKey).value + d.b 1) 0xFFFFFFFF ∧
      (t.obj (s.newCmd q d).arbKey).ges = (s.obj (s.newCmd q d).arbKey).ges.filter (fun w =>
        !(decide (w.2 ≤ min ((s.obj (s.newCmd q d).arbKey).value + d.b 1) 0xFFFFFFFF))) ∧
      (∀ w, w ∈ (s.obj (s.newCmd q d).arbKey).ges →
        w.2 ≤ min ((s.obj (s.newCmd q d).arbKey).value + d.b 1) 0xFFFFFFFF →
          ∀ c, c ∈ t.cmds → c.id = w.1 → c.done = true) ∧
      (∀ k, k ≠ (s.newCmd q d).arbKey → t.obj k = s.obj k) ∧ t.mem = s.mem

/-- An addition of n to a TAKE object grants units to waiting TAKEs from the head of its queue, one each, until n units,
the units there are, or the waiters run out; the units left over stay in VALUE. -/
def Obligations.ArbSignalGrants : Prop :=
  ∀ (s : State) (q : Nat) (d : Desc), s.begins q d arbSignalCheck = true → (s.obj (s.newCmd q d).arbKey).take = true →
    ∃ t, exec (.arbSignal q d) s = .next t ∧
      (t.obj (s.newCmd q d).arbKey).takes = (s.obj (s.newCmd q d).arbKey).takes.drop
        (min (min (d.b 1) (min ((s.obj (s.newCmd q d).arbKey).value + d.b 1) 0xFFFFFFFF))
          (s.obj (s.newCmd q d).arbKey).takes.length) ∧
      (t.obj (s.newCmd q d).arbKey).value = min ((s.obj (s.newCmd q d).arbKey).value + d.b 1) 0xFFFFFFFF -
        min (min (d.b 1) (min ((s.obj (s.newCmd q d).arbKey).value + d.b 1) 0xFFFFFFFF))
          (s.obj (s.newCmd q d).arbKey).takes.length ∧
      (∀ k, k ≠ (s.newCmd q d).arbKey → t.obj k = s.obj k) ∧ t.mem = s.mem

/-- An ARB_WAIT_GE whose threshold is met as it starts is done at once, any other joins the object's waiters; an
ARB_TAKE that finds a unit and no earlier TAKE waiting takes it at once, any other joins the TAKE queue at its tail. -/
def Obligations.ArbWaitsComplete : Prop :=
  (∀ (s : State) (q : Nat) (d : Desc), s.begins q d arbWaitGeCheck = true →
    d.b 1 ≤ (s.obj (s.newCmd q d).arbKey).value →
      ∃ t, exec (.arbWaitGe q d) s = .next t ∧ t.cmds = s.cmds ++ [{ s.newCmd q d with done := true }] ∧
        t.arb = s.arb ∧ t.mem = s.mem) ∧
  (∀ (s : State) (q : Nat) (d : Desc), s.begins q d arbWaitGeCheck = true →
    (s.obj (s.newCmd q d).arbKey).value < d.b 1 →
      ∃ t, exec (.arbWaitGe q d) s = .next t ∧
        t.cmds = s.cmds ++ [{ s.newCmd q d with ctx := .waitObj (s.newCmd q d).arbKey }] ∧
        t.obj (s.newCmd q d).arbKey = { s.obj (s.newCmd q d).arbKey with
          ges := (s.obj (s.newCmd q d).arbKey).ges ++ [(s.nextCmd, d.b 1)] } ∧
        (∀ k, k ≠ (s.newCmd q d).arbKey → t.obj k = s.obj k) ∧ t.mem = s.mem) ∧
  (∀ (s : State) (q : Nat) (d : Desc), s.begins q d arbTakeCheck = true →
    0 < (s.obj (s.newCmd q d).arbKey).value → (s.obj (s.newCmd q d).arbKey).takes = [] →
      ∃ t, exec (.arbTake q d) s = .next t ∧ t.cmds = s.cmds ++ [{ s.newCmd q d with done := true }] ∧
        t.obj (s.newCmd q d).arbKey = { s.obj (s.newCmd q d).arbKey with
          value := (s.obj (s.newCmd q d).arbKey).value - 1 } ∧
        (∀ k, k ≠ (s.newCmd q d).arbKey → t.obj k = s.obj k) ∧ t.mem = s.mem) ∧
  (∀ (s : State) (q : Nat) (d : Desc), s.begins q d arbTakeCheck = true →
    ((s.obj (s.newCmd q d).arbKey).value = 0 ∨ (s.obj (s.newCmd q d).arbKey).takes ≠ []) →
      ∃ t, exec (.arbTake q d) s = .next t ∧
        t.cmds = s.cmds ++ [{ s.newCmd q d with ctx := .waitObj (s.newCmd q d).arbKey }] ∧
        t.obj (s.newCmd q d).arbKey = { s.obj (s.newCmd q d).arbKey with
          takes := (s.obj (s.newCmd q d).arbKey).takes ++ [s.nextCmd] } ∧
        (∀ k, k ≠ (s.newCmd q d).arbKey → t.obj k = s.obj k) ∧ t.mem = s.mem)

/-- An ARB_BARRIER arrives for its square at the tracker of its object, its mask read from square memory. The arrivals
that wait for a tracker are served oldest first: each joins the instance in progress on its object, ends where its mask
is another, or begins one where a tracker is free; the cycles it waited, a free value, are counted. ARB_FBARRIER enters
its instance on this module and makes the module's arrival, or ends it where a pair of its set is lost or its end has
come to this module already; ARB_FSIGNAL sends N to the object of the member at TARGET
and waits for the acknowledgement. -/
def Obligations.BarrierAndFabricCommandsComplete : Prop :=
  ((∀ (s : State) (q : Nat) (d : Desc), s.begins q d arbBarrierCheck = true →
    exec (.arbBarrier q d) s = .next
      (((s.begun q d arbBarrierCheck).addCmd { s.newCmd q d with ctx := .waitObj (s.newCmd q d).arbKey }).barrierArrive
        (s.newCmd q d).arbKey (leNat ((s.newCmd q d).mask (s.begun q d arbBarrierCheck)).data) (s.qSquare q) s.nextCmd)) ∧
  (∀ s : State, exec .barrierTrackerGrant s = .next (s.arb.trackerWait.foldl State.trackerServe s)) ∧
  (∀ (s u : State) (w : Nat × Nat) (c : Cmd), s.cmd? w.1 = some c → s.arb.trackerWait.contains w = true →
    u = ({ s with arb := { s.arb with trackerWait := s.arb.trackerWait.filter (· != w) }, free := s.free + 1 } : State).count64
      (arbPg 6) ARB.TRACKER_WAIT_CYCLES (Config.freeNat s.free) →
    ((s.arb.barriers.find? fun b => b.obj == c.arbKey) = none → s.arb.barriers.length < 256 →
      s.trackerServe w = u.barrierBegin c.arbKey w.2 c.msq w.1) ∧
    ((s.arb.barriers.find? fun b => b.obj == c.arbKey) = none → 256 ≤ s.arb.barriers.length → s.trackerServe w = s) ∧
    (∀ b, (s.arb.barriers.find? fun b => b.obj == c.arbKey) = some b →
      (b.mask = w.2 → s.trackerServe w = u.barrierJoin c.arbKey c.msq w.1 b) ∧
      (b.mask ≠ w.2 → s.trackerServe w =
        (u.err (objPage c.arbKey) ARB.E_BARRIER_MISMATCH c.q).endCmd w.1 .configInvalid)))) ∧
  ((∀ (s : State) (q : Nat) (d : Desc), s.begins q d arbFbarrierCheck = true →
    ∃ t : State,
      t.cmds = s.cmds ++ [{ s.newCmd q d with ctx := .waitObj (s.newCmd q d).arbKey }] ∧
      t.arb = { s.arb with fbars := s.arb.fbars ++ [FBarrier.mk (d.f 0 11 0) (s.job d.job).ver (fbarSet s d).1
        (fbarSet s d).2 s.nextCmd] } ∧
      t.mem = s.mem ∧ t.bnd = s.bnd ∧ t.fab = s.fab ∧
      ((s.arb.stopped.find? fun x => x.1 == d.job && x.2.1 == d.f 0 11 0) = none →
        ((s.setMembers d.job (s.job d.job).ver (fbarSet s d).1 (fbarSet s d).2).any s.pairGone = false →
          exec (.arbFbarrier q d) s =
            .next (t.fbarOwn d.job (d.f 0 11 0) (fbarSet s d).1 (fbarSet s d).2 (s.job d.job).ver)) ∧
        ((s.setMembers d.job (s.job d.job).ver (fbarSet s d).1 (fbarSet s d).2).any s.pairGone = true →
          exec (.arbFbarrier q d) s = .next (t.fbarEnd d.job (d.f 0 11 0) .linkLost))) ∧
      (∀ x, (s.arb.stopped.find? fun x => x.1 == d.job && x.2.1 == d.f 0 11 0) = some x →
        exec (.arbFbarrier q d) s = .next
          (({ t with arb := { t.arb with stopped := t.arb.stopped.filter (· != x) } } : State).fbarEnd d.job
            (d.f 0 11 0) x.2.2))) ∧
  (∀ (s : State) (q : Nat) (d : Desc) (m : Nat), s.begins q d arbFsignalCheck = true →
    (s.job d.job).members[d.f 2 14 0]? = some m →
    ∃ t : State, exec (.arbFsignal q d) s = .next (t.sendF0 (s.qSquare q) m d.job (.fsignal s.nextCmd (d.f 0 11 0) (d.b 1))) ∧
      t.cmds = s.cmds ++ [{ s.newCmd q d with ctx := .fsignal m }] ∧
      t.mem = s.mem ∧ t.bnd = s.bnd ∧ t.fab = s.fab ∧ t.arb = s.arb))

/-- The release of a local barrier: when every square of the mask has arrived, the object's VALUE rises by one, every
arriving command is done, and the object's tracker is freed where no square has arrived again. -/
def Obligations.BarrierReleases : Prop :=
  ∀ (s : State) (key : Nat) (b : Barrier), (s.arb.barriers.find? fun b => b.obj == key) = some b →
    (∀ n, n < 384 → b.mask.testBit n = true → ∃ a, a ∈ b.arrived ∧ a.1 = n) → b.later = [] → (s.obj key).take = false →
      ((s.releaseBarrier key).obj key).value = min ((s.obj key).value + 1) 0xFFFFFFFF ∧
      (s.releaseBarrier key).arb.barriers = s.arb.barriers.filter (fun x => x.obj != key) ∧
      ∀ a, a ∈ b.arrived → ∀ c, c ∈ (s.releaseBarrier key).cmds → c.id = a.2 → c.done = true

/-! ## The commands of a queue: what each does once it starts with every check passed -/

/-- A command that starts leaves its queue: Q_HEAD passes it, the next read descriptor is the head, CMDS_STARTED counts
one, it is the queue's last command, its square's turn among queues of its PRIO passes to it, and its square leaves the
gated state. Nothing else named changes. Stated for every command whose checks read no memory. -/
def Obligations.StartedCommandLeavesQueue : Prop :=
  ∀ (s : State) (q : Nat) (d : Desc) (k : Check), (∀ u x, (k.rest u x).1 = u) → s.begins q d k = true →
    (s.begun q d k).qHead q = (s.qHead q + 1) % 2 ^ 32 ∧
    (s.begun q d k).qst q =
      { s.qst q with fetched := (s.qst q).fetched.tail, aged := false, last := some s.nextCmd } ∧
    (∃ rest, (s.qst q).fetched = d :: rest) ∧
    (∀ p, p ≠ q → (s.begun q d k).qst p = s.qst p) ∧
    (s.begun q d k).nextCmd = s.nextCmd + 1 ∧
    (s.begun q d k).served = SMap.put (s.qSquare q * 4 + s.qPrio q) q s.served ∧
    (s.begun q d k).cmds = s.cmds ∧ (s.begun q d k).mem = s.mem ∧
    (s.begun q d k).scs = s.scs ∧ (s.begun q d k).arb = s.arb ∧
    (s.begun q d k).plc = s.plc ∧ (s.begun q d k).bnd = s.bnd ∧
    (s.begun q d k).fab = s.fab ∧ (s.begun q d k).pwr = (s.beginWork q d).pwr ∧
    (s.beginWork q d).pwr.gated = s.pwr.gated.filter (· != s.qSquare q)

/-- A command starts only while the module is READY, its queue enabled and not halted, its NOT_BEFORE beat reached and,
with DEP, no earlier command of its queue in flight as the last one. -/
def Obligations.StartsOnlyWhenEligible : Prop :=
  ∀ (s : State) (q : Nat) (d : Desc) (check : Check), s.begins q d check = true →
    s.mgtState = 2 ∧ s.qEnabled q = true ∧ (s.qst q).halted = false ∧ d.notBefore ≤ s.beat ∧
    (d.dlEn = true → s.beat < d.deadline) ∧
    (∀ c, c ∈ s.cmds → d.dep = true → (s.qst q).last ≠ some c.id) ∧
    (∀ c, c ∈ s.cmds → d.opcode = 1 → c.q ≠ q)

/-- MATMUL runs as a normal or a coarse one, as its mode says; SCS_READOUT and SCS_CLEAR serve every slot whose moment
has come, a readout writing its output at once where no update of its slots is queued. -/
def Obligations.MatrixCommandsComplete : Prop :=
  (∀ (s : State) (q : Nat) (d : Desc), s.begins q d matmulCheck = true →
    (mmCoarse d = false → exec (.matmul q d) s = .next ((s.begun q d matmulCheck).matmulNormal (s.newCmd q d))) ∧
    (mmCoarse d = true → exec (.matmul q d) s = .next ((s.begun q d matmulCheck).matmulCoarse (s.newCmd q d)))) ∧
  (∀ (s : State) (q : Nat) (d : Desc), s.begins q d readoutCheck = true →
    ∀ (c : Cmd) (u : State), c = { s.newCmd q d with ctx := .scsRead [] } → u = (s.begun q d readoutCheck).addCmd c →
    exec (.scsReadout q d) s = .next (u.readoutNow c) ∧
    (s.scsHeld c = false →
      exec (.scsReadout q d) s =
        .next ((u.serveSlots c (roClear d)).1.readoutEnd c (u.serveSlots c (roClear d)).2))) ∧
  (∀ (s : State) (q : Nat) (d : Desc), s.begins q d clearCheck = true →
    ∀ c : Cmd, c = { s.newCmd q d with ctx := .scsRead [] } →
      exec (.scsClear q d) s = .next (((s.begun q d clearCheck).addCmd c).clearNow c))

/-- A clear that starts leaves every slot it names narrow zero: state 0, no tag, BASE 0 and window 0, so that the slot's
whole word is zero, whatever the slot held; a slot with an update queued stays as it was until that is absorbed, and
with none it is done at once. -/
def Obligations.ClearZeroesSlots : Prop :=
  ∀ (s : State) (c : Cmd) (slot : Nat), c.got = [] → slot ∈ scsSlots c.desc →
    (s.slotQueued c.msq slot = false → SMap.get 0 slot ((s.clearNow c).sheet c.msq).slots = 0) ∧
    (s.slotQueued c.msq slot = true →
      SMap.get 0 slot ((s.clearNow c).sheet c.msq).slots = SMap.get 0 slot (s.sheet c.msq).slots) ∧
    ((s.clearNow c).sheet c.msq).queue = (s.sheet c.msq).queue ∧ (s.clearNow c).mem = s.mem ∧
    (s.scsHeld c = false → ∀ c', c' ∈ (s.clearNow c).cmds → c'.id = c.id → c'.done = true) ∧
    (∀ msq, msq ≠ c.msq → (s.clearNow c).sheet msq = s.sheet msq)

/-- VX_MAP, VX_CONVERT, VX_REDUCE, VX_AGG, VX_UPDATE, VX_RATIO and GMB_LAYER run once they start; VX_RATIO forms its
record at once where no update of its two slots is queued. -/
def Obligations.VectorCommandsComplete : Prop :=
  (∀ (s : State) (q : Nat) (d : Desc), s.begins q d streamCheck = true →
    exec (.vxMap q d) s = .next ((s.begun q d streamCheck).mapRun (s.newCmd q d)) ∧
    exec (.vxConvert q d) s = .next ((s.begun q d streamCheck).convertRun (s.newCmd q d)) ∧
    exec (.vxReduce q d) s = .next ((s.begun q d streamCheck).reduceRun (s.newCmd q d))) ∧
  (∀ (s : State) (q : Nat) (d : Desc), s.begins q d aggCheck = true →
    exec (.vxAgg q d) s = .next ((s.begun q d aggCheck).aggRun (s.newCmd q d))) ∧
  (∀ (s : State) (q : Nat) (d : Desc), s.begins q d updateCheck = true →
    exec (.vxUpdate q d) s = .next ((s.begun q d updateCheck).updateRun (s.newCmd q d))) ∧
  (∀ (s : State) (q : Nat) (d : Desc), s.begins q d ratioCheck = true →
    ∀ (c : Cmd) (u : State), c = { s.newCmd q d with ctx := .scsRead [] } → u = (s.begun q d ratioCheck).addCmd c →
    exec (.vxRatio q d) s = .next (u.ratioNow c) ∧
    (s.scsHeld c = false →
      exec (.vxRatio q d) s =
        .next ((u.serveSlots c (d.bitB 2 0)).1.ratioEnd c (u.serveSlots c (d.bitB 2 0)).2))) ∧
  (∀ (s : State) (q : Nat) (d : Desc), s.begins q d layerCheck = true →
    exec (.gmbLayer q d) s = .next ((s.begun q d layerCheck).layerRun (s.newCmd q d)))

/-- DMA_FILL within this module writes the PATTERN over LENGTH bytes at DST; DMA_COPY within this module writes at DST
what it read at SRC, the uncorrectable words marked; both count DMA_BYTES, and are done unless FLUSH finds dirty lines.
Stated for one transfer piece, up to 4,096 bytes. A transfer whose end lies in a lost module ends LINK_LOST, and its
destination, where that is here, is undefined. -/
def Obligations.DmaCommandsComplete : Prop :=
  (∀ (s u : State) (q : Nat) (d : Desc), s.begins q d dmaCheck = true → dmaIsFill d = true →
    s.isLost s.modId = false → s.boardMod (dmaDst d) = s.modId → 0 < dmaLen d → dmaLen d ≤ 4096 →
    u = ((s.begun q d dmaCheck).addCmd (s.newCmd q d)).count64 (wcbPg (s.qSquare q / 64)) WCB.DMA_BYTES (dmaLen d) →
    ∃ t : State, exec (.dmaFill q d) s = .next t ∧
      t.mem = (u.memWrite (Req.command d.job q) (dmaDst d % 2 ^ 46) (fillBytes (d.b 5) (dmaLen d)) []).st.mem ∧
      t.regs = (u.memWrite (Req.command d.job q) (dmaDst d % 2 ^ 46) (fillBytes (d.b 5) (dmaLen d)) []).st.regs ∧
      (dmaFlush d = false → ∀ c, c ∈ t.cmds → c.id = s.nextCmd → c.done = true)) ∧
  (∀ (s u : State) (q : Nat) (d : Desc) (g : State × List Byte × List Nat), s.begins q d dmaCheck = true →
    dmaIsFill d = false → s.isLost s.modId = false → s.boardMod (dmaDst d) = s.modId →
    s.boardMod (dmaSrc d) = s.modId → 0 < dmaLen d → dmaLen d ≤ 4096 →
    u = ((s.begun q d dmaCheck).addCmd (s.newCmd q d)).count64 (wcbPg (s.qSquare q / 64)) WCB.DMA_BYTES (dmaLen d) →
    g = u.dmaGet (s.newCmd q d) (dmaSrc d) (dmaLen d) →
    ∃ t : State, exec (.dmaCopy q d) s = .next t ∧
      t.mem = (g.1.memWrite (Req.command d.job q) (dmaDst d % 2 ^ 46) g.2.1
        (g.2.2.map (· + dmaDst d % 2 ^ 46 / 16))).st.mem ∧
      (dmaFlush d = false → ∀ c, c ∈ t.cmds → c.id = s.nextCmd → c.done = true)) ∧
  (∀ (s : State) (q : Nat) (d : Desc), s.begins q d dmaCheck = true → s.isLost s.modId = false →
    s.isLost (s.boardMod (dmaDst d)) = true →
    ∃ t : State, exec (.dmaCopy q d) s = .next t ∧ exec (.dmaFill q d) s = .next t ∧ t.mem = s.mem ∧
      t.cmds = s.cmds ++ [{ s.newCmd q d with done := true, ended := some .linkLost }]) ∧
  (∀ (s : State) (q : Nat) (d : Desc), s.begins q d dmaCheck = true → dmaIsFill d = false →
    s.isLost (s.boardMod (dmaSrc d)) = true → s.boardMod (dmaDst d) = s.modId →
    exec (.dmaCopy q d) s = .next (((s.begun q d dmaCheck).freeMem d.job (dmaDst d % 2 ^ 46) (dmaLen d)).addCmd
      { s.newCmd q d with done := true, ended := some .linkLost }))

/-- RAMP sets the floor F of its square and is done at once, or with WAIT waits for the allowance; PWR_SLEEP asks its
square to sleep, but for a WAKE_BEAT already past. No other square changes. -/
def Obligations.PowerCommandsComplete : Prop :=
  (∀ (s : State) (q : Nat) (d : Desc), s.begins q d rampCheck = true →
    ∃ t : State, exec (.ramp q d) s = .next t ∧
      t.sqp (s.qSquare q) = { s.sqp (s.qSquare q) with f := d.f 0 10 0 } ∧
      (∀ m, m ≠ s.qSquare q → t.sqp m = s.sqp m) ∧
      t.cmds = s.cmds ++ [if d.bitB 0 31 then { s.newCmd q d with ctx := .ramp (d.f 0 10 0) }
        else { s.newCmd q d with done := true }] ∧ t.mem = s.mem ∧ t.arb = s.arb ∧ t.regs = (s.begun q d rampCheck).regs) ∧
  (∀ (s : State) (q : Nat) (d : Desc), s.begins q d sleepCheck = true →
    (d.b 1 + d.b 2 * 2 ^ 32 = 0 ∨ s.beat < d.b 1 + d.b 2 * 2 ^ 32) →
    ∃ t : State, exec (.pwrSleep q d) s = .next t ∧
      t.sqp (s.qSquare q) = { s.sqp (s.qSquare q) with
        sleep := .entering (d.bitB 0 31) (d.bitB 0 30) (d.b 1 + d.b 2 * 2 ^ 32) } ∧
      (∀ m, m ≠ s.qSquare q → t.sqp m = s.sqp m) ∧
      t.cmds = s.cmds ++ [{ s.newCmd q d with done := true }] ∧ t.mem = s.mem ∧ t.arb = s.arb) ∧
  (∀ (s : State) (q : Nat) (d : Desc), s.begins q d sleepCheck = true →
    d.b 1 + d.b 2 * 2 ^ 32 ≠ 0 → d.b 1 + d.b 2 * 2 ^ 32 ≤ s.beat →
    ∃ t : State, exec (.pwrSleep q d) s = .next t ∧ t.pwr = (s.beginWork q d).pwr ∧
      t.cmds = s.cmds ++ [{ s.newCmd q d with done := true }] ∧ t.mem = s.mem ∧ t.arb = s.arb)

/-- The Knight's and the Rook's commands run once they start; a Rook command that settles or releases first enters the
commands in flight with what it waits for. -/
def Obligations.KnightRookCommandsComplete : Prop :=
  (∀ (s : State) (q : Nat) (d : Desc), s.begins q d sampleCheck = true →
    exec (.kntSample q d) s = .next ((s.begun q d sampleCheck).sampleRun (s.newCmd q d))) ∧
  (∀ (s : State) (q : Nat) (d : Desc), s.begins q d aliasCheck = true →
    exec (.aliasBuild q d) s = .next ((s.begun q d aliasCheck).aliasRun (s.newCmd q d))) ∧
  (∀ (s : State) (q : Nat) (d : Desc), s.begins q d rgCheck = true →
    exec (.rookGather q d) s = .next ((s.begun q d rgCheck).gatherRun (s.newCmd q d)) ∧
    exec (.rookStore q d) s = .next ((s.begun q d rgCheck).rookStoreRun (s.newCmd q d))) ∧
  (∀ (s : State) (q : Nat) (d : Desc), s.begins q d scatterCheck = true →
    exec (.rookScatter q d) s = .next ((s.begun q d scatterCheck).scatterRun (s.newCmd q d))) ∧
  (∀ (s : State) (q : Nat) (d : Desc), s.begins q d reservedCheck = true →
    exec (.rookSettle q d) s = .next (((s.begun q d reservedCheck).addCmd { s.newCmd q d with
      ctx := .settle [] 0 }).settleMore s.nextCmd) ∧
    exec (.rookDrain q d) s = .next ((s.begun q d reservedCheck).drainRun (s.newCmd q d))) ∧
  (∀ (s : State) (q : Nat) (d : Desc), s.begins q d releaseCheck = true →
    exec (.rookRelease q d) s = .next
      (((s.begun q d releaseCheck).addCmd { s.newCmd q d with ctx := .release [] }).releaseMore s.nextCmd)) ∧
  (∀ (s : State) (q : Nat) (d : Desc), s.begins q d loadCheck = true →
    exec (.plcLoad q d) s = .next ((s.begun q d loadCheck).plcLoadRun (s.newCmd q d)))

/-- PLC_TABLE records its definition for its job; PLC_STEP declares the job's step and next boundary; PLC_DROP removes
the table with every row, replica and entry of it; each is done at once. -/
def Obligations.TableCommandsComplete : Prop :=
  (∀ (s u : State) (q : Nat) (d : Desc), s.begins q d tableCheck = true → u = s.begun q d tableCheck →
    ∃ t : State, exec (.plcTable q d) s = .next t ∧
      SMap.find (d.job * 4096 + bits (d.b 0) 31 20) t.plc.tables = some (bodyTbl d).ws ∧
      t.plc.rows = u.plc.rows ∧ t.mem = u.mem ∧ t.regs = u.regs ∧
      t.cmds = u.cmds ++ [{ s.newCmd q d with done := true }]) ∧
  (∀ (s u : State) (q : Nat) (d : Desc), s.begins q d stepCheck = true → u = s.begun q d stepCheck →
    ∃ t : State, exec (.plcStep q d) s = .next t ∧ t.reg plcPg PLC.JOB_STEP d.job = d.b 0 ∧
      t.reg plcPg PLC.JOB_NEXT_BEAT d.job = d.b 1 + d.b 2 * 2 ^ 32 ∧ t.plc = u.plc ∧ t.mem = u.mem ∧
      t.cmds = u.cmds ++ [{ s.newCmd q d with done := true }]) ∧
  (∀ (s : State) (q : Nat) (d : Desc), s.begins q d dropCheck = true →
    ∃ t : State, exec (.plcDrop q d) s = .next t ∧ SMap.find (d.job * 4096 + bits (d.b 0) 31 20) t.plc.tables = none ∧
      (∀ p, p ∈ t.plc.rows → ¬ (p.1.job = d.job ∧ p.1.table = bits (d.b 0) 31 20)) ∧
      { s.newCmd q d with done := true } ∈ t.cmds)

/-- PLC_KEEP discards the step-start copy of every row of the job owned here that has one, PLC_ROLLBACK writes each back
as its command's write, whose region faults end the command; INFO0 counts the rows and INFO1 repeats the first word of
the body. -/
def Obligations.KeepRollbackComplete : Prop :=
  (∀ (s : State) (q : Nat) (d : Desc), s.begins q d keepCheck = true →
    exec (.plcKeep q d) s = .next ((((s.begun q d keepCheck).undoRows d.job).foldl State.keepRow (s.begun q d keepCheck)).addCmd
      { s.newCmd q d with done := true, info0 := min ((s.begun q d keepCheck).undoRows d.job).length 0xFFFFFFFF, info1 := min (d.b 0) 0xFFFFFFFF })) ∧
  (∀ (s : State) (q : Nat) (d : Desc), s.begins q d rollbackCheck = true →
    ∀ (u : State) (x : Cmd), (u, x) = ((s.begun q d rollbackCheck).undoRows d.job).foldl (fun a k =>
        ((a.1.rollbackRow (Req.command d.job q) k).st,
          { a.2 with world := a.2.world || (a.1.rollbackRow (Req.command d.job q) k).world,
                     cfg := a.2.cfg || (a.1.rollbackRow (Req.command d.job q) k).cfg }))
        (s.begun q d rollbackCheck, s.newCmd q d) →
      exec (.plcRollback q d) s = .next (u.addCmd
        { x with done := true, info0 := min ((s.begun q d rollbackCheck).undoRows d.job).length 0xFFFFFFFF,
                 info1 := min (d.b 0) 0xFFFFFFFF }))

/-- COLL_ALLREDUCE and COLL_NORM enter their instance; BND_SHADOW and BND_SEAL run; BND_RESYNC of a STALE unit makes it
not STALE, keeps its epoch and reports it in INFO0. -/
def Obligations.CollectiveAndBindingCommandsComplete : Prop :=
  (∀ (s : State) (q : Nat) (d : Desc), s.begins q d collCheck = true →
    exec (.collAllreduce q d) s = .next ((s.begun q d collCheck).collRun (s.newCmd q d)) ∧
    exec (.collNorm q d) s = .next ((s.begun q d collCheck).collRun (s.newCmd q d))) ∧
  (∀ (s : State) (q : Nat) (d : Desc), s.begins q d shadowCheck = true →
    exec (.bndShadow q d) s = .next ((s.begun q d shadowCheck).shadowRun (s.newCmd q d))) ∧
  (∀ (s : State) (q : Nat) (d : Desc), s.begins q d sealCheck = true →
    exec (.bndSeal q d) s = .next ((s.begun q d sealCheck).sealRun (s.newCmd q d))) ∧
  (∀ (s : State) (q : Nat) (d : Desc), s.begins q d resyncCheck = true →
    exec (.bndResync q d) s = .next (((s.begun q d resyncCheck).resync (resyncUnit (b2n (d.bitB 0 31)) (d.f 0 8 0))).addCmd
      { s.newCmd q d with done := true, info0 := s.unitEpoch (resyncUnit (b2n (d.bitB 0 31)) (d.f 0 8 0)) }))

/-! ## Queues and the beat -/

/-- DESCRIPTOR_FETCH reads 64 bytes at the queue's next descriptor: read well, it joins the descriptors read; an
uncorrectable one halts the queue and sets DESC_UE. PRIO_AGING raises a ready queue to PRIO 3 until its next start; no
other queue, register or command changes. -/
def Obligations.QueueServiceCompletes : Prop :=
  (∀ (s : State) (q : Nat) (r : MemRes), s.canFetch q = true →
    r = s.memRead (s.fetchReq q) (s.descAddr q) 64 →
    (r.ue = [] → exec (.descriptorFetch q) s = .next (r.st.setQst q
      { r.st.qst q with fetched := (r.st.qst q).fetched ++ [(elems 4 r.data).map (BitVec.ofNat 32)] })) ∧
    (r.ue ≠ [] → exec (.descriptorFetch q) s =
      .next ((r.st.haltQueue q).err (qmgPg (qDie q)) QMG.E_DESC_UE q))) ∧
  (∀ (s : State) (q : Nat), s.qReady q = true →
    ∃ t : State, exec (.prioAging q) s = .next t ∧ t.qst q = { s.qst q with aged := true } ∧ t.qPrio q = 3 ∧
      (∀ p, p ≠ q → t.qst p = s.qst p) ∧ t.regs = s.regs ∧ t.cmds = s.cmds ∧ t.mem = s.mem)

/-- A command whose effects are in place completes: it leaves the commands in flight, its unit's and its queue's counts
rise, and, as its header asks and its status allows, its record is written, its object signalled, its queue halted; a
drain's square then takes the entries it held. Stated whole for a header without completion record and signal. -/
def Obligations.CommandCompleteCompletes : Prop :=
  (∀ (s : State) (id : Nat) (c : Cmd), s.halted = false → s.cmd? id = some c → c.done = true →
    exec (.commandComplete id) s = .next (if c.desc.opcode = 0x55 then (s.complete c).releaseAll else s.complete c)) ∧
  (∀ (s : State) (c : Cmd), c.desc.cqEn = false → c.desc.sigEn = false → c.status.code < 0x10 →
    s.complete c = (((c.reports.foldl (fun s p => s.setReg p.1 p.2.1 p.2.2)
      (State.countDone { s with cmds := s.cmds.filter fun x => x.id != c.id } c)).missAlarm c).count64
        (qmgPg (qDie c.q)) QMG.CMDS_COMPLETED 1).ungate c.msq) ∧
  (∀ (s : State) (id : Nat), s.halted = true → exec (.commandComplete id) s = .next s)

/-- DEADLINE_EXPIRE ends the queue's started commands that are not complete at their DEADLINE in the order they started,
then its unstarted ones, once no scheduled commit of an earlier step of the beat is due. -/
def Obligations.DeadlineExpireCompletes : Prop :=
  ∀ (s : State) (q : Nat), s.halted = false → s.commitDue = false →
    ∀ u : State, u = ((s.cmds.filter fun (c : Cmd) => c.q == q && s.overdue c).map fun (c : Cmd) => c.id).foldl
        State.expireCmd s →
      exec (.deadlineExpire q) s = .next (u.expireHeads q (u.qst q).fetched.length)

/-- BEAT raises the 64-bit beat counter by one and then takes R241's steps in their order: scheduled commits, placement,
deadlines, power, timers, the commands that wait, and host accesses that no posted write holds any more. In a stop and
in BOOT_FAILED only power goes on, in RESET nothing does. The board's levels and I3C transfers of the beat come first
(log entry 107). -/
def Obligations.BeatCompletes : Prop :=
  (∀ (s b u : State) (i : BeatIn), b = s.boardIn i → b.mgtState ≠ 0 → b.mgtState ≠ 3 → b.halted = false →
    u = (((({ b with beat := (b.beat + 1) % 2 ^ 64 } : State).beatCommits.mboxDone.beatPlacement.beatDeadlines.powerBeat
      i).beatTimers.settle)).ungateReady →
    exec (.beat i) s = .next (u.hostDrain u.host.held.length)) ∧
  (∀ (s b : State) (i : BeatIn), b = s.boardIn i → b.mgtState ≠ 0 → (b.halted = true ∨ b.mgtState = 3) →
    exec (.beat i) s = .next (({ b with beat := (b.beat + 1) % 2 ^ 64 } : State).powerBeat i)) ∧
  (∀ (s b : State) (i : BeatIn), b = s.boardIn i → b.mgtState = 0 → exec (.beat i) s = .next b) ∧
  (∀ (s : State) (i : BeatIn), i.pwrGood = s.boot.pwrGood → i.refclk = false → i.i3c = [] → s.boardIn i = s)

/-! ## Commits and castling (R437 to R445, R364 to R367) -/

/-- SCHEDULED_COMMIT disarms the page and commits it for the world that armed it, once its beat has come; LATE set where
the counter passed that beat; COMMIT with GO commits at once and disarms; CASTLE_BIND and CASTLE_COMPLETE act on the
castling in progress when their beats have come. -/
def Obligations.CommitsComplete : Prop :=
  (∀ (s : State) (page : Nat) (a : Arm), s.armed page = some a → a.beat ≤ s.beat →
    exec (.scheduledCommit page) s = .next
      (({ s with regs := { s.regs with armed := s.regs.armed.filter fun x => x.page != page } } : State).commit page a.secure
        (a.late || decide (a.beat < s.beat)))) ∧
  (∀ (s : State) (page : Nat) (v : Word) (secure : Bool), s.canCommit page = true → s.pageOpen page true secure = true →
    s.pageClosed page secure = false → v.toNat.testBit 0 = true → ∀ t : State, t = s.commit page secure false →
    exec (.commitGo page v secure) s = .next
      { t with regs := { t.regs with armed := t.regs.armed.filter fun a => a.page != page } }) ∧
  (∀ (s u w : State) (c : Castle), s.bnd.castle = some c → c.bound = true → c.beat + 2 ≤ s.beat →
    (c.waiting = [] ∨ c.beat + 2000 ≤ s.beat) →
    u = (s.setReg bndPg BND.CASTLE_BEATS (s.beat - c.beat)).count bndPg BND.CASTLES_DONE 1 →
    w = (u.memWrite (castleReq c.secure) (c.base + 8) (leBytes 8 s.beat)).st →
    exec .castleComplete s = .next { w with bnd := { w.bnd with castle := none } }) ∧
  (∀ (s u v w : State) (c : Castle), s.bnd.castle = some c → c.bound = false → c.beat + 1 ≤ s.beat →
    u = (s.cmds.filter fun x => x.done && x.castledBy c.entries).foldl State.complete s →
    v = ((boundJobs (bindAll c.entries u.bnd.bound)).filter fun j => !((boundJobs u.bnd.bound).contains j)).foldl
      State.dropJob u →
    w = c.entries.foldl (fun s e => (List.range e.count).foldl (fun s i => s.bindOne e (e.first + i)) s)
      ({ v with bnd := { v.bnd with bound := bindAll c.entries u.bnd.bound, castle := some ({ c with bound := true }) } } :
        State) →
    exec .castleBind s = .next (((boundJobs u.bnd.bound ++ shareJobs c.entries).filter fun j =>
      !((boundJobs (bindAll c.entries u.bnd.bound)).contains j)).foldl State.dropJob w))

/-- A write that reaches the upper word of COMMIT_BEAT with a beat to come arms the page for the writer's world at that
beat; CANCEL disarms; DISCARD also drops the shadows the writer's world may adopt. The commit beat keeps its value. -/
def Obligations.CommitArming : Prop :=
  (∀ (s : State) (page : Nat) (v : DWord), s.canCommit page = true → s.pageOpen page true true = true → page ≠ bndPg →
    s.beat < v.toNat →
    ∃ t : State, exec (.commitArm page v true true) s = .next t ∧ t.reg page HDR.COMMIT_BEAT = v.toNat ∧
      t.armed page = some { page := page, beat := v.toNat, secure := true, late := false } ∧
      (∀ p, p ≠ page → t.armed p = s.armed p) ∧ t.mem = s.mem ∧ t.beat = s.beat) ∧
  (∀ (s : State) (page : Nat), s.allows page false true = true → page ≠ bndPg →
    ∃ t : State, exec (.cancel page true) s = .next t ∧ t.armed page = none ∧ t.regs.live = s.regs.live ∧
      t.regs.shadow = s.regs.shadow ∧ (∀ p, p ≠ page → t.armed p = s.armed p) ∧ t.mem = s.mem) ∧
  (∀ (s : State) (page : Nat), s.allows page false true = true → page ≠ bndPg →
    ∃ t : State, exec (.discard page true) s = .next t ∧ t.armed page = none ∧ t.regs.live = s.regs.live ∧
      (∀ k, k ∈ (s.adopted page true).map (·.1) → SMap.find k t.regs.shadow = none) ∧
      (∀ p, p ≠ page → t.armed p = s.armed p) ∧ t.mem = s.mem)

/-! ## Registers (R9, R10, R434 to R440) -/

/-- A write of ERR_STATUS clears exactly the bits written 1; ERR_FIRST loses VALID once no bit is left. No other
register changes, nor the memory, the queues or the commands in flight. -/
def Obligations.ErrStatusClears : Prop :=
  ∀ (s : State) (page : Nat) (v : Word) (secure : Bool) (i : PageInfo) (r : RegRow),
    s.Reaches page HDR.ERR_STATUS secure i r →
    ∃ t : State, exec (.errStatusClear page v secure) s = .next t ∧
      (∀ n, (t.reg page HDR.ERR_STATUS).testBit n = ((s.reg page HDR.ERR_STATUS).testBit n && !(v.toNat.testBit n))) ∧
      t.reg page HDR.ERR_FIRST = (if t.reg page HDR.ERR_STATUS = 0 then s.reg page HDR.ERR_FIRST % 2 ^ 31
        else s.reg page HDR.ERR_FIRST) ∧
      (∀ p o w, o < 4096 → w < 2 ^ 20 → (p ≠ page ∨ (o ≠ HDR.ERR_STATUS ∧ o ≠ HDR.ERR_FIRST)) →
        t.reg p o w = s.reg p o w) ∧
      t.mem = s.mem ∧ t.queues = s.queues ∧ t.cmds = s.cmds

/-- CNT_CLEAR zeroes every counter of the page and sets COUNT_EN as written; a read of a 64-bit counter's lower word
latches the upper one, which the read of the upper word returns; UE_LOG_CLEAR empties a stack's log. -/
def Obligations.CounterRegistersComplete : Prop :=
  (∀ (s : State) (page off : Nat) (v : Word) (secure : Bool) (i : PageInfo) (r : RegRow),
    ctrlOff i.pt = some off → s.Reaches page off secure i r → v.toNat.testBit 0 = true →
    ∃ t : State, exec (.cntClear page v secure) s = .next t ∧ t.reg page off = v.toNat &&& 2 ∧
      (∀ c, c ∈ pageRows i.pt i.inst → c.cnt ≠ 0 → keptCounter i.pt c.off = false → c.off ≠ SCS.BANK_WIDE_PEAK →
        t.reg page c.off = 0) ∧ t.mem = s.mem ∧ t.scs = s.scs ∧ t.cmds = s.cmds) ∧
  (∀ (s : State) (page off : Nat) (secure : Bool) (i : PageInfo) (r : RegRow),
    regPlace (pageAddr page off) = some (page, off) → regPlace (pageAddr page (off + 4)) = some (page, off + 4) →
    doorbellAt s.variant page off = none → doorbellAt s.variant page (off + 4) = none → off % 4 = 0 →
    pageInfo s.variant page = some i → pageRow s.variant page off = some r → pageRow s.variant page (off + 4) = some r →
    r.off = off → latches i r = true → s.pageOpen page false secure = true → s.rowClosed page r secure = false →
    (secure = true ∨ s.hostHolds = false) →
    ∃ t u : State, exec (.counterLatchRead page off secure) s = .next t ∧
      exec (.counterLatchRead page (off + 4) secure) t = .next u ∧
      t.rsp.toNat = s.rowValue i page r % 2 ^ 32 ∧ u.rsp.toNat = s.rowValue i page r / 2 ^ 32 % 2 ^ 32 ∧
      u.regs.live = s.regs.live ∧ u.mem = s.mem ∧ u.cmds = s.cmds) ∧
  (∀ (s : State) (stack : Nat) (v : Word) (secure : Bool) (i : PageInfo) (r : RegRow),
    s.Reaches (hbmPg stack) HBM.HBM_CTRL secure i r → i.pt = .hbm → v.toNat.testBit 2 = true →
    ∃ t : State, exec (.ueLogClear stack v secure) s = .next t ∧ t.mem = s.mem ∧
      ∀ k, k < 16 → t.reg (hbmPg stack) (HBM.UE_LOG0 + 8 * k) = 0)

/-- The doorbell rule: a full 4-byte write to the doorbell of an enabled queue whose value the ring can hold sets
Q_TAIL; any other write is ignored, adds one to DB_IGNORED and sets DB_INVALID; a 64-bit write is two, the lower address
first; reads return Q_TAIL. (A write that waits for earlier posted writes of the host is performed after them;
RegisterWriteRules states that.) -/
def Obligations.DoorbellRule : Prop :=
  ∀ (s : State) (q : Nat) (v : DWord), qDie q < s.variant.computeDies → s.pageOpen (qmgPg (qDie q)) true false = true →
    s.hostHolds = false → s.qAvail q ≤ 2 ^ s.qLog2 q →
    (s.qEnabled q = true → (v.toNat % 2 ^ 32 + 2 ^ 32 - s.qTail q % 2 ^ 32) % 2 ^ 32 + s.qAvail q ≤ 2 ^ s.qLog2 q →
      ∃ t : State, exec (.doorbellWrite q v 4) s = .next t ∧ t.qTail q = v.toNat % 2 ^ 32 ∧
        (∀ p, p ≠ q → t.qTail p = s.qTail p) ∧ t.mem = s.mem ∧ t.queues = s.queues ∧ t.cmds = s.cmds) ∧
    ((s.qEnabled q = false ∨ 2 ^ s.qLog2 q < (v.toNat % 2 ^ 32 + 2 ^ 32 - s.qTail q % 2 ^ 32) % 2 ^ 32 + s.qAvail q) →
      exec (.doorbellWrite q v 4) s = .next (((s.ungate (s.qSquare q)).count (qmgPg (qDie q)) QMG.DB_IGNORED 1).err
        (qmgPg (qDie q)) QMG.E_DB_INVALID q)) ∧
    (q % 2 = 0 → ∀ t, exec (.doorbellWrite q (BitVec.ofNat 64 (v.toNat % 2 ^ 32)) 4) s = .next t →
      exec (.doorbellWrite q v 8) s = exec (.doorbellWrite (q + 1) (BitVec.ofNat 64 (v.toNat / 2 ^ 32)) 4) t) ∧
    (∀ width, width ≠ 4 → width ≠ 8 → exec (.doorbellWrite q v width) s =
      .next ((s.count (qmgPg (qDie q)) QMG.DB_IGNORED 1).err (qmgPg (qDie q)) QMG.E_DB_INVALID q)) ∧
    (∀ secure, s.pageOpen (qmgPg (qDie q)) false secure = true →
      s.regRead (0x3F0000000000 + qDie q * 0x4000000 + 0x30E0000 + 4 * (q % 32768)) 4 secure = (s.qTail q, s) ∧
      (q % 2 = 0 → s.regRead (0x3F0000000000 + qDie q * 0x4000000 + 0x30E0000 + 4 * (q % 32768)) 8 secure =
        (s.qTail q + s.qTail (q + 1) * 2 ^ 32, s)))

/-- The registers of a queue, a completion queue and the ratio log: Q_HEAD is written only while the queue is disabled
and its ring would hold what lies between, RESUME ends a halt, a ring's tail moves only over what the ring holds. -/
def Obligations.RingRegistersComplete : Prop :=
  (∀ (s : State) (die q : Nat) (v : Word) (secure : Bool) (r : RegRow),
    s.Reaches (qmgPg die) QMG.Q_HEAD secure ⟨.qmg, die, 0⟩ r → q = die * 32768 + s.reg (qmgPg die) QMG.QSEL →
    (s.qEnabled q = false → (s.qTail q + 2 ^ 32 - v.toNat) % 2 ^ 32 ≤ 2 ^ s.qLog2 q →
      exec (.qHeadWrite die v secure) s =
        .next ((s.setQreg q QMG.Q_HEAD v.toNat).setQst q { s.qst q with fetched := [] })) ∧
    ((s.qEnabled q = true ∨ 2 ^ s.qLog2 q < (s.qTail q + 2 ^ 32 - v.toNat) % 2 ^ 32) →
      exec (.qHeadWrite die v secure) s = .next (s.err (qmgPg (qDie q)) QMG.E_DB_INVALID q))) ∧
  (∀ (s : State) (die q : Nat) (v : Word) (secure : Bool) (r : RegRow),
    s.Reaches (qmgPg die) QMG.Q_CMD secure ⟨.qmg, die, 0⟩ r → q = die * 32768 + s.reg (qmgPg die) QMG.QSEL →
    exec (.resume die v secure) s =
      .next (if v.toNat.testBit 0
        then (s.setQst q { s.qst q with halted := false, fetched := [] }).ungateReady else s)) ∧
  (∀ (s : State) (die cq : Nat) (v : Word) (secure : Bool) (r : RegRow),
    s.Reaches (qmgPg die) QMG.CQ_TAIL secure ⟨.qmg, die, 0⟩ r → cq = s.reg (qmgPg die) QMG.CQSEL →
    exec (.cqTailWrite die v secure) s =
      .next (if (s.cqreg die cq QMG.CQ_HEAD + 2 ^ 32 - v.toNat) % 2 ^ 32 ≤ 2 ^ bits (s.cqreg die cq QMG.CQ_CONFIG) 4 0
        then s.setCqreg die cq QMG.CQ_TAIL v.toNat else s)) ∧
  (∀ (s : State) (msq : Nat) (v : Word) (secure : Bool) (r : RegRow),
    s.Reaches (vxuPg msq) VXU.RLOG_TAIL secure ⟨.vxu, msq / 64, msq % 64⟩ r →
    exec (.rlogTailWrite msq v secure) s = .next (if (s.reg (vxuPg msq) VXU.RLOG_HEAD + 2 ^ 32 - v.toNat) % 2 ^ 32 ≤
      2 ^ bits (s.reg (vxuPg msq) VXU.RLOG_CONFIG) 4 0
        then (s.ungate msq).setReg (vxuPg msq) VXU.RLOG_TAIL v.toNat else s.ungate msq))

/-- A write of a select register shows another window of its page: the register holds the bits written that are not
reserved, the pending shadows of the page's window are dropped, every other shadow and every live register stays. -/
def Obligations.SelectRegistersComplete : Prop :=
  (∀ (s : State) (i : PageInfo) (page off v : Nat), v < 2 ^ 64 →
    (s.selectWrite i page off v).reg page off = v ∧
    (∀ k, keyPage k = page → (∃ c, c ∈ pageRows i.pt i.inst ∧ c.sel = off ∧ c.off = keyOff k) →
      SMap.find k (s.selectWrite i page off v).regs.shadow = none) ∧
    (∀ k, (keyPage k ≠ page ∨ ∀ c, c ∈ pageRows i.pt i.inst → c.sel = off → c.off ≠ keyOff k) →
      SMap.find k (s.selectWrite i page off v).regs.shadow = SMap.find k s.regs.shadow) ∧
    (∀ k, k ≠ regKey page 0 off → SMap.find k (s.selectWrite i page off v).regs.live = SMap.find k s.regs.live) ∧
    (s.selectWrite i page off v).mem = s.mem) ∧
  (∀ (s : State) (die : Nat) (v : Word) (secure : Bool) (r : RegRow),
    (s.Reaches (qmgPg die) QMG.QSEL secure ⟨.qmg, die, 0⟩ r → exec (.qselWrite die v secure) s =
      .next (s.selectWrite ⟨.qmg, die, 0⟩ (qmgPg die) QMG.QSEL (v.toNat &&& r.mask))) ∧
    (s.Reaches (qmgPg die) QMG.CQSEL secure ⟨.qmg, die, 0⟩ r → exec (.cqselWrite die v secure) s =
      .next (s.selectWrite ⟨.qmg, die, 0⟩ (qmgPg die) QMG.CQSEL (v.toNat &&& r.mask))) ∧
    (s.Reaches plcPg PLC.JOB_SEL secure ⟨.plc, 6, 0⟩ r → exec (.plcJobSelWrite v secure) s =
      .next (s.selectWrite ⟨.plc, 6, 0⟩ plcPg PLC.JOB_SEL (v.toNat &&& r.mask))) ∧
    (s.Reaches bndPg BND.JOB_SEL secure ⟨.bnd, 6, 0⟩ r → exec (.bndJobSelWrite v secure) s =
      .next (s.selectWrite ⟨.bnd, 6, 0⟩ bndPg BND.JOB_SEL (v.toNat &&& r.mask))) ∧
    (s.Reaches (redPg die) RED.CTX_SEL secure ⟨.red, 6 + die, 0⟩ r → exec (.ctxSelWrite die v secure) s =
      .next (s.selectWrite ⟨.red, 6 + die, 0⟩ (redPg die) RED.CTX_SEL (v.toNat &&& r.mask))) ∧
    (s.Reaches farPg FAR.DEC_SEL secure ⟨.far, 6, 0⟩ r → exec (.decSelWrite v secure) s =
      .next (s.selectWrite ⟨.far, 6, 0⟩ farPg FAR.DEC_SEL (v.toNat &&& r.mask))))

/-- A 32-bit write of a register without an effect of its own: a RW register takes the bits that are not reserved, a CM
register's shadow takes every bit, RO ignores; an unmapped page drops the write, and a write that the world forbids is
dropped and logs a violation. A register write, a doorbell or a counter's read of the host that earlier posted writes
go before is held behind them (which rows are the host's is the model's reading, log entry 92). -/
def Obligations.RegisterWriteRules : Prop :=
  (∀ s : State, s.hostHolds = true →
    (∀ (q width : Nat) (v : DWord), qDie q < s.variant.computeDies →
      exec (.doorbellWrite q v width) s = .next (s.hostHold (regAcc s (doorbellAddr q) true (leBytes width v.toNat)))) ∧
    (∀ (addr width : Nat) (v : DWord), (regPlace addr).isSome = true →
      exec (.registerWrite addr v width false) s = .next (s.hostHold (regAcc s addr true (leBytes width v.toNat)))) ∧
    (∀ page off : Nat, exec (.counterLatchRead page off false) s =
      .next (s.hostHold (regAcc s (pageAddr page off) false (leBytes 4 0))))) ∧
  ∀ (s : State) (addr page off : Nat) (v : DWord) (secure : Bool), regPlace addr = some (page, off) →
    doorbellAt s.variant page off = none → addr % 4 = 0 → 0x100 ≤ off → (secure = true ∨ s.hostHolds = false) →
    (pageInfo s.variant page = none → exec (.registerWrite addr v 4 secure) s = .next s) ∧
    (∀ (i : PageInfo) (r : RegRow), pageInfo s.variant page = some i → pageRow s.variant page off = some r →
      s.pageOpen page true secure = true → s.rowClosed page r secure = true →
      exec (.registerWrite addr v 4 secure) s = .next (s.violation true 0 (pageAddr page off))) ∧
    (∀ (i : PageInfo) (r : RegRow), s.Reaches page off secure i r → r.wide = false → r.off = off →
      (s.touchPage i).blockWrite i page off (v.toNat % 2 ^ 32) secure = none →
      ∃ t : State, exec (.registerWrite addr v 4 secure) s = .next t ∧ t.mem = s.mem ∧ t.cmds = s.cmds ∧
        (r.acc = .rw → t.reg page off (s.winOf page r) = v.toNat % 2 ^ 32 &&& r.mask ∧ t.regs.shadow = s.regs.shadow) ∧
        (r.acc = .cm → t.shadow page off (s.winOf page r) = v.toNat % 2 ^ 32 ∧ t.regs.live = s.regs.live) ∧
        (r.acc = .ro → t.regs = s.regs))

/-- The Scoresheet's window: slot A lies at offset 0x0040_0000 + 16 × A of the square's window, little-endian, a read
returns the slot as stored, and a write is dropped and sets RAW_WRITE. -/
def Obligations.ScsWindowRule : Prop :=
  ∀ (s : State) (r : Req) (msq a : Nat), msq < 64 * s.variant.computeDies → a < 65536 →
    (s.memRead r (0x3E0000000000 + msq * 0x800000 + 0x400000 + 16 * a) 16).data =
      leBytes 16 (SMap.get 0 a (s.sheet msq).slots) ∧
    (s.memRead r (0x3E0000000000 + msq * 0x800000 + 0x400000 + 16 * a) 16).st = s ∧
    (∀ o, o < 16 → exec (.scsWindowWrite (0x3E0000000000 + msq * 0x800000 + 0x400000 + 16 * a + o)) s =
      .next (s.err (scsPg msq) SCS.E_RAW_WRITE 0)) ∧
    (∀ b : List Byte, b.length = 16 →
      (s.memWrite r (0x3E0000000000 + msq * 0x800000 + 0x400000 + 16 * a) b).st = s.err (scsPg msq) SCS.E_RAW_WRITE r.q)

/-! ## Declarations of loss, the twin, and units of a module (R312, R373 to R381) -/

/-- The commands of LOST_CMD: declaring a loss, with a substitute or without, and clearing it; a substitute that is
the lost module or already lost itself is refused. A unit that fails or returns: a stack that loses its contents is
FAILED and STALE with its die's squares; a unit that returns is STALE with its epoch advanced; RESYNC_CMD makes a
STALE unit not STALE, and refuses an absent unit or one it may not resynchronise with RESYNC_REFUSED. -/
def Obligations.LossAndUnitsComplete : Prop :=
  (∀ (s : State) (m : Nat) (secure : Bool), s.allows fabPg true secure = true →
    exec (.lostDeclare m secure) s = .next (s.declareLost (m % 2 ^ 15) none) ∧
    (s.reg fabPg FAB.LOST_SUB % 2 ^ 15 ≠ m % 2 ^ 15 → s.isLost (s.reg fabPg FAB.LOST_SUB % 2 ^ 15) = false →
      exec (.lostDeclareSub m secure) s =
        .next (s.declareLost (m % 2 ^ 15) (some (s.reg fabPg FAB.LOST_SUB % 2 ^ 15)))) ∧
    ((s.reg fabPg FAB.LOST_SUB % 2 ^ 15 = m % 2 ^ 15 ∨ s.isLost (s.reg fabPg FAB.LOST_SUB % 2 ^ 15) = true) →
      exec (.lostDeclareSub m secure) s = .next (s.err fabPg PLY.E_LOST_REFUSED (m % 2 ^ 15))) ∧
    exec (.lostClear m secure) s = .next ((List.range 24).foldl State.pump
      (({ s with fab := { s.fab with lost := SMap.del (m % 2 ^ 15) s.fab.lost } } : State).setReg fabPg FAB.LOST_COUNT
        (SMap.del (m % 2 ^ 15) s.fab.lost).length))) ∧
  ((∀ (s : State) (stack : Nat), stack < s.variant.stacks →
    exec (.stackContentsLost stack) s = .next ((s.setStack stack .failed).unitStale (384 + stack) 4)) ∧
  (∀ (s : State) (unit : Nat),
    (unit < 384 → s.squarePresent unit = true → exec (.returnToService false unit) s = .next (s.staleOne unit 3)) ∧
    (unit < s.variant.stacks → exec (.returnToService true unit) s =
      .next ((s.setStack unit .ready).unitStale (384 + unit) 3))) ∧
  (∀ (s : State) (v : Word) (secure : Bool) (u : Nat), s.allows bndPg false secure = true →
    u = resyncUnit (v.toNat / 2 ^ 31) (v.toNat % 512) →
    (v.toNat / 512 % 2 ^ 22 ≠ 0 ∨ s.resyncBad u = true → exec (.resyncCmd v secure) s =
      .next (s.err bndPg BND.E_RESYNC_REFUSED u)) ∧
    (v.toNat / 512 % 2 ^ 22 = 0 → (v.toNat / 2 ^ 31 = 0 → v.toNat % 512 < 384) → s.resyncBad u = false →
      ∃ t : State, exec (.resyncCmd v secure) s = .next t ∧ t.isStale u = false)))

/-- The heartbeat: one goes out on each twin port that carries packets every HB_PERIOD beats, with the TWIN state and in
ASSUMED the position carried; one received ends the wait of stage 8, in CARRIED or PAIRED, and pairs a NO_TWIN module
whose TWIN_SENSE has risen; HB_MISS missed in a row take a PAIRED module to TWIN_SILENT, and so do the end of the wait
and a fall of TWIN_SENSE, which acts among the timers of the next BEAT (log entry 107). TWIN_SENSE is ignored in RESET,
and changes nothing in ASSUMED, REFILLING and CARRIED. That a heartbeat ends TWIN_SILENT, or CARRIED where its sender is
PAIRED, is the model's choice (log entry 61). -/
def Obligations.HeartbeatComplete : Prop :=
  (∀ s : State, (s.twinSt.sentHb = none ∨ ∃ b, s.twinSt.sentHb = some b ∧ b + s.hbPeriod ≤ s.beat) →
    exec .heartbeatSend s = .next (((List.range 2).filter fun p => (s.port p).carries).foldl
      (fun t p => t.emit (.heartbeat p s.twin (if s.twin = 3 then s.twinId else 0)))
      (s.setTw { s.twinSt with sentHb := some s.beat }))) ∧
  (∀ (s : State) (b : Nat), s.twinSt.sentHb = some b → s.beat < b + s.hbPeriod → exec .heartbeatSend s = .next s) ∧
  (∀ (s u : State) (port state assumed : Nat), port < 2 →
    u = s.setTw { s.twinSt with lastHb := s.beat, missed := 0, waitTo := none } →
    (s.twinSt.waitTo ≠ none → exec (.heartbeatRx port state assumed) s =
      .next (u.setTwin (if state = 3 ∧ assumed = s.modId then 5 else 0))) ∧
    (s.twinSt.waitTo = none → s.twin = 1 →
      exec (.heartbeatRx port state assumed) s = .next (if s.twinSt.sense then u.setTwin 0 else u)) ∧
    (s.twinSt.waitTo = none → (s.twin = 0 ∨ s.twin = 3 ∨ s.twin = 4) →
      exec (.heartbeatRx port state assumed) s = .next u) ∧
    (s.twinSt.waitTo = none → s.twin = 2 → s.isLost s.twinId = false → exec (.heartbeatRx port state assumed) s =
      .next (u.setTwin (if state = 3 ∧ assumed = s.modId then 5 else 0))) ∧
    (s.twinSt.waitTo = none → s.twin = 5 →
      exec (.heartbeatRx port state assumed) s = .next (if state = 0 then u.setTwin 0 else u))) ∧
  (∀ (s : State) (n : Nat), s.ready = true → s.twinSt.waitTo = none → s.twin = 0 → 0 < s.hbPeriod →
    n = (s.beat - s.twinSt.lastHb) / s.hbPeriod → s.twinSt.missed < n → s.hbMiss ≤ n →
    exec .heartbeatTimeout s =
      .next (((s.setTw { s.twinSt with missed := n }).count bndPg BND.HB_MISSED (n - s.twinSt.missed)).twinSilent)) ∧
  (∀ (s : State) (n : Nat), s.ready = true → s.twinSt.waitTo = none → 0 < s.hbPeriod →
    n = (s.beat - s.twinSt.lastHb) / s.hbPeriod →
    (s.twinSt.missed < n → (s.twin ≠ 0 ∨ n < s.hbMiss) → exec .heartbeatTimeout s =
      .next ((s.setTw { s.twinSt with missed := n }).count bndPg BND.HB_MISSED (n - s.twinSt.missed))) ∧
    (n ≤ s.twinSt.missed → exec .heartbeatTimeout s = .next s)) ∧
  (∀ (s : State) (b : Nat), s.twinSt.waitTo = some b → b ≤ s.beat →
    exec .twinWaitTimeout s = .next ((s.setTw { s.twinSt with waitTo := none }).twinSilent)) ∧
  (∀ s : State, (s.twinSt.waitTo = none ∨ ∃ b, s.twinSt.waitTo = some b ∧ s.beat < b) →
    exec .twinWaitTimeout s = .next s) ∧
  (∀ (s : State) (level : Bool),
    (s.mgtState = 0 → exec (.twinSenseChange level) s = .next s) ∧
    (s.mgtState ≠ 0 → exec (.twinSenseChange level) s =
      .next (s.setTw { s.twinSt with sense := level, fell := !level && s.twinSt.sense }))) ∧
  (∀ s : State,
    (s.twinSt.fell = true → s.twin = 0 → s.ready = true →
      s.twinFall = (s.setTw { s.twinSt with fell := false }).twinSilent) ∧
    (s.twinSt.fell = true → s.twin ≠ 0 → s.twinFall = s.setTw { s.twinSt with fell := false }) ∧
    (s.twinSt.fell = false → s.twinFall = s))

/-- ASSUME acts while the twin is declared lost with this module as its substitute, REFILL in ASSUMED, HANDBACK in
REFILLING once its beat has come: the module is then ASSUMED, REFILLING, PAIRED; FOLD_COMPLETE ends a fold and takes the
writes that waited. Each does nothing at another time. -/
def Obligations.TwinCommandsComplete : Prop :=
  (∀ (s : State) (secure : Bool), s.allows bndPg true secure = true →
    (SMap.find s.twinId s.fab.lost = some (some s.modId) → s.carries = false →
      ∃ t : State, exec (.assume secure) s = .next t ∧ t.twinSt.image = [] ∧ t.twinSt.valid = [] ∧ t.twinSt.gens = []) ∧
    ((SMap.find s.twinId s.fab.lost ≠ some (some s.modId) ∨ s.carries = true) → exec (.assume secure) s = .next s)) ∧
  (∀ (s : State) (secure : Bool), s.allows bndPg true secure = true →
    (s.twin = 3 → ∀ u : State, u = s.carriedRows.foldl
        (fun t k => (t.putOut { key := k, dest := t.twinId, affinity := false }).migPrepare k)
        ((s.setTw { s.twinSt with refill := true, assumed := s.carriedRows }).setTwin 4) →
      exec (.refill secure) s =
        .next (u.tellMoved.twinJobs.foldl (State.refillImage · s.carriedRows) u.tellMoved)) ∧
    (s.twin ≠ 3 → exec (.refill secure) s = .next s)) ∧
  (∀ s : State, s.twin = 4 → s.reg bndPg BND.HANDBACK_BEAT ≠ 0 → s.reg bndPg BND.HANDBACK_BEAT ≤ s.beat →
    ∃ t u : State, exec .handback s = .next t ∧ t = u.setTwin 0 ∧ t.twinSt.image = s.twinSt.assumed.filterMap s.imageOf ∧
      t.twinSt.moved = s.carriedMoved ∧ t.twinSt.assumed = [] ∧ t.twinSt.refill = false) ∧
  (∀ (s : State) (job : Nat), s.twinSt.folding job = true →
    exec (.foldComplete job) s = .next ((((s.foldNow job).twinSt.held.filter fun p => match p.body with
      | .shadowWrite _ j _ _ _ => j == job
      | _ => false).foldl State.onShadowWrite ((s.foldNow job).setTw { (s.foldNow job).twinSt with
        held := (s.foldNow job).twinSt.held.filter fun p => !(match p.body with
          | .shadowWrite _ j _ _ _ => j == job
          | _ => false) }))))

/-! ## Firmware, attestation, regions (R416 to R432) -/

/-- The update chain: START takes an image from FWU_SRC or ends at once with VERIFY_FAIL; its end begins verification;
an image that verifies is forwarded and written unless refused; a slot written that verifies is STAGED as the next;
ENROLL, LOCK, SERVE_RECOVERY and RAISE_SVN act while the firmware runs. -/
def Obligations.FirmwareCommandsComplete : Prop :=
  (∀ (s : State) (secure : Bool), s.allows fwuPg false secure = true → s.firmwareRuns = true →
    (s.fwuBusy = true → exec (.fwuStart secure) s = .next ((s.openRead (s.reg fwuPg FWU.FWU_SRC) 12).1.setBusy.reportOutcome
      (s.openRead (s.reg fwuPg FWU.FWU_SRC) 12).1.modId 8 (imgSvn (s.openRead (s.reg fwuPg FWU.FWU_SRC) 12).2))) ∧
    (s.fwuBusy = false → ∀ u x, u = s.setReg fwuPg FWU.REPORT_COUNT 0 →
      x = { u.boot.fwu with image := [], whole := true, origin := s.modId, src := s.modId } →
      ((s.reg fwuPg FWU.FWU_LEN < 36864 ∨ 67108864 < s.reg fwuPg FWU.FWU_LEN) →
        exec (.fwuStart secure) s = .next ((u.setFwu x).fwuEnd 6 1)) ∧
      (36864 ≤ s.reg fwuPg FWU.FWU_LEN → s.reg fwuPg FWU.FWU_LEN ≤ 67108864 →
        u.inOpenRegion (s.reg fwuPg FWU.FWU_SRC) (s.reg fwuPg FWU.FWU_LEN) = true →
        exec (.fwuStart secure) s = .next
          (((u.openRead (s.reg fwuPg FWU.FWU_SRC) (s.reg fwuPg FWU.FWU_LEN)).1.setFwu
            { x with image := (u.openRead (s.reg fwuPg FWU.FWU_SRC) (s.reg fwuPg FWU.FWU_LEN)).2 }).setFwuState 1))) ∧
    (s.keep.ownerDigest ≠ none → exec (.enroll secure) s = .next (s.err fwuPg FWU.E_OWNER_SET s.modId)) ∧
    (s.keep.ownerDigest = none → ∃ t : State, exec (.enroll secure) s = .next t ∧
      t.keep.ownerDigest = some (digestBytes (Config.shake256 (s.openRead (s.reg fwuPg FWU.FWU_SRC) 64).2))) ∧
    (∀ n target, s.boot.running = some n → exec (.serveRecovery target secure) s =
      .next (s.sendImage target s.modId ((s.slot n).take (hdrBytes + imgBodyLen (s.slot n)))))) ∧
  (∀ (s : State) (secure : Bool) (n : Nat), s.allows fwuPg true secure = true → s.firmwareRuns = true →
    s.boot.running = some n →
    ∃ t : State, exec (.raiseSvn secure) s = .next t ∧ t.keep.svn = max s.keep.svn (min 64 (imgSvn (s.slot n)))) ∧
  (∀ (s u v : State) (secure : Bool) (b : List Byte), s.allows fwuPg false secure = true → s.firmwareRuns = true →
    (u, b) = s.openRead (s.reg fwuPg FWU.FWU_SRC) (96 + 29792) →
    v = (if u.lockGood b then (u.bootWrite fun r => { r with lock := imgNat b 0 4 == 1 }).showSlots
      else u.err fwuPg FWU.E_LOCK_AUTH u.modId) →
    exec (.lock secure) s = .next ((v.draw.2.setReg fwuPg FWU.FWU_NONCE (v.draw.1 % 2 ^ 64)).fwuRecheck)) ∧
  (∀ s : State, s.fwuState = 1 → exec .fwuImageComplete s = .next ((s.count fwuPg FWU.IMAGES_RX 1).setFwuState 2)) ∧
  (∀ s : State, s.fwuState = 2 →
    (imageStatus s.variant s.keep.svn s.boot.fwu.image ≠ 0 → exec .fwuVerifyDone s =
      .next (s.fwuEnd 6 (imageStatus s.variant s.keep.svn s.boot.fwu.image))) ∧
    (imageStatus s.variant s.keep.svn s.boot.fwu.image = 0 →
      s.boot.fwu.staged = some (imgDigest s.boot.fwu.image, imgSvn s.boot.fwu.image) →
      exec .fwuVerifyDone s = .next (s.fwuEnd 4 9)) ∧
    (imageStatus s.variant s.keep.svn s.boot.fwu.image = 0 →
      s.boot.fwu.staged ≠ some (imgDigest s.boot.fwu.image, imgSvn s.boot.fwu.image) → ∀ u : State, u = s.forwardImage →
      (u.writeRefused ≠ 0 → exec .fwuVerifyDone s = .next (u.fwuEnd 5 u.writeRefused)) ∧
      (u.writeRefused = 0 → exec .fwuVerifyDone s = .next
        ((((u.setSlot u.idleSlot (eraseHeader (u.slot u.idleSlot))).measureSlot u.idleSlot).showSlots.setFwu
          { u.boot.fwu with staged := none, stop := 0 }).setFwuState 3)))) ∧
  (∀ (s : State) (ok : Bool), s.fwuState = 3 → s.writeStopped ≠ 0 →
    exec (.fwuWriteDone ok) s = .next (s.fwuEnd 5 s.writeStopped)) ∧
  (∀ s : State, s.fwuState = 3 → s.writeStopped = 0 →
    exec (.fwuWriteDone false) s = .next (s.fwuEnd 6 7) ∧
    ∀ v : State, v = s.setSlot s.idleSlot s.boot.fwu.image →
      (v.slotStatus s.idleSlot = 0 → ∀ u : State, u = (v.bootWrite fun r => { r with next := s.idleSlot }).measureSlot
          s.idleSlot →
        exec (.fwuWriteDone true) s = .next ((u.showSlots.setFwu { u.boot.fwu with
          staged := some (imgDigest s.boot.fwu.image, imgSvn s.boot.fwu.image) }).fwuEnd 4 0)) ∧
      (v.slotStatus s.idleSlot ≠ 0 → exec (.fwuWriteDone true) s =
        .next ((v.measureSlot s.idleSlot).showSlots.fwuEnd 6 7))) ∧
  (∀ (s : State) (level : Bool), s.mgtState ≠ 0 → s.fwuState ≠ 3 →
    exec (.holdupChange level) s = .next (s.setBoot { s.boot with holdupN := level }))

/-- ATT_CMD starts a report or a copy of the chain at ATT_ADDR while none runs, the address is a multiple of 64 and
the range lies in a region open to the non-secure world; any other is refused. ATT_DONE writes it, reports its length
and is idle again. A mailbox request of REGION_SET, REGION_CLEAR or WORLD_SET leaves its status in MBOX_STATUS, at once
or, where it waits for its commit's beat, then (log entry 109), and no other begins meanwhile;
WORLD_SET of a present page that did not fail sets its NS bit as asked. -/
def Obligations.AttestationAndMailboxComplete : Prop :=
  ((∀ (s : State) (secure : Bool), s.allows secPg false secure = true →
    (s.boot.att = 0 → s.reg secPg SEC.ATT_ADDR % 64 = 0 →
      (s.inOpenRegion (s.reg secPg SEC.ATT_ADDR) (attBytes 1) = true → exec (.attReport secure) s = .next
        ((s.setBoot { s.boot with att := 1, attAddr := s.reg secPg SEC.ATT_ADDR, attBody := s.attBody }).setReg secPg
          SEC.ATT_STATUS (2 ^ 28))) ∧
      (s.inOpenRegion (s.reg secPg SEC.ATT_ADDR) (attBytes 2) = true → exec (.attChain secure) s = .next
        ((s.setBoot { s.boot with att := 2, attAddr := s.reg secPg SEC.ATT_ADDR, attBody := [] }).setReg secPg
          SEC.ATT_STATUS (2 ^ 28)))) ∧
    ((s.boot.att ≠ 0 ∨ s.reg secPg SEC.ATT_ADDR % 64 ≠ 0) →
      exec (.attReport secure) s = .next ((s.setReg secPg SEC.ATT_STATUS (3 * 2 ^ 28)).err secPg SEC.E_ATT_REFUSED
        (addrInfo (s.reg secPg SEC.ATT_ADDR))) ∧
      exec (.attChain secure) s = .next ((s.setReg secPg SEC.ATT_STATUS (3 * 2 ^ 28)).err secPg SEC.E_ATT_REFUSED
        (addrInfo (s.reg secPg SEC.ATT_ADDR))))) ∧
  (∀ s : State, s.boot.att ≠ 0 →
    ∃ t : State, exec .attDone s = .next t ∧ t.boot.att = 0 ∧ t.boot.attBody = [] ∧
      t.mem = (s.memWrite Req.device s.boot.attAddr (if s.boot.att = 1
        then s.boot.attBody ++ (List.range 49856).map (Config.slhSign s.boot.attBody)
        else (List.range (attBytes s.boot.att)).map Config.certChain)).st.mem)) ∧
  (∀ (s : State) (secure : Bool), s.allows mgtPg false secure = true → s.firmwareRuns = true → s.boot.mboxRun = false →
    (s.mbox 0 % 256 = 1 → exec (.regionSet secure) s = .next (if s.regionSet.1.boot.mboxRun then s.regionSet.1
      else s.regionSet.1.setReg mgtPg MGT.MBOX_STATUS s.regionSet.2)) ∧
    (s.mbox 0 % 256 = 2 → exec (.regionClear secure) s = .next (if s.regionClear.1.boot.mboxRun then s.regionClear.1
      else s.regionClear.1.setReg mgtPg MGT.MBOX_STATUS s.regionClear.2)) ∧
    (s.mbox 0 % 256 = 3 → ∀ page, page = s.mbox 1 % 2 ^ 29 / 4096 → pageInfo s.variant page ≠ none →
      s.boot.failed.contains page = false →
      exec (.worldSet secure) s = .next ((s.setWorld page (s.mbox 2)).setReg mgtPg MGT.MBOX_STATUS 0))) ∧
  (∀ (s : State) (secure : Bool), s.allows mgtPg false secure = true → s.boot.mboxRun = true →
    exec (.regionSet secure) s = .next s ∧ exec (.regionClear secure) s = .next s ∧ exec (.worldSet secure) s = .next s)

/-! ## Reset, supply, start-up (R412 to R425, R449, R458 to R462) -/

/-- What takes the module into RESET: MOD_RESET_N low, PWR_GOOD low, the trips of the input, MGT_RESET with OP 1; each
leaves its cause where it has one, and in RESET no command of a queue is in flight. Fuses and flash keep their
contents. A die reset drops the die's commands and queues and keeps every other die's; a die that is not a present
compute die resets nothing. What lets the module start: the rise of MOD_RESET_N resets every TAP, the input back at or
above 50.0 V is in range; stage 0 begins where the rest holds. A warning of the input sets V_IN, and is reported where
none was set. -/
def Obligations.ResetsAndSupplyComplete : Prop :=
  (((∀ s : State, ∃ t : State, exec .modResetAssert s = .next t ∧ t.cmds = [] ∧ t.boot.resetN = false ∧
    t.keep = { s.keep with cause := s.keep.cause ||| 2 ^ 5 }) ∧
  (∀ s : State, ∃ t : State, exec .pwrGoodFall s = .next t ∧ t.cmds = [] ∧ t.boot.pwrGood = false ∧
    t.keep = { s.keep with cause := s.keep.cause ||| 2 ^ 4 }) ∧
  (∀ (s : State) (mV : Nat), mV < 46000 → ∃ t : State, exec (.underVoltageTrip mV) s = .next t ∧ t.cmds = [] ∧
    t.boot.switch_ = false ∧ t.keep = { s.keep with cause := 1 }) ∧
  (∀ (s : State) (mV : Nat), 62000 < mV → mV ≤ 65000 → ∃ t : State, exec (.overVoltageTrip mV) s = .next t ∧ t.cmds = [] ∧
    t.boot.switch_ = false ∧ t.boot.ovLatch = true ∧ t.keep = { s.keep with cause := 2 }) ∧
  (∀ s : State, ∃ t : State, exec .reversePolarity s = .next t ∧ t.cmds = [] ∧ t.boot.switch_ = false ∧
    t.keep = { s.keep with cause := 0 }) ∧
  (∀ (s : State) (secure : Bool), s.allows mgtPg true secure = true →
    ∃ t : State, exec (.mgtModuleReset secure) s = .next t ∧ t.cmds = [] ∧ t.keep = s.keep)) ∧
  (∀ (s : State) (die : Nat) (secure : Bool), s.allows mgtPg true secure = true →
    (die < s.variant.computeDies → ∃ t : State, exec (.mgtDieReset die secure) s = .next t ∧
      (∀ c, c ∈ t.cmds → c.msq / 64 ≠ die) ∧ (∀ m, m / 64 = die → t.isStale m = true)) ∧
    (s.variant.computeDies ≤ die → exec (.mgtDieReset die secure) s = .next s))) ∧
  ((∀ s : State, s.boot.resetN = false →
    exec .modResetRelease s = .next ((s.setBoot { s.boot with resetN := true, tap := [] }).tryStart)) ∧
  (∀ (s : State) (mV : Nat), 50000 ≤ mV → (s.boot.ovLatch = true → mV ≤ 60000) →
    exec (.startThreshold mV) s = .next ((s.setBoot { s.boot with inputOk := true, switch_ := true }).tryStart)) ∧
  (∀ s : State, s.mgtState = 0 → s.mayStart = true →
    s.tryStart = (s.setBoot { s.boot with ovLatch := false, ovLow := false }).setMgt 1 0 0) ∧
  (∀ (s : State) (mV : Nat), 46000 ≤ mV → mV < 50000 → s.mgtState ≠ 0 →
    ∃ t : State, exec (.uvWarn mV) s = .next t ∧ t.reg pwrPg PWR.V_IN = mV % 2 ^ 16 ∧ t.mem = s.mem ∧ t.cmds = s.cmds) ∧
  (∀ (s : State) (mV : Nat), 60000 < mV → mV ≤ 62000 → s.mgtState ≠ 0 →
    ∃ t : State, exec (.ovWarn mV) s = .next t ∧ t.reg pwrPg PWR.V_IN = mV % 2 ^ 16 ∧ t.mem = s.mem ∧ t.cmds = s.cmds))

/-- Start-up: a stage that finishes within its budget hands over to the next, one that takes longer or fails on its own
ends in BOOT_FAILED, stage 0 in ROM_RECOVERY; the module record is taken until one is accepted; recovery announces
itself and takes an image whose header and body verify. -/
def Obligations.StartUpComplete : Prop :=
  (∀ (s : State) (i : StageIn), s.budgetRuns = true → i.ms ≤ stageBudget s.mgtStage →
    (s.mgtStage = 0 → exec (.bootStageDone i) s = .next (s.stageMs i.ms).stageRom) ∧
    (s.mgtStage = 1 → exec (.bootStageDone i) s = .next (s.stageMs i.ms).stageRails) ∧
    (s.mgtStage = 2 → exec (.bootStageDone i) s = .next ((s.stageMs i.ms).stageFirmware i.calValid)) ∧
    (s.mgtStage = 3 → exec (.bootStageDone i) s = .next ((s.stageMs i.ms).stageHbm i)) ∧
    (s.mgtStage = 4 → exec (.bootStageDone i) s = .next (s.stageMs i.ms).stageUcie) ∧
    (s.mgtStage = 5 → (∀ p, p < 24 → (s.port p).st ≠ .training) →
      exec (.bootStageDone i) s = .next ((s.stageMs i.ms).setMgt 1 6 0)) ∧
    (s.mgtStage = 6 → s.boot.submitted = true → exec (.bootStageDone i) s = .next ((s.stageMs i.ms).stageRecord i)) ∧
    (s.mgtStage = 7 → (s.tempoSt = 2 ∨ s.tempoSt = 4) →
      exec (.bootStageDone i) s = .next ((s.stageMs i.ms).setMgt 1 8 0)) ∧
    (s.mgtStage = 8 → (s.tempoSt = 2 ∨ s.tempoSt = 4) →
      exec (.bootStageDone i) s = .next ((s.stageMs i.ms).stageOpen i))) ∧
  (∀ (s : State) (ms : Nat), s.budgetRuns = true → stageBudget s.mgtStage < ms →
    exec (.stageBudgetExpire ms) s = .next ((s.stageMs ms).stageFail 1)) ∧
  (∀ (s : State) (reason : Nat), s.mgtState = 1 → s.mgtStage ≠ 5 →
    exec (.stageFailed reason) s = .next ((s.stageFail 2).emit (.inform "stage failed" reason))) ∧
  (∀ (s : State) (rec : List Byte), s.mgtState ≠ 0 → s.boot.accepted = false →
    (s.mgtState ≠ 1 ∨ s.mgtStage ≠ 5) →
    exec (.recordSubmit rec) s = .next (s.setBoot { s.boot with record := rec, submitted := true, refused := false })) ∧
  (∀ s : State, s.mgtState = 4 → (s.port 0).carries = true → (s.port 1).carries = false →
    exec .recoveryAnnounce s = .next (s.emit (.packet 0 { hdr := { dstMod := s.twinId, srcMod := s.modId, vc := 7 },
                                                          body := .announce }))) ∧
  (∀ (s u : State) (host b : List Byte), s.mgtState = 4 → s.boot.holdupN = true →
    b = (if s.boot.fwu.image.isEmpty then host else s.boot.fwu.image) → u = s.setBoot { s.boot with fwu := {} } →
    (headerStatus s.variant s.keep.svn b ≠ 0 → exec (.recoveryImageDone host) s =
      .next (u.emit (.inform "recovery image refused" (headerStatus s.variant s.keep.svn b)))) ∧
    (headerStatus s.variant s.keep.svn b = 0 → bodyGood b = false → exec (.recoveryImageDone host) s =
      .next ((((u.setSlot 0 (eraseHeader b)).measureSlot 0).showSlots).emit (.inform "recovery image failed" 1))) ∧
    (headerStatus s.variant s.keep.svn b = 0 → bodyGood b = true → exec (.recoveryImageDone host) s =
      .next (((u.setSlot 0 b).bootWrite fun r => { r with next := 0 }).enterReset).tryStart))

/-- The JTAG port: an instruction is loaded into the TAP of a present die while the management island is powered; the
ones that touch pins load as BYPASS while MOD_RESET_N is high; IDCODE answers; TRST resets every TAP. ENTDAA records the
address it assigns. -/
def Obligations.JtagAndI3cComplete : Prop :=
  (∀ (s : State) (die : Nat), diePresent s.variant die = true → s.boot.switch_ = true →
    exec (.bypass die) s = .next (s.setBoot { s.boot with tap := SMap.put die 0 s.boot.tap }) ∧
    exec (.idcode die) s = .next ((s.setBoot { s.boot with tap := SMap.put die 1 s.boot.tap }).emit
      (.jtag die "IDCODE" (Config.idcode die))) ∧
    exec (.samplePreload die) s =
      .next (s.setBoot { s.boot with tap := SMap.put die (if s.boot.resetN then 0 else 2) s.boot.tap }) ∧
    exec (.extest die) s =
      .next (s.setBoot { s.boot with tap := SMap.put die (if s.boot.resetN then 0 else 3) s.boot.tap }) ∧
    exec (.clamp die) s =
      .next (s.setBoot { s.boot with tap := SMap.put die (if s.boot.resetN then 0 else 4) s.boot.tap }) ∧
    exec (.highz die) s =
      .next (s.setBoot { s.boot with tap := SMap.put die (if s.boot.resetN then 0 else 5) s.boot.tap })) ∧
  (∀ s : State, exec .trst s = .next (s.setBoot { s.boot with tap := [] })) ∧
  (∀ (s : State) (addr : Nat), s.mgtState ≠ 0 →
    exec (.entdaa addr) s = .next (s.setReg mgtPg MGT.I3C_STATE (2 ^ 31 + addr % 128)))

/-! ## Stops (R404 to R406), ports of the host and the cages (R286 to R288, R320 to R334, R452, R453) -/

/-- A coolant stop and a thermal trip stop the module: the state is COOLANT_STOP or THERMAL_TRIP, STOP_CAUSE tells
which, the ports that carried packets are stopped; a trip applies over a coolant stop. What follows a stop: at C + 9
the allowances are zero, at C + 10 the buffers are written back, by C + 40 the stacks are in self-refresh; after a
trip the rails go and the memories lose their contents; COOLANT_OK lets stage 1 go on, counts a glitch, and ends no
stop. -/
def Obligations.StopsComplete : Prop :=
  ((∀ s : State, s.mayStop = true →
    exec .coolantStop s = .next
      ((((({ s with boot := { s.boot with coolant := false } } : State).setPwr
        { s.pwr with stopC := some (s.pwr.coolLow.getD (s.beat - 1)) }).stopModule 5 1 2).err pwrPg
        PWR.E_COOLANT_STOP 0).emit (.inform "in-band interrupt" 2))) ∧
  (∀ (s : State) (die : Nat), (s.mayStop = true ∨ s.mgtState = 5) →
    exec (.thermalTrip die) s = .next ((s.setPwr { s.pwr with stopC := some (s.beat - 1) }).stopModule 6 2 3)) ∧
  (∀ (s : State) (st reason bit : Nat), st < 16 →
    (s.stopModule st reason bit).mgtState = st ∧ (s.stopModule st reason bit).keep.cause = s.keep.cause ||| 2 ^ bit ∧
    (∀ p, p < 24 → ((s.stopModule st reason bit).port p).carries = false) ∧ (s.stopModule st reason bit).cmds = s.cmds ∧
    (s.stopModule st reason bit).mem = s.mem)) ∧
  ((∀ (s : State) (c : Nat), s.halted = true → s.pwr.stopC = some c →
    (c + 9 ≤ s.beat → ∃ t : State, exec .coolantClocksStop s = .next t ∧ (∀ m, (t.sqp m).l = 0) ∧ t.mem = s.mem) ∧
    (c + 10 ≤ s.beat → exec .coolantWcbFlush s = .next (s.writebackAll s.mem.wcb)) ∧
    (c + 40 ≤ s.beat → exec .coolantSelfRefresh s = .next
      (((List.range s.variant.stacks).filter fun st => s.stackState st == .ready).foldl
        (fun t st => (t.flushStack st).setStack st .selfRefresh) s))) ∧
  (∀ s : State, s.mgtState = 6 → ∃ t : State, exec .thermalTripRailsOff s = .next t ∧ t.mem.cells = [] ∧ t.mem.wcb = [] ∧
    t.scs = [] ∧ t.rook = [] ∧ t.keep = s.keep) ∧
  (∀ s : State, s.mgtState = 1 → s.mgtStage = 1 → bits (s.reg mgtPg MGT.MGT_STATE) 23 16 = 3 → s.pwr.coolLow = none →
    exec .coolantOkRise s = .next
      (({ s with boot := { s.boot with coolant := true, stageMs := 0 } } : State).setMgt 1 1 0)) ∧
  (∀ (s : State) (b : Nat), s.mgtState = 2 → s.pwr.coolLow = some b → s.boot.coolant = false →
    exec .coolantOkRise s =
      .next (({ s with boot := { s.boot with coolant := true } } : State).count pwrPg PWR.COOLANT_GLITCHES 1)) ∧
  (∀ s : State, s.halted = true → exec .coolantOkRise s = .next s))

/-- The host ports: a link of the endpoint role comes up, is lost, or is lost with its reference clock, each counted; a
CXL link of the root role likewise, its width and rate free; a conventional reset masks every vector; an unmasked vector
whose pending bit is set is sent; a host access is performed, or held behind the posted writes it waits for. The cages:
an insertion records whether the module was accepted, a removal forgets it and a port that carried packets retrains with
no lane; both are reported. -/
def Obligations.HostPortsAndCagesComplete : Prop :=
  ((∀ (s : State) (port width rate : Nat), s.hxIs port 1 = true →
    exec (.hostLinkUp port width rate) s =
      .next (({ s with host := { s.host with bar2 := SMap.put port (s.bar2Log port) s.host.bar2 } } : State).setHx port 2
        width rate) ∧
    (s.hxState port = 2 → exec (.hostLinkDown port) s = .next (s.hxDown port 3)) ∧
    (s.hxState port = 2 →
      exec (.refclkLoss port) s = .next (({ s with
        boot := { s.boot with refclk := false }
        host := { s.host with sris := (s.host.sris.filter (· != port)) ++ [port] } } : State).hxDown port 1)) ∧
    exec (.conventionalReset port) s = .next { s with host := { s.host with
      bar2 := SMap.put port (s.bar2Config port) s.host.bar2, msix := [], waiting := [] } }) ∧
  (∀ (s : State) (port : Nat), s.hxIs port 2 = true →
    (∀ u : State, u = { s.draw.2.draw.2 with host := { s.host with cxlDown := s.host.cxlDown.filter (· != port) } } →
      exec (.cxlLinkUp port) s = .next (u.setHx port 2 (s.draw.1 % 17) (s.draw.2.draw.1 % 65))) ∧
    (s.hxState port = 2 →
      ∀ u : State, u = { s with host := { s.host with cxlDown := s.host.cxlDown.filter (· != port) ++ [port] } } →
        exec (.cxlLinkDown port) s =
          .next (((u.hxDown port 0).count farPg FAR.LINK_DOWNS 1).err farPg FAR.E_LINK_DOWN 0))) ∧
  (∀ (s : State) (vec : Nat) (h : Nat), vec < 2048 → s.endpointPort = some h →
    ∃ (e : MsixEntry) (u t : State), e = { SMap.get ({} : MsixEntry) vec s.host.msix with masked := false } ∧
      u = { s with host := { s.host with msix := SMap.set {} vec e s.host.msix } } ∧
      t = { u with host := { u.host with waiting := u.host.waiting.filter (· != vec) } } ∧
      (s.host.waiting.contains vec = true → exec (.msixVectorUnmask vec) s = .next (t.raiseMsix vec)) ∧
      (s.host.waiting.contains vec = false → exec (.msixVectorUnmask vec) s = .next u)) ∧
  (∀ (s : State) (port bar off : Nat) (wr : Bool) (data : List Byte), s.hxIs port 1 = true → s.hxState port = 2 →
    s.fabricUp = true → data ≠ [] →
    ∀ (a : HostAcc) (u : State), a = { port := some port, bar := bar, off := off, wr := wr, data := data } →
      u = s.count64 (hxpPg port) HXP.TLP_RX 1 →
      (s.host.held = [] → s.hostWaits a = false →
        exec (.hostApertureAccess port ⟨bar, off⟩ wr data) s = .next (u.hostDo a)) ∧
      (s.host.held ≠ [] ∨ s.hostWaits a = true →
        exec (.hostApertureAccess port ⟨bar, off⟩ wr data) s = .next (u.hostHold a)))) ∧
  (∀ (s : State) (port : Nat), s.hasCage port = true →
    (∀ accepted, exec (.opticalInsert port accepted) s = .next
      ((s.setBoot { s.boot with cages := SMap.put port accepted s.boot.cages }).emit (.inform "in-band interrupt" 6))) ∧
    (∀ u : State, u = (s.setBoot { s.boot with cages := SMap.del port s.boot.cages }).emit
        (.inform "in-band interrupt" 6) →
      ((s.port port).carries = false → exec (.opticalRemove port) s = .next u) ∧
      ((s.port port).carries = true → exec (.opticalRemove port) s =
        .next ((u.setPort port { s.port port with lanes := 0 }).portRetrain port))))

/-! ## Ports, streams and packets (R299 to R319), tempo (R238, R239) -/

/-- Training, lane faults and retraining: a port that trains with a usable width and the partner its wiring gives is
ACTIVE at full width and DEGRADED below it, another partner makes it MISWIRED; a faulty lane or a lane count lost
retrains; the flits the partner had not accepted then go out again, the width no wider than the retraining may reach; a
width below the one before is reported; no usable lane fails it; a STOP flit stops it. -/
def Obligations.PortTrainingComplete : Prop :=
  (∀ (s : State) (port : Nat) (r : TrainResult), portPresent s.variant port = true → (s.port port).st = .training →
    (r.ok = false → exec (.portTrainDone port r) s = .next (s.trainFailed port)) ∧
    (∀ w, w = s.laneWidth port r.lanes → r.ok = true → w ≠ 0 → s.cageOk port = true →
      (s.partnerOk port r.partner r.pport = true → exec (.portTrainDone port r) s = .next ((s.setPort port
        { s.port port with
          partner := some (r.partner, r.pport), delay := r.delay, lanes := r.lanes, attempts := 0
          st := if w = 8 then .active else .degraded, width := w }).pump port)) ∧
      (s.partnerOk port r.partner r.pport = false → exec (.portTrainDone port r) s = .next ((s.setPort port
        { s.port port with
          partner := some (r.partner, r.pport), delay := r.delay, lanes := r.lanes, attempts := 0
          st := .miswired, width := 0 }).err (plyPg port) PLY.E_MISWIRED port)))) ∧
  (∀ (s : State) (port lane : Nat), (s.port port).carries = true →
    exec (.laneFault port lane) s = .next ((s.setPort port { s.port port with
      lanes := if (s.port port).lanes.testBit lane then (s.port port).lanes - 2 ^ lane else (s.port port).lanes }).portRetrain
        port)) ∧
  (∀ (s : State) (port : Nat) (r : RetrainResult), (s.port port).st = .retraining →
    ∀ w, w = min (s.laneWidth port r.lanes) (s.port port).cap →
    (w = 0 →
      exec (.retrainDone port r) s = .next ((s.setPort port { s.port port with lanes := r.lanes }).portFail port)) ∧
    (w ≠ 0 → ∀ u : State,
      u = ((s.setPort port { s.port port with lanes := r.lanes }).setPort port { s.port port with
        lanes := r.lanes, st := if w = 8 then .active else .degraded
        width := w, retry := ackFlits r.ack (s.port port).retry }).resendFlits port →
      ((s.port port).before ≤ w → exec (.retrainDone port r) s = .next (u.pump port)) ∧
      (w < (s.port port).before → exec (.retrainDone port r) s =
        .next (((u.count (plyPg port) PLY.LANE_DEGRADES 1).err (plyPg port) PLY.E_LANE_DEGRADED port).pump port)))) ∧
  (∀ (s : State) (port m reason : Nat), ((s.port port).carries = true ∨ (s.port port).st = .miswired) →
    exec (.stopFlitRx port m reason) s = .next (((((((s.setPort port { s.port port with st := .stopped, width := 0 }).count
      (plyPg port) PLY.STOP_RX 1).err (plyPg port) PLY.E_STOP_RX port).reroute port).emit (.inform "stop flit" m))).emit
      (.inform "stop reason" reason)))

/-- Flits: what the FEC corrects in one is a free value; a bad CRC is counted and answered with one NAK; a DATA flit
whose FSEQ is the next expected is accepted, any other is discarded with a NAK; an IDLE flit only acknowledges and
returns credits; a NAK sends again every flit after the acknowledged one. (The counts of the FEC are the model's choice,
log entry 6.) -/
def Obligations.FlitsComplete : Prop :=
  (∀ (s u : State) (port : Nat) (f : List Byte), portPresent s.variant port = true → (s.port port).carries = true →
    u = s.countFree (plyPg port) PLY.FEC_CORRECTED →
    (flitGood f = false →
      exec (.dataFlitRx port f) s = .next (((u.draw.2.count (plyPg port) PLY.FEC_UNCORRECTED u.draw.1).count
        (plyPg port) PLY.CRC_ERRORS 1).sendNak port)) ∧
    (flitGood f = true → 5 ≤ flitType f → exec (.dataFlitRx port f) s = .next (u.count (plyPg port) PLY.BAD_FLITS 1)) ∧
    (flitGood f = true → flitType f = 0 → flitSeq f ≠ (s.port port).rxNext →
      exec (.dataFlitRx port f) s = .next (u.sendNak port)) ∧
    (flitGood f = true → flitType f = 0 → flitSeq f = (s.port port).rxNext →
      ∀ x : Port, x = { u.port port with
          rxNext := ((u.port port).rxNext + 1) % 4096, nakSent := false
          rxPart := (u.port port).rxPart ++ f.drop 16 } →
        exec (.dataFlitRx port f) s = .next ((((u.setPort port x).count64 (plyPg port) PLY.FLITS_RX 1).rxPackets port
          (32 + (u.port port).rxPart.length / 16)).linkUnit port f)) ∧
    (flitGood f = true → flitType f ≠ 0 → flitType f < 5 → exec (.idleFlit port f) s = .next (u.linkUnit port f))) ∧
  (∀ (s : State) (port ack : Nat), (s.port port).carries = true →
    (∀ u : State, u = (s.setPort port { s.port port with
          retry := ackFlits ack (s.port port).retry, nakAck := ack
          nakRun := if (s.port port).nakAck = ack then (s.port port).nakRun + 1 else 1 }).count (plyPg port) PLY.REPLAYS 1 →
      ((u.port port).nakRun < bits (u.reg (plyPg port) PLY.PLY_CONFIG) 15 8 →
        exec (.nakRx port ack) s = .next ((u.resendFlits port).pump port)) ∧
      (bits (u.reg (plyPg port) PLY.PLY_CONFIG) 15 8 ≤ (u.port port).nakRun →
        exec (.nakRx port ack) s = .next ((u.err (plyPg port) PLY.E_REPLAY_LIMIT port).portRetrain port))))

/-- Streams: a stream with packets delivered and not acknowledged is acknowledged; every packet of a stream not
acknowledged within E2E_TIMEOUT beats goes out again marked RESENT, counted, and kept. A packet for another module is
passed on one hop further, and one that has made 63 hops is discarded. -/
def Obligations.StreamsComplete : Prop :=
  (∀ (s : State) (src vc : Nat), 0 < (s.rxStream src vc).due →
    exec (.e2eAckTimer src vc) s = .next ((s.setRx src vc { s.rxStream src vc with due := 0 }).sendPkt
      { hdr := { dstMod := src, srcMod := s.modId },
        body := .e2eAck vc (((s.rxStream src vc).next + 2 ^ 24 - 1) % 2 ^ 24) })) ∧
  (∀ (s : State) (dst vc : Nat), (s.txStream dst vc).tries + 1 ≠ s.e2eTries →
    ((s.txStream dst vc).copies.filter fun c => decide (c.2.2 + s.e2eTimeout ≤ s.beat)) ≠ [] →
    ∀ u : State, u = (s.setTx dst vc { s.txStream dst vc with
        tries := (s.txStream dst vc).tries + 1
        copies := (s.txStream dst vc).copies.map fun c => if c.2.2 + s.e2eTimeout ≤ s.beat
          then (c.1, { c.2.1 with hdr := { c.2.1.hdr with resent := true } }, s.beat) else c }).count fabPg FAB.E2E_RESENDS
        ((s.txStream dst vc).copies.filter fun c => decide (c.2.2 + s.e2eTimeout ≤ s.beat)).length →
      s.e2eTries = u.e2eTries →
      exec (.e2eResend dst vc) s =
        .next (((s.txStream dst vc).copies.filter fun c => decide (c.2.2 + s.e2eTimeout ≤ s.beat)).foldl
          (fun t c => (t.owe .resend false (32 + 16 * c.2.1.hdr.len)).forward none { c.2.1 with hdr := { c.2.1.hdr with resent := true } }) u)) ∧
  (∀ (s : State) (port : Nat) (p : Pkt), s.fabricUp = true → s.portUp port = true → p.hdr.dstMod ≠ s.modId →
    (63 ≤ p.hdr.hops → exec (.packetForward (some port) p) s = .next (s.count fabPg FAB.HOP_DISCARDS 1)) ∧
    (p.hdr.hops < 63 → s.isLost p.hdr.dstMod = false → s.substitute p.hdr.dstMod = some p.hdr.dstMod →
      exec (.packetForward (some port) p) s =
        .next (s.forward (some port) { p with hdr := { p.hdr with hops := p.hdr.hops + 1 } })))

/-- A packet of every TYPE that arrives well formed, next on its stream, and refused by no epoch, castling or finished
command is handed to its unit by the row of its TYPE; after the 64th of a stream an acknowledgement follows. -/
def Obligations.PacketsReachTheirUnit : Prop :=
  ∀ (s : State) (p : Pkt), s.delivers p = true →
    exec (rowOf p) s = .next (State.acked ((s.arrived p).dispatch p) p)

/-- A packet of a streamed VC that has been delivered before, its SEQ behind the next expected by at most half the
range, is not delivered again: it is counted in STREAM_DUPS, and nothing else changes. A packet whose header is not
well formed for this module is malformed: it is counted and reported, and nothing else changes. -/
def Obligations.PacketsRefused : Prop :=
  (∀ (s : State) (p : Pkt), s.fabricUp = true → p.hdr.dstMod = s.modId → p.hdr.srcMod ≠ s.modId → s.pktGood p = true →
    p.body.streamed = true → p.hdr.seq < 2 ^ 24 → p.hdr.seq ≠ (s.rxStream p.hdr.srcMod p.hdr.vc).next % 2 ^ 24 →
    ((s.rxStream p.hdr.srcMod p.hdr.vc).next % 2 ^ 24 + 2 ^ 24 - p.hdr.seq) % 2 ^ 24 ≤ 2 ^ 23 →
    exec (rowOf p) s = .next (s.count fabPg FAB.STREAM_DUPS 1)) ∧
  (∀ (s : State) (p : Pkt), s.fabricUp = true → p.hdr.dstMod = s.modId → p.hdr.srcMod ≠ s.modId → s.pktGood p = false →
    exec (rowOf p) s = .next ((s.count fabPg FAB.BAD_PACKETS 1).err fabPg PLY.E_BAD_PACKET p.hdr.srcMod))

/-- Tempo: the master sends one mark on each mark port at a beat that is a multiple of 64, its TX_OFFSET a free value; a
follower counts a mark with a bad CRC and discards it; a LOCKED follower without a valid mark for 1,024 beats holds
over. -/
def Obligations.TempoComplete : Prop :=
  (∀ s : State, s.tempoSt = 4 → s.beat % 64 = 0 → s.tempo.sent ≠ some s.beat →
    ∃ (t : State) (fs : List (Nat × Flit)), exec .markSend s = .next t ∧
      t.outbox = s.outbox ++ fs.map (fun x => .flit x.1 x.2) ∧
      fs.map (fun x => (x.1, x.2.ftype, x.2.data.take 12)) =
        s.markPorts.map (fun p => (p, 3, (markUnit s.beat s.modId 0 0).take 12)) ∧
      t.tempo = { s.tempo with sent := some s.beat } ∧ t.regs = s.regs ∧ t.mem = s.mem ∧ t.cmds = s.cmds) ∧
  (∀ (s : State) (port : Nat) (m : Mark), s.marksOn port = true →
    (m.crcOk = false → exec (.markRx port m) s = .next (s.count tmpPg TMP.MARKS_BAD 1)) ∧
    (m.crcOk = true → (s.count tmpPg TMP.MARKS_RX 1).tempoSt = 4 →
      exec (.markRx port m) s = .next (s.count tmpPg TMP.MARKS_RX 1)) ∧
    (m.crcOk = true → ∀ u : State, u = (s.count tmpPg TMP.MARKS_RX 1).forwardMark port m →
      (s.count tmpPg TMP.MARKS_RX 1).tempoSt ≠ 4 → ∀ w : State, w = { u with tempo := { u.tempo with
        last := u.beat, ports := (u.tempo.ports.filter fun x => !(x.1 == port && x.2.1 == m.master)) ++
          [(port, m.master, m.hops, u.beat)] } } →
      ((w.freshMarks.any fun x => x.2.1 != m.master) = false → (∃ h, bestMark w.freshMarks = some (port, m.master, h)) →
        exec (.markRx port m) s = .next (w.discipline port m)) ∧
      ((w.freshMarks.any fun x => x.2.1 != m.master) = true →
        (∀ h, bestMark w.freshMarks ≠ some (port, m.master, h)) →
        exec (.markRx port m) s = .next (w.err tmpPg TMP.E_MASTER_CONFLICT port)))) ∧
  (∀ s : State, s.tempoSt = 2 → s.tempo.last + 1024 ≤ s.beat →
    ∃ t : State, exec .tempoHoldover s = .next t ∧ t.tempoSt = 3 ∧ t.tempo = { s.tempo with good := 0 } ∧
      t.mem = s.mem ∧ t.cmds = s.cmds)

/-! ## Timers of reductions and batches (R135, R150, R158, R353, R354, R358) -/

/-- At its DEADLINE a reduction that still holds an incomplete chunk is aborted, ABORT_GRACE beats later any that is
still active; a RED_UP not answered in time goes out again marked RESENT; a batch of a running sampler, gather, scatter
or store goes to its target though it is not full, a scatter's or store's while its square has fewer than 64
unacknowledged. -/
def Obligations.TimersComplete : Prop :=
  (∀ (s : State) (rdie rctx b : Nat), (s.ctx (ctxKey rdie rctx)).deadline = some b →
    (s.ctx (ctxKey rdie rctx)).st = .active →
    (b ≤ s.beat → s.redIncomplete (s.ctx (ctxKey rdie rctx)) = true →
      exec (.redDeadlineAbort rdie rctx) s = .next (s.redAbort (ctxKey rdie rctx) 1)) ∧
    (b + cfgGrace (s.ctx (ctxKey rdie rctx)).cfg ≤ s.beat →
      exec (.abortGraceExpire rdie rctx) s = .next (s.redAbort (ctxKey rdie rctx) 1))) ∧
  (∀ (s : State) (rdie rctx chunk : Nat) (x : RedCtx) (u : Nat × Pkt × Nat), x = s.ctx (ctxKey rdie rctx) →
    (x.ups.find? fun u => u.1 == chunk && decide (u.2.2 + s.e2eTimeout ≤ s.beat)) = some u →
    exec (.redResend rdie rctx chunk) s = .next ((((s.setCtx (ctxKey rdie rctx) { x with
      ups := x.ups.map fun v => if v.2.1 = u.2.1 then (v.1, v.2.1, s.beat) else v }).count (ctxPage (ctxKey rdie rctx))
        RED.RED_RESENDS 1).owe .resend false (32 + 16 * u.2.1.hdr.len)).sendPkt { u.2.1 with hdr := { u.2.1.hdr with resent := true } })) ∧
  (∀ (s : State) (cmd target : Nat) (c : Cmd), s.cmd? cmd = some c →
    (∀ x es, c.ctx = .sample x → SMap.find target x.open_ = some es →
      ∃ t : State, exec (.kntBatchTimeout cmd target) s = .next t ∧
        t = (((s.count (kntPg c.msq) KNT.REMOTE_REQUESTS es.length).sendF0 c.msq target c.desc.job
          (.sampleReq (s.orgOf c.msq c.q) c.id (sampleParams c.desc x) es)).mapCmd cmd fun c => { c with
            ctx := .sample { x with
              open_ := x.open_.filter (·.1 != target), sent := x.sent ++ [(target, es.map (·.dst))] } })) ∧
    (∀ x es, c.ctx = .gather x → SMap.find target x.open_ = some es →
      ∃ t : State, exec (.rookReadBatchTimeout cmd target) s = .next t ∧
        t = (((s.count64 (rookPg c.msq) ROOK.REMOTE_READS es.length).sendF0 c.msq target c.desc.job
          (.readReq (s.orgOf c.msq c.q) c.id (es.map fun f =>
            { table := f.table, node := f.node, plane := rgPlane c.desc, tag := f.tag,
              strict := f.strict.getD true }))).mapCmd cmd fun c => { c with
            ctx := .gather { x with
              open_ := x.open_.filter (·.1 != target), sent := x.sent ++ es.map fun f => (target, f) } })) ∧
    (∀ (x : ScatterCtx) (key : Nat) (es : List ScatterEntry), c.ctx = .scatter x →
      (x.open_.filter fun b => b.1 / 512 == target) = [(key, es)] →
      (s.batchRoom c.id x.sent (key % 512) = true → ∃ t : State, exec (.rookScatterBatchTimeout cmd target) s = .next t ∧
        t = ((s.sendF0 (key % 512) (key / 512) c.desc.job (.scatter (s.orgOf (key % 512) c.q) c.id x.tok es)).mapCmd cmd
          fun c => { c with ctx := .scatter { x with
            open_ := x.open_.filter (·.1 != key), tok := x.tok + 1
            sent := x.sent ++ [{ tok := x.tok, target := key / 512, left := es.length, sq := key % 512 }] } })) ∧
      (s.batchRoom c.id x.sent (key % 512) = false → exec (.rookScatterBatchTimeout cmd target) s =
        .next (s.mapCmd cmd fun c => { c with ctx := .scatter x }))) ∧
    (∀ (x : StoreCtx) (key : Nat) (es : List StoreEntry), c.ctx = .store x →
      (x.open_.filter fun b => b.1 / 512 == target) = [(key, es)] →
      (s.batchRoom c.id x.sent c.msq = true → ∃ t : State, exec (.rookScatterBatchTimeout cmd target) s = .next t ∧
        t = ((s.sendF0 c.msq (key / 512) c.desc.job (.store (s.orgOf c.msq c.q) c.id x.tok es)).mapCmd cmd
          fun c => { c with ctx := .store { x with
            open_ := x.open_.filter (·.1 != key), tok := x.tok + 1
            sent := x.sent ++ [{ tok := x.tok, target := key / 512, left := es.length, sq := c.msq }] } })) ∧
      (s.batchRoom c.id x.sent c.msq = false → exec (.rookScatterBatchTimeout cmd target) s =
        .next (s.mapCmd cmd fun c => { c with ctx := .store x }))))

/-! ## Squares, power and heat (R78 to R80, R258, R387 to R403) -/

/-- A square gates its clocks, sleeps and wakes as R258 and R392 say, and no other square changes; an addend reaches its
slot, the first queued update of a bank that can be is absorbed, a promotion goes on once a group is free; a row that
waited, and is still served here, is served. -/
def Obligations.SquaresComplete : Prop :=
  (∀ (s : State) (msq cycles : Nat), s.squarePresent msq = true → s.mayGate msq = true →
    ∃ t : State, exec (.clockGate msq cycles) s = .next t ∧
      t.pwr = { s.pwr with gated := (s.pwr.gated.filter (· != msq)) ++ [msq] } ∧ t.mem = s.mem ∧ t.cmds = s.cmds) ∧
  (∀ (s : State) (msq w : Nat) (keep db : Bool), (s.sqp msq).sleep = .entering keep db w → s.squareIdle msq = true →
    ∃ t : State, exec (.sleepEnter msq) s = .next t ∧
      t.sqp msq = { s.sqp msq with sleep := .asleep keep db w, l := 0 } ∧
      (∀ m, m ≠ msq → t.sqp m = s.sqp m) ∧ t.mem = s.mem ∧ t.cmds = s.cmds ∧ t.scs = s.scs) ∧
  (∀ (s : State) (msq w : Nat) (keep db : Bool), (s.sqp msq).sleep = .asleep keep db w → w ≠ 0 → w ≤ s.beat →
    ∃ t : State, exec (.wakeBeat msq) s = .next t ∧ t.sqp msq = { s.sqp msq with sleep := .waking keep s.beat } ∧
      (∀ m, m ≠ msq → t.sqp m = s.sqp m) ∧ t.mem = s.mem ∧ t.cmds = s.cmds ∧ t.regs = s.regs) ∧
  (∀ (s : State) (msq b : Nat) (keep : Bool), (s.sqp msq).sleep = .waking keep b →
    (keep = true → b + 16 ≤ s.beat → ∃ t : State, exec (.wakeComplete msq) s = .next t ∧
      t.sqp msq = { s.sqp msq with sleep := .awake } ∧ t.mem = s.mem ∧ t.scs = s.scs ∧ t.bnd = s.bnd) ∧
    (keep = false → b + 64 ≤ s.beat → ∃ t : State, exec (.wakeComplete msq) s = .next t ∧ t.isStale msq = true ∧
      t.unitEpoch msq = (s.unitEpoch msq + 1) % 65536)) ∧
  (∀ (s : State) (k : Nat) (v : Word) (secure : Bool), k < 12 → s.allows pwrPg false secure = true →
    exec (.sleepWake k v secure) s = .next
      (((List.range 32).filter fun n => v.toNat.testBit n && s.squarePresent (32 * k + n)).foldl
        (fun t n => t.wakeSquare (32 * k + n)) s)) ∧
  (∀ (s : State) (msq slot fmt code scale : Nat), s.squarePresent msq = true → slot < s.slotLimit msq →
    exec (.scsAddend msq slot fmt code scale) s = .next (s.scsAdd msq slot (Ea.ofVal ((ScatterEntry.vals
      { table := 0, node := 0, fmt := fmt, codes := [code], scales := [scale] }).head?.getD .nan)) none 0)) ∧
  (∀ (s : State) (msq bank : Nat) (u : ScsUpd), s.squarePresent msq = true → s.halted = false →
    firstReady [] bank (fun u => s.updReady msq u) (s.sheet msq).queue = some u →
    (s.needsGroup msq u = false → exec (.scsQueueAbsorb msq bank) s = .next (s.scsTake msq u).settle) ∧
    (s.needsGroup msq u = true → exec (.scsQueueAbsorb msq bank) s =
      .next (((s.countFree (scsPg msq) SCS.PROMOTION_WAIT).scsTake msq u).settle))) ∧
  (∀ (s : State) (msq bank cycles g : Nat) (u : ScsUpd), s.squarePresent msq = true → s.halted = false →
    s.waitingPromotion msq bank = some u → s.freeGroup msq bank = some g →
    exec (.promotionResume msq bank cycles) s =
      .next (((s.count64 (scsPg msq) SCS.PROMOTION_WAIT cycles).scsPromoteStep msq bank).settle)) ∧
  (∀ (s : State) (k : RowKey) (w : RowWait), (s.plc.waits.filter fun w => w.key == k) = [w] → s.waitHere w = true →
    s.waitOver w = true →
    exec (.strictReadResume k) s = .next ((s.setPlc { s.plc with waits := dropOne w s.plc.waits }).serveWait w))

/-- The load bands are fractions of design power, a value on a boundary belonging to the higher band, and the band in
force after a period of 1,000 beats is that of the average of its measured powers; between periods nothing changes. -/
def Obligations.LoadBands : Prop :=
  (∀ (s : State) (x y m : Nat), s.beat % 1000 = 0 → s.pwr.lastPeriod ≠ some s.beat →
    m = (winSums s.pwr.win 1000).1 / (winSums s.pwr.win 1000).2.2.2 →
    ∃ t : State, exec (.driftPeriod x y) s = .next t ∧
      t.band = (if m * 100 < 10 * s.variant.designPower then 0
        else if m * 100 < 40 * s.variant.designPower then 1
        else if m * 100 < 70 * s.variant.designPower then 2 else 3) ∧ t.mem = s.mem ∧ t.cmds = s.cmds) ∧
  (∀ (s : State) (m e : Nat), (s.beat % 1000 ≠ 0 ∨ s.pwr.lastPeriod = some s.beat) →
    ∃ t : State, exec (.driftPeriod m e) s = .next t ∧ t.band = s.band)

/-- Calibration, trims and sensors: RECAL begins a recalibration of the band in force, its 256th period writes the
record, INVALIDATE clears every record; a monitor below 20 ps raises its die's trim by 5 mV, and at the top derates its
square; a rail settles; a sample sets the die's thermal cap and its count of excluded sensors, a stack's report its
temperature. -/
def Obligations.HeatAndTrimComplete : Prop :=
  (∀ (s : State) (secure : Bool), s.allows pwrPg true secure = true →
    exec (.recal secure) s = .next { s with pwr := { s.pwr with recal := some (s.band, 0) } } ∧
    exec (.invalidate secure) s = .next { s with pwr := { s.pwr with records := [] } }) ∧
  (∀ (s : State) (b n : Nat), s.pwr.recal = some (b, n) → 256 ≤ n →
    ∃ t : State, exec .recalComplete s = .next t ∧ t.pwr.recal = none ∧ (SMap.find b t.pwr.records).isSome = true ∧
      SMap.find b t.keep.cal = SMap.find b t.pwr.records ∧ t.mem = s.mem ∧ t.cmds = s.cmds) ∧
  (∀ (s : State) (msq : Nat) (slack : Int), s.squarePresent msq = true → s.ageing (msq / 64) = true → slack < 20 →
    (s.trimOf (msq / 64) < 40 → ∃ t : State, exec (.trimRaise (msq / 64) msq slack) s = .next t ∧
      t.trimOf (msq / 64) = s.trimOf (msq / 64) + 5 ∧ (∀ d, d ≠ msq / 64 → t.trimOf d = s.trimOf d) ∧
      t.pwr.derate = s.pwr.derate ∧ t.mem = s.mem) ∧
    (40 ≤ s.trimOf (msq / 64) → ∃ t : State, exec (.trimRaise (msq / 64) msq slack) s = .next t ∧
      SMap.get 0 msq t.pwr.derate = SMap.get 0 msq s.pwr.derate + 10 ∧ t.pwr.trim = s.pwr.trim ∧ t.mem = s.mem)) ∧
  (∀ (s : State) (die : Nat), s.pwr.settling.contains die = true →
    exec (.railSettled die) s = .next { s with pwr := { s.pwr with
      settling := s.pwr.settling.filter (· != die), clock := SMap.del die s.pwr.clock } }) ∧
  (∀ (s : State) (die : Nat) (temps : List Int), pageInfo s.variant (thmPg die) ≠ none →
    (∀ x, x ∈ temps → excluded (median2 temps) x = true ∨ x < 920) →
    ∃ t : State, exec (.thermalSample die temps) s = .next t ∧ SMap.find die t.pwr.temps = some temps ∧
      t.mem = s.mem ∧ t.cmds = s.cmds ∧ t.keep = s.keep) ∧
  (∀ (s : State) (stack : Nat) (temp : Int), stack < s.variant.stacks →
    ∃ t : State, exec (.hbmTempReport stack temp) s = .next t ∧ SMap.find stack t.pwr.stackT = some temp ∧
      (∀ st, st ≠ stack → SMap.find st t.pwr.stackT = SMap.find st s.pwr.stackT) ∧ t.mem = s.mem ∧ t.cmds = s.cmds)

/-! ## Placement (R183, R187 to R199) -/

/-- A migration: PREPARE copies a selected row whose mark is clear, the notice of its flip goes to every member at
B − FLIP_LEAD, the transfer is its last change from B on, and RETIRE_LEAD beats later the old home forgets the row. A
boundary reached applies the thresholds committed since the last, and requests waiting for a row that is owned elsewhere
then go on to its owner; a decay halves every counter of the sketch. -/
def Obligations.PlacementRowsComplete : Prop :=
  (∀ (s : State) (k : RowKey) (m : MigOut), s.migOut k = some m → m.phase = .chosen → m.affinity = false →
    (s.row k).pend = false → s.owns k = true →
    exec (.migrationPrepare k) s = .next ((((s.putOut { m with phase := .prepare }).rowVisit k).count plcPg
      PLC.MIG_STARTED 1).plcSend m.dest k.job (.migCopy k (s.row k) true))) ∧
  (∀ (s : State) (k : RowKey) (m : MigOut) (b : Nat), s.migOut k = some m → m.phase = .forward → m.affinity = true →
    m.flip = some b → b ≠ 0 → m.since + s.flipLead ≤ b → s.beat + s.flipLead = b →
    exec (.flipNoticeSend k) s = .next ((s.otherMembers k.job).foldl (fun t x => t.plcSend x k.job (.flipNotice k m.dest b t.modId))
      (s.putOut { m with phase := .flip, flip := some b }))) ∧
  (∀ (s : State) (k : RowKey) (m : MigOut) (b : Nat), s.migOut k = some m → m.flip = some b → m.phase = .flip →
    b ≤ s.beat → (s.row k).pend = false → (s.plc.refreshes.any fun r => r.1 == k) = false →
    (s.plc.waits.any fun w => w.key == k) = false → ∀ n : MigOut, (s.sendChange k .transfer).migOut k = some n →
    ∀ u : State, u = ((s.sendChange k .transfer).putOut { n with phase := .sent, sentAt := (s.sendChange k .transfer).beat }).count
        plcPg PLC.MIG_TRANSFERRED 1 →
      exec (.migrationTransfer k) s = .next (if (u.shadowOf k (u.row k)).isSome then u.follow k.job (.remove k) else u)) ∧
  (∀ (s : State) (k : RowKey) (m : MigOut), s.migOut k = some m → m.phase = .sent →
    max (m.flip.getD 0) m.sentAt + bits (s.reg plcPg PLC.PLC_CONFIG) 15 0 ≤ s.beat →
    ∃ t : State, exec (.retire k) s = .next t ∧ t.migOut k = none ∧ (∀ p, p ∈ t.plc.rows → p.1 ≠ k) ∧ t.cmds = s.cmds) ∧
  (∀ (s : State) (job : Nat), s.boundaryDue job = true →
    ∀ u : State, u = (s.setReg plcPg PLC.JOB_NEXT_BEAT 0 job).setPlc { s.plc with
        lastB := SMap.put job (s.reg plcPg PLC.JOB_NEXT_BEAT job) s.plc.lastB
        eff := SMap.put job ((s.setReg plcPg PLC.JOB_NEXT_BEAT 0 job).reg plcPg PLC.JOB_THRESH job,
          (s.setReg plcPg PLC.JOB_NEXT_BEAT 0 job).reg plcPg PLC.JOB_MIG job) s.plc.eff } →
      exec (.plcBoundary job) s = .next (((((((u.dropLostEntries job).evictReplicas job).surplusHolders job).affinityAll
        job).coldCount job).demote job).raise job).moveWaits) ∧
  (∀ s : State, s.decayDue = true →
    ∃ t : State, exec .sketchDecay s = .next t ∧ (∀ p, p ∈ t.plc.want ↔ ∃ n, (p.1, n) ∈ s.plc.want ∧ p.2 = n / 2 ∧ n / 2 ≠ 0) ∧
      (∀ p, p ∈ t.plc.serve ↔ ∃ n, (p.1, n) ∈ s.plc.serve ∧ p.2 = n / 2 ∧ n / 2 ≠ 0) ∧ t.plc.rows = s.plc.rows ∧
      t.mem = s.mem ∧ t.regs = s.regs)

/-! ## Scrubbing and the write-combining buffers (R276 to R282) -/

/-- A write-back puts the entry's bytes where its mask covers them and takes it from the buffers: of the oldest entry of
a full buffer, of an entry whose mask is full, of an idle pseudo-channel's, of every dirty entry of a die at a flush
beat. The scrubber reads a queued line and takes it from its queue; the patrol reads the line at which it stands and
moves on. -/
def Obligations.ScrubAndWritebackComplete : Prop :=
  (∀ (s : State) (line : Nat) (e : WcbEntry), s.wcbFind line = some e →
    exec (.wcbIdleWriteback line) s = .next (s.writeback e) ∧
    (e.data.all Option.isSome = true → exec (.wcbFullWriteback line) s = .next (s.writeback e)) ∧
    (e.data.all Option.isSome = false → exec (.wcbFullWriteback line) s = .next s)) ∧
  (∀ (s : State) (e : WcbEntry), (∀ x, x ∈ (s.writeback e).mem.wcb ↔ x ∈ s.mem.wcb ∧ x.line ≠ e.line)) ∧
  (∀ (s : State) (pc cycles : Nat) (e : WcbEntry) (l : List WcbEntry), s.pcEntries pc = e :: l → 63 ≤ l.length →
    exec (.wcbEvict pc cycles) s = .next (((s.writeback e).count (wcbPg (s.lineStack e.line / 2)) WCB.FULL_EVICTIONS 1).count64
      (wcbPg (s.lineStack e.line / 2)) WCB.FULL_WAIT_CYCLES cycles)) ∧
  (∀ (s : State) (die : Nat), s.flushDue die = true →
    ∃ t : State, exec (.wcbBeatFlush die) s = .next t ∧ (∀ e, e ∈ t.mem.wcb → s.lineStack e.line / 2 ≠ die) ∧
      t.mem.cells = (s.writebackAll (s.dieEntries die)).mem.cells) ∧
  (∀ (s : State) (line : Nat), s.mem.scrubQ.contains line = true →
    exec (.scrubRewrite line) s = .next (({ s with mem := { s.mem with scrubQ := s.mem.scrubQ.filter (· != line) } } :
      State).scrubLine line).st) ∧
  (∀ (s : State) (st pos : Nat), st < s.variant.stacks → st < 12 → pos = SMap.get 0 st s.mem.patrol → pos + 1 < stackLines →
    bit (s.reg (hbmPg st) HBM.SCRUB_CONFIG) 31 = true → s.stackState st = .ready →
    ∃ t : State, exec (.patrolScrub (st * 0xC00000000 + 64 * pos)) s = .next t ∧ SMap.get 0 st t.mem.patrol = pos + 1 ∧
      (∀ o, o ≠ st → SMap.get 0 o t.mem.patrol = SMap.get 0 o s.mem.patrol))
end

