-- ==== Sys2Proof/Laws/Tables.lean ====
section
/-! SUPPORT. Sparse tables: what a key holds after a removal, an insertion or a setting of it or of another. -/

namespace Sys2Proof.Machine

section
variable {α : Type}

theorem SMap.find_del_same (k : Nat) (m : List (Nat × α)) : SMap.find k (SMap.del k m) = none := by
  induction m with
  | nil => rfl
  | cons c r ih =>
    obtain ⟨a, v⟩ := c
    by_cases e : a = k
    · simp only [SMap.del, e, if_true, ih]
    · simp only [SMap.del, e, if_false, SMap.find, ih]

theorem SMap.find_del_other {k j : Nat} (h : k ≠ j) (m : List (Nat × α)) :
    SMap.find k (SMap.del j m) = SMap.find k m := by
  induction m with
  | nil => rfl
  | cons c r ih =>
    obtain ⟨a, v⟩ := c
    by_cases e : a = j
    · have n : a ≠ k := fun f => h (f.symm.trans e)
      simp only [SMap.del, if_pos e, SMap.find, if_neg n, ih]
    · simp only [SMap.del, if_neg e, SMap.find, ih]

theorem SMap.find_put_same (k : Nat) (v : α) (m : List (Nat × α)) : SMap.find k (SMap.put k v m) = some v := by
  induction m with
  | nil => simp [SMap.put, SMap.find]
  | cons c r ih =>
    obtain ⟨a, w⟩ := c
    by_cases h : k < a
    · simp [SMap.put, SMap.find, h]
    · by_cases e : k = a
      · simp [SMap.put, SMap.find, e]
      · simp [SMap.put, SMap.find, h, e, Ne.symm e, ih]

theorem SMap.find_put_other {k j : Nat} (h : k ≠ j) (v : α) (m : List (Nat × α)) :
    SMap.find k (SMap.put j v m) = SMap.find k m := by
  induction m with
  | nil => simp [SMap.put, SMap.find, Ne.symm h]
  | cons c r ih =>
    obtain ⟨a, w⟩ := c
    by_cases l : j < a
    · simp [SMap.put, SMap.find, l, Ne.symm h]
    · by_cases e : j = a
      · subst e; simp [SMap.put, SMap.find, Ne.symm h]
      · simp only [SMap.put, l, e, if_false, SMap.find, ih]

/-- What `get` answers is what `find` finds, or the default. -/
theorem SMap.get_eq (d : α) (k : Nat) (m : List (Nat × α)) : SMap.get d k m = (SMap.find k m).getD d := by
  induction m with
  | nil => rfl
  | cons c r ih =>
    obtain ⟨a, v⟩ := c
    by_cases e : a = k
    · simp only [SMap.get, SMap.find, if_pos e, Option.getD_some]
    · simp only [SMap.get, SMap.find, if_neg e, ih]

theorem SMap.get_del_same (d : α) (k : Nat) (m : List (Nat × α)) : SMap.get d k (SMap.del k m) = d := by
  rw [SMap.get_eq, SMap.find_del_same, Option.getD_none]

theorem SMap.get_del_other (d : α) {k j : Nat} (h : k ≠ j) (m : List (Nat × α)) :
    SMap.get d k (SMap.del j m) = SMap.get d k m := by
  rw [SMap.get_eq, SMap.find_del_other h, SMap.get_eq]

theorem SMap.get_put_same (d : α) (k : Nat) (v : α) (m : List (Nat × α)) :
    SMap.get d k (SMap.put k v m) = v := by
  rw [SMap.get_eq, SMap.find_put_same, Option.getD_some]

theorem SMap.get_put_other (d : α) {k j : Nat} (h : k ≠ j) (v : α) (m : List (Nat × α)) :
    SMap.get d k (SMap.put j v m) = SMap.get d k m := by
  rw [SMap.get_eq, SMap.find_put_other h, SMap.get_eq]

theorem SMap.get_set_same [DecidableEq α] (d : α) (k : Nat) (v : α) (m : List (Nat × α)) :
    SMap.get d k (SMap.set d k v m) = v := by
  unfold SMap.set
  by_cases h : v = d
  · rw [if_pos h, SMap.get_del_same, h]
  · rw [if_neg h, SMap.get_put_same]

theorem SMap.get_set_other [DecidableEq α] (d : α) {k j : Nat} (h : k ≠ j) (v : α) (m : List (Nat × α)) :
    SMap.get d k (SMap.set d j v m) = SMap.get d k m := by
  unfold SMap.set
  by_cases e : v = d
  · rw [if_pos e, SMap.get_del_other d h]
  · rw [if_neg e, SMap.get_put_other d h]

/-- Of two insertions at a key the last counts. -/
theorem SMap.put_put (k : Nat) (v w : α) (m : List (Nat × α)) : SMap.put k v (SMap.put k w m) = SMap.put k v m := by
  induction m with
  | nil => simp [SMap.put]
  | cons c r ih =>
    obtain ⟨a, x⟩ := c
    by_cases h : k < a
    · simp [SMap.put, h]
    · by_cases e : k = a
      · subst e; simp [SMap.put]
      · simp only [SMap.put, h, e, if_false, ih]

end

end Sys2Proof.Machine
end

