-- ==== Sys2Proof/Laws/Memory.lean ====
section
/-! SUPPORT. The byte memory: reading after writing, and the canonical form that every operation on it keeps. -/

namespace Sys2Proof.Machine

/-! ## The canonical form -/

theorem memWfFrom_mono {m : List Host.Cell} {lo hi : Nat} (h : lo ≤ hi) (w : memWfFrom hi m = true) :
    memWfFrom lo m = true := by
  cases m with
  | nil => rfl
  | cons c r =>
    simp only [memWfFrom, Bool.and_eq_true, decide_eq_true_eq] at *
    exact ⟨⟨Nat.le_trans h w.1.1, w.1.2⟩, w.2⟩

theorem memWfFrom_put {m : List Host.Cell} {lo a : Nat} {b : Byte} (w : memWfFrom lo m = true) (h : lo ≤ a)
    (hb : b ≠ 0) : memWfFrom lo (SMap.put a b m) = true := by
  induction m generalizing lo with
  | nil =>
    simp only [SMap.put, memWfFrom, Bool.and_eq_true, decide_eq_true_eq, bne_iff_ne, and_true]
    exact ⟨h, hb⟩
  | cons c r ih =>
    obtain ⟨k, v⟩ := c
    simp only [memWfFrom, Bool.and_eq_true, decide_eq_true_eq, bne_iff_ne] at w
    obtain ⟨⟨hk, hv⟩, hr⟩ := w
    by_cases l : a < k
    · simp only [SMap.put, l, if_true, memWfFrom, Bool.and_eq_true, decide_eq_true_eq, bne_iff_ne]
      exact ⟨⟨h, hb⟩, ⟨l, hv⟩, hr⟩
    · by_cases e : a = k
      · subst e
        simp only [SMap.put, Nat.lt_irrefl, if_false, if_true, memWfFrom, Bool.and_eq_true, decide_eq_true_eq, bne_iff_ne]
        exact ⟨⟨hk, hb⟩, hr⟩
      · simp only [SMap.put, l, e, if_false, memWfFrom, Bool.and_eq_true, decide_eq_true_eq, bne_iff_ne]
        exact ⟨⟨hk, hv⟩, ih hr (by omega)⟩

theorem memWfFrom_del {m : List Host.Cell} {lo a : Nat} (w : memWfFrom lo m = true) :
    memWfFrom lo (SMap.del a m) = true := by
  induction m generalizing lo with
  | nil => exact w
  | cons c r ih =>
    obtain ⟨k, v⟩ := c
    simp only [memWfFrom, Bool.and_eq_true, decide_eq_true_eq, bne_iff_ne] at w
    obtain ⟨⟨hk, hv⟩, hr⟩ := w
    by_cases e : k = a
    · simp only [SMap.del, e, if_true]; exact ih (memWfFrom_mono (by omega) hr)
    · simp only [SMap.del, e, if_false, memWfFrom, Bool.and_eq_true, decide_eq_true_eq, bne_iff_ne]
      exact ⟨⟨hk, hv⟩, ih hr⟩

theorem memWfFrom_filter {m : List Host.Cell} {lo : Nat} (p : Host.Cell → Bool) (w : memWfFrom lo m = true) :
    memWfFrom lo (m.filter p) = true := by
  induction m generalizing lo with
  | nil => exact w
  | cons c r ih =>
    obtain ⟨k, v⟩ := c
    simp only [memWfFrom, Bool.and_eq_true, decide_eq_true_eq, bne_iff_ne] at w
    obtain ⟨⟨hk, hv⟩, hr⟩ := w
    by_cases e : p (k, v) = true
    · simp only [List.filter_cons, e, if_true, memWfFrom, Bool.and_eq_true, decide_eq_true_eq, bne_iff_ne]
      exact ⟨⟨hk, hv⟩, ih hr⟩
    · simp only [List.filter_cons, e]
      exact memWfFrom_mono (by omega) (ih hr)

/-- Writing a byte keeps the canonical form. -/
theorem memSet_wf {m : List Host.Cell} (a : Nat) (b : Byte) (w : Memory.wf m = true) :
    Memory.wf (memSet m a b) = true := by
  unfold memSet SMap.set
  by_cases h : b = 0
  · simp only [h, if_true]; exact memWfFrom_del w
  · simp only [h, if_false]; exact memWfFrom_put w (Nat.zero_le _) h

/-- Writing bytes keeps the canonical form. -/
theorem memSetAll_wf {m : List Host.Cell} (a : Nat) (l : List Byte) (w : Memory.wf m = true) :
    Memory.wf (memSetAll m a l) = true := by
  induction l generalizing m a with
  | nil => exact w
  | cons b bs ih => exact ih (a + 1) (memSet_wf a b w)

/-- Forgetting a range keeps the canonical form. -/
theorem memFilter_wf {m : List Host.Cell} (p : Host.Cell → Bool) (w : Memory.wf m = true) :
    Memory.wf (m.filter p) = true := memWfFrom_filter p w

/-- The memory after reset is canonical. -/
theorem reset_wf : Memory.wf State.reset.mem.cells = true := rfl

/-! ## Reading after writing -/

/-- A byte written is read back. -/
theorem memGet_memSet_same {m : List Host.Cell} (a : Nat) (b : Byte) : memGet (memSet m a b) a = b :=
  SMap.get_set_same 0 a b m

/-- A byte written elsewhere changes nothing here. -/
theorem memGet_memSet_other {m : List Host.Cell} {a c : Nat} (b : Byte) (h : c ≠ a) :
    memGet (memSet m a b) c = memGet m c := SMap.get_set_other 0 h b m

/-- Bytes written at [a, a + n) change nothing outside. -/
theorem memGet_memSetAll_other {m : List Host.Cell} {a c : Nat} (l : List Byte) (h : c < a ∨ a + l.length ≤ c) :
    memGet (memSetAll m a l) c = memGet m c := by
  induction l generalizing m a with
  | nil => rfl
  | cons b bs ih =>
    simp only [List.length_cons] at h
    rw [memSetAll, ih (by omega), memGet_memSet_other b (by omega)]

/-- Bytes written are read back. -/
theorem memGet_memSetAll_same {m : List Host.Cell} {a : Nat} (l : List Byte) {i : Nat}
    (h : i < l.length) : memGet (memSetAll m a l) (a + i) = l[i] := by
  induction l generalizing m a i with
  | nil => simp at h
  | cons b bs ih =>
    cases i with
    | zero =>
      rw [memSetAll, memGet_memSetAll_other bs (by omega)]
      exact memGet_memSet_same a b
    | succ i =>
      have := ih (m := memSet m a b) (a := a + 1) (i := i) (by simpa using h)
      rw [memSetAll, show a + (i + 1) = a + 1 + i by omega, this]; rfl

end Sys2Proof.Machine
end

