-- ==== Sys2Proof/Laws/State.lean ====
section
/-! SUPPORT. What each update of the state leaves alone, one lemma per field, and what a register reads after a write. -/

namespace Sys2Proof.Machine

variable (s : State)

/-! ### setReg -/

@[simp] theorem State.setReg_pending (p o v w : Nat) : (s.setReg p o v w).pending = s.pending := (rfl)
@[simp] theorem State.setReg_outbox (p o v w : Nat) : (s.setReg p o v w).outbox = s.outbox := (rfl)
@[simp] theorem State.setReg_rsp (p o v w : Nat) : (s.setReg p o v w).rsp = s.rsp := (rfl)
@[simp] theorem State.setReg_told (p o v w : Nat) : (s.setReg p o v w).told = s.told := (rfl)
@[simp] theorem State.setReg_free (p o v w : Nat) : (s.setReg p o v w).free = s.free := (rfl)
@[simp] theorem State.setReg_variant (p o v w : Nat) : (s.setReg p o v w).variant = s.variant := (rfl)
@[simp] theorem State.setReg_mem (p o v w : Nat) : (s.setReg p o v w).mem = s.mem := (rfl)
@[simp] theorem State.setReg_queues (p o v w : Nat) : (s.setReg p o v w).queues = s.queues := (rfl)
@[simp] theorem State.setReg_cmds (p o v w : Nat) : (s.setReg p o v w).cmds = s.cmds := (rfl)
@[simp] theorem State.setReg_nextCmd (p o v w : Nat) : (s.setReg p o v w).nextCmd = s.nextCmd := (rfl)
@[simp] theorem State.setReg_served (p o v w : Nat) : (s.setReg p o v w).served = s.served := (rfl)
@[simp] theorem State.setReg_beat (p o v w : Nat) : (s.setReg p o v w).beat = s.beat := (rfl)
@[simp] theorem State.setReg_arb (p o v w : Nat) : (s.setReg p o v w).arb = s.arb := (rfl)
@[simp] theorem State.setReg_bnd (p o v w : Nat) : (s.setReg p o v w).bnd = s.bnd := (rfl)
@[simp] theorem State.setReg_fab (p o v w : Nat) : (s.setReg p o v w).fab = s.fab := (rfl)
@[simp] theorem State.setReg_pwr (p o v w : Nat) : (s.setReg p o v w).pwr = s.pwr := (rfl)
@[simp] theorem State.setReg_host (p o v w : Nat) : (s.setReg p o v w).host = s.host := (rfl)
@[simp] theorem State.setReg_tempo (p o v w : Nat) : (s.setReg p o v w).tempo = s.tempo := (rfl)
@[simp] theorem State.setReg_twinSt (p o v w : Nat) : (s.setReg p o v w).twinSt = s.twinSt := (rfl)
@[simp] theorem State.setReg_keep (p o v w : Nat) : (s.setReg p o v w).keep = s.keep := (rfl)
@[simp] theorem State.setReg_boot (p o v w : Nat) : (s.setReg p o v w).boot = s.boot := (rfl)
@[simp] theorem State.setReg_plc (p o v w : Nat) : (s.setReg p o v w).plc = s.plc := (rfl)
@[simp] theorem State.setReg_rook (p o v w : Nat) : (s.setReg p o v w).rook = s.rook := (rfl)
@[simp] theorem State.setReg_red (p o v w : Nat) : (s.setReg p o v w).red = s.red := (rfl)
@[simp] theorem State.setReg_scs (p o v w : Nat) : (s.setReg p o v w).scs = s.scs := (rfl)

/-! ### setShadow -/

@[simp] theorem State.setShadow_pending (p o v w : Nat) : (s.setShadow p o v w).pending = s.pending := (rfl)
@[simp] theorem State.setShadow_outbox (p o v w : Nat) : (s.setShadow p o v w).outbox = s.outbox := (rfl)
@[simp] theorem State.setShadow_rsp (p o v w : Nat) : (s.setShadow p o v w).rsp = s.rsp := (rfl)
@[simp] theorem State.setShadow_told (p o v w : Nat) : (s.setShadow p o v w).told = s.told := (rfl)
@[simp] theorem State.setShadow_free (p o v w : Nat) : (s.setShadow p o v w).free = s.free := (rfl)
@[simp] theorem State.setShadow_variant (p o v w : Nat) : (s.setShadow p o v w).variant = s.variant := (rfl)
@[simp] theorem State.setShadow_mem (p o v w : Nat) : (s.setShadow p o v w).mem = s.mem := (rfl)
@[simp] theorem State.setShadow_queues (p o v w : Nat) : (s.setShadow p o v w).queues = s.queues := (rfl)
@[simp] theorem State.setShadow_cmds (p o v w : Nat) : (s.setShadow p o v w).cmds = s.cmds := (rfl)
@[simp] theorem State.setShadow_nextCmd (p o v w : Nat) : (s.setShadow p o v w).nextCmd = s.nextCmd := (rfl)
@[simp] theorem State.setShadow_served (p o v w : Nat) : (s.setShadow p o v w).served = s.served := (rfl)
@[simp] theorem State.setShadow_beat (p o v w : Nat) : (s.setShadow p o v w).beat = s.beat := (rfl)
@[simp] theorem State.setShadow_arb (p o v w : Nat) : (s.setShadow p o v w).arb = s.arb := (rfl)
@[simp] theorem State.setShadow_bnd (p o v w : Nat) : (s.setShadow p o v w).bnd = s.bnd := (rfl)
@[simp] theorem State.setShadow_fab (p o v w : Nat) : (s.setShadow p o v w).fab = s.fab := (rfl)
@[simp] theorem State.setShadow_pwr (p o v w : Nat) : (s.setShadow p o v w).pwr = s.pwr := (rfl)
@[simp] theorem State.setShadow_host (p o v w : Nat) : (s.setShadow p o v w).host = s.host := (rfl)
@[simp] theorem State.setShadow_tempo (p o v w : Nat) : (s.setShadow p o v w).tempo = s.tempo := (rfl)
@[simp] theorem State.setShadow_twinSt (p o v w : Nat) : (s.setShadow p o v w).twinSt = s.twinSt := (rfl)
@[simp] theorem State.setShadow_keep (p o v w : Nat) : (s.setShadow p o v w).keep = s.keep := (rfl)
@[simp] theorem State.setShadow_boot (p o v w : Nat) : (s.setShadow p o v w).boot = s.boot := (rfl)
@[simp] theorem State.setShadow_plc (p o v w : Nat) : (s.setShadow p o v w).plc = s.plc := (rfl)
@[simp] theorem State.setShadow_rook (p o v w : Nat) : (s.setShadow p o v w).rook = s.rook := (rfl)
@[simp] theorem State.setShadow_red (p o v w : Nat) : (s.setShadow p o v w).red = s.red := (rfl)
@[simp] theorem State.setShadow_scs (p o v w : Nat) : (s.setShadow p o v w).scs = s.scs := (rfl)

/-! ### dropShadow -/

@[simp] theorem State.dropShadow_pending (p o w : Nat) : (s.dropShadow p o w).pending = s.pending := (rfl)
@[simp] theorem State.dropShadow_outbox (p o w : Nat) : (s.dropShadow p o w).outbox = s.outbox := (rfl)
@[simp] theorem State.dropShadow_rsp (p o w : Nat) : (s.dropShadow p o w).rsp = s.rsp := (rfl)
@[simp] theorem State.dropShadow_told (p o w : Nat) : (s.dropShadow p o w).told = s.told := (rfl)
@[simp] theorem State.dropShadow_free (p o w : Nat) : (s.dropShadow p o w).free = s.free := (rfl)
@[simp] theorem State.dropShadow_variant (p o w : Nat) : (s.dropShadow p o w).variant = s.variant := (rfl)
@[simp] theorem State.dropShadow_mem (p o w : Nat) : (s.dropShadow p o w).mem = s.mem := (rfl)
@[simp] theorem State.dropShadow_queues (p o w : Nat) : (s.dropShadow p o w).queues = s.queues := (rfl)
@[simp] theorem State.dropShadow_cmds (p o w : Nat) : (s.dropShadow p o w).cmds = s.cmds := (rfl)
@[simp] theorem State.dropShadow_nextCmd (p o w : Nat) : (s.dropShadow p o w).nextCmd = s.nextCmd := (rfl)
@[simp] theorem State.dropShadow_served (p o w : Nat) : (s.dropShadow p o w).served = s.served := (rfl)
@[simp] theorem State.dropShadow_beat (p o w : Nat) : (s.dropShadow p o w).beat = s.beat := (rfl)
@[simp] theorem State.dropShadow_arb (p o w : Nat) : (s.dropShadow p o w).arb = s.arb := (rfl)
@[simp] theorem State.dropShadow_bnd (p o w : Nat) : (s.dropShadow p o w).bnd = s.bnd := (rfl)
@[simp] theorem State.dropShadow_fab (p o w : Nat) : (s.dropShadow p o w).fab = s.fab := (rfl)
@[simp] theorem State.dropShadow_pwr (p o w : Nat) : (s.dropShadow p o w).pwr = s.pwr := (rfl)
@[simp] theorem State.dropShadow_host (p o w : Nat) : (s.dropShadow p o w).host = s.host := (rfl)
@[simp] theorem State.dropShadow_tempo (p o w : Nat) : (s.dropShadow p o w).tempo = s.tempo := (rfl)
@[simp] theorem State.dropShadow_twinSt (p o w : Nat) : (s.dropShadow p o w).twinSt = s.twinSt := (rfl)
@[simp] theorem State.dropShadow_keep (p o w : Nat) : (s.dropShadow p o w).keep = s.keep := (rfl)
@[simp] theorem State.dropShadow_boot (p o w : Nat) : (s.dropShadow p o w).boot = s.boot := (rfl)
@[simp] theorem State.dropShadow_plc (p o w : Nat) : (s.dropShadow p o w).plc = s.plc := (rfl)
@[simp] theorem State.dropShadow_rook (p o w : Nat) : (s.dropShadow p o w).rook = s.rook := (rfl)
@[simp] theorem State.dropShadow_red (p o w : Nat) : (s.dropShadow p o w).red = s.red := (rfl)
@[simp] theorem State.dropShadow_scs (p o w : Nat) : (s.dropShadow p o w).scs = s.scs := (rfl)

/-! ### emit -/

@[simp] theorem State.emit_pending (o : Out) : (s.emit o).pending = s.pending := (rfl)
@[simp] theorem State.emit_rsp (o : Out) : (s.emit o).rsp = s.rsp := (rfl)
@[simp] theorem State.emit_told (o : Out) : (s.emit o).told = s.told := (rfl)
@[simp] theorem State.emit_free (o : Out) : (s.emit o).free = s.free := (rfl)
@[simp] theorem State.emit_variant (o : Out) : (s.emit o).variant = s.variant := (rfl)
@[simp] theorem State.emit_regs (o : Out) : (s.emit o).regs = s.regs := (rfl)
@[simp] theorem State.emit_mem (o : Out) : (s.emit o).mem = s.mem := (rfl)
@[simp] theorem State.emit_queues (o : Out) : (s.emit o).queues = s.queues := (rfl)
@[simp] theorem State.emit_cmds (o : Out) : (s.emit o).cmds = s.cmds := (rfl)
@[simp] theorem State.emit_nextCmd (o : Out) : (s.emit o).nextCmd = s.nextCmd := (rfl)
@[simp] theorem State.emit_served (o : Out) : (s.emit o).served = s.served := (rfl)
@[simp] theorem State.emit_beat (o : Out) : (s.emit o).beat = s.beat := (rfl)
@[simp] theorem State.emit_arb (o : Out) : (s.emit o).arb = s.arb := (rfl)
@[simp] theorem State.emit_bnd (o : Out) : (s.emit o).bnd = s.bnd := (rfl)
@[simp] theorem State.emit_fab (o : Out) : (s.emit o).fab = s.fab := (rfl)
@[simp] theorem State.emit_pwr (o : Out) : (s.emit o).pwr = s.pwr := (rfl)
@[simp] theorem State.emit_host (o : Out) : (s.emit o).host = s.host := (rfl)
@[simp] theorem State.emit_tempo (o : Out) : (s.emit o).tempo = s.tempo := (rfl)
@[simp] theorem State.emit_twinSt (o : Out) : (s.emit o).twinSt = s.twinSt := (rfl)
@[simp] theorem State.emit_keep (o : Out) : (s.emit o).keep = s.keep := (rfl)
@[simp] theorem State.emit_boot (o : Out) : (s.emit o).boot = s.boot := (rfl)
@[simp] theorem State.emit_plc (o : Out) : (s.emit o).plc = s.plc := (rfl)
@[simp] theorem State.emit_rook (o : Out) : (s.emit o).rook = s.rook := (rfl)
@[simp] theorem State.emit_red (o : Out) : (s.emit o).red = s.red := (rfl)
@[simp] theorem State.emit_scs (o : Out) : (s.emit o).scs = s.scs := (rfl)

/-! ### setObj -/

@[simp] theorem State.setObj_pending (k : Nat) (o : ArbObj) : (s.setObj k o).pending = s.pending := (rfl)
@[simp] theorem State.setObj_outbox (k : Nat) (o : ArbObj) : (s.setObj k o).outbox = s.outbox := (rfl)
@[simp] theorem State.setObj_rsp (k : Nat) (o : ArbObj) : (s.setObj k o).rsp = s.rsp := (rfl)
@[simp] theorem State.setObj_told (k : Nat) (o : ArbObj) : (s.setObj k o).told = s.told := (rfl)
@[simp] theorem State.setObj_free (k : Nat) (o : ArbObj) : (s.setObj k o).free = s.free := (rfl)
@[simp] theorem State.setObj_variant (k : Nat) (o : ArbObj) : (s.setObj k o).variant = s.variant := (rfl)
@[simp] theorem State.setObj_regs (k : Nat) (o : ArbObj) : (s.setObj k o).regs = s.regs := (rfl)
@[simp] theorem State.setObj_mem (k : Nat) (o : ArbObj) : (s.setObj k o).mem = s.mem := (rfl)
@[simp] theorem State.setObj_queues (k : Nat) (o : ArbObj) : (s.setObj k o).queues = s.queues := (rfl)
@[simp] theorem State.setObj_cmds (k : Nat) (o : ArbObj) : (s.setObj k o).cmds = s.cmds := (rfl)
@[simp] theorem State.setObj_nextCmd (k : Nat) (o : ArbObj) : (s.setObj k o).nextCmd = s.nextCmd := (rfl)
@[simp] theorem State.setObj_served (k : Nat) (o : ArbObj) : (s.setObj k o).served = s.served := (rfl)
@[simp] theorem State.setObj_beat (k : Nat) (o : ArbObj) : (s.setObj k o).beat = s.beat := (rfl)
@[simp] theorem State.setObj_bnd (k : Nat) (o : ArbObj) : (s.setObj k o).bnd = s.bnd := (rfl)
@[simp] theorem State.setObj_fab (k : Nat) (o : ArbObj) : (s.setObj k o).fab = s.fab := (rfl)
@[simp] theorem State.setObj_pwr (k : Nat) (o : ArbObj) : (s.setObj k o).pwr = s.pwr := (rfl)
@[simp] theorem State.setObj_host (k : Nat) (o : ArbObj) : (s.setObj k o).host = s.host := (rfl)
@[simp] theorem State.setObj_tempo (k : Nat) (o : ArbObj) : (s.setObj k o).tempo = s.tempo := (rfl)
@[simp] theorem State.setObj_twinSt (k : Nat) (o : ArbObj) : (s.setObj k o).twinSt = s.twinSt := (rfl)
@[simp] theorem State.setObj_keep (k : Nat) (o : ArbObj) : (s.setObj k o).keep = s.keep := (rfl)
@[simp] theorem State.setObj_boot (k : Nat) (o : ArbObj) : (s.setObj k o).boot = s.boot := (rfl)
@[simp] theorem State.setObj_plc (k : Nat) (o : ArbObj) : (s.setObj k o).plc = s.plc := (rfl)
@[simp] theorem State.setObj_rook (k : Nat) (o : ArbObj) : (s.setObj k o).rook = s.rook := (rfl)
@[simp] theorem State.setObj_red (k : Nat) (o : ArbObj) : (s.setObj k o).red = s.red := (rfl)
@[simp] theorem State.setObj_scs (k : Nat) (o : ArbObj) : (s.setObj k o).scs = s.scs := (rfl)

/-! ### mapCmd -/

@[simp] theorem State.mapCmd_pending (i : Nat) (f : Cmd → Cmd) : (s.mapCmd i f).pending = s.pending := (rfl)
@[simp] theorem State.mapCmd_outbox (i : Nat) (f : Cmd → Cmd) : (s.mapCmd i f).outbox = s.outbox := (rfl)
@[simp] theorem State.mapCmd_rsp (i : Nat) (f : Cmd → Cmd) : (s.mapCmd i f).rsp = s.rsp := (rfl)
@[simp] theorem State.mapCmd_told (i : Nat) (f : Cmd → Cmd) : (s.mapCmd i f).told = s.told := (rfl)
@[simp] theorem State.mapCmd_free (i : Nat) (f : Cmd → Cmd) : (s.mapCmd i f).free = s.free := (rfl)
@[simp] theorem State.mapCmd_variant (i : Nat) (f : Cmd → Cmd) : (s.mapCmd i f).variant = s.variant := (rfl)
@[simp] theorem State.mapCmd_regs (i : Nat) (f : Cmd → Cmd) : (s.mapCmd i f).regs = s.regs := (rfl)
@[simp] theorem State.mapCmd_mem (i : Nat) (f : Cmd → Cmd) : (s.mapCmd i f).mem = s.mem := (rfl)
@[simp] theorem State.mapCmd_queues (i : Nat) (f : Cmd → Cmd) : (s.mapCmd i f).queues = s.queues := (rfl)
@[simp] theorem State.mapCmd_nextCmd (i : Nat) (f : Cmd → Cmd) : (s.mapCmd i f).nextCmd = s.nextCmd := (rfl)
@[simp] theorem State.mapCmd_served (i : Nat) (f : Cmd → Cmd) : (s.mapCmd i f).served = s.served := (rfl)
@[simp] theorem State.mapCmd_beat (i : Nat) (f : Cmd → Cmd) : (s.mapCmd i f).beat = s.beat := (rfl)
@[simp] theorem State.mapCmd_arb (i : Nat) (f : Cmd → Cmd) : (s.mapCmd i f).arb = s.arb := (rfl)
@[simp] theorem State.mapCmd_bnd (i : Nat) (f : Cmd → Cmd) : (s.mapCmd i f).bnd = s.bnd := (rfl)
@[simp] theorem State.mapCmd_fab (i : Nat) (f : Cmd → Cmd) : (s.mapCmd i f).fab = s.fab := (rfl)
@[simp] theorem State.mapCmd_pwr (i : Nat) (f : Cmd → Cmd) : (s.mapCmd i f).pwr = s.pwr := (rfl)
@[simp] theorem State.mapCmd_host (i : Nat) (f : Cmd → Cmd) : (s.mapCmd i f).host = s.host := (rfl)
@[simp] theorem State.mapCmd_tempo (i : Nat) (f : Cmd → Cmd) : (s.mapCmd i f).tempo = s.tempo := (rfl)
@[simp] theorem State.mapCmd_twinSt (i : Nat) (f : Cmd → Cmd) : (s.mapCmd i f).twinSt = s.twinSt := (rfl)
@[simp] theorem State.mapCmd_keep (i : Nat) (f : Cmd → Cmd) : (s.mapCmd i f).keep = s.keep := (rfl)
@[simp] theorem State.mapCmd_boot (i : Nat) (f : Cmd → Cmd) : (s.mapCmd i f).boot = s.boot := (rfl)
@[simp] theorem State.mapCmd_plc (i : Nat) (f : Cmd → Cmd) : (s.mapCmd i f).plc = s.plc := (rfl)
@[simp] theorem State.mapCmd_rook (i : Nat) (f : Cmd → Cmd) : (s.mapCmd i f).rook = s.rook := (rfl)
@[simp] theorem State.mapCmd_red (i : Nat) (f : Cmd → Cmd) : (s.mapCmd i f).red = s.red := (rfl)
@[simp] theorem State.mapCmd_scs (i : Nat) (f : Cmd → Cmd) : (s.mapCmd i f).scs = s.scs := (rfl)

/-! ### addCmd -/

@[simp] theorem State.addCmd_pending (c : Cmd) : (s.addCmd c).pending = s.pending := (rfl)
@[simp] theorem State.addCmd_outbox (c : Cmd) : (s.addCmd c).outbox = s.outbox := (rfl)
@[simp] theorem State.addCmd_rsp (c : Cmd) : (s.addCmd c).rsp = s.rsp := (rfl)
@[simp] theorem State.addCmd_told (c : Cmd) : (s.addCmd c).told = s.told := (rfl)
@[simp] theorem State.addCmd_free (c : Cmd) : (s.addCmd c).free = s.free := (rfl)
@[simp] theorem State.addCmd_variant (c : Cmd) : (s.addCmd c).variant = s.variant := (rfl)
@[simp] theorem State.addCmd_regs (c : Cmd) : (s.addCmd c).regs = s.regs := (rfl)
@[simp] theorem State.addCmd_mem (c : Cmd) : (s.addCmd c).mem = s.mem := (rfl)
@[simp] theorem State.addCmd_queues (c : Cmd) : (s.addCmd c).queues = s.queues := (rfl)
@[simp] theorem State.addCmd_nextCmd (c : Cmd) : (s.addCmd c).nextCmd = s.nextCmd := (rfl)
@[simp] theorem State.addCmd_served (c : Cmd) : (s.addCmd c).served = s.served := (rfl)
@[simp] theorem State.addCmd_beat (c : Cmd) : (s.addCmd c).beat = s.beat := (rfl)
@[simp] theorem State.addCmd_arb (c : Cmd) : (s.addCmd c).arb = s.arb := (rfl)
@[simp] theorem State.addCmd_bnd (c : Cmd) : (s.addCmd c).bnd = s.bnd := (rfl)
@[simp] theorem State.addCmd_fab (c : Cmd) : (s.addCmd c).fab = s.fab := (rfl)
@[simp] theorem State.addCmd_pwr (c : Cmd) : (s.addCmd c).pwr = s.pwr := (rfl)
@[simp] theorem State.addCmd_host (c : Cmd) : (s.addCmd c).host = s.host := (rfl)
@[simp] theorem State.addCmd_tempo (c : Cmd) : (s.addCmd c).tempo = s.tempo := (rfl)
@[simp] theorem State.addCmd_twinSt (c : Cmd) : (s.addCmd c).twinSt = s.twinSt := (rfl)
@[simp] theorem State.addCmd_keep (c : Cmd) : (s.addCmd c).keep = s.keep := (rfl)
@[simp] theorem State.addCmd_boot (c : Cmd) : (s.addCmd c).boot = s.boot := (rfl)
@[simp] theorem State.addCmd_plc (c : Cmd) : (s.addCmd c).plc = s.plc := (rfl)
@[simp] theorem State.addCmd_rook (c : Cmd) : (s.addCmd c).rook = s.rook := (rfl)
@[simp] theorem State.addCmd_red (c : Cmd) : (s.addCmd c).red = s.red := (rfl)
@[simp] theorem State.addCmd_scs (c : Cmd) : (s.addCmd c).scs = s.scs := (rfl)

/-! ### setQst -/

@[simp] theorem State.setQst_pending (q : Nat) (x : QState) : (s.setQst q x).pending = s.pending := (rfl)
@[simp] theorem State.setQst_outbox (q : Nat) (x : QState) : (s.setQst q x).outbox = s.outbox := (rfl)
@[simp] theorem State.setQst_rsp (q : Nat) (x : QState) : (s.setQst q x).rsp = s.rsp := (rfl)
@[simp] theorem State.setQst_told (q : Nat) (x : QState) : (s.setQst q x).told = s.told := (rfl)
@[simp] theorem State.setQst_free (q : Nat) (x : QState) : (s.setQst q x).free = s.free := (rfl)
@[simp] theorem State.setQst_variant (q : Nat) (x : QState) : (s.setQst q x).variant = s.variant := (rfl)
@[simp] theorem State.setQst_regs (q : Nat) (x : QState) : (s.setQst q x).regs = s.regs := (rfl)
@[simp] theorem State.setQst_mem (q : Nat) (x : QState) : (s.setQst q x).mem = s.mem := (rfl)
@[simp] theorem State.setQst_cmds (q : Nat) (x : QState) : (s.setQst q x).cmds = s.cmds := (rfl)
@[simp] theorem State.setQst_nextCmd (q : Nat) (x : QState) : (s.setQst q x).nextCmd = s.nextCmd := (rfl)
@[simp] theorem State.setQst_served (q : Nat) (x : QState) : (s.setQst q x).served = s.served := (rfl)
@[simp] theorem State.setQst_beat (q : Nat) (x : QState) : (s.setQst q x).beat = s.beat := (rfl)
@[simp] theorem State.setQst_arb (q : Nat) (x : QState) : (s.setQst q x).arb = s.arb := (rfl)
@[simp] theorem State.setQst_bnd (q : Nat) (x : QState) : (s.setQst q x).bnd = s.bnd := (rfl)
@[simp] theorem State.setQst_fab (q : Nat) (x : QState) : (s.setQst q x).fab = s.fab := (rfl)
@[simp] theorem State.setQst_pwr (q : Nat) (x : QState) : (s.setQst q x).pwr = s.pwr := (rfl)
@[simp] theorem State.setQst_host (q : Nat) (x : QState) : (s.setQst q x).host = s.host := (rfl)
@[simp] theorem State.setQst_tempo (q : Nat) (x : QState) : (s.setQst q x).tempo = s.tempo := (rfl)
@[simp] theorem State.setQst_twinSt (q : Nat) (x : QState) : (s.setQst q x).twinSt = s.twinSt := (rfl)
@[simp] theorem State.setQst_keep (q : Nat) (x : QState) : (s.setQst q x).keep = s.keep := (rfl)
@[simp] theorem State.setQst_boot (q : Nat) (x : QState) : (s.setQst q x).boot = s.boot := (rfl)
@[simp] theorem State.setQst_plc (q : Nat) (x : QState) : (s.setQst q x).plc = s.plc := (rfl)
@[simp] theorem State.setQst_rook (q : Nat) (x : QState) : (s.setQst q x).rook = s.rook := (rfl)
@[simp] theorem State.setQst_red (q : Nat) (x : QState) : (s.setQst q x).red = s.red := (rfl)
@[simp] theorem State.setQst_scs (q : Nat) (x : QState) : (s.setQst q x).scs = s.scs := (rfl)

/-! ### setSqp -/

@[simp] theorem State.setSqp_pending (m : Nat) (x : SqPwr) : (s.setSqp m x).pending = s.pending := (rfl)
@[simp] theorem State.setSqp_outbox (m : Nat) (x : SqPwr) : (s.setSqp m x).outbox = s.outbox := (rfl)
@[simp] theorem State.setSqp_rsp (m : Nat) (x : SqPwr) : (s.setSqp m x).rsp = s.rsp := (rfl)
@[simp] theorem State.setSqp_told (m : Nat) (x : SqPwr) : (s.setSqp m x).told = s.told := (rfl)
@[simp] theorem State.setSqp_free (m : Nat) (x : SqPwr) : (s.setSqp m x).free = s.free := (rfl)
@[simp] theorem State.setSqp_variant (m : Nat) (x : SqPwr) : (s.setSqp m x).variant = s.variant := (rfl)
@[simp] theorem State.setSqp_regs (m : Nat) (x : SqPwr) : (s.setSqp m x).regs = s.regs := (rfl)
@[simp] theorem State.setSqp_mem (m : Nat) (x : SqPwr) : (s.setSqp m x).mem = s.mem := (rfl)
@[simp] theorem State.setSqp_queues (m : Nat) (x : SqPwr) : (s.setSqp m x).queues = s.queues := (rfl)
@[simp] theorem State.setSqp_cmds (m : Nat) (x : SqPwr) : (s.setSqp m x).cmds = s.cmds := (rfl)
@[simp] theorem State.setSqp_nextCmd (m : Nat) (x : SqPwr) : (s.setSqp m x).nextCmd = s.nextCmd := (rfl)
@[simp] theorem State.setSqp_served (m : Nat) (x : SqPwr) : (s.setSqp m x).served = s.served := (rfl)
@[simp] theorem State.setSqp_beat (m : Nat) (x : SqPwr) : (s.setSqp m x).beat = s.beat := (rfl)
@[simp] theorem State.setSqp_arb (m : Nat) (x : SqPwr) : (s.setSqp m x).arb = s.arb := (rfl)
@[simp] theorem State.setSqp_bnd (m : Nat) (x : SqPwr) : (s.setSqp m x).bnd = s.bnd := (rfl)
@[simp] theorem State.setSqp_fab (m : Nat) (x : SqPwr) : (s.setSqp m x).fab = s.fab := (rfl)
@[simp] theorem State.setSqp_host (m : Nat) (x : SqPwr) : (s.setSqp m x).host = s.host := (rfl)
@[simp] theorem State.setSqp_tempo (m : Nat) (x : SqPwr) : (s.setSqp m x).tempo = s.tempo := (rfl)
@[simp] theorem State.setSqp_twinSt (m : Nat) (x : SqPwr) : (s.setSqp m x).twinSt = s.twinSt := (rfl)
@[simp] theorem State.setSqp_keep (m : Nat) (x : SqPwr) : (s.setSqp m x).keep = s.keep := (rfl)
@[simp] theorem State.setSqp_boot (m : Nat) (x : SqPwr) : (s.setSqp m x).boot = s.boot := (rfl)
@[simp] theorem State.setSqp_plc (m : Nat) (x : SqPwr) : (s.setSqp m x).plc = s.plc := (rfl)
@[simp] theorem State.setSqp_rook (m : Nat) (x : SqPwr) : (s.setSqp m x).rook = s.rook := (rfl)
@[simp] theorem State.setSqp_red (m : Nat) (x : SqPwr) : (s.setSqp m x).red = s.red := (rfl)
@[simp] theorem State.setSqp_scs (m : Nat) (x : SqPwr) : (s.setSqp m x).scs = s.scs := (rfl)

/-! ### setPort -/

@[simp] theorem State.setPort_pending (p : Nat) (x : Port) : (s.setPort p x).pending = s.pending := (rfl)
@[simp] theorem State.setPort_outbox (p : Nat) (x : Port) : (s.setPort p x).outbox = s.outbox := (rfl)
@[simp] theorem State.setPort_rsp (p : Nat) (x : Port) : (s.setPort p x).rsp = s.rsp := (rfl)
@[simp] theorem State.setPort_told (p : Nat) (x : Port) : (s.setPort p x).told = s.told := (rfl)
@[simp] theorem State.setPort_free (p : Nat) (x : Port) : (s.setPort p x).free = s.free := (rfl)
@[simp] theorem State.setPort_variant (p : Nat) (x : Port) : (s.setPort p x).variant = s.variant := (rfl)
@[simp] theorem State.setPort_regs (p : Nat) (x : Port) : (s.setPort p x).regs = s.regs := (rfl)
@[simp] theorem State.setPort_mem (p : Nat) (x : Port) : (s.setPort p x).mem = s.mem := (rfl)
@[simp] theorem State.setPort_queues (p : Nat) (x : Port) : (s.setPort p x).queues = s.queues := (rfl)
@[simp] theorem State.setPort_cmds (p : Nat) (x : Port) : (s.setPort p x).cmds = s.cmds := (rfl)
@[simp] theorem State.setPort_nextCmd (p : Nat) (x : Port) : (s.setPort p x).nextCmd = s.nextCmd := (rfl)
@[simp] theorem State.setPort_served (p : Nat) (x : Port) : (s.setPort p x).served = s.served := (rfl)
@[simp] theorem State.setPort_beat (p : Nat) (x : Port) : (s.setPort p x).beat = s.beat := (rfl)
@[simp] theorem State.setPort_arb (p : Nat) (x : Port) : (s.setPort p x).arb = s.arb := (rfl)
@[simp] theorem State.setPort_bnd (p : Nat) (x : Port) : (s.setPort p x).bnd = s.bnd := (rfl)
@[simp] theorem State.setPort_pwr (p : Nat) (x : Port) : (s.setPort p x).pwr = s.pwr := (rfl)
@[simp] theorem State.setPort_host (p : Nat) (x : Port) : (s.setPort p x).host = s.host := (rfl)
@[simp] theorem State.setPort_tempo (p : Nat) (x : Port) : (s.setPort p x).tempo = s.tempo := (rfl)
@[simp] theorem State.setPort_twinSt (p : Nat) (x : Port) : (s.setPort p x).twinSt = s.twinSt := (rfl)
@[simp] theorem State.setPort_keep (p : Nat) (x : Port) : (s.setPort p x).keep = s.keep := (rfl)
@[simp] theorem State.setPort_boot (p : Nat) (x : Port) : (s.setPort p x).boot = s.boot := (rfl)
@[simp] theorem State.setPort_plc (p : Nat) (x : Port) : (s.setPort p x).plc = s.plc := (rfl)
@[simp] theorem State.setPort_rook (p : Nat) (x : Port) : (s.setPort p x).rook = s.rook := (rfl)
@[simp] theorem State.setPort_red (p : Nat) (x : Port) : (s.setPort p x).red = s.red := (rfl)
@[simp] theorem State.setPort_scs (p : Nat) (x : Port) : (s.setPort p x).scs = s.scs := (rfl)

/-! ### setTx -/

@[simp] theorem State.setTx_pending (m vc : Nat) (x : TxStream) : (s.setTx m vc x).pending = s.pending := (rfl)
@[simp] theorem State.setTx_outbox (m vc : Nat) (x : TxStream) : (s.setTx m vc x).outbox = s.outbox := (rfl)
@[simp] theorem State.setTx_rsp (m vc : Nat) (x : TxStream) : (s.setTx m vc x).rsp = s.rsp := (rfl)
@[simp] theorem State.setTx_told (m vc : Nat) (x : TxStream) : (s.setTx m vc x).told = s.told := (rfl)
@[simp] theorem State.setTx_free (m vc : Nat) (x : TxStream) : (s.setTx m vc x).free = s.free := (rfl)
@[simp] theorem State.setTx_variant (m vc : Nat) (x : TxStream) : (s.setTx m vc x).variant = s.variant := (rfl)
@[simp] theorem State.setTx_regs (m vc : Nat) (x : TxStream) : (s.setTx m vc x).regs = s.regs := (rfl)
@[simp] theorem State.setTx_mem (m vc : Nat) (x : TxStream) : (s.setTx m vc x).mem = s.mem := (rfl)
@[simp] theorem State.setTx_queues (m vc : Nat) (x : TxStream) : (s.setTx m vc x).queues = s.queues := (rfl)
@[simp] theorem State.setTx_cmds (m vc : Nat) (x : TxStream) : (s.setTx m vc x).cmds = s.cmds := (rfl)
@[simp] theorem State.setTx_nextCmd (m vc : Nat) (x : TxStream) : (s.setTx m vc x).nextCmd = s.nextCmd := (rfl)
@[simp] theorem State.setTx_served (m vc : Nat) (x : TxStream) : (s.setTx m vc x).served = s.served := (rfl)
@[simp] theorem State.setTx_beat (m vc : Nat) (x : TxStream) : (s.setTx m vc x).beat = s.beat := (rfl)
@[simp] theorem State.setTx_arb (m vc : Nat) (x : TxStream) : (s.setTx m vc x).arb = s.arb := (rfl)
@[simp] theorem State.setTx_bnd (m vc : Nat) (x : TxStream) : (s.setTx m vc x).bnd = s.bnd := (rfl)
@[simp] theorem State.setTx_pwr (m vc : Nat) (x : TxStream) : (s.setTx m vc x).pwr = s.pwr := (rfl)
@[simp] theorem State.setTx_host (m vc : Nat) (x : TxStream) : (s.setTx m vc x).host = s.host := (rfl)
@[simp] theorem State.setTx_tempo (m vc : Nat) (x : TxStream) : (s.setTx m vc x).tempo = s.tempo := (rfl)
@[simp] theorem State.setTx_twinSt (m vc : Nat) (x : TxStream) : (s.setTx m vc x).twinSt = s.twinSt := (rfl)
@[simp] theorem State.setTx_keep (m vc : Nat) (x : TxStream) : (s.setTx m vc x).keep = s.keep := (rfl)
@[simp] theorem State.setTx_boot (m vc : Nat) (x : TxStream) : (s.setTx m vc x).boot = s.boot := (rfl)
@[simp] theorem State.setTx_plc (m vc : Nat) (x : TxStream) : (s.setTx m vc x).plc = s.plc := (rfl)
@[simp] theorem State.setTx_rook (m vc : Nat) (x : TxStream) : (s.setTx m vc x).rook = s.rook := (rfl)
@[simp] theorem State.setTx_red (m vc : Nat) (x : TxStream) : (s.setTx m vc x).red = s.red := (rfl)
@[simp] theorem State.setTx_scs (m vc : Nat) (x : TxStream) : (s.setTx m vc x).scs = s.scs := (rfl)

/-! ### setRx -/

@[simp] theorem State.setRx_pending (m vc : Nat) (x : RxStream) : (s.setRx m vc x).pending = s.pending := (rfl)
@[simp] theorem State.setRx_outbox (m vc : Nat) (x : RxStream) : (s.setRx m vc x).outbox = s.outbox := (rfl)
@[simp] theorem State.setRx_rsp (m vc : Nat) (x : RxStream) : (s.setRx m vc x).rsp = s.rsp := (rfl)
@[simp] theorem State.setRx_told (m vc : Nat) (x : RxStream) : (s.setRx m vc x).told = s.told := (rfl)
@[simp] theorem State.setRx_free (m vc : Nat) (x : RxStream) : (s.setRx m vc x).free = s.free := (rfl)
@[simp] theorem State.setRx_variant (m vc : Nat) (x : RxStream) : (s.setRx m vc x).variant = s.variant := (rfl)
@[simp] theorem State.setRx_regs (m vc : Nat) (x : RxStream) : (s.setRx m vc x).regs = s.regs := (rfl)
@[simp] theorem State.setRx_mem (m vc : Nat) (x : RxStream) : (s.setRx m vc x).mem = s.mem := (rfl)
@[simp] theorem State.setRx_queues (m vc : Nat) (x : RxStream) : (s.setRx m vc x).queues = s.queues := (rfl)
@[simp] theorem State.setRx_cmds (m vc : Nat) (x : RxStream) : (s.setRx m vc x).cmds = s.cmds := (rfl)
@[simp] theorem State.setRx_nextCmd (m vc : Nat) (x : RxStream) : (s.setRx m vc x).nextCmd = s.nextCmd := (rfl)
@[simp] theorem State.setRx_served (m vc : Nat) (x : RxStream) : (s.setRx m vc x).served = s.served := (rfl)
@[simp] theorem State.setRx_beat (m vc : Nat) (x : RxStream) : (s.setRx m vc x).beat = s.beat := (rfl)
@[simp] theorem State.setRx_arb (m vc : Nat) (x : RxStream) : (s.setRx m vc x).arb = s.arb := (rfl)
@[simp] theorem State.setRx_bnd (m vc : Nat) (x : RxStream) : (s.setRx m vc x).bnd = s.bnd := (rfl)
@[simp] theorem State.setRx_pwr (m vc : Nat) (x : RxStream) : (s.setRx m vc x).pwr = s.pwr := (rfl)
@[simp] theorem State.setRx_host (m vc : Nat) (x : RxStream) : (s.setRx m vc x).host = s.host := (rfl)
@[simp] theorem State.setRx_tempo (m vc : Nat) (x : RxStream) : (s.setRx m vc x).tempo = s.tempo := (rfl)
@[simp] theorem State.setRx_twinSt (m vc : Nat) (x : RxStream) : (s.setRx m vc x).twinSt = s.twinSt := (rfl)
@[simp] theorem State.setRx_keep (m vc : Nat) (x : RxStream) : (s.setRx m vc x).keep = s.keep := (rfl)
@[simp] theorem State.setRx_boot (m vc : Nat) (x : RxStream) : (s.setRx m vc x).boot = s.boot := (rfl)
@[simp] theorem State.setRx_plc (m vc : Nat) (x : RxStream) : (s.setRx m vc x).plc = s.plc := (rfl)
@[simp] theorem State.setRx_rook (m vc : Nat) (x : RxStream) : (s.setRx m vc x).rook = s.rook := (rfl)
@[simp] theorem State.setRx_red (m vc : Nat) (x : RxStream) : (s.setRx m vc x).red = s.red := (rfl)
@[simp] theorem State.setRx_scs (m vc : Nat) (x : RxStream) : (s.setRx m vc x).scs = s.scs := (rfl)

/-! ### setJob -/

@[simp] theorem State.setJob_pending (j : Nat) (x : JobInfo) : (s.setJob j x).pending = s.pending := (rfl)
@[simp] theorem State.setJob_outbox (j : Nat) (x : JobInfo) : (s.setJob j x).outbox = s.outbox := (rfl)
@[simp] theorem State.setJob_rsp (j : Nat) (x : JobInfo) : (s.setJob j x).rsp = s.rsp := (rfl)
@[simp] theorem State.setJob_told (j : Nat) (x : JobInfo) : (s.setJob j x).told = s.told := (rfl)
@[simp] theorem State.setJob_free (j : Nat) (x : JobInfo) : (s.setJob j x).free = s.free := (rfl)
@[simp] theorem State.setJob_variant (j : Nat) (x : JobInfo) : (s.setJob j x).variant = s.variant := (rfl)
@[simp] theorem State.setJob_regs (j : Nat) (x : JobInfo) : (s.setJob j x).regs = s.regs := (rfl)
@[simp] theorem State.setJob_mem (j : Nat) (x : JobInfo) : (s.setJob j x).mem = s.mem := (rfl)
@[simp] theorem State.setJob_queues (j : Nat) (x : JobInfo) : (s.setJob j x).queues = s.queues := (rfl)
@[simp] theorem State.setJob_cmds (j : Nat) (x : JobInfo) : (s.setJob j x).cmds = s.cmds := (rfl)
@[simp] theorem State.setJob_nextCmd (j : Nat) (x : JobInfo) : (s.setJob j x).nextCmd = s.nextCmd := (rfl)
@[simp] theorem State.setJob_served (j : Nat) (x : JobInfo) : (s.setJob j x).served = s.served := (rfl)
@[simp] theorem State.setJob_beat (j : Nat) (x : JobInfo) : (s.setJob j x).beat = s.beat := (rfl)
@[simp] theorem State.setJob_arb (j : Nat) (x : JobInfo) : (s.setJob j x).arb = s.arb := (rfl)
@[simp] theorem State.setJob_fab (j : Nat) (x : JobInfo) : (s.setJob j x).fab = s.fab := (rfl)
@[simp] theorem State.setJob_pwr (j : Nat) (x : JobInfo) : (s.setJob j x).pwr = s.pwr := (rfl)
@[simp] theorem State.setJob_host (j : Nat) (x : JobInfo) : (s.setJob j x).host = s.host := (rfl)
@[simp] theorem State.setJob_tempo (j : Nat) (x : JobInfo) : (s.setJob j x).tempo = s.tempo := (rfl)
@[simp] theorem State.setJob_twinSt (j : Nat) (x : JobInfo) : (s.setJob j x).twinSt = s.twinSt := (rfl)
@[simp] theorem State.setJob_keep (j : Nat) (x : JobInfo) : (s.setJob j x).keep = s.keep := (rfl)
@[simp] theorem State.setJob_boot (j : Nat) (x : JobInfo) : (s.setJob j x).boot = s.boot := (rfl)
@[simp] theorem State.setJob_plc (j : Nat) (x : JobInfo) : (s.setJob j x).plc = s.plc := (rfl)
@[simp] theorem State.setJob_rook (j : Nat) (x : JobInfo) : (s.setJob j x).rook = s.rook := (rfl)
@[simp] theorem State.setJob_red (j : Nat) (x : JobInfo) : (s.setJob j x).red = s.red := (rfl)
@[simp] theorem State.setJob_scs (j : Nat) (x : JobInfo) : (s.setJob j x).scs = s.scs := (rfl)

/-! ### setPlc -/

@[simp] theorem State.setPlc_pending (x : PlcState) : (s.setPlc x).pending = s.pending := (rfl)
@[simp] theorem State.setPlc_outbox (x : PlcState) : (s.setPlc x).outbox = s.outbox := (rfl)
@[simp] theorem State.setPlc_rsp (x : PlcState) : (s.setPlc x).rsp = s.rsp := (rfl)
@[simp] theorem State.setPlc_told (x : PlcState) : (s.setPlc x).told = s.told := (rfl)
@[simp] theorem State.setPlc_free (x : PlcState) : (s.setPlc x).free = s.free := (rfl)
@[simp] theorem State.setPlc_variant (x : PlcState) : (s.setPlc x).variant = s.variant := (rfl)
@[simp] theorem State.setPlc_regs (x : PlcState) : (s.setPlc x).regs = s.regs := (rfl)
@[simp] theorem State.setPlc_mem (x : PlcState) : (s.setPlc x).mem = s.mem := (rfl)
@[simp] theorem State.setPlc_queues (x : PlcState) : (s.setPlc x).queues = s.queues := (rfl)
@[simp] theorem State.setPlc_cmds (x : PlcState) : (s.setPlc x).cmds = s.cmds := (rfl)
@[simp] theorem State.setPlc_nextCmd (x : PlcState) : (s.setPlc x).nextCmd = s.nextCmd := (rfl)
@[simp] theorem State.setPlc_served (x : PlcState) : (s.setPlc x).served = s.served := (rfl)
@[simp] theorem State.setPlc_beat (x : PlcState) : (s.setPlc x).beat = s.beat := (rfl)
@[simp] theorem State.setPlc_arb (x : PlcState) : (s.setPlc x).arb = s.arb := (rfl)
@[simp] theorem State.setPlc_bnd (x : PlcState) : (s.setPlc x).bnd = s.bnd := (rfl)
@[simp] theorem State.setPlc_fab (x : PlcState) : (s.setPlc x).fab = s.fab := (rfl)
@[simp] theorem State.setPlc_pwr (x : PlcState) : (s.setPlc x).pwr = s.pwr := (rfl)
@[simp] theorem State.setPlc_host (x : PlcState) : (s.setPlc x).host = s.host := (rfl)
@[simp] theorem State.setPlc_tempo (x : PlcState) : (s.setPlc x).tempo = s.tempo := (rfl)
@[simp] theorem State.setPlc_twinSt (x : PlcState) : (s.setPlc x).twinSt = s.twinSt := (rfl)
@[simp] theorem State.setPlc_keep (x : PlcState) : (s.setPlc x).keep = s.keep := (rfl)
@[simp] theorem State.setPlc_boot (x : PlcState) : (s.setPlc x).boot = s.boot := (rfl)
@[simp] theorem State.setPlc_rook (x : PlcState) : (s.setPlc x).rook = s.rook := (rfl)
@[simp] theorem State.setPlc_red (x : PlcState) : (s.setPlc x).red = s.red := (rfl)
@[simp] theorem State.setPlc_scs (x : PlcState) : (s.setPlc x).scs = s.scs := (rfl)

/-! ### setBoot -/

@[simp] theorem State.setBoot_pending (x : BootState) : (s.setBoot x).pending = s.pending := (rfl)
@[simp] theorem State.setBoot_outbox (x : BootState) : (s.setBoot x).outbox = s.outbox := (rfl)
@[simp] theorem State.setBoot_rsp (x : BootState) : (s.setBoot x).rsp = s.rsp := (rfl)
@[simp] theorem State.setBoot_told (x : BootState) : (s.setBoot x).told = s.told := (rfl)
@[simp] theorem State.setBoot_free (x : BootState) : (s.setBoot x).free = s.free := (rfl)
@[simp] theorem State.setBoot_variant (x : BootState) : (s.setBoot x).variant = s.variant := (rfl)
@[simp] theorem State.setBoot_regs (x : BootState) : (s.setBoot x).regs = s.regs := (rfl)
@[simp] theorem State.setBoot_mem (x : BootState) : (s.setBoot x).mem = s.mem := (rfl)
@[simp] theorem State.setBoot_queues (x : BootState) : (s.setBoot x).queues = s.queues := (rfl)
@[simp] theorem State.setBoot_cmds (x : BootState) : (s.setBoot x).cmds = s.cmds := (rfl)
@[simp] theorem State.setBoot_nextCmd (x : BootState) : (s.setBoot x).nextCmd = s.nextCmd := (rfl)
@[simp] theorem State.setBoot_served (x : BootState) : (s.setBoot x).served = s.served := (rfl)
@[simp] theorem State.setBoot_beat (x : BootState) : (s.setBoot x).beat = s.beat := (rfl)
@[simp] theorem State.setBoot_arb (x : BootState) : (s.setBoot x).arb = s.arb := (rfl)
@[simp] theorem State.setBoot_bnd (x : BootState) : (s.setBoot x).bnd = s.bnd := (rfl)
@[simp] theorem State.setBoot_fab (x : BootState) : (s.setBoot x).fab = s.fab := (rfl)
@[simp] theorem State.setBoot_pwr (x : BootState) : (s.setBoot x).pwr = s.pwr := (rfl)
@[simp] theorem State.setBoot_host (x : BootState) : (s.setBoot x).host = s.host := (rfl)
@[simp] theorem State.setBoot_tempo (x : BootState) : (s.setBoot x).tempo = s.tempo := (rfl)
@[simp] theorem State.setBoot_twinSt (x : BootState) : (s.setBoot x).twinSt = s.twinSt := (rfl)
@[simp] theorem State.setBoot_keep (x : BootState) : (s.setBoot x).keep = s.keep := (rfl)
@[simp] theorem State.setBoot_plc (x : BootState) : (s.setBoot x).plc = s.plc := (rfl)
@[simp] theorem State.setBoot_rook (x : BootState) : (s.setBoot x).rook = s.rook := (rfl)
@[simp] theorem State.setBoot_red (x : BootState) : (s.setBoot x).red = s.red := (rfl)
@[simp] theorem State.setBoot_scs (x : BootState) : (s.setBoot x).scs = s.scs := (rfl)

/-! ### setCtx -/

@[simp] theorem State.setCtx_pending (k : Nat) (x : RedCtx) : (s.setCtx k x).pending = s.pending := (rfl)
@[simp] theorem State.setCtx_outbox (k : Nat) (x : RedCtx) : (s.setCtx k x).outbox = s.outbox := (rfl)
@[simp] theorem State.setCtx_rsp (k : Nat) (x : RedCtx) : (s.setCtx k x).rsp = s.rsp := (rfl)
@[simp] theorem State.setCtx_told (k : Nat) (x : RedCtx) : (s.setCtx k x).told = s.told := (rfl)
@[simp] theorem State.setCtx_free (k : Nat) (x : RedCtx) : (s.setCtx k x).free = s.free := (rfl)
@[simp] theorem State.setCtx_variant (k : Nat) (x : RedCtx) : (s.setCtx k x).variant = s.variant := (rfl)
@[simp] theorem State.setCtx_regs (k : Nat) (x : RedCtx) : (s.setCtx k x).regs = s.regs := (rfl)
@[simp] theorem State.setCtx_mem (k : Nat) (x : RedCtx) : (s.setCtx k x).mem = s.mem := (rfl)
@[simp] theorem State.setCtx_queues (k : Nat) (x : RedCtx) : (s.setCtx k x).queues = s.queues := (rfl)
@[simp] theorem State.setCtx_cmds (k : Nat) (x : RedCtx) : (s.setCtx k x).cmds = s.cmds := (rfl)
@[simp] theorem State.setCtx_nextCmd (k : Nat) (x : RedCtx) : (s.setCtx k x).nextCmd = s.nextCmd := (rfl)
@[simp] theorem State.setCtx_served (k : Nat) (x : RedCtx) : (s.setCtx k x).served = s.served := (rfl)
@[simp] theorem State.setCtx_beat (k : Nat) (x : RedCtx) : (s.setCtx k x).beat = s.beat := (rfl)
@[simp] theorem State.setCtx_arb (k : Nat) (x : RedCtx) : (s.setCtx k x).arb = s.arb := (rfl)
@[simp] theorem State.setCtx_bnd (k : Nat) (x : RedCtx) : (s.setCtx k x).bnd = s.bnd := (rfl)
@[simp] theorem State.setCtx_fab (k : Nat) (x : RedCtx) : (s.setCtx k x).fab = s.fab := (rfl)
@[simp] theorem State.setCtx_pwr (k : Nat) (x : RedCtx) : (s.setCtx k x).pwr = s.pwr := (rfl)
@[simp] theorem State.setCtx_host (k : Nat) (x : RedCtx) : (s.setCtx k x).host = s.host := (rfl)
@[simp] theorem State.setCtx_tempo (k : Nat) (x : RedCtx) : (s.setCtx k x).tempo = s.tempo := (rfl)
@[simp] theorem State.setCtx_twinSt (k : Nat) (x : RedCtx) : (s.setCtx k x).twinSt = s.twinSt := (rfl)
@[simp] theorem State.setCtx_keep (k : Nat) (x : RedCtx) : (s.setCtx k x).keep = s.keep := (rfl)
@[simp] theorem State.setCtx_boot (k : Nat) (x : RedCtx) : (s.setCtx k x).boot = s.boot := (rfl)
@[simp] theorem State.setCtx_plc (k : Nat) (x : RedCtx) : (s.setCtx k x).plc = s.plc := (rfl)
@[simp] theorem State.setCtx_rook (k : Nat) (x : RedCtx) : (s.setCtx k x).rook = s.rook := (rfl)
@[simp] theorem State.setCtx_scs (k : Nat) (x : RedCtx) : (s.setCtx k x).scs = s.scs := (rfl)

/-! ### setSheet -/

@[simp] theorem State.setSheet_pending (m : Nat) (x : ScsState) : (s.setSheet m x).pending = s.pending := (rfl)
@[simp] theorem State.setSheet_outbox (m : Nat) (x : ScsState) : (s.setSheet m x).outbox = s.outbox := (rfl)
@[simp] theorem State.setSheet_rsp (m : Nat) (x : ScsState) : (s.setSheet m x).rsp = s.rsp := (rfl)
@[simp] theorem State.setSheet_told (m : Nat) (x : ScsState) : (s.setSheet m x).told = s.told := (rfl)
@[simp] theorem State.setSheet_free (m : Nat) (x : ScsState) : (s.setSheet m x).free = s.free := (rfl)
@[simp] theorem State.setSheet_variant (m : Nat) (x : ScsState) : (s.setSheet m x).variant = s.variant := (rfl)
@[simp] theorem State.setSheet_regs (m : Nat) (x : ScsState) : (s.setSheet m x).regs = s.regs := (rfl)
@[simp] theorem State.setSheet_mem (m : Nat) (x : ScsState) : (s.setSheet m x).mem = s.mem := (rfl)
@[simp] theorem State.setSheet_queues (m : Nat) (x : ScsState) : (s.setSheet m x).queues = s.queues := (rfl)
@[simp] theorem State.setSheet_cmds (m : Nat) (x : ScsState) : (s.setSheet m x).cmds = s.cmds := (rfl)
@[simp] theorem State.setSheet_nextCmd (m : Nat) (x : ScsState) : (s.setSheet m x).nextCmd = s.nextCmd := (rfl)
@[simp] theorem State.setSheet_served (m : Nat) (x : ScsState) : (s.setSheet m x).served = s.served := (rfl)
@[simp] theorem State.setSheet_beat (m : Nat) (x : ScsState) : (s.setSheet m x).beat = s.beat := (rfl)
@[simp] theorem State.setSheet_arb (m : Nat) (x : ScsState) : (s.setSheet m x).arb = s.arb := (rfl)
@[simp] theorem State.setSheet_bnd (m : Nat) (x : ScsState) : (s.setSheet m x).bnd = s.bnd := (rfl)
@[simp] theorem State.setSheet_fab (m : Nat) (x : ScsState) : (s.setSheet m x).fab = s.fab := (rfl)
@[simp] theorem State.setSheet_pwr (m : Nat) (x : ScsState) : (s.setSheet m x).pwr = s.pwr := (rfl)
@[simp] theorem State.setSheet_host (m : Nat) (x : ScsState) : (s.setSheet m x).host = s.host := (rfl)
@[simp] theorem State.setSheet_tempo (m : Nat) (x : ScsState) : (s.setSheet m x).tempo = s.tempo := (rfl)
@[simp] theorem State.setSheet_twinSt (m : Nat) (x : ScsState) : (s.setSheet m x).twinSt = s.twinSt := (rfl)
@[simp] theorem State.setSheet_keep (m : Nat) (x : ScsState) : (s.setSheet m x).keep = s.keep := (rfl)
@[simp] theorem State.setSheet_boot (m : Nat) (x : ScsState) : (s.setSheet m x).boot = s.boot := (rfl)
@[simp] theorem State.setSheet_plc (m : Nat) (x : ScsState) : (s.setSheet m x).plc = s.plc := (rfl)
@[simp] theorem State.setSheet_rook (m : Nat) (x : ScsState) : (s.setSheet m x).rook = s.rook := (rfl)
@[simp] theorem State.setSheet_red (m : Nat) (x : ScsState) : (s.setSheet m x).red = s.red := (rfl)

/-- What setting a register leaves alone, an error flag leaves alone. -/
theorem State.err_leaves {α : Type} (f : State → α) (h : ∀ s p o v, f (State.setReg s p o v) = f s)
    (h' : ∀ (s : State) l, f { s with told := l } = f s) (p b i : Nat) : f (s.err p b i) = f s := by
  unfold State.err
  extract_lets t u
  have e : f t = f s := h s _ _ _
  have e' : f u = f s := by
    show f (if bit (t.reg p HDR.ERR_ENABLE) b then { t with told := t.told ++ [(p, b)] } else t) = f s
    split
    · rw [h', e]
    · exact e
  split
  · exact e'
  · rw [h, e']

/-! ### count -/

@[simp] theorem State.count_pending (p o n : Nat) : (s.count p o n).pending = s.pending := by unfold State.count; split <;> rfl
@[simp] theorem State.count_outbox (p o n : Nat) : (s.count p o n).outbox = s.outbox := by unfold State.count; split <;> rfl
@[simp] theorem State.count_rsp (p o n : Nat) : (s.count p o n).rsp = s.rsp := by unfold State.count; split <;> rfl
@[simp] theorem State.count_told (p o n : Nat) : (s.count p o n).told = s.told := by unfold State.count; split <;> rfl
@[simp] theorem State.count_free (p o n : Nat) : (s.count p o n).free = s.free := by unfold State.count; split <;> rfl
@[simp] theorem State.count_variant (p o n : Nat) : (s.count p o n).variant = s.variant := by unfold State.count; split <;> rfl
@[simp] theorem State.count_mem (p o n : Nat) : (s.count p o n).mem = s.mem := by unfold State.count; split <;> rfl
@[simp] theorem State.count_queues (p o n : Nat) : (s.count p o n).queues = s.queues := by unfold State.count; split <;> rfl
@[simp] theorem State.count_cmds (p o n : Nat) : (s.count p o n).cmds = s.cmds := by unfold State.count; split <;> rfl
@[simp] theorem State.count_nextCmd (p o n : Nat) : (s.count p o n).nextCmd = s.nextCmd := by unfold State.count; split <;> rfl
@[simp] theorem State.count_served (p o n : Nat) : (s.count p o n).served = s.served := by unfold State.count; split <;> rfl
@[simp] theorem State.count_beat (p o n : Nat) : (s.count p o n).beat = s.beat := by unfold State.count; split <;> rfl
@[simp] theorem State.count_arb (p o n : Nat) : (s.count p o n).arb = s.arb := by unfold State.count; split <;> rfl
@[simp] theorem State.count_bnd (p o n : Nat) : (s.count p o n).bnd = s.bnd := by unfold State.count; split <;> rfl
@[simp] theorem State.count_fab (p o n : Nat) : (s.count p o n).fab = s.fab := by unfold State.count; split <;> rfl
@[simp] theorem State.count_pwr (p o n : Nat) : (s.count p o n).pwr = s.pwr := by unfold State.count; split <;> rfl
@[simp] theorem State.count_host (p o n : Nat) : (s.count p o n).host = s.host := by unfold State.count; split <;> rfl
@[simp] theorem State.count_tempo (p o n : Nat) : (s.count p o n).tempo = s.tempo := by unfold State.count; split <;> rfl
@[simp] theorem State.count_twinSt (p o n : Nat) : (s.count p o n).twinSt = s.twinSt := by unfold State.count; split <;> rfl
@[simp] theorem State.count_keep (p o n : Nat) : (s.count p o n).keep = s.keep := by unfold State.count; split <;> rfl
@[simp] theorem State.count_boot (p o n : Nat) : (s.count p o n).boot = s.boot := by unfold State.count; split <;> rfl
@[simp] theorem State.count_plc (p o n : Nat) : (s.count p o n).plc = s.plc := by unfold State.count; split <;> rfl
@[simp] theorem State.count_rook (p o n : Nat) : (s.count p o n).rook = s.rook := by unfold State.count; split <;> rfl
@[simp] theorem State.count_red (p o n : Nat) : (s.count p o n).red = s.red := by unfold State.count; split <;> rfl
@[simp] theorem State.count_scs (p o n : Nat) : (s.count p o n).scs = s.scs := by unfold State.count; split <;> rfl

/-! ### count64 -/

@[simp] theorem State.count64_pending (p o n : Nat) : (s.count64 p o n).pending = s.pending := by unfold State.count64; split <;> rfl
@[simp] theorem State.count64_outbox (p o n : Nat) : (s.count64 p o n).outbox = s.outbox := by unfold State.count64; split <;> rfl
@[simp] theorem State.count64_rsp (p o n : Nat) : (s.count64 p o n).rsp = s.rsp := by unfold State.count64; split <;> rfl
@[simp] theorem State.count64_told (p o n : Nat) : (s.count64 p o n).told = s.told := by unfold State.count64; split <;> rfl
@[simp] theorem State.count64_free (p o n : Nat) : (s.count64 p o n).free = s.free := by unfold State.count64; split <;> rfl
@[simp] theorem State.count64_variant (p o n : Nat) : (s.count64 p o n).variant = s.variant := by unfold State.count64; split <;> rfl
@[simp] theorem State.count64_mem (p o n : Nat) : (s.count64 p o n).mem = s.mem := by unfold State.count64; split <;> rfl
@[simp] theorem State.count64_queues (p o n : Nat) : (s.count64 p o n).queues = s.queues := by unfold State.count64; split <;> rfl
@[simp] theorem State.count64_cmds (p o n : Nat) : (s.count64 p o n).cmds = s.cmds := by unfold State.count64; split <;> rfl
@[simp] theorem State.count64_nextCmd (p o n : Nat) : (s.count64 p o n).nextCmd = s.nextCmd := by unfold State.count64; split <;> rfl
@[simp] theorem State.count64_served (p o n : Nat) : (s.count64 p o n).served = s.served := by unfold State.count64; split <;> rfl
@[simp] theorem State.count64_beat (p o n : Nat) : (s.count64 p o n).beat = s.beat := by unfold State.count64; split <;> rfl
@[simp] theorem State.count64_arb (p o n : Nat) : (s.count64 p o n).arb = s.arb := by unfold State.count64; split <;> rfl
@[simp] theorem State.count64_bnd (p o n : Nat) : (s.count64 p o n).bnd = s.bnd := by unfold State.count64; split <;> rfl
@[simp] theorem State.count64_fab (p o n : Nat) : (s.count64 p o n).fab = s.fab := by unfold State.count64; split <;> rfl
@[simp] theorem State.count64_pwr (p o n : Nat) : (s.count64 p o n).pwr = s.pwr := by unfold State.count64; split <;> rfl
@[simp] theorem State.count64_host (p o n : Nat) : (s.count64 p o n).host = s.host := by unfold State.count64; split <;> rfl
@[simp] theorem State.count64_tempo (p o n : Nat) : (s.count64 p o n).tempo = s.tempo := by unfold State.count64; split <;> rfl
@[simp] theorem State.count64_twinSt (p o n : Nat) : (s.count64 p o n).twinSt = s.twinSt := by unfold State.count64; split <;> rfl
@[simp] theorem State.count64_keep (p o n : Nat) : (s.count64 p o n).keep = s.keep := by unfold State.count64; split <;> rfl
@[simp] theorem State.count64_boot (p o n : Nat) : (s.count64 p o n).boot = s.boot := by unfold State.count64; split <;> rfl
@[simp] theorem State.count64_plc (p o n : Nat) : (s.count64 p o n).plc = s.plc := by unfold State.count64; split <;> rfl
@[simp] theorem State.count64_rook (p o n : Nat) : (s.count64 p o n).rook = s.rook := by unfold State.count64; split <;> rfl
@[simp] theorem State.count64_red (p o n : Nat) : (s.count64 p o n).red = s.red := by unfold State.count64; split <;> rfl
@[simp] theorem State.count64_scs (p o n : Nat) : (s.count64 p o n).scs = s.scs := by unfold State.count64; split <;> rfl

/-! ### err -/

@[simp] theorem State.err_pending (p b i : Nat) : (s.err p b i).pending = s.pending :=
  s.err_leaves State.pending (fun _ _ _ _ => rfl) (fun _ _ => rfl) p b i
@[simp] theorem State.err_outbox (p b i : Nat) : (s.err p b i).outbox = s.outbox :=
  s.err_leaves State.outbox (fun _ _ _ _ => rfl) (fun _ _ => rfl) p b i
@[simp] theorem State.err_rsp (p b i : Nat) : (s.err p b i).rsp = s.rsp :=
  s.err_leaves State.rsp (fun _ _ _ _ => rfl) (fun _ _ => rfl) p b i
@[simp] theorem State.err_free (p b i : Nat) : (s.err p b i).free = s.free :=
  s.err_leaves State.free (fun _ _ _ _ => rfl) (fun _ _ => rfl) p b i
@[simp] theorem State.err_variant (p b i : Nat) : (s.err p b i).variant = s.variant :=
  s.err_leaves State.variant (fun _ _ _ _ => rfl) (fun _ _ => rfl) p b i
@[simp] theorem State.err_mem (p b i : Nat) : (s.err p b i).mem = s.mem :=
  s.err_leaves State.mem (fun _ _ _ _ => rfl) (fun _ _ => rfl) p b i
@[simp] theorem State.err_queues (p b i : Nat) : (s.err p b i).queues = s.queues :=
  s.err_leaves State.queues (fun _ _ _ _ => rfl) (fun _ _ => rfl) p b i
@[simp] theorem State.err_cmds (p b i : Nat) : (s.err p b i).cmds = s.cmds :=
  s.err_leaves State.cmds (fun _ _ _ _ => rfl) (fun _ _ => rfl) p b i
@[simp] theorem State.err_nextCmd (p b i : Nat) : (s.err p b i).nextCmd = s.nextCmd :=
  s.err_leaves State.nextCmd (fun _ _ _ _ => rfl) (fun _ _ => rfl) p b i
@[simp] theorem State.err_served (p b i : Nat) : (s.err p b i).served = s.served :=
  s.err_leaves State.served (fun _ _ _ _ => rfl) (fun _ _ => rfl) p b i
@[simp] theorem State.err_beat (p b i : Nat) : (s.err p b i).beat = s.beat :=
  s.err_leaves State.beat (fun _ _ _ _ => rfl) (fun _ _ => rfl) p b i
@[simp] theorem State.err_arb (p b i : Nat) : (s.err p b i).arb = s.arb :=
  s.err_leaves State.arb (fun _ _ _ _ => rfl) (fun _ _ => rfl) p b i
@[simp] theorem State.err_bnd (p b i : Nat) : (s.err p b i).bnd = s.bnd :=
  s.err_leaves State.bnd (fun _ _ _ _ => rfl) (fun _ _ => rfl) p b i
@[simp] theorem State.err_fab (p b i : Nat) : (s.err p b i).fab = s.fab :=
  s.err_leaves State.fab (fun _ _ _ _ => rfl) (fun _ _ => rfl) p b i
@[simp] theorem State.err_pwr (p b i : Nat) : (s.err p b i).pwr = s.pwr :=
  s.err_leaves State.pwr (fun _ _ _ _ => rfl) (fun _ _ => rfl) p b i
@[simp] theorem State.err_host (p b i : Nat) : (s.err p b i).host = s.host :=
  s.err_leaves State.host (fun _ _ _ _ => rfl) (fun _ _ => rfl) p b i
@[simp] theorem State.err_tempo (p b i : Nat) : (s.err p b i).tempo = s.tempo :=
  s.err_leaves State.tempo (fun _ _ _ _ => rfl) (fun _ _ => rfl) p b i
@[simp] theorem State.err_twinSt (p b i : Nat) : (s.err p b i).twinSt = s.twinSt :=
  s.err_leaves State.twinSt (fun _ _ _ _ => rfl) (fun _ _ => rfl) p b i
@[simp] theorem State.err_keep (p b i : Nat) : (s.err p b i).keep = s.keep :=
  s.err_leaves State.keep (fun _ _ _ _ => rfl) (fun _ _ => rfl) p b i
@[simp] theorem State.err_boot (p b i : Nat) : (s.err p b i).boot = s.boot :=
  s.err_leaves State.boot (fun _ _ _ _ => rfl) (fun _ _ => rfl) p b i
@[simp] theorem State.err_plc (p b i : Nat) : (s.err p b i).plc = s.plc :=
  s.err_leaves State.plc (fun _ _ _ _ => rfl) (fun _ _ => rfl) p b i
@[simp] theorem State.err_rook (p b i : Nat) : (s.err p b i).rook = s.rook :=
  s.err_leaves State.rook (fun _ _ _ _ => rfl) (fun _ _ => rfl) p b i
@[simp] theorem State.err_red (p b i : Nat) : (s.err p b i).red = s.red :=
  s.err_leaves State.red (fun _ _ _ _ => rfl) (fun _ _ => rfl) p b i
@[simp] theorem State.err_scs (p b i : Nat) : (s.err p b i).scs = s.scs :=
  s.err_leaves State.scs (fun _ _ _ _ => rfl) (fun _ _ => rfl) p b i

/-! ### Free values -/

@[simp] theorem State.draw_pending : s.draw.2.pending = s.pending := (rfl)
@[simp] theorem State.draw_outbox : s.draw.2.outbox = s.outbox := (rfl)
@[simp] theorem State.draw_rsp : s.draw.2.rsp = s.rsp := (rfl)
@[simp] theorem State.draw_told : s.draw.2.told = s.told := (rfl)
@[simp] theorem State.draw_variant : s.draw.2.variant = s.variant := (rfl)
@[simp] theorem State.draw_regs : s.draw.2.regs = s.regs := (rfl)
@[simp] theorem State.draw_mem : s.draw.2.mem = s.mem := (rfl)
@[simp] theorem State.draw_queues : s.draw.2.queues = s.queues := (rfl)
@[simp] theorem State.draw_cmds : s.draw.2.cmds = s.cmds := (rfl)
@[simp] theorem State.draw_nextCmd : s.draw.2.nextCmd = s.nextCmd := (rfl)
@[simp] theorem State.draw_served : s.draw.2.served = s.served := (rfl)
@[simp] theorem State.draw_beat : s.draw.2.beat = s.beat := (rfl)
@[simp] theorem State.draw_arb : s.draw.2.arb = s.arb := (rfl)
@[simp] theorem State.draw_bnd : s.draw.2.bnd = s.bnd := (rfl)
@[simp] theorem State.draw_fab : s.draw.2.fab = s.fab := (rfl)
@[simp] theorem State.draw_pwr : s.draw.2.pwr = s.pwr := (rfl)
@[simp] theorem State.draw_host : s.draw.2.host = s.host := (rfl)
@[simp] theorem State.draw_tempo : s.draw.2.tempo = s.tempo := (rfl)
@[simp] theorem State.draw_twinSt : s.draw.2.twinSt = s.twinSt := (rfl)
@[simp] theorem State.draw_keep : s.draw.2.keep = s.keep := (rfl)
@[simp] theorem State.draw_boot : s.draw.2.boot = s.boot := (rfl)
@[simp] theorem State.draw_plc : s.draw.2.plc = s.plc := (rfl)
@[simp] theorem State.draw_rook : s.draw.2.rook = s.rook := (rfl)
@[simp] theorem State.draw_red : s.draw.2.red = s.red := (rfl)
@[simp] theorem State.draw_scs : s.draw.2.scs = s.scs := (rfl)

/-! ### Registers -/

@[simp] theorem State.emit_reg (o : Out) (pg off win : Nat) : (s.emit o).reg pg off win = s.reg pg off win := (rfl)
@[simp] theorem State.setObj_reg (k : Nat) (o : ArbObj) (pg off win : Nat) : (s.setObj k o).reg pg off win = s.reg pg off win := (rfl)
@[simp] theorem State.mapCmd_reg (i : Nat) (f : Cmd → Cmd) (pg off win : Nat) : (s.mapCmd i f).reg pg off win = s.reg pg off win := (rfl)
@[simp] theorem State.addCmd_reg (c : Cmd) (pg off win : Nat) : (s.addCmd c).reg pg off win = s.reg pg off win := (rfl)
@[simp] theorem State.setQst_reg (q : Nat) (x : QState) (pg off win : Nat) : (s.setQst q x).reg pg off win = s.reg pg off win := (rfl)
@[simp] theorem State.setSqp_reg (m : Nat) (x : SqPwr) (pg off win : Nat) : (s.setSqp m x).reg pg off win = s.reg pg off win := (rfl)
@[simp] theorem State.setPort_reg (p : Nat) (x : Port) (pg off win : Nat) : (s.setPort p x).reg pg off win = s.reg pg off win := (rfl)
@[simp] theorem State.setTx_reg (m vc : Nat) (x : TxStream) (pg off win : Nat) : (s.setTx m vc x).reg pg off win = s.reg pg off win := (rfl)
@[simp] theorem State.setRx_reg (m vc : Nat) (x : RxStream) (pg off win : Nat) : (s.setRx m vc x).reg pg off win = s.reg pg off win := (rfl)
@[simp] theorem State.setJob_reg (j : Nat) (x : JobInfo) (pg off win : Nat) : (s.setJob j x).reg pg off win = s.reg pg off win := (rfl)
@[simp] theorem State.setPlc_reg (x : PlcState) (pg off win : Nat) : (s.setPlc x).reg pg off win = s.reg pg off win := (rfl)
@[simp] theorem State.setBoot_reg (x : BootState) (pg off win : Nat) : (s.setBoot x).reg pg off win = s.reg pg off win := (rfl)
@[simp] theorem State.setCtx_reg (k : Nat) (x : RedCtx) (pg off win : Nat) : (s.setCtx k x).reg pg off win = s.reg pg off win := (rfl)
@[simp] theorem State.setSheet_reg (m : Nat) (x : ScsState) (pg off win : Nat) : (s.setSheet m x).reg pg off win = s.reg pg off win := (rfl)

/-- A register written reads as written. -/
theorem State.reg_setReg_same (p o v w : Nat) (h : v < 2 ^ 64) : (s.setReg p o v w).reg p o w = v := by
  unfold State.reg State.setReg
  by_cases e : v = regReset s.variant p o
  · simp only [e, if_true, SMap.find_del_same]
  · simp only [e, if_false, SMap.find_put_same, BitVec.toNat_ofNat, Nat.mod_eq_of_lt h]

/-- A register reads as before after a write of another. -/
theorem State.reg_setReg_other {p o w p' o' w' : Nat} (v : Nat) (h : regKey p' w' o' ≠ regKey p w o) :
    (s.setReg p o v w).reg p' o' w' = s.reg p' o' w' := by
  unfold State.reg State.setReg
  by_cases e : v = regReset s.variant p o
  · simp only [e, if_true, SMap.find_del_other h]
  · simp only [e, if_false, SMap.find_put_other h]

/-- Registers of a page have keys of their own. -/
theorem regKey_inj {p w o p' w' o' : Nat} (ho : o < 4096) (ho' : o' < 4096) (hw : w < 2 ^ 20) (hw' : w' < 2 ^ 20)
    (h : regKey p w o = regKey p' w' o') : p = p' ∧ w = w' ∧ o = o' := by
  unfold regKey at h
  omega

/-- Registers at different offsets have different keys. -/
theorem regKey_ne_off {p w o p' w' o' : Nat} (ho : o < 4096) (ho' : o' < 4096) (h : o ≠ o') :
    regKey p w o ≠ regKey p' w' o' := by
  unfold regKey
  omega

/-- A counter leaves every other register alone. -/
theorem State.reg_count_other {p o p' o' w' : Nat} (n : Nat) (h : regKey p' w' o' ≠ regKey p 0 o) :
    (s.count p o n).reg p' o' w' = s.reg p' o' w' := by
  unfold State.count
  split
  · rfl
  · exact s.reg_setReg_other _ h
theorem State.reg_count64_other {p o p' o' w' : Nat} (n : Nat) (h : regKey p' w' o' ≠ regKey p 0 o) :
    (s.count64 p o n).reg p' o' w' = s.reg p' o' w' := by
  unfold State.count64
  split
  · rfl
  · exact s.reg_setReg_other _ h

/-- An enabled counter rises by the events it counts; a 32-bit one saturates. -/
theorem State.reg_count_same {p o n : Nat} (e : s.countEn p = true) (h : s.reg p o ≤ 0xFFFFFFFF) :
    (s.count p o n).reg p o = min (s.reg p o + n) 0xFFFFFFFF := by
  unfold State.count
  split
  · next h' =>
    rcases h' with rfl | h'
    · omega
    · rw [e] at h'; cases h'
  · exact s.reg_setReg_same _ _ _ _ (by omega)
theorem State.reg_count64_same {p o n : Nat} (e : s.countEn p = true) (h : s.reg p o < 2 ^ 64) :
    (s.count64 p o n).reg p o = (s.reg p o + n) % 2 ^ 64 := by
  unfold State.count64
  split
  · next h' =>
    rcases h' with rfl | h'
    · omega
    · rw [e] at h'; cases h'
  · exact s.reg_setReg_same _ _ _ _ (Nat.mod_lt _ (by decide))

/-- An error leaves every register but ERR_STATUS and ERR_FIRST alone. -/
theorem State.reg_err_other {p b i p' o' w' : Nat} (h : o' < 4096) (h1 : o' ≠ HDR.ERR_STATUS)
    (h2 : o' ≠ HDR.ERR_FIRST) : (s.err p b i).reg p' o' w' = s.reg p' o' w' := by
  unfold State.err
  extract_lets t u
  have e : t.reg p' o' w' = s.reg p' o' w' := s.reg_setReg_other _ (regKey_ne_off h (by decide) h1)
  have e' : u.reg p' o' w' = s.reg p' o' w' := by
    show (if bit (t.reg p HDR.ERR_ENABLE) b then { t with told := t.told ++ [(p, b)] } else t).reg p' o' w' = _
    split
    · exact e
    · exact e
  split
  · exact e'
  · rw [State.reg_setReg_other u _ (regKey_ne_off h (by decide) h2), e']

end Sys2Proof.Machine
end

