-- ==== Sys2Proof/Laws/Command.lean ====
section
/-! SUPPORT. What a command does that starts with every check passed, and what a write does that its page allows. -/

namespace Sys2Proof.Machine

variable {s : State}

/-- A command that starts with every check passed runs. -/
theorem State.command_begins {q : Nat} {d : Desc} {check : Check} (run : State → Cmd → State)
    (h : s.begins q d check = true) : s.command q d check run = run (s.begun q d check) (s.newCmd q d) := by
  simp only [State.begins, Bool.and_eq_true, Option.isNone_iff_eq_none] at h
  obtain ⟨⟨⟨h1, h2⟩, hb⟩, h3⟩ := h
  have h0 : s.checkable q d = true := by
    simp only [State.startable, Bool.and_eq_true] at h1
    exact h1.1
  have e : s.takeHead q d = ((s.takeHead q d).1, s.newCmd q d) := rfl
  have e2 : check.rest (s.heads q d) (s.newCmd q d) = ((check.rest (s.heads q d) (s.newCmd q d)).1, none) := by rw [← h3]
  have e3 : ((s.beginWork q d).takeTurn q).takeHead q d = (s.heads q d, s.newCmd q d) := rfl
  unfold State.command
  rw [if_pos h0, e]
  simp only
  rw [h2]
  simp only
  rw [hb]
  simp only
  rw [if_pos h1]
  unfold State.start
  rw [e3]
  simp only
  rw [e2]
  rfl

/-- A command may start only from an enabled queue that is not halted, its descriptor read. -/
theorem State.begins_startable {q : Nat} {d : Desc} {check : Check} (h : s.begins q d check = true) :
    s.startable q d = true := by
  simp only [State.begins, Bool.and_eq_true] at h
  exact h.1.1.1

/-- Checks that read no memory leave the state as it was. -/
def Check.Quiet (c : Check) : Prop := ∀ s x, (c.rest s x).1 = s

theorem pureCheck_quiet (f : State → Cmd → Option Status) : (pureCheck f).Quiet := fun _ _ => rfl
theorem lateCheck_quiet (f g : State → Cmd → Option Status) : (lateCheck f g).Quiet := fun _ _ => rfl

theorem State.begun_quiet (q : Nat) (d : Desc) {check : Check} (h : check.Quiet) :
    s.begun q d check = (s.heads q d).count64 (qmgPg (qDie q)) QMG.CMDS_STARTED 1 := by
  unfold State.begun; rw [h]


/-! What taking the head of a queue and checks that read no memory leave alone -/

theorem State.begun_pending (q : Nat) (d : Desc) {check : Check} (h : check.Quiet) :
    (s.begun q d check).pending = s.pending := by
  rw [State.begun_quiet q d h, State.count64_pending]; rfl
theorem State.begun_outbox (q : Nat) (d : Desc) {check : Check} (h : check.Quiet) :
    (s.begun q d check).outbox = s.outbox := by
  rw [State.begun_quiet q d h, State.count64_outbox]; rfl
theorem State.begun_rsp (q : Nat) (d : Desc) {check : Check} (h : check.Quiet) :
    (s.begun q d check).rsp = s.rsp := by
  rw [State.begun_quiet q d h, State.count64_rsp]; rfl
theorem State.begun_free (q : Nat) (d : Desc) {check : Check} (h : check.Quiet) :
    (s.begun q d check).free = s.free := by
  rw [State.begun_quiet q d h, State.count64_free]; rfl
theorem State.begun_variant (q : Nat) (d : Desc) {check : Check} (h : check.Quiet) :
    (s.begun q d check).variant = s.variant := by
  rw [State.begun_quiet q d h, State.count64_variant]; rfl
theorem State.begun_mem (q : Nat) (d : Desc) {check : Check} (h : check.Quiet) :
    (s.begun q d check).mem = s.mem := by
  rw [State.begun_quiet q d h, State.count64_mem]; rfl
theorem State.begun_cmds (q : Nat) (d : Desc) {check : Check} (h : check.Quiet) :
    (s.begun q d check).cmds = s.cmds := by
  rw [State.begun_quiet q d h, State.count64_cmds]; rfl
theorem State.begun_beat (q : Nat) (d : Desc) {check : Check} (h : check.Quiet) :
    (s.begun q d check).beat = s.beat := by
  rw [State.begun_quiet q d h, State.count64_beat]; rfl
theorem State.begun_arb (q : Nat) (d : Desc) {check : Check} (h : check.Quiet) :
    (s.begun q d check).arb = s.arb := by
  rw [State.begun_quiet q d h, State.count64_arb]; rfl
theorem State.begun_bnd (q : Nat) (d : Desc) {check : Check} (h : check.Quiet) :
    (s.begun q d check).bnd = s.bnd := by
  rw [State.begun_quiet q d h, State.count64_bnd]; rfl
theorem State.begun_fab (q : Nat) (d : Desc) {check : Check} (h : check.Quiet) :
    (s.begun q d check).fab = s.fab := by
  rw [State.begun_quiet q d h, State.count64_fab]; rfl
theorem State.begun_pwr (q : Nat) (d : Desc) {check : Check} (h : check.Quiet) :
    (s.begun q d check).pwr = (s.beginWork q d).pwr := by
  rw [State.begun_quiet q d h, State.count64_pwr]; rfl
theorem State.begun_host (q : Nat) (d : Desc) {check : Check} (h : check.Quiet) :
    (s.begun q d check).host = s.host := by
  rw [State.begun_quiet q d h, State.count64_host]; rfl
theorem State.begun_tempo (q : Nat) (d : Desc) {check : Check} (h : check.Quiet) :
    (s.begun q d check).tempo = s.tempo := by
  rw [State.begun_quiet q d h, State.count64_tempo]; rfl
theorem State.begun_twinSt (q : Nat) (d : Desc) {check : Check} (h : check.Quiet) :
    (s.begun q d check).twinSt = s.twinSt := by
  rw [State.begun_quiet q d h, State.count64_twinSt]; rfl
theorem State.begun_keep (q : Nat) (d : Desc) {check : Check} (h : check.Quiet) :
    (s.begun q d check).keep = s.keep := by
  rw [State.begun_quiet q d h, State.count64_keep]; rfl
theorem State.begun_boot (q : Nat) (d : Desc) {check : Check} (h : check.Quiet) :
    (s.begun q d check).boot = s.boot := by
  rw [State.begun_quiet q d h, State.count64_boot]; rfl
theorem State.begun_plc (q : Nat) (d : Desc) {check : Check} (h : check.Quiet) :
    (s.begun q d check).plc = s.plc := by
  rw [State.begun_quiet q d h, State.count64_plc]; rfl
theorem State.begun_rook (q : Nat) (d : Desc) {check : Check} (h : check.Quiet) :
    (s.begun q d check).rook = s.rook := by
  rw [State.begun_quiet q d h, State.count64_rook]; rfl
theorem State.begun_red (q : Nat) (d : Desc) {check : Check} (h : check.Quiet) :
    (s.begun q d check).red = s.red := by
  rw [State.begun_quiet q d h, State.count64_red]; rfl
theorem State.begun_scs (q : Nat) (d : Desc) {check : Check} (h : check.Quiet) :
    (s.begun q d check).scs = s.scs := by
  rw [State.begun_quiet q d h, State.count64_scs]; rfl
theorem State.begun_obj (q : Nat) (d : Desc) {check : Check} (h : check.Quiet) (k : Nat) :
    (s.begun q d check).obj k = s.obj k := by unfold State.obj; rw [State.begun_arb q d h]
theorem State.begun_job (q : Nat) (d : Desc) {check : Check} (h : check.Quiet) (j : Nat) :
    (s.begun q d check).job j = s.job j := by unfold State.job; rw [State.begun_bnd q d h]

/-- An object reads as it was last set. -/
theorem State.obj_setObj_same (k : Nat) (o : ArbObj) : (s.setObj k o).obj k = o := SMap.get_set_same ..
theorem State.obj_setObj_other {k j : Nat} (o : ArbObj) (h : j ≠ k) : (s.setObj k o).obj j = s.obj j :=
  SMap.get_set_other _ h _ _

/-- A write that its page allows acts. -/
theorem State.guardWrite_allows {page off : Nat} {sw secure : Bool} (f : State → State)
    (h : s.allows page sw secure = true) : s.guardWrite page off sw secure f = f s := by
  simp only [State.allows, Bool.and_eq_true, Option.isSome_iff_exists] at h
  obtain ⟨⟨⟨i, h1⟩, h2⟩, h3⟩ := h
  unfold State.guardWrite
  cases secure <;> simp_all

end Sys2Proof.Machine
end

