-- ==== Sys2Proof/Laws/Keeps.lean ====
section
/-! SUPPORT. What every operation keeps: the queue of commands, the variant, the fused values, the canonical form of the
memory, and the order of free draws. `Keeps x t` says it of a state t reached from a state x. -/

namespace Sys2Proof.Machine

/-- What no operation of the part breaks, from a state x to a state t: the waiting commands and the variant are as they
were, the fused serial number too, a fused owner key stays, the fused SVN never falls, free values are drawn
onwards only, and a canonical memory stays canonical. -/
structure Keeps (x t : State) : Prop where
  pending : t.pending = x.pending
  variant : t.variant = x.variant
  serial  : t.keep.serial = x.keep.serial
  svn     : x.keep.svn ≤ t.keep.svn
  owner   : ∀ d, x.keep.ownerDigest = some d → t.keep.ownerDigest = some d
  free    : x.free ≤ t.free
  mem     : x.MemOk → t.MemOk

theorem Keeps.refl {x : State} : Keeps x x := ⟨rfl, rfl, rfl, Nat.le_refl _, fun _ h => h, Nat.le_refl _, id⟩

theorem Keeps.trans {x y z : State} (h : Keeps x y) (k : Keeps y z) : Keeps x z :=
  ⟨k.pending.trans h.pending, k.variant.trans h.variant, k.serial.trans h.serial, Nat.le_trans h.svn k.svn,
    fun d e => k.owner d (h.owner d e), Nat.le_trans h.free k.free, fun m => k.mem (h.mem m)⟩

/-- An update of fields that `Keeps` does not speak of. -/
theorem Keeps.upd {x s : State} {f1 f2 f3 f5 m f7 f8 f9 f10 f11 f12 f13 f14 f15 f16 f17 f18 k f20 f21 f22 f23 f24}
    (h : Keeps x s) (hm : MemState.cells m = s.mem.cells) (h1 : KeepState.serial k = s.keep.serial)
    (h2 : KeepState.svn k = s.keep.svn) (h3 : KeepState.ownerDigest k = s.keep.ownerDigest) :
    Keeps x ⟨s.pending, f1, f2, f3, s.free, s.variant, f5, m, f7, f8, f9, f10, f11, f12, f13, f14, f15, f16, f17, f18, k,
      f20, f21, f22, f23, f24⟩ :=
  ⟨h.pending, h.variant, h1.trans h.serial, h2 ▸ h.svn, fun d e => h3.trans (h.owner d e), h.free,
    fun w => by have := h.mem w; simp only [State.MemOk, hm] at *; exact this⟩

/-- The same, with a step of the free counter. -/
theorem Keeps.drawn {x s : State} (h : Keeps x s) (n : Nat) : Keeps x { s with free := s.free + n } :=
  ⟨h.pending, h.variant, h.serial, h.svn, h.owner, Nat.le_trans h.free (Nat.le_add_right _ _), h.mem⟩

/-- A write of the memory that keeps its canonical form. -/
theorem Keeps.cells {x s t : State} (h : Keeps x s) (hm : s.MemOk → t.MemOk) (h1 : t.pending = s.pending)
    (h2 : t.variant = s.variant) (h3 : t.keep = s.keep) (h6 : t.free = s.free) : Keeps x t :=
  ⟨h1.trans h.pending, h2.trans h.variant, h3 ▸ h.serial, h3 ▸ h.svn, h3 ▸ h.owner, h6 ▸ h.free, fun m => hm (h.mem m)⟩

/-- A fold of a state-carrying value, the state reached by p. -/
theorem Keeps.foldl {x : State} {α β : Type} {p : β → State} {f : β → α → β} {b : β} {l : List α} (h : Keeps x (p b))
    (hf : ∀ b a, Keeps x (p b) → Keeps x (p (f b a))) : Keeps x (p (l.foldl f b)) := by
  induction l generalizing b with
  | nil => exact h
  | cons a l ih => exact ih (hf b a h)

/-- Both ways of a choice. -/
theorem Keeps.ite {x a b : State} {c : Prop} [Decidable c] (ha : Keeps x a) (hb : Keeps x b) :
    Keeps x (if c then a else b) := by split <;> assumption
theorem Keeps.iteP {x : State} {β : Type} {p : β → State} {a b : β} {c : Prop} [Decidable c] (ha : Keeps x (p a))
    (hb : Keeps x (p b)) : Keeps x (p (if c then a else b)) := by split <;> assumption

/-- The state that p finds in r is reached from x. A predicate of its own: no projection then stands above a long
computation where the kernel compares two such statements. -/
def KeepsOf {β : Type} (x : State) (p : β → State) (r : β) : Prop := Keeps x (p r)
theorem KeepsOf.mk {β : Type} {x : State} {p : β → State} {r : β} (h : Keeps x (p r)) : KeepsOf x p r := h
theorem KeepsOf.out {β : Type} {x : State} {p : β → State} {r : β} (h : KeepsOf x p r) : Keeps x (p r) := h
theorem KeepsOf.pair {α : Type} {x s : State} {a : α} (h : Keeps x s) : KeepsOf x Prod.fst (s, a) := h
theorem KeepsOf.ite {β : Type} {x : State} {p : β → State} {a b : β} {c : Prop} [Decidable c] (ha : KeepsOf x p a)
    (hb : KeepsOf x p b) : KeepsOf x p (if c then a else b) := by split <;> assumption
theorem KeepsOf.foldl {α β : Type} {x : State} {p : β → State} {f : β → α → β} {b : β} {l : List α}
    (h : KeepsOf x p b) (hf : ∀ b a, KeepsOf x p b → KeepsOf x p (f b a)) : KeepsOf x p (l.foldl f b) :=
  Keeps.foldl (p := p) h hf

/-- Every value of an option meets P. -/
def OptAll {α : Type} (P : α → Prop) (o : Option α) : Prop := ∀ a, o = some a → P a
theorem OptAll.none {α : Type} {P : α → Prop} : OptAll P none := fun _ h => by cases h
theorem OptAll.some {α : Type} {P : α → Prop} {a : α} (h : P a) : OptAll P (some a) := fun _ e => by cases e; exact h
theorem OptAll.get {α : Type} {P : α → Prop} {a : α} (h : OptAll P (Option.some a)) : P a := h a rfl

theorem OptAll.ite {α : Type} {P : α → Prop} {a b : Option α} {c : Prop} [Decidable c] (ha : OptAll P a)
    (hb : OptAll P b) : OptAll P (if c then a else b) := by split <;> assumption

/-- The state an outcome leads to, if any, is reached from x by operations that keep what `Keeps` says. -/
def KeepsRes (x : State) (r : Res) : Prop := ∀ t, r = .next t → Keeps x t
theorem KeepsRes.next {x t : State} (h : Keeps x t) : KeepsRes x (.next t) := fun _ e => by cases e; exact h
theorem KeepsRes.fault {x : State} {f : Fault} : KeepsRes x (.fault f) := fun _ e => by cases e

theorem KeepsRes.ite {x : State} {a b : Res} {c : Prop} [Decidable c] (ha : KeepsRes x a) (hb : KeepsRes x b) :
    KeepsRes x (if c then a else b) := by split <;> assumption

theorem OptAll.getD {α : Type} {P : α → Prop} {o : Option α} {d : α} (h : OptAll P o) (hd : P d) : P (o.getD d) := by
  cases o with
  | none => exact hd
  | some a => exact h a rfl

/-- The state a fetch of a gather leads to. -/
@[reducible] def FetchOut.st : FetchOut → State
  | .ok s _ => s
  | .ue s _ => s
  | .held s => s

/-- The state an entry sent leads to. -/
@[reducible] def SendOut.st {α : Type} : SendOut α → State
  | .ok s _ => s
  | .held s => s
  | .ue s => s

theorem Keeps.iteF {x : State} {a b : FetchOut} {c : Prop} [Decidable c] (ha : Keeps x a.st) (hb : Keeps x b.st) :
    Keeps x (if c then a else b).st := by split <;> assumption

/-- A check that reads no memory leaves the state as it was. -/
theorem Check.rest_keeps {x s : State} {c : Check} {y : Cmd} (h : ∀ s y, (c.rest s y).1 = s) (k : Keeps x s) :
    Keeps x (c.rest s y).1 := by rw [h]; exact k

/-! ## The operations that touch what `Keeps` speaks of -/

theorem State.draw_keeps {x s : State} (h : Keeps x s) : Keeps x s.draw.2 := h.drawn 1

theorem State.choose_keeps {x s : State} {α : Type} {l : List α} (h : Keeps x s) : Keeps x (s.choose l).2 := by
  unfold State.choose
  split
  · exact h
  · exact h
  · exact h.drawn 1

theorem State.drawN_keeps {x s : State} {n : Nat} (h : Keeps x s) : Keeps x (s.drawN n).2 := h.drawn n

/-- A word stored keeps the canonical form. -/
theorem State.wordStore_keeps {x s : State} {wa w syn : Nat} (h : Keeps x s) : Keeps x (s.wordStore wa w syn) :=
  h.cells (fun m => memSetAll_wf _ _ m) rfl rfl rfl rfl

theorem State.loseRange_keeps {x s : State} {a n : Nat} (h : Keeps x s) : Keeps x (s.loseRange a n) :=
  h.cells (fun m => memFilter_wf _ m) rfl rfl rfl rfl

theorem State.railsOff_keeps {x s : State} (h : Keeps x s) : Keeps x s.railsOff := by
  unfold State.railsOff
  refine Keeps.ite ?_ h
  exact h.cells (fun _ => rfl) rfl rfl rfl rfl

end Sys2Proof.Machine
end

