-- ==== Sys2Proof/Laws/KeepsOps.lean ====
section
/-! SUPPORT. What the operations of Machine/Ops.lean keep (`Keeps`, Laws/Keeps.lean). -/

namespace Sys2Proof.Machine

theorem State.setReg_keeps {x : State} {a0} {a1} {a2} {a3} {a4} (k0 : Keeps x a0) : Keeps x (State.setReg a0 a1 a2
    a3 a4) := by
  unfold State.setReg
  extract_lets l0 l1 l2
  clear_value l0 l1 l2
  exact Keeps.upd k0 rfl rfl rfl rfl

theorem State.setShadow_keeps {x : State} {a0} {a1} {a2} {a3} {a4} (k0 : Keeps x a0) : Keeps x (State.setShadow a0
    a1 a2 a3 a4) := by
  unfold State.setShadow
  extract_lets l0
  clear_value l0
  exact Keeps.upd k0 rfl rfl rfl rfl

theorem State.dropShadow_keeps {x : State} {a0} {a1} {a2} {a3} (k0 : Keeps x a0) : Keeps x (State.dropShadow a0 a1
    a2 a3) := by
  unfold State.dropShadow
  extract_lets l0
  clear_value l0
  exact Keeps.upd k0 rfl rfl rfl rfl

theorem State.count_keeps {x : State} {a0} {a1} {a2} {a3} (k0 : Keeps x a0) : Keeps x (State.count a0 a1 a2 a3) := by
  unfold State.count
  exact Keeps.ite k0 (State.setReg_keeps k0)

theorem State.count64_keeps {x : State} {a0} {a1} {a2} {a3} (k0 : Keeps x a0) : Keeps x (State.count64 a0 a1 a2 a3)
    := by
  unfold State.count64
  exact Keeps.ite k0 (State.setReg_keeps k0)

theorem State.countFree_keeps {x : State} {a0} {a1} {a2} (k0 : Keeps x a0) : Keeps x (State.countFree a0 a1 a2) := by
  unfold State.countFree
  split
  · rename_i v0 v1 v2 v3
    have h4 : Keeps x ((v1, v2)).2 := by
      rw [← v3]
      exact State.draw_keeps k0
    exact State.count64_keeps h4

theorem State.err_keeps {x : State} {a0} {a1} {a2} {a3} (k0 : Keeps x a0) : Keeps x (State.err a0 a1 a2 a3) := by
  unfold State.err
  extract_lets l0 l1
  have h2 : Keeps x l0 := by
    unfold l0
    exact State.setReg_keeps k0
  clear_value l0
  have h3 : Keeps x l1 := by
    unfold l1
    exact Keeps.ite (Keeps.upd h2 rfl rfl rfl rfl) h2
  clear_value l1
  exact Keeps.ite h3 (State.setReg_keeps h3)

theorem State.violation_keeps {x : State} {a0} {a1} {a2} {a3} (k0 : Keeps x a0) : Keeps x (State.violation a0 a1 a2
    a3) := by
  unfold State.violation
  extract_lets l0 l1
  have h2 : Keeps x l0 := by
    unfold l0
    exact State.count_keeps k0
  clear_value l0
  have h3 : Keeps x l1 := by
    unfold l1
    exact State.setReg_keeps h2
  clear_value l1
  exact State.err_keeps h3

theorem State.emit_keeps {x : State} {a0} {a1} (k0 : Keeps x a0) : Keeps x (State.emit a0 a1) := by
  unfold State.emit
  exact Keeps.upd k0 rfl rfl rfl rfl

end Sys2Proof.Machine
end

