-- ==== Sys2Proof/Laws/KeepsScs.lean ====
section
/-! SUPPORT. What the operations of Machine/Scs.lean keep (`Keeps`, Laws/Keeps.lean). -/

namespace Sys2Proof.Machine

theorem State.setSheet_keeps {x : State} {a0} {a1} {a2} (k0 : Keeps x a0) : Keeps x (State.setSheet a0 a1 a2) := by
  unfold State.setSheet
  exact Keeps.upd k0 rfl rfl rfl rfl

theorem State.slotRead_keeps {x : State} {a0} {a1} {a2} (k0 : Keeps x a0) : Keeps x (State.slotRead a0 a1 a2).1 := by
  unfold State.slotRead
  extract_lets l0 l1
  clear_value l0 l1
  split
  · exact State.count_keeps (State.setSheet_keeps k0)
  · exact k0

theorem State.slotPoison_keeps {x : State} {a0} {a1} {a2} (k0 : Keeps x a0) : Keeps x (State.slotPoison a0 a1 a2)
    := by
  unfold State.slotPoison
  extract_lets l0 l1
  clear_value l0 l1
  exact State.err_keeps (State.setSheet_keeps k0)

theorem State.poolRead_keeps {x : State} {a0} {a1} {a2} {a3} {a4} (k0 : Keeps x a0) : Keeps x (State.poolRead a0 a1
    a2 a3 a4).1 := by
  induction a4 generalizing a0 a1 a2 a3
  · unfold State.poolRead
    exact k0
  · rename_i v0 v1
    unfold State.poolRead
    split
    · rename_i v2 v3 v4 v5 v6
      have h7 : Keeps x ((v3, v4, v5)).1 := by
        rw [← v6]
        exact v1 k0
      split
      · rename_i v8 v9 v10 v11 v12
        have h13 : Keeps x ((v9, v10, v11)).1 := by
          rw [← v12]
          exact State.slotRead_keeps h7
        exact h13

theorem State.entryRead_keeps {x : State} {a0} {a1} {a2} (k0 : Keeps x a0) : Keeps x (State.entryRead a0 a1 a2).1
    := by
  unfold State.entryRead
  split
  · rename_i v0 v1 v2 v3 v4
    have h5 : Keeps x ((v1, v2, v3)).1 := by
      rw [← v4]
      exact State.slotRead_keeps k0
    extract_lets l6
    clear_value l6
    refine Keeps.iteP (p := (fun r => (Prod.fst r))) ?_ ?_
    · exact State.slotPoison_keeps h5
    · refine Keeps.iteP (p := (fun r => (Prod.fst r))) ?_ ?_
      · exact h5
      · refine Keeps.iteP (p := (fun r => (Prod.fst r))) ?_ ?_
        · split
          · rename_i v7 v8 v9 v10 v11
            have h12 : Keeps x ((v8, v9, v10)).1 := by
              rw [← v11]
              exact State.poolRead_keeps h5
            refine Keeps.iteP (p := (fun r => (Prod.fst r))) ?_ ?_
            · exact State.slotPoison_keeps h12
            · exact h12
        · exact h5

theorem State.writeNarrow_keeps {x : State} {a0} {a1} {a2} {a3} {a4} {a5} (k0 : Keeps x a0) : Keeps x
    (State.writeNarrow a0 a1 a2 a3 a4 a5) := by
  unfold State.writeNarrow
  exact State.setSheet_keeps k0

theorem State.writeWide_keeps {x : State} {a0} {a1} {a2} {a3} {a4} {a5} (k0 : Keeps x a0) : Keeps x
    (State.writeWide a0 a1 a2 a3 a4 a5) := by
  unfold State.writeWide
  extract_lets l0 l1 l2
  clear_value l0 l1 l2
  exact State.setSheet_keeps k0

theorem State.releaseGroup_keeps {x : State} {a0} {a1} {a2} (k0 : Keeps x a0) : Keeps x (State.releaseGroup a0 a1
    a2) := by
  unfold State.releaseGroup
  extract_lets l0
  clear_value l0
  exact Keeps.ite (State.count_keeps (State.setSheet_keeps k0)) k0

theorem State.scsZero_keeps {x : State} {a0} {a1} {a2} (k0 : Keeps x a0) : Keeps x (State.scsZero a0 a1 a2) := by
  unfold State.scsZero
  exact State.writeNarrow_keeps (State.releaseGroup_keeps k0)

theorem State.scsReset_keeps {x : State} {a0} {a1} (k0 : Keeps x a0) : Keeps x (State.scsReset a0 a1) := by
  unfold State.scsReset
  exact Keeps.upd k0 rfl rfl rfl rfl

theorem State.widePeak_keeps {x : State} {a0} {a1} {a2} (k0 : Keeps x a0) : Keeps x (State.widePeak a0 a1 a2) := by
  unfold State.widePeak
  exact State.setReg_keeps k0

theorem State.overflowTag_keeps {x : State} {a0} {a1} {a2} (k0 : Keeps x a0) : Keeps x (State.overflowTag a0 a1 a2)
    := by
  unfold State.overflowTag
  exact State.err_keeps (State.count_keeps k0)

theorem State.scsAbsorb_keeps {x : State} {a0} {a1} {a2} {a3} {a4} (k0 : Keeps x a0) : Keeps x (State.scsAbsorb a0
    a1 a2 a3 a4).1 := by
  unfold State.scsAbsorb
  split
  · rename_i v0 v1 v2 v3
    have h4 : Keeps x ((v1, v2)).1 := by
      rw [← v3]
      exact State.entryRead_keeps k0
    extract_lets l5 l6 l7 l8
    clear_value l5
    have h9 : ∀ b0, Keeps x b0 → Keeps x (l6 b0).1 := by
      unfold l6
      intro a10 a11
      exact State.count64_keeps a11
    clear_value l6 l7 l8
    split
    · exact State.count_keeps h4
    · refine Keeps.iteP (p := (fun r => (Prod.fst r))) ?_ ?_
      · exact h9 _ (State.writeNarrow_keeps h4)
      · refine Keeps.iteP (p := (fun r => (Prod.fst r))) ?_ ?_
        · exact h9 _ h4
        · split
          · exact h9 _ (State.writeNarrow_keeps h4)
          · exact h9 _ (State.overflowTag_keeps (State.writeNarrow_keeps h4))
          · split
            · exact h4
            · extract_lets l31 l32
              have h33 : Keeps x l31 := by
                unfold l31
                exact State.setSheet_keeps h4
              clear_value l31
              have h34 : Keeps x l32 := by
                unfold l32
                exact State.writeWide_keeps h33
              clear_value l32
              exact h9 _ (State.widePeak_keeps (State.count_keeps h34))
    · extract_lets l39
      clear_value l39
      refine Keeps.iteP (p := (fun r => (Prod.fst r))) ?_ ?_
      · exact h9 _ (State.writeWide_keeps h4)
      · refine Keeps.iteP (p := (fun r => (Prod.fst r))) ?_ ?_
        · exact h9 _ h4
        · refine Keeps.iteP (p := (fun r => (Prod.fst r))) ?_ ?_
          · exact h9 _ (State.overflowTag_keeps (State.writeWide_keeps h4))
          · exact h9 _ (State.writeWide_keeps h4)

theorem State.scsReplace_keeps {x : State} {a0} {a1} {a2} {a3} (k0 : Keeps x a0) : Keeps x (State.scsReplace a0 a1
    a2 a3) := by
  unfold State.scsReplace
  extract_lets l0
  clear_value l0
  exact State.count64_keeps (State.writeNarrow_keeps (State.releaseGroup_keeps k0))

theorem State.scsEnqueue_keeps {x : State} {a0} {a1} {a2} (k0 : Keeps x a0) : Keeps x (State.scsEnqueue a0 a1 a2)
    := by
  unfold State.scsEnqueue
  extract_lets l0 l1 l2
  clear_value l0 l1
  have h3 : Keeps x l2 := by
    unfold l2
    exact State.setSheet_keeps k0
  clear_value l2
  exact Keeps.ite (State.count64_keeps h3) (State.countFree_keeps h3)

theorem State.scsAdd_keeps {x : State} {a0} {a1} {a2} {a3} {a4} {a5} (k0 : Keeps x a0) : Keeps x (State.scsAdd a0
    a1 a2 a3 a4 a5) := by
  unfold State.scsAdd
  extract_lets l0
  clear_value l0
  refine Keeps.ite ?_ ?_
  · exact State.scsEnqueue_keeps k0
  · split
    · rename_i v1 v2 v3
      have h4 : Keeps x ((v2, true)).1 := by
        rw [← v3]
        exact State.scsAbsorb_keeps k0
      exact h4
    · rename_i v5 v6 v7
      have h8 : Keeps x ((v6, false)).1 := by
        rw [← v7]
        exact State.scsAbsorb_keeps k0
      exact State.scsEnqueue_keeps h8

theorem State.scsSet_keeps {x : State} {a0} {a1} {a2} {a3} {a4} {a5} (k0 : Keeps x a0) : Keeps x (State.scsSet a0
    a1 a2 a3 a4 a5) := by
  unfold State.scsSet
  exact Keeps.ite (State.scsEnqueue_keeps k0) (State.scsReplace_keeps k0)

theorem State.scsTake_keeps {x : State} {a0} {a1} {a2} (k0 : Keeps x a0) : Keeps x (State.scsTake a0 a1 a2) := by
  unfold State.scsTake
  extract_lets l0 l1 l2
  clear_value l0 l1
  have h3 : Keeps x l2 := by
    unfold l2
    exact State.setSheet_keeps k0
  clear_value l2
  refine Keeps.ite ?_ ?_
  · exact State.count64_keeps (State.scsReplace_keeps h3)
  · split
    · rename_i v4 v5 v6
      have h7 : Keeps x ((v5, true)).1 := by
        rw [← v6]
        exact State.scsAbsorb_keeps k0
      extract_lets l8
      clear_value l8
      exact State.count64_keeps (State.setSheet_keeps h7)
    · rename_i v9 v10 v11
      have h12 : Keeps x ((v10, false)).1 := by
        rw [← v11]
        exact State.scsAbsorb_keeps k0
      exact k0

theorem State.scsQueueStep_keeps {x : State} {a0} {a1} {a2} (k0 : Keeps x a0) : Keeps x (State.scsQueueStep a0 a1
    a2) := by
  unfold State.scsQueueStep
  split
  · extract_lets l3
    have h4 : Keeps x l3 := by
      unfold l3
      exact Keeps.ite (State.countFree_keeps k0) k0
    clear_value l3
    exact State.scsTake_keeps h4
  · exact k0

theorem State.scsPromoteStep_keeps {x : State} {a0} {a1} {a2} (k0 : Keeps x a0) : Keeps x (State.scsPromoteStep a0
    a1 a2) := by
  unfold State.scsPromoteStep
  split
  · exact Keeps.ite (State.scsTake_keeps k0) k0
  · exact k0

end Sys2Proof.Machine
end

