-- ==== Sys2Proof/Laws/KeepsMemory.lean ====
section
/-! SUPPORT. What the operations of Machine/Memory.lean keep (`Keeps`, Laws/Keeps.lean). -/

namespace Sys2Proof.Machine

theorem State.wordMerge_keeps {x : State} {a0} {a1} {a2} {a3} (k0 : Keeps x a0) : Keeps x (State.wordMerge a0 a1 a2
    a3).1 := by
  unfold State.wordMerge
  extract_lets l0
  clear_value l0
  split
  · extract_lets l6 l7
    clear_value l6 l7
    exact State.wordStore_keeps k0

theorem State.addRepair_keeps {x s : State} {l : Nat} (h : Keeps x s) : Keeps x (s.addRepair l) := by
  unfold State.addRepair
  refine Keeps.ite h ?_
  have k := State.setReg_keeps (a1 := hbmPg (l / 0xC00000000)) (a2 := HBM.REPAIR_PENDING)
    (a3 := s.reg (hbmPg (l / 0xC00000000)) HBM.REPAIR_PENDING + 1) (a4 := 0) h
  exact Keeps.upd k rfl rfl rfl rfl

theorem State.hbmUe_keeps {x : State} {a0} {a1} {a2} (k0 : Keeps x a0) : Keeps x (State.hbmUe a0 a1 a2) := by
  unfold State.hbmUe
  extract_lets l0 l1 l2 l3 l4 l5
  clear_value l0 l1
  have h6 : Keeps x l2 := by
    unfold l2
    exact State.count_keeps k0
  clear_value l2
  have h7 : Keeps x l3 := by
    unfold l3
    exact State.err_keeps h6
  clear_value l3 l4
  have h8 : Keeps x l5 := by
    unfold l5
    exact Keeps.ite (State.setReg_keeps h7) (State.err_keeps h7)
  clear_value l5
  exact State.addRepair_keeps h8

theorem State.rowCorrected_keeps {x : State} {a0} {a1} (k0 : Keeps x a0) : Keeps x (State.rowCorrected a0 a1) := by
  unfold State.rowCorrected
  extract_lets l0 l1 l2 l3
  clear_value l0 l1
  have h4 : Keeps x l3 := by
    unfold l3
    exact Keeps.upd k0 rfl rfl rfl rfl
  clear_value l3
  exact Keeps.ite (State.addRepair_keeps h4) h4

theorem State.writebackWords_keeps {x : State} {a0} {a1} (k0 : Keeps x a0) : Keeps x (State.writebackWords a0 a1).1
    := by
  unfold State.writebackWords
  refine Keeps.foldl (p := (fun r => (Prod.fst r))) ?_ (fun b0 a1 h2 => ?_)
  · exact k0
  · split
    · extract_lets l8
      clear_value l8
      refine Keeps.iteP (p := (fun r => (Prod.fst r))) ?_ ?_
      · exact h2
      · split
        · rename_i v9 v10 v11 v12
          have h13 : Keeps x ((v10, v11)).1 := by
            rw [← v12]
            exact State.wordMerge_keeps h2
          exact h13

theorem State.writeback_keeps {x : State} {a0} {a1} (k0 : Keeps x a0) : Keeps x (State.writeback a0 a1) := by
  unfold State.writeback
  extract_lets l0 l1
  clear_value l0 l1
  split
  · rename_i v2 v3 v4 v5 v6
    have h7 : Keeps x ((v3, v4, v5)).1 := by
      rw [← v6]
      exact State.writebackWords_keeps k0
    extract_lets l8 l9 l10 l11 l12
    have h13 : Keeps x l8 := by
      unfold l8
      exact State.count64_keeps h7
    clear_value l8
    have h14 : Keeps x l9 := by
      unfold l9
      exact State.count64_keeps h13
    clear_value l9
    have h15 : Keeps x l10 := by
      unfold l10
      exact Keeps.ite (State.count64_keeps (State.count64_keeps h14)) h14
    clear_value l10
    have h16 : Keeps x l11 := by
      unfold l11
      exact Keeps.ite h15 (State.addRepair_keeps (State.err_keeps (State.count_keeps h15)))
    clear_value l11
    exact Keeps.upd h16 rfl rfl rfl rfl

theorem State.writebackAll_keeps {x : State} {a0} {a1} (k0 : Keeps x a0) : Keeps x (State.writebackAll a0 a1) := by
  unfold State.writebackAll
  refine Keeps.foldl (p := fun r => r) ?_ (fun b0 a1 h2 => ?_)
  · exact k0
  · exact State.writeback_keeps h2

theorem State.wcbWrite_keeps {x : State} {a0} {a1} {a2} {a3} (k0 : Keeps x a0) : Keeps x (State.wcbWrite a0 a1 a2
    a3) := by
  unfold State.wcbWrite
  extract_lets l0 l1 l2 l3 l4 l5 l6 l7 l8
  clear_value l0 l1 l2 l4 l5
  have h9 : Keeps x l6 := by
    unfold l6
    refine Keeps.ite ?_ ?_
    · split
      · exact State.countFree_keeps (State.count_keeps (State.writeback_keeps k0))
      · exact k0
    · exact k0
  clear_value l6 l7
  split
  · extract_lets l17 l18
    clear_value l17 l18
    exact State.count64_keeps (Keeps.upd k0 rfl rfl rfl rfl)
  · exact Keeps.upd h9 rfl rfl rfl rfl

theorem State.lineVisit_keeps {x : State} {a0} {a1} (k0 : Keeps x a0) : Keeps x (State.lineVisit a0 a1) := by
  unfold State.lineVisit
  extract_lets l0 l1 l2 l3
  clear_value l0 l1 l2
  have h4 : Keeps x l3 := by
    unfold l3
    exact Keeps.ite (State.count64_keeps k0) k0
  clear_value l3
  exact Keeps.ite h4 (State.count64_keeps h4)

theorem State.hbmLine_keeps {x : State} {a0} {a1} {a2} {a3} (k0 : Keeps x a0) : Keeps x (State.hbmLine a0 a1 a2
    a3).st := by
  unfold State.hbmLine
  extract_lets l0 l1 l2 l3 l4 l5 l6 l7 l8 l9 l10 l11 l12 l13
  clear_value l0 l1 l2 l3
  have h14 : Keeps x l4 := by
    unfold l4
    exact State.lineVisit_keeps k0
  clear_value l4 l5 l6 l7 l8
  have h15 : Keeps x l9 := by
    unfold l9
    exact State.rowCorrected_keeps (State.count_keeps h14)
  clear_value l9
  have h16 : Keeps x l11 := by
    unfold l11
    exact Keeps.ite (Keeps.upd h15 rfl rfl rfl rfl) h14
  clear_value l11 l12 l13
  dsimp only
  refine Keeps.foldl (p := fun r => r) ?_ (fun b17 a18 h19 => ?_)
  · exact h16
  · exact State.hbmUe_keeps h19

theorem State.hbmRead_keeps {x : State} {a0} {a1} {a2} (k0 : Keeps x a0) : Keeps x (State.hbmRead a0 a1 a2).st := by
  unfold State.hbmRead
  exact State.hbmLine_keeps k0

theorem State.sqmRead_keeps {x : State} {a0} {a1} {a2} {a3} (k0 : Keeps x a0) : Keeps x (State.sqmRead a0 a1 a2
    a3).st := by
  unfold State.sqmRead
  extract_lets l0 l1
  clear_value l0 l1
  refine Keeps.foldl (p := (fun r => (MemRes.st r))) ?_ (fun b2 a3 h4 => ?_)
  · exact k0
  · split
    · extract_lets l11 l12 l13 l14
      have h15 : Keeps x l11 := by
        unfold l11
        exact Keeps.ite (State.count_keeps (State.wordStore_keeps h4)) h4
      clear_value l11 l12
      have h16 : Keeps x l13 := by
        unfold l13
        exact Keeps.ite (State.err_keeps (State.setReg_keeps (State.count_keeps h15))) h15
      clear_value l13 l14
      exact h16

theorem State.scsWindowRead_keeps {x : State} {a0} {a1} {a2} {a3} (k0 : Keeps x a0) : Keeps x (State.scsWindowRead
    a0 a1 a2 a3).st := by
  unfold State.scsWindowRead
  exact k0

theorem State.farRead_keeps {x : State} {a0} {a1} {a2} (k0 : Keeps x a0) : Keeps x (State.farRead a0 a1 a2).st := by
  unfold State.farRead
  split
  · exact State.err_keeps (State.count_keeps k0)
  · extract_lets l5 l6 l7 l8
    clear_value l5
    have h9 : Keeps x l6 := by
      unfold l6
      exact State.count64_keeps k0
    clear_value l6 l7
    have h10 : Keeps x l8 := by
      unfold l8
      exact Keeps.ite h9 (State.err_keeps (State.count_keeps h9))
    clear_value l8
    refine Keeps.iteP (p := (fun r => (MemRes.st r))) ?_ ?_
    · exact h10
    · exact State.err_keeps k0

theorem State.regionLog_keeps {x : State} {a0} {a1} {a2} {a3} (k0 : Keeps x a0) : Keeps x (State.regionLog a0 a1 a2
    a3) := by
  unfold State.regionLog
  split
  · exact k0
  · exact State.violation_keeps k0
  · exact State.err_keeps (State.count_keeps k0)

theorem State.pieceRead_keeps {x : State} {a0} {a1} {a2} {a3} (k0 : Keeps x a0) : Keeps x (State.pieceRead a0 a1 a2
    a3).st := by
  unfold State.pieceRead
  extract_lets l0
  have h1 : ∀ b0, (∀ b00, Keeps x b00 → Keeps x (b0 b00).st) → Keeps x (l0 b0).st := by
    unfold l0
    intro a2 a3
    split
    · exact a3 _ k0
    · exact State.regionLog_keeps k0
  clear_value l0
  split
  · refine h1 _ ?_
    intro a15 a16
    exact State.hbmRead_keeps a16
  · refine h1 _ ?_
    intro a19 a20
    exact State.farRead_keeps a20
  · exact State.sqmRead_keeps k0
  · exact State.scsWindowRead_keeps k0
  · exact k0
  · exact k0

theorem State.memRead_keeps {x : State} {a0} {a1} {a2} {a3} (k0 : Keeps x a0) : Keeps x (State.memRead a0 a1 a2
    a3).st := by
  unfold State.memRead
  refine Keeps.foldl (p := (fun r => (MemRes.st r))) ?_ (fun b0 a1 h2 => ?_)
  · exact k0
  · extract_lets l3
    have h4 : Keeps x l3.st := by
      unfold l3
      exact State.pieceRead_keeps h2
    clear_value l3
    exact h4

theorem State.plainWrite_keeps {x : State} {a0} {a1} {a2} {a3} (k0 : Keeps x a0) : Keeps x (State.plainWrite a0 a1
    a2 a3) := by
  unfold State.plainWrite
  extract_lets l0
  clear_value l0
  refine Keeps.foldl (p := fun r => r) ?_ (fun b1 a2 h3 => ?_)
  · exact k0
  · exact State.wordMerge_keeps h3

theorem State.pieceWrite_keeps {x : State} {a0} {a1} {a2} {a3} {a4} (k0 : Keeps x a0) : Keeps x (State.pieceWrite
    a0 a1 a2 a3 a4).st := by
  unfold State.pieceWrite
  extract_lets l0
  have h1 : ∀ b0, (∀ b00, Keeps x b00 → Keeps x (b0 b00)) → Keeps x (l0 b0).st := by
    unfold l0
    intro a2 a3
    split
    · exact a3 _ k0
    · exact State.regionLog_keeps k0
  clear_value l0
  split
  · refine h1 _ ?_
    intro a15 a16
    exact State.wcbWrite_keeps a16
  · refine h1 _ ?_
    intro a19 a20
    split
    · exact State.err_keeps (State.count_keeps a20)
    · exact Keeps.ite (State.count64_keeps (State.plainWrite_keeps a20)) (State.err_keeps a20)
  · exact State.plainWrite_keeps k0
  · exact State.err_keeps k0
  · exact k0
  · exact k0

theorem State.memWrite_keeps {x : State} {a0} {a1} {a2} {a3} {a4} (k0 : Keeps x a0) : Keeps x (State.memWrite a0 a1
    a2 a3 a4).st := by
  unfold State.memWrite
  refine Keeps.foldl (p := (fun r => (WrRes.st r))) ?_ (fun b0 a1 h2 => ?_)
  · exact k0
  · extract_lets l3
    have h4 : Keeps x l3.st := by
      unfold l3
      exact State.pieceWrite_keeps h2
    clear_value l3
    exact h4

theorem State.memPut_keeps {x : State} {a0} {a1} {a2} {a3} (k0 : Keeps x a0) : Keeps x (State.memPut a0 a1 a2 a3)
    := by
  unfold State.memPut
  exact State.memWrite_keeps k0

theorem State.sqRead_keeps {x : State} {a0} {a1} {a2} {a3} (k0 : Keeps x a0) : Keeps x (State.sqRead a0 a1 a2
    a3).st := by
  unfold State.sqRead
  exact State.memRead_keeps k0

theorem State.sqWrite_keeps {x : State} {a0} {a1} {a2} {a3} (k0 : Keeps x a0) : Keeps x (State.sqWrite a0 a1 a2 a3)
    := by
  unfold State.sqWrite
  exact State.memWrite_keeps k0

theorem RowAcc.line_keeps {x : State} {a0} {a1} {a2} {a3} {a4} {a5} (k0 : Keeps x a0.st) (k5 : ∀ b0, Keeps x b0.st
    → Keeps x (a5 b0).st) : Keeps x (RowAcc.line a0 a1 a2 a3 a4 a5).st := by
  unfold RowAcc.line
  extract_lets l0
  clear_value l0
  split
  · exact k5 _ k0
  · exact State.regionLog_keeps k0

theorem RowAcc.farLine_keeps {x : State} {a0} {a1} {a2} {a3} {a4} (k0 : Keeps x a0.st) (k3 : ∀ b0, Keeps x b0.st →
    Keeps x (a3 b0).st) : Keeps x (RowAcc.farLine a0 a1 a2 a3 a4).st := by
  unfold RowAcc.farLine
  extract_lets l0
  clear_value l0
  split
  · exact State.err_keeps (State.count_keeps k0)
  · refine Keeps.iteP (p := (fun r => (RowAcc.st r))) ?_ ?_
    · exact k3 _ k0
    · exact State.err_keeps k0

theorem State.rowWords_keeps {x : State} {a0} {a1} {a2} {a3} {a4} {a5} {a6} (k0 : Keeps x a0) : Keeps x
    (State.rowWords a0 a1 a2 a3 a4 a5 a6).st := by
  unfold State.rowWords
  refine Keeps.foldl (p := (fun r => (RowAcc.st r))) ?_ (fun b0 a1 h2 => ?_)
  · exact k0
  · extract_lets l3 l4 l5
    clear_value l3 l4 l5
    refine RowAcc.line_keeps ?_ ?_
    · exact h2
    · intro a6 a7
      extract_lets l8
      have h9 : Keeps x l8.st := by
        unfold l8
        exact State.hbmLine_keeps a7
      clear_value l8
      refine Keeps.iteP (p := (fun r => (RowAcc.st r))) ?_ ?_
      · exact h9
      · refine RowAcc.farLine_keeps ?_ ?_
        · exact a7
        · intro a10 a11
          extract_lets l12 l13 l14
          clear_value l12
          have h15 : Keeps x l13 := by
            unfold l13
            exact State.count64_keeps a11
          clear_value l13
          have h16 : Keeps x l14 := by
            unfold l14
            exact Keeps.ite h15 (State.err_keeps (State.count_keeps h15))
          clear_value l14
          exact h16

theorem State.rowGet_keeps {x : State} {a0} {a1} {a2} {a3} {a4} {a5} {a6} (k0 : Keeps x a0) : Keeps x (State.rowGet
    a0 a1 a2 a3 a4 a5 a6).st := by
  unfold State.rowGet
  exact State.rowWords_keeps k0

theorem State.rowSet_keeps {x : State} {a0} {a1} {a2} {a3} {a4} {a5} {a6} (k0 : Keeps x a0) : Keeps x (State.rowSet
    a0 a1 a2 a3 a4 a5 a6).st := by
  unfold State.rowSet
  refine Keeps.foldl (p := (fun r => (RowAcc.st r))) ?_ (fun b0 a1 h2 => ?_)
  · exact k0
  · extract_lets l3 l4 l5
    clear_value l3 l4 l5
    refine RowAcc.line_keeps ?_ ?_
    · exact h2
    · intro a6 a7
      refine Keeps.iteP (p := (fun r => (RowAcc.st r))) ?_ ?_
      · exact State.wcbWrite_keeps a7
      · refine RowAcc.farLine_keeps ?_ ?_
        · exact a7
        · intro a8 a9
          exact State.count64_keeps (State.plainWrite_keeps a9)

theorem State.owe_keeps {x : State} {a0} {a1} {a2} {a3} (k0 : Keeps x a0) : Keeps x (State.owe a0 a1 a2 a3) := by
  unfold State.owe
  extract_lets l0
  clear_value l0
  exact Keeps.ite k0 (Keeps.upd k0 rfl rfl rfl rfl)

theorem State.ownAccess_keeps {x : State} {a0} {a1} (k0 : Keeps x a0) : Keeps x (State.ownAccess a0 a1) := by
  unfold State.ownAccess
  split
  · refine Keeps.ite ?_ ?_
    · exact k0
    · split
      · rename_i v4 v5 v6 v7
        have h8 : Keeps x ((v5, v6)).2 := by
          rw [← v7]
          exact State.draw_keeps k0
        extract_lets l9
        clear_value l9
        refine Keeps.ite ?_ ?_
        · split
          · rename_i v10 v11 v12 v13
            have h14 : Keeps x ((v11, v12)).2 := by
              rw [← v13]
              exact State.draw_keeps h8
            exact State.memWrite_keeps h14
        · exact State.memRead_keeps h8

theorem State.ownTraffic_keeps {x : State} {a0} (k0 : Keeps x a0) : Keeps x (State.ownTraffic a0) := by
  unfold State.ownTraffic
  extract_lets l0
  clear_value l0
  refine Keeps.foldl (p := fun r => r) ?_ (fun b1 a2 h3 => ?_)
  · exact Keeps.upd k0 rfl rfl rfl rfl
  · exact State.ownAccess_keeps h3

end Sys2Proof.Machine
end

