-- ==== Sys2Proof/Laws/KeepsLinks.lean ====
section
/-! SUPPORT. What the operations of Machine/Links.lean keep (`Keeps`, Laws/Keeps.lean). -/

namespace Sys2Proof.Machine

theorem State.setPort_keeps {x : State} {a0} {a1} {a2} (k0 : Keeps x a0) : Keeps x (State.setPort a0 a1 a2) := by
  unfold State.setPort
  extract_lets l0
  clear_value l0
  exact Keeps.upd k0 rfl rfl rfl rfl

theorem State.sendFlit_keeps {x : State} {a0} {a1} {a2} (k0 : Keeps x a0) : Keeps x (State.sendFlit a0 a1 a2) := by
  unfold State.sendFlit
  extract_lets l0 l1 l2
  clear_value l0 l1 l2
  exact State.emit_keeps (State.setPort_keeps k0)

theorem State.sendData_keeps {x : State} {a0} {a1} (k0 : Keeps x a0) : Keeps x (State.sendData a0 a1) := by
  unfold State.sendData
  extract_lets l0
  clear_value l0
  split
  · extract_lets l5
    clear_value l5
    exact State.count64_keeps (State.sendFlit_keeps (State.setPort_keeps k0))

theorem State.sendFull_keeps {x : State} {a0} {a1} {a2} {a3} (k0 : Keeps x a0) : Keeps x (State.sendFull a0 a1 a2
    a3) := by
  induction a3 generalizing a0 a1 a2
  · unfold State.sendFull
    exact k0
  · rename_i v0 v1
    unfold State.sendFull
    exact Keeps.ite (v1 (State.sendData_keeps k0)) k0

theorem State.startPkt_keeps {x : State} {a0} {a1} {a2} (k0 : Keeps x a0) : Keeps x (State.startPkt a0 a1 a2) := by
  unfold State.startPkt
  extract_lets l0 l1
  clear_value l0 l1
  exact State.sendFull_keeps (State.emit_keeps (State.setPort_keeps k0))

theorem State.pumpFuel_keeps {x : State} {a0} {a1} {a2} (k0 : Keeps x a0) : Keeps x (State.pumpFuel a0 a1 a2) := by
  induction a2 generalizing a0 a1
  · unfold State.pumpFuel
    exact k0
  · rename_i v0 v1
    unfold State.pumpFuel
    refine Keeps.ite ?_ ?_
    · split
      · exact v1 (State.startPkt_keeps k0)
      · exact k0
    · exact k0

theorem State.sendIdle_keeps {x : State} {a0} {a1} {a2} (k0 : Keeps x a0) : Keeps x (State.sendIdle a0 a1 a2) := by
  induction a2 generalizing a0 a1
  · unfold State.sendIdle
    exact k0
  · rename_i v0 v1
    unfold State.sendIdle
    extract_lets l2
    clear_value l2
    exact Keeps.ite (v1 (State.sendFlit_keeps k0)) k0

theorem State.pump_keeps {x : State} {a0} {a1} (k0 : Keeps x a0) : Keeps x (State.pump a0 a1) := by
  unfold State.pump
  exact State.sendIdle_keeps (State.sendFull_keeps (State.pumpFuel_keeps k0))

theorem State.forwardBut_keeps {x : State} {a0} {a1} {a2} (k0 : Keeps x a0) : Keeps x (State.forwardBut a0 a1 a2)
    := by
  unfold State.forwardBut
  split
  · exact State.err_keeps (State.count_keeps k0)
  · extract_lets l6 l7
    clear_value l6 l7
    exact State.pump_keeps (State.setPort_keeps k0)

theorem State.forward_keeps {x : State} {a0} {a1} {a2} (k0 : Keeps x a0) : Keeps x (State.forward a0 a1 a2) := by
  unfold State.forward
  exact State.forwardBut_keeps k0

theorem State.setTx_keeps {x : State} {a0} {a1} {a2} {a3} (k0 : Keeps x a0) : Keeps x (State.setTx a0 a1 a2 a3) := by
  unfold State.setTx
  extract_lets l0
  clear_value l0
  exact Keeps.upd k0 rfl rfl rfl rfl

theorem State.inject_keeps {x : State} {a0} {a1} (k0 : Keeps x a0) : Keeps x (State.inject a0 a1) := by
  unfold State.inject
  extract_lets l0 l1 l2 l3 l4 l5
  clear_value l0
  have h6 : Keeps x l1 := by
    unfold l1
    exact State.count64_keeps k0
  clear_value l1 l2 l3 l4
  have h7 : Keeps x l5 := by
    unfold l5
    exact State.setTx_keeps h6
  clear_value l5
  exact Keeps.ite (State.forward_keeps (State.owe_keeps h7)) (State.forward_keeps h6)

theorem State.sendOne_keeps {x : State} {a0} {a1} {a2} (k0 : Keeps x a0) : Keeps x (State.sendOne a0 a1 a2) := by
  unfold State.sendOne
  extract_lets l0
  clear_value l0
  exact Keeps.ite (Keeps.upd k0 rfl rfl rfl rfl) (Keeps.ite (State.countFree_keeps (Keeps.upd k0 rfl rfl rfl rfl))
      (State.inject_keeps k0))

theorem State.sendPkt_keeps {x : State} {a0} {a1} (k0 : Keeps x a0) : Keeps x (State.sendPkt a0 a1) := by
  unfold State.sendPkt
  extract_lets l0 l1 l2 l3 l4
  clear_value l0 l1
  have h5 : Keeps x l2 := by
    unfold l2
    exact State.err_keeps (State.count_keeps k0)
  clear_value l2 l3 l4
  split
  · split
    · extract_lets l12
      clear_value l12
      exact Keeps.upd h5 rfl rfl rfl rfl
  · refine Keeps.foldl (p := fun r => r) ?_ (fun b16 a17 h18 => ?_)
    · exact k0
    · exact State.sendOne_keeps h18

theorem State.drainWaiting_keeps {x : State} {a0} {a1} (k0 : Keeps x a0) : Keeps x (State.drainWaiting a0 a1) := by
  induction a1 generalizing a0
  · unfold State.drainWaiting
    exact k0
  · rename_i v0 v1
    unfold State.drainWaiting
    split
    · exact k0
    · extract_lets l8
      clear_value l8
      exact Keeps.ite (v1 (State.inject_keeps (Keeps.upd k0 rfl rfl rfl rfl))) k0

theorem State.send_keeps {x : State} {a0} {a1} {a2} {a3} {a4} {a5} {a6} {a7} (k0 : Keeps x a0) : Keeps x
    (State.send a0 a1 a2 a3 a4 a5 a6 a7) := by
  unfold State.send
  extract_lets l0
  clear_value l0
  exact State.sendPkt_keeps k0

theorem State.sendF0_keeps {x : State} {a0} {a1} {a2} {a3} {a4} (k0 : Keeps x a0) : Keeps x (State.sendF0 a0 a1 a2
    a3 a4) := by
  unfold State.sendF0
  exact State.send_keeps k0

theorem State.respond_keeps {x : State} {a0} {a1} {a2} {a3} (k0 : Keeps x a0) : Keeps x (State.respond a0 a1 a2 a3)
    := by
  unfold State.respond
  exact State.sendPkt_keeps k0

theorem State.reply_keeps {x : State} {a0} {a1} {a2} (k0 : Keeps x a0) : Keeps x (State.reply a0 a1 a2) := by
  unfold State.reply
  exact State.sendPkt_keeps k0

theorem State.nackPkt_keeps {x : State} {a0} {a1} {a2} (k0 : Keeps x a0) : Keeps x (State.nackPkt a0 a1 a2) := by
  unfold State.nackPkt
  split
  · exact State.reply_keeps k0

theorem State.setRx_keeps {x : State} {a0} {a1} {a2} {a3} (k0 : Keeps x a0) : Keeps x (State.setRx a0 a1 a2 a3) := by
  unfold State.setRx
  extract_lets l0
  clear_value l0
  exact Keeps.upd k0 rfl rfl rfl rfl

theorem State.ackStream_keeps {x : State} {a0} {a1} {a2} (k0 : Keeps x a0) : Keeps x (State.ackStream a0 a1 a2) := by
  unfold State.ackStream
  extract_lets l0 l1
  clear_value l0
  have h2 : Keeps x l1 := by
    unfold l1
    exact State.setRx_keeps k0
  clear_value l1
  exact State.sendPkt_keeps h2

theorem State.badPacket_keeps {x : State} {a0} {a1} (k0 : Keeps x a0) : Keeps x (State.badPacket a0 a1) := by
  unfold State.badPacket
  exact State.err_keeps (State.count_keeps k0)

theorem State.handOver_keeps {x : State} {a0} {a1} {a2} (k0 : Keeps x a0) (k1 : ∀ b0 b1, Keeps x b0 → Keeps x (a1
    b0 b1)) : Keeps x (State.handOver a0 a1 a2) := by
  unfold State.handOver
  refine Keeps.ite ?_ ?_
  · split
    · exact k0
    · exact State.nackPkt_keeps k0
  · exact k1 _ _ k0

theorem State.accept_keeps {x : State} {a0} {a1} {a2} (k0 : Keeps x a0) (k1 : ∀ b0 b1, Keeps x b0 → Keeps x (a1 b0
    b1)) : Keeps x (State.accept a0 a1 a2) := by
  unfold State.accept
  refine State.handOver_keeps ?_ ?_
  · exact State.count64_keeps k0
  · intro a0 a1 a2
    exact k1 _ _ a2

theorem State.drainHeld_keeps {x : State} {a0} {a1} {a2} {a3} {a4} (k0 : Keeps x a0) (k1 : ∀ b0 b1, Keeps x b0 →
    Keeps x (a1 b0 b1)) : Keeps x (State.drainHeld a0 a1 a2 a3 a4) := by
  induction a4 generalizing a0 a2 a3
  · unfold State.drainHeld
    exact k0
  · rename_i v0 v1
    unfold State.drainHeld
    extract_lets l2
    clear_value l2
    split
    · exact k0
    · extract_lets l8 l9 l10
      have h11 : Keeps x l8 := by
        unfold l8
        exact State.setRx_keeps k0
      clear_value l8
      have h12 : Keeps x l9 := by
        unfold l9
        refine State.accept_keeps ?_ ?_
        · exact h11
        · intro a13 a14 a15
          exact k1 _ _ a15
      clear_value l9
      have h16 : Keeps x l10 := by
        unfold l10
        exact Keeps.ite (State.ackStream_keeps h12) h12
      clear_value l10
      exact v1 h16

theorem State.arrive_keeps {x : State} {a0} {a1} {a2} (k0 : Keeps x a0) (k1 : ∀ b0 b1, Keeps x b0 → Keeps x (a1 b0
    b1)) : Keeps x (State.arrive a0 a1 a2) := by
  unfold State.arrive
  extract_lets l0 l1 l2 l3
  clear_value l0
  have h4 : Keeps x l3 := by
    unfold l3
    exact State.setRx_keeps k0
  clear_value l3
  refine Keeps.ite ?_ ?_
  · exact k0
  · refine Keeps.ite ?_ ?_
    · refine Keeps.ite ?_ ?_
      · refine State.handOver_keeps ?_ ?_
        · exact Keeps.upd k0 rfl rfl rfl rfl
        · intro a5 a6 a7
          exact k1 _ _ a7
      · exact k0
    · refine Keeps.ite ?_ ?_
      · exact State.badPacket_keeps k0
      · refine Keeps.ite ?_ ?_
        · refine State.accept_keeps ?_ ?_
          · exact k0
          · intro a8 a9 a10
            exact k1 _ _ a10
        · refine Keeps.ite ?_ ?_
          · exact State.count_keeps k0
          · refine Keeps.ite ?_ ?_
            · exact k0
            · refine Keeps.ite ?_ ?_
              · exact State.count_keeps k0
              · refine Keeps.ite ?_ ?_
                · exact k0
                · refine State.drainHeld_keeps ?_ ?_
                  · exact h4
                  · intro a11 a12 a13
                    exact k1 _ _ a13

end Sys2Proof.Machine
end

