-- ==== Sys2Proof/Laws/KeepsOperands.lean ====
section
/-! SUPPORT. What the operations of Machine/Operands.lean keep (`Keeps`, Laws/Keeps.lean). -/

namespace Sys2Proof.Machine

theorem State.readElems_keeps {x : State} {a0} {a1} {a2} {a3} {a4} (k0 : Keeps x a0) : Keeps x (State.readElems a0
    a1 a2 a3 a4).st := by
  unfold State.readElems
  extract_lets l0
  have h1 : Keeps x l0.st := by
    unfold l0
    exact State.sqRead_keeps k0
  clear_value l0
  exact h1

end Sys2Proof.Machine
end

