-- ==== Sys2Proof/Laws/KeepsArbiter.lean ====
section
/-! SUPPORT. What the operations of Machine/Arbiter.lean keep (`Keeps`, Laws/Keeps.lean). -/

namespace Sys2Proof.Machine

theorem State.setObj_keeps {x : State} {a0} {a1} {a2} (k0 : Keeps x a0) : Keeps x (State.setObj a0 a1 a2) := by
  unfold State.setObj
  extract_lets l0
  clear_value l0
  exact Keeps.upd k0 rfl rfl rfl rfl

theorem State.mapCmd_keeps {x : State} {a0} {a1} {a2} (k0 : Keeps x a0) : Keeps x (State.mapCmd a0 a1 a2) := by
  unfold State.mapCmd
  exact Keeps.upd k0 rfl rfl rfl rfl

theorem State.finish_keeps {x : State} {a0} {a1} (k0 : Keeps x a0) : Keeps x (State.finish a0 a1) := by
  unfold State.finish
  exact State.mapCmd_keeps k0

theorem State.endCmd_keeps {x : State} {a0} {a1} {a2} (k0 : Keeps x a0) : Keeps x (State.endCmd a0 a1 a2) := by
  unfold State.endCmd
  exact State.mapCmd_keeps k0

theorem State.ungate_keeps {x : State} {a0} {a1} (k0 : Keeps x a0) : Keeps x (State.ungate a0 a1) := by
  unfold State.ungate
  extract_lets l0
  clear_value l0
  exact Keeps.upd k0 rfl rfl rfl rfl

theorem State.finishWait_keeps {x : State} {a0} {a1} (k0 : Keeps x a0) : Keeps x (State.finishWait a0 a1) := by
  unfold State.finishWait
  extract_lets l0
  have h1 : Keeps x l0 := by
    unfold l0
    split
    · exact State.ungate_keeps k0
    · exact k0
  clear_value l0
  exact State.finish_keeps h1

theorem State.finishAll_keeps {x : State} {a0} {a1} (k0 : Keeps x a0) : Keeps x (State.finishAll a0 a1) := by
  unfold State.finishAll
  refine Keeps.foldl (p := fun r => r) ?_ (fun b0 a1 h2 => ?_)
  · exact k0
  · exact State.finishWait_keeps h2

theorem State.releaseLive_keeps {x : State} {a0} {a1} {a2} (k0 : Keeps x a0) : Keeps x (State.releaseLive a0 a1 a2)
    := by
  unfold State.releaseLive
  extract_lets l0
  clear_value l0
  exact State.count_keeps (State.finishAll_keeps k0)

theorem State.releaseGes_keeps {x : State} {a0} {a1} (k0 : Keeps x a0) : Keeps x (State.releaseGes a0 a1) := by
  unfold State.releaseGes
  extract_lets l0 l1 l2
  clear_value l0 l1
  have h3 : Keeps x l2 := by
    unfold l2
    exact State.setObj_keeps k0
  clear_value l2
  exact State.releaseLive_keeps h3

theorem State.grantTakes_keeps {x : State} {a0} {a1} {a2} (k0 : Keeps x a0) : Keeps x (State.grantTakes a0 a1 a2)
    := by
  unfold State.grantTakes
  extract_lets l0 l1 l2
  clear_value l0 l1
  have h3 : Keeps x l2 := by
    unfold l2
    exact State.setObj_keeps k0
  clear_value l2
  exact State.releaseLive_keeps h3

theorem State.objAdd_keeps {x : State} {a0} {a1} {a2} {a3} (k0 : Keeps x a0) : Keeps x (State.objAdd a0 a1 a2 a3)
    := by
  unfold State.objAdd
  extract_lets l0 l1 l2 l3 l4 l5
  clear_value l0 l1 l2
  have h6 : Keeps x l3 := by
    unfold l3
    exact State.setObj_keeps k0
  clear_value l3
  have h7 : Keeps x l4 := by
    unfold l4
    exact State.count64_keeps h6
  clear_value l4
  have h8 : Keeps x l5 := by
    unfold l5
    exact Keeps.ite (State.err_keeps (State.count_keeps h7)) h7
  clear_value l5
  exact Keeps.ite (State.grantTakes_keeps h8) (State.releaseGes_keeps h8)

theorem State.releaseBarrier_keeps {x : State} {a0} {a1} (k0 : Keeps x a0) : Keeps x (State.releaseBarrier a0 a1)
    := by
  unfold State.releaseBarrier
  split
  · exact k0
  · extract_lets l5 l6 l7 l8 l9 l10 l11 l12 l13
    clear_value l5 l6 l7 l8 l9 l10
    have h14 : Keeps x l11 := by
      unfold l11
      exact Keeps.upd k0 rfl rfl rfl rfl
    clear_value l11
    have h15 : Keeps x l12 := by
      unfold l12
      exact State.count_keeps (State.releaseLive_keeps h14)
    clear_value l12 l13
    exact Keeps.ite k0 (State.objAdd_keeps h15)

theorem State.barrierJoin_keeps {x : State} {a0} {a1} {a2} {a3} {a4} (k0 : Keeps x a0) : Keeps x (State.barrierJoin
    a0 a1 a2 a3 a4) := by
  unfold State.barrierJoin
  extract_lets l0 l1 l2
  clear_value l0 l1
  have h3 : Keeps x l2 := by
    unfold l2
    exact Keeps.upd k0 rfl rfl rfl rfl
  clear_value l2
  exact State.releaseBarrier_keeps h3

theorem State.trackerJoin_keeps {x : State} {a0} {a1} {a2} (k0 : Keeps x a0) : Keeps x (State.trackerJoin a0 a1 a2)
    := by
  unfold State.trackerJoin
  extract_lets l0 l1 l2
  clear_value l0
  have h3 : Keeps x l1 := by
    unfold l1
    exact Keeps.upd k0 rfl rfl rfl rfl
  clear_value l1
  have h4 : Keeps x l2 := by
    unfold l2
    exact State.countFree_keeps h3
  clear_value l2
  split
  · exact Keeps.ite (State.endCmd_keeps (State.err_keeps h4)) (State.barrierJoin_keeps h4)
  · exact k0

theorem State.barrierBegin_keeps {x : State} {a0} {a1} {a2} {a3} {a4} (k0 : Keeps x a0) : Keeps x
    (State.barrierBegin a0 a1 a2 a3 a4) := by
  unfold State.barrierBegin
  extract_lets l0 l1
  clear_value l0
  have h2 : Keeps x l1 := by
    unfold l1
    exact Keeps.upd k0 rfl rfl rfl rfl
  clear_value l1
  refine Keeps.foldl (p := fun r => r) ?_ (fun b3 a4 h5 => ?_)
  · exact State.releaseBarrier_keeps h2
  · exact State.trackerJoin_keeps h5

theorem State.barrierArrive_keeps {x : State} {a0} {a1} {a2} {a3} {a4} (k0 : Keeps x a0) : Keeps x
    (State.barrierArrive a0 a1 a2 a3 a4) := by
  unfold State.barrierArrive
  extract_lets l0
  clear_value l0
  split
  · exact State.barrierJoin_keeps k0
  · exact Keeps.ite (State.barrierBegin_keeps k0) (Keeps.upd k0 rfl rfl rfl rfl)

theorem State.orphanAll_keeps {x : State} {a0} {a1} (k0 : Keeps x a0) : Keeps x (State.orphanAll a0 a1) := by
  unfold State.orphanAll
  refine Keeps.foldl (p := fun r => r) ?_ (fun b0 a1 h2 => ?_)
  · exact k0
  · exact State.endCmd_keeps h2

theorem State.clearBarriers_keeps {x : State} {a0} {a1} (k0 : Keeps x a0) : Keeps x (State.clearBarriers a0 a1) := by
  unfold State.clearBarriers
  extract_lets l0
  clear_value l0
  exact Keeps.upd k0 rfl rfl rfl rfl

theorem State.orphan_keeps {x : State} {a0} {a1} (k0 : Keeps x a0) : Keeps x (State.orphan a0 a1) := by
  unfold State.orphan
  extract_lets l0 l1 l2 l3 l4 l5
  clear_value l0 l1 l2
  have h6 : Keeps x l3 := by
    unfold l3
    exact State.setObj_keeps (State.clearBarriers_keeps k0)
  clear_value l3
  have h7 : Keeps x l4 := by
    unfold l4
    exact State.orphanAll_keeps h6
  clear_value l4
  have h8 : Keeps x l5 := by
    unfold l5
    exact State.count_keeps h7
  clear_value l5
  exact Keeps.ite h8 (State.err_keeps h8)

theorem State.orphanOwned_keeps {x : State} {a0} {a1} (k0 : Keeps x a0) : Keeps x (State.orphanOwned a0 a1) := by
  unfold State.orphanOwned
  refine Keeps.foldl (p := fun r => r) ?_ (fun b0 a1 h2 => ?_)
  · exact k0
  · exact State.orphan_keeps h2

theorem State.uninit_keeps {x : State} {a0} {a1} (k0 : Keeps x a0) : Keeps x (State.uninit a0 a1) := by
  unfold State.uninit
  extract_lets l0 l1
  have h2 : Keeps x l0 := by
    unfold l0
    exact State.orphanAll_keeps (State.clearBarriers_keeps k0)
  clear_value l0 l1
  exact Keeps.upd h2 rfl rfl rfl rfl

theorem State.unwait_keeps {x : State} {a0} {a1} (k0 : Keeps x a0) : Keeps x (State.unwait a0 a1) := by
  unfold State.unwait
  extract_lets l0
  clear_value l0
  exact Keeps.upd k0 rfl rfl rfl rfl

theorem State.headerBump_keeps {x : State} {a0} {a1} {a2} {a3} (k0 : Keeps x a0) : Keeps x (State.headerBump a0 a1
    a2 a3) := by
  unfold State.headerBump
  extract_lets l0 l1
  clear_value l0 l1
  refine Keeps.ite ?_ ?_
  · exact State.err_keeps (State.count_keeps k0)
  · exact Keeps.ite (State.err_keeps (State.count_keeps k0)) (Keeps.ite (State.err_keeps (State.count_keeps k0))
        (State.objAdd_keeps k0))

end Sys2Proof.Machine
end

