-- ==== Sys2Proof/Laws/KeepsQueues.lean ====
section
/-! SUPPORT. What the operations of Machine/Queues.lean keep (`Keeps`, Laws/Keeps.lean). -/

namespace Sys2Proof.Machine

theorem State.setQreg_keeps {x : State} {a0} {a1} {a2} {a3} (k0 : Keeps x a0) : Keeps x (State.setQreg a0 a1 a2 a3)
    := by
  unfold State.setQreg
  exact State.setReg_keeps k0

theorem State.setQst_keeps {x : State} {a0} {a1} {a2} (k0 : Keeps x a0) : Keeps x (State.setQst a0 a1 a2) := by
  unfold State.setQst
  exact Keeps.upd k0 rfl rfl rfl rfl

theorem State.haltQueue_keeps {x : State} {a0} {a1} (k0 : Keeps x a0) : Keeps x (State.haltQueue a0 a1) := by
  unfold State.haltQueue
  extract_lets l0 l1
  clear_value l0
  have h2 : Keeps x l1 := by
    unfold l1
    exact State.setQst_keeps k0
  clear_value l1
  exact State.err_keeps (State.count_keeps h2)

theorem State.setSqp_keeps {x : State} {a0} {a1} {a2} (k0 : Keeps x a0) : Keeps x (State.setSqp a0 a1 a2) := by
  unfold State.setSqp
  extract_lets l0
  clear_value l0
  exact Keeps.upd k0 rfl rfl rfl rfl

theorem State.takeHead_keeps {x : State} {a0} {a1} {a2} (k0 : Keeps x a0) : Keeps x (State.takeHead a0 a1 a2).1 := by
  unfold State.takeHead
  extract_lets l0 l1 l2 l3 l4 l5
  clear_value l0 l1 l2 l3
  have h6 : Keeps x l4 := by
    unfold l4
    exact State.setQreg_keeps k0
  clear_value l4
  have h7 : Keeps x l5 := by
    unfold l5
    exact State.setQst_keeps h6
  clear_value l5
  exact Keeps.upd h7 rfl rfl rfl rfl

theorem State.takeTurn_keeps {x : State} {a0} {a1} (k0 : Keeps x a0) : Keeps x (State.takeTurn a0 a1) := by
  unfold State.takeTurn
  exact Keeps.upd k0 rfl rfl rfl rfl

theorem State.addCmd_keeps {x : State} {a0} {a1} (k0 : Keeps x a0) : Keeps x (State.addCmd a0 a1) := by
  unfold State.addCmd
  exact Keeps.upd k0 rfl rfl rfl rfl

theorem State.refusal_keeps {x : State} {a0} {a1} {a2} (k0 : Keeps x a0) : Keeps x (State.refusal a0 a1 a2) := by
  unfold State.refusal
  extract_lets l0
  clear_value l0
  split
  · exact State.count_keeps k0
  · exact State.count_keeps k0
  · exact State.err_keeps k0
  · exact k0

theorem State.start_keeps {x : State} {a0} {a1} {a2} {a3} {a4} (k0 : Keeps x a0)
    (k3 : ∀ b0 b1, Keeps x b0 → Keeps x (Check.rest a3 b0 b1).1) (k4 : ∀ b0 b1, Keeps x b0 → Keeps x (a4 b0 b1)) :
    Keeps x (State.start a0 a1 a2 a3 a4) := by
  unfold State.start
  split
  · rename_i v0 v1 v2 v3
    have h4 : Keeps x ((v1, v2)).1 := by
      rw [← v3]
      exact State.takeHead_keeps (State.takeTurn_keeps k0)
    split
    · rename_i v5 v6 v7 v8
      have h9 : Keeps x ((v6, some v7)).1 := by
        rw [← v8]
        exact k3 _ _ h4
      exact State.addCmd_keeps h9
    · rename_i v10 v11 v12
      have h13 : Keeps x ((v11, none) : State × Option Status).1 := by
        rw [← v12]
        exact k3 _ _ h4
      exact k4 _ _ (State.count64_keeps h13)

theorem State.beginWork_keeps {x : State} {a0} {a1} {a2} (k0 : Keeps x a0) : Keeps x (State.beginWork a0 a1 a2) := by
  unfold State.beginWork
  extract_lets l0 l1
  clear_value l0 l1
  exact Keeps.upd k0 rfl rfl rfl rfl

theorem State.command_keeps {x : State} {a0} {a1} {a2} {a3} {a4} (k0 : Keeps x a0)
    (k3 : ∀ b0 b1, Keeps x b0 → Keeps x (Check.rest a3 b0 b1).1) (k4 : ∀ b0 b1, Keeps x b0 → Keeps x (a4 b0 b1)) :
    Keeps x (State.command a0 a1 a2 a3 a4) := by
  unfold State.command
  refine Keeps.ite ?_ k0
  split
  rename_i v0 v1 v2 v3
  have h4 : Keeps x ((v1, v2)).1 := by
    rw [← v3]
    exact State.takeHead_keeps k0
  split
  · exact State.addCmd_keeps (State.refusal_keeps h4)
  · split
    · exact State.addCmd_keeps h4
    · exact Keeps.ite (State.start_keeps (State.beginWork_keeps k0) k3 k4) k0

theorem State.intrDrop_keeps {x : State} {a0} {a1} (k0 : Keeps x a0) : Keeps x (State.intrDrop a0 a1) := by
  unfold State.intrDrop
  exact State.err_keeps (State.count_keeps k0)

theorem State.sendMsix_keeps {x : State} {a0} {a1} {a2} (k0 : Keeps x a0) : Keeps x (State.sendMsix a0 a1 a2) := by
  unfold State.sendMsix
  extract_lets l0
  clear_value l0
  exact State.emit_keeps (State.count64_keeps (State.count_keeps k0))

theorem State.raiseMsix_keeps {x : State} {a0} {a1} (k0 : Keeps x a0) : Keeps x (State.raiseMsix a0 a1) := by
  unfold State.raiseMsix
  extract_lets l0
  clear_value l0
  split
  · exact State.intrDrop_keeps k0
  · exact Keeps.ite (State.sendMsix_keeps k0) (Keeps.ite k0 (Keeps.upd k0 rfl rfl rfl rfl))

theorem State.setMsix_keeps {x : State} {a0} {a1} {a2} (k0 : Keeps x a0) : Keeps x (State.setMsix a0 a1 a2) := by
  unfold State.setMsix
  extract_lets l0 l1 l2
  clear_value l0
  have h3 : Keeps x l1 := by
    unfold l1
    exact Keeps.upd k0 rfl rfl rfl rfl
  clear_value l1 l2
  exact Keeps.ite (State.raiseMsix_keeps (Keeps.upd h3 rfl rfl rfl rfl)) h3

theorem State.hostAnswer_keeps {x : State} {a0} {a1} {a2} {a3} (k0 : Keeps x a0) : Keeps x (State.hostAnswer a0 a1
    a2 a3) := by
  unfold State.hostAnswer
  exact State.emit_keeps (State.count64_keeps k0)

theorem State.aerLog_keeps {x : State} {a0} {a1} {a2} (k0 : Keeps x a0) : Keeps x (State.aerLog a0 a1 a2) := by
  unfold State.aerLog
  exact State.err_keeps k0

theorem State.hostLost_keeps {x : State} {a0} {a1} {a2} {a3} (k0 : Keeps x a0) : Keeps x (State.hostLost a0 a1 a2
    a3) := by
  unfold State.hostLost
  extract_lets l0
  have h1 : Keeps x l0 := by
    unfold l0
    exact State.err_keeps (State.count_keeps (Keeps.ite k0 (State.aerLog_keeps k0)))
  clear_value l0
  exact Keeps.ite h1 (State.hostAnswer_keeps h1)

theorem State.hostMiss_keeps {x : State} {a0} {a1} {a2} {a3} {a4} (k0 : Keeps x a0) : Keeps x (State.hostMiss a0 a1
    a2 a3 a4) := by
  unfold State.hostMiss
  extract_lets l0
  have h1 : Keeps x l0 := by
    unfold l0
    exact State.err_keeps (State.count_keeps (State.aerLog_keeps k0))
  clear_value l0
  exact Keeps.ite h1 (State.hostAnswer_keeps h1)

theorem State.hostGone_keeps {x : State} {a0} {a1} (k0 : Keeps x a0) : Keeps x (State.hostGone a0 a1) := by
  unfold State.hostGone
  extract_lets l0 l1 l2 l3 l4
  clear_value l0 l1 l2
  have h5 : Keeps x l3 := by
    unfold l3
    exact Keeps.upd k0 rfl rfl rfl rfl
  clear_value l3
  have h6 : Keeps x l4 := by
    unfold l4
    refine Keeps.foldl (p := fun r => r) ?_ (fun b7 a8 h9 => ?_)
    · exact h5
    · exact State.hostLost_keeps h9
  clear_value l4
  refine Keeps.foldl (p := fun r => r) ?_ (fun b10 a11 h12 => ?_)
  · exact h6
  · exact State.hostLost_keeps h12

theorem State.hostHold_keeps {x : State} {a0} {a1} (k0 : Keeps x a0) : Keeps x (State.hostHold a0 a1) := by
  unfold State.hostHold
  extract_lets l0
  clear_value l0
  exact State.countFree_keeps (Keeps.upd k0 rfl rfl rfl rfl)

theorem State.sendIntr_keeps {x : State} {a0} {a1} (k0 : Keeps x a0) : Keeps x (State.sendIntr a0 a1) := by
  unfold State.sendIntr
  extract_lets l0 l1
  clear_value l0 l1
  exact Keeps.ite (State.intrDrop_keeps k0) (Keeps.ite (State.raiseMsix_keeps k0) (State.send_keeps k0))

theorem State.countDone_keeps {x : State} {a0} {a1} (k0 : Keeps x a0) : Keeps x (State.countDone a0 a1) := by
  unfold State.countDone
  split
  · exact k0
  · extract_lets l7
    have h8 : Keeps x l7 := by
      unfold l7
      split
      · exact State.count_keeps k0
      · exact k0
    clear_value l7
    exact Keeps.ite (State.err_keeps h8) h8

theorem State.setCqreg_keeps {x : State} {a0} {a1} {a2} {a3} {a4} (k0 : Keeps x a0) : Keeps x (State.setCqreg a0 a1
    a2 a3 a4) := by
  unfold State.setCqreg
  exact State.setReg_keeps k0

theorem State.writeRecord_keeps {x : State} {a0} {a1} (k0 : Keeps x a0) : Keeps x (State.writeRecord a0 a1) := by
  unfold State.writeRecord
  extract_lets l0 l1 l2 l3 l4 l5 l6 l7 l8 l9 l10 l11
  clear_value l0 l1 l2 l3 l4 l5 l6 l7 l8 l9
  have h12 : Keeps x l10 := by
    unfold l10
    exact State.memWrite_keeps k0
  clear_value l10
  have h13 : Keeps x l11 := by
    unfold l11
    exact State.setCqreg_keeps h12
  clear_value l11
  exact Keeps.ite (State.err_keeps (State.count_keeps k0)) (Keeps.ite (State.err_keeps (State.count_keeps k0))
      (Keeps.ite (State.sendIntr_keeps h13) h13))

theorem State.missAlarm_keeps {x : State} {a0} {a1} (k0 : Keeps x a0) : Keeps x (State.missAlarm a0 a1) := by
  unfold State.missAlarm
  split
  · exact k0
  · extract_lets l5
    clear_value l5
    exact Keeps.ite (State.err_keeps k0) k0

theorem State.complete_keeps {x : State} {a0} {a1} (k0 : Keeps x a0) : Keeps x (State.complete a0 a1) := by
  unfold State.complete
  extract_lets l0 l1 l2 l3 l4 l5 l6 l7 l8 l9 l10 l11
  clear_value l0 l1 l2
  have h12 : Keeps x l3 := by
    unfold l3
    exact Keeps.upd k0 rfl rfl rfl rfl
  clear_value l3
  have h13 : Keeps x l4 := by
    unfold l4
    exact State.countDone_keeps h12
  clear_value l4
  have h14 : Keeps x l5 := by
    unfold l5
    refine Keeps.foldl (p := fun r => r) ?_ (fun b15 a16 h17 => ?_)
    · exact h13
    · exact State.setReg_keeps h17
  clear_value l5
  have h18 : Keeps x l6 := by
    unfold l6
    exact State.missAlarm_keeps h14
  clear_value l6
  have h19 : Keeps x l7 := by
    unfold l7
    exact Keeps.ite (State.writeRecord_keeps h18) h18
  clear_value l7
  have h20 : Keeps x l8 := by
    unfold l8
    exact Keeps.ite (State.headerBump_keeps h19) h19
  clear_value l8
  have h21 : Keeps x l9 := by
    unfold l9
    exact State.count64_keeps h20
  clear_value l9
  have h22 : Keeps x l10 := by
    unfold l10
    exact Keeps.ite (State.count_keeps h21) h21
  clear_value l10
  have h23 : Keeps x l11 := by
    unfold l11
    exact State.ungate_keeps h22
  clear_value l11
  exact Keeps.ite (State.haltQueue_keeps h23) h23

theorem State.wakeSquare_keeps {x : State} {a0} {a1} (k0 : Keeps x a0) : Keeps x (State.wakeSquare a0 a1) := by
  unfold State.wakeSquare
  extract_lets l0
  clear_value l0
  split
  · exact State.setSqp_keeps k0
  · exact State.setSqp_keeps k0
  · exact k0

theorem State.doorbell_keeps {x : State} {a0} {a1} {a2} (k0 : Keeps x a0) : Keeps x (State.doorbell a0 a1 a2) := by
  unfold State.doorbell
  extract_lets l0 l1 l2
  clear_value l0 l1
  have h3 : Keeps x l2 := by
    unfold l2
    exact State.setQreg_keeps k0
  clear_value l2
  refine Keeps.ite ?_ ?_
  · split
    · exact State.wakeSquare_keeps h3
    · exact State.wakeSquare_keeps h3
    · exact h3
  · exact State.err_keeps (State.count_keeps k0)

end Sys2Proof.Machine
end

