-- ==== Sys2Proof/Laws/KeepsMatrix.lean ====
section
/-! SUPPORT. What the operations of Machine/Matrix.lean keep (`Keeps`, Laws/Keeps.lean). -/

namespace Sys2Proof.Machine

theorem State.mxSeg_keeps {x : State} {a0} {a1} {a2} {a3} {a4} {a5} {a6} {a7} {a8} {a9} (k0 : Keeps x a0) : Keeps x
    (State.mxSeg a0 a1 a2 a3 a4 a5 a6 a7 a8 a9).1 := by
  unfold State.mxSeg
  extract_lets l0 l1 l2
  clear_value l0
  have h3 : Keeps x l1.st := by
    unfold l1
    exact State.readElems_keeps k0
  clear_value l1
  have h4 : Keeps x l2.st := by
    unfold l2
    exact State.readElems_keeps h3
  clear_value l2
  refine Keeps.iteP (p := (fun r => (Prod.fst r))) ?_ ?_
  · exact h4
  · exact h3

theorem State.mxRowA_keeps {x : State} {a0} {a1} {a2} {a3} {a4} {a5} (k0 : Keeps x a0) : Keeps x (State.mxRowA a0
    a1 a2 a3 a4 a5).1 := by
  unfold State.mxRowA
  exact State.mxSeg_keeps k0

theorem State.mxBlock_keeps {x : State} {a0} {a1} {a2} {a3} {a4} (k0 : Keeps x a0) : Keeps x (State.mxBlock a0 a1
    a2 a3 a4).1 := by
  unfold State.mxBlock
  refine Keeps.iteP (p := (fun r => (Prod.fst r))) ?_ ?_
  · split
    · rename_i v0 v1 v2 v3 v4
      have h5 : Keeps x ((v1, v2, v3)).1 := by
        rw [← v4]
        refine Keeps.foldl (p := (fun r => (Prod.fst r))) ?_ (fun b6 a7 h8 => ?_)
        · exact k0
        · split
          · rename_i v9 v10 v11 v12 v13
            have h14 : Keeps x ((v10, v11, v12)).1 := by
              rw [← v13]
              exact State.mxSeg_keeps h8
            exact h14
      exact h5
  · refine Keeps.foldl (p := (fun r => (Prod.fst r))) ?_ (fun b15 a16 h17 => ?_)
    · exact k0
    · split
      · rename_i v18 v19 v20 v21 v22
        have h23 : Keeps x ((v19, v20, v21)).1 := by
          rw [← v22]
          exact State.mxSeg_keeps h17
        exact h23

theorem MxRun.row_keeps {x : State} {a0} {a1} {a2} {a3} {a4} {a5} {a6} {a7} (k0 : Keeps x a0.st) : Keeps x
    (MxRun.row a0 a1 a2 a3 a4 a5 a6 a7).st := by
  unfold MxRun.row
  extract_lets l0 l1 l2 l3 l4 l5 l6 l7 l8 l9
  clear_value l0 l1 l2 l3 l4 l5
  have h10 : Keeps x l6.st := by
    unfold l6
    exact k0
  clear_value l6
  have h11 : Keeps x l7.st := by
    unfold l7
    refine Keeps.iteP (p := (fun r => (MxRun.st r))) ?_ ?_
    · exact h10
    · exact h10
  clear_value l7 l8 l9
  refine Keeps.iteP (p := (fun r => (MxRun.st r))) ?_ ?_
  · exact h11
  · exact h11

theorem MxRun.pass_keeps {x : State} {a0} {a1} {a2} {a3} {a4} {a5} {a6} {a7} {a8} {a9} (k0 : Keeps x a0.st) : Keeps
    x (MxRun.pass a0 a1 a2 a3 a4 a5 a6 a7 a8 a9).st := by
  unfold MxRun.pass
  refine Keeps.foldl (p := (fun r => (MxRun.st r))) ?_ (fun b0 a1 h2 => ?_)
  · exact k0
  · refine Keeps.iteP (p := (fun r => (MxRun.st r))) ?_ ?_
    · exact h2
    · refine Keeps.iteP (p := (fun r => (MxRun.st r))) ?_ ?_
      · split
        · rename_i v3 v4 v5 v6 v7 v8
          have h9 : Keeps x ((v5, v6, v7)).1 := by
            rw [← v8]
            exact State.mxRowA_keeps h2
          refine Keeps.iteP (p := (fun r => (MxRun.st r))) ?_ ?_
          · exact h9
          · exact MxRun.row_keeps h9
      · exact MxRun.row_keeps h2

theorem MxRun.part_keeps {x : State} {a0} {a1} {a2} {a3} {a4} {a5} {a6} {a7} (k0 : Keeps x a0.st) : Keeps x
    (MxRun.part a0 a1 a2 a3 a4 a5 a6 a7).st := by
  unfold MxRun.part
  extract_lets l0
  clear_value l0
  refine Keeps.foldl (p := (fun r => (MxRun.st r))) ?_ (fun b1 a2 h3 => ?_)
  · exact k0
  · refine Keeps.iteP (p := (fun r => (MxRun.st r))) ?_ ?_
    · exact h3
    · exact MxRun.pass_keeps h3

theorem MxRun.blocks_keeps {x : State} {a0} {a1} {a2} {a3} {a4} {a5} {a6} (k6 : Keeps x a6.st) : Keeps x
    (MxRun.blocks a0 a1 a2 a3 a4 a5 a6).st := by
  induction a3 generalizing a0 a1 a2 a4 a5 a6
  · unfold MxRun.blocks
    exact k6
  · rename_i v0 v1
    unfold MxRun.blocks
    extract_lets l2 l3 l4 l5 l6 l7 l8 l9 l10 l11
    clear_value l2 l3 l4 l5 l6 l7 l8 l9 l10 l11
    split
    · rename_i v12 v13 v14 v15 v16
      have h17 : Keeps x ((v13, v14, v15)).1 := by
        rw [← v16]
        refine Keeps.iteP (p := (fun r => (Prod.fst r))) ?_ ?_
        · exact k6
        · exact State.mxBlock_keeps k6
      extract_lets l18 l19
      have h20 : Keeps x l18.st := by
        unfold l18
        exact h17
      clear_value l18
      have h21 : Keeps x l19.st := by
        unfold l19
        split
        · exact MxRun.part_keeps h20
        · extract_lets l26 l27 l28
          have h29 : Keeps x l26.st := by
            unfold l26
            exact h20
          clear_value l26
          have h30 : Keeps x l27.st := by
            unfold l27
            exact MxRun.part_keeps h29
          clear_value l27
          have h31 : Keeps x l28.st := by
            unfold l28
            exact MxRun.part_keeps h30
          clear_value l28
          refine Keeps.iteP (p := (fun r => (MxRun.st r))) ?_ ?_
          · exact h30
          · exact h31
      clear_value l19
      refine Keeps.iteP (p := (fun r => (MxRun.st r))) ?_ ?_
      · exact h17
      · refine Keeps.iteP (p := (fun r => (MxRun.st r))) ?_ ?_
        · exact h21
        · exact v1 h21

theorem State.mxNormal_keeps {x : State} {a0} {a1} {a2} {a3} (k0 : Keeps x a0) : Keeps x (State.mxNormal a0 a1 a2
    a3).st := by
  unfold State.mxNormal
  split
  · rename_i v0 v1 v2 v3 v4
    have h5 : Keeps x ((v1, v2, v3)).1 := by
      rw [← v4]
      exact State.mxBlock_keeps k0
    extract_lets l6
    have h7 : Keeps x l6.st := by
      unfold l6
      exact h5
    clear_value l6
    refine Keeps.iteP (p := (fun r => (MxRun.st r))) ?_ ?_
    · exact h7
    · exact MxRun.blocks_keeps h7

theorem CoarseRun.row_keeps {x : State} {a0} {a1} {a2} {a3} {a4} {a5} {a6} {a7} (k0 : Keeps x a0.st) : Keeps x
    (CoarseRun.row a0 a1 a2 a3 a4 a5 a6 a7).st := by
  unfold CoarseRun.row
  refine Keeps.iteP (p := (fun r => (CoarseRun.st r))) ?_ ?_
  · exact k0
  · split
    · rename_i v0 v1 v2 v3 v4
      have h5 : Keeps x ((v1, v2, v3)).1 := by
        rw [← v4]
        exact State.mxRowA_keeps k0
      extract_lets l6
      clear_value l6
      refine Keeps.iteP (p := (fun r => (CoarseRun.st r))) ?_ ?_
      · exact h5
      · exact h5

theorem CoarseRun.block_keeps {x : State} {a0} {a1} {a2} {a3} {a4} (k0 : Keeps x a0.st) : Keeps x (CoarseRun.block
    a0 a1 a2 a3 a4).st := by
  unfold CoarseRun.block
  extract_lets l0
  clear_value l0
  refine Keeps.iteP (p := (fun r => (CoarseRun.st r))) ?_ ?_
  · exact k0
  · split
    · rename_i v1 v2 v3 v4 v5
      have h6 : Keeps x ((v2, v3, v4)).1 := by
        rw [← v5]
        exact State.mxBlock_keeps k0
      extract_lets l7
      have h8 : Keeps x l7.st := by
        unfold l7
        refine Keeps.foldl (p := (fun r => (CoarseRun.st r))) ?_ (fun b9 a10 h11 => ?_)
        · exact h6
        · exact CoarseRun.row_keeps h11
      clear_value l7
      refine Keeps.iteP (p := (fun r => (CoarseRun.st r))) ?_ ?_
      · exact h6
      · exact h8

theorem State.mxCoarse_keeps {x : State} {a0} {a1} {a2} (k0 : Keeps x a0) : Keeps x (State.mxCoarse a0 a1 a2).st := by
  unfold State.mxCoarse
  extract_lets l0
  clear_value l0
  refine Keeps.foldl (p := (fun r => (CoarseRun.st r))) ?_ (fun b1 a2 h3 => ?_)
  · exact k0
  · exact CoarseRun.block_keeps h3

theorem State.scsIssue_keeps {x : State} {a0} {a1} {a2} {a3} {a4} {a5} (k0 : Keeps x a0) : Keeps x (State.scsIssue
    a0 a1 a2 a3 a4 a5) := by
  unfold State.scsIssue
  extract_lets l0
  have h1 : Keeps x l0 := by
    unfold l0
    refine Keeps.foldl (p := fun r => r) ?_ (fun b2 a3 h4 => ?_)
    · exact k0
    · exact Keeps.ite (State.scsSet_keeps h4) (State.scsAdd_keeps h4)
  clear_value l0
  refine Keeps.ite ?_ ?_
  · split
    · rename_i v5 v6 v7 v8
      have h9 : Keeps x ((v6, v7)).2 := by
        rw [← v8]
        exact State.draw_keeps h1
      exact State.count64_keeps (State.count64_keeps h9)
  · exact h1

theorem State.awaitScs_keeps {x : State} {a0} {a1} {a2} (k0 : Keeps x a0) : Keeps x (State.awaitScs a0 a1 a2) := by
  unfold State.awaitScs
  exact Keeps.ite (State.mapCmd_keeps k0) (State.finish_keeps k0)

theorem State.matmulNormal_keeps {x : State} {a0} {a1} (k0 : Keeps x a0) : Keeps x (State.matmulNormal a0 a1) := by
  unfold State.matmulNormal
  extract_lets l0 l1 l2 l3 l4 l5 l6 l7 l8 l9 l10 l11 l12 l13
  clear_value l0 l1 l2
  have h14 : Keeps x l3.st := by
    unfold l3
    exact State.mxNormal_keeps k0
  clear_value l3
  have h15 : Keeps x l4 := by
    unfold l4
    exact State.scsIssue_keeps h14
  clear_value l4
  have h16 : Keeps x l5 := by
    unfold l5
    exact State.count64_keeps h15
  clear_value l5
  have h17 : Keeps x l6 := by
    unfold l6
    exact State.count64_keeps h16
  clear_value l6
  have h18 : Keeps x l7 := by
    unfold l7
    exact State.count64_keeps h17
  clear_value l7
  have h19 : Keeps x l8 := by
    unfold l8
    exact State.count_keeps h18
  clear_value l8
  have h20 : Keeps x l9 := by
    unfold l9
    exact State.count_keeps h19
  clear_value l9
  have h21 : Keeps x l10 := by
    unfold l10
    split
    · exact State.setReg_keeps h20
    · exact h20
  clear_value l10
  have h28 : Keeps x l11 := by
    unfold l11
    exact Keeps.ite (State.err_keeps h21) h21
  clear_value l11
  have h29 : Keeps x l12 := by
    unfold l12
    exact Keeps.ite (State.err_keeps h28) h28
  clear_value l12
  have h30 : Keeps x l13 := by
    unfold l13
    exact State.addCmd_keeps h29
  clear_value l13
  exact State.awaitScs_keeps h30

theorem State.writeCoarse_keeps {x : State} {a0} {a1} {a2} {a3} (k0 : Keeps x a0) : Keeps x (State.writeCoarse a0
    a1 a2 a3).1 := by
  unfold State.writeCoarse
  extract_lets l0
  clear_value l0
  exact State.sqWrite_keeps k0

theorem State.matmulCoarse_keeps {x : State} {a0} {a1} (k0 : Keeps x a0) : Keeps x (State.matmulCoarse a0 a1) := by
  unfold State.matmulCoarse
  extract_lets l0 l1 l2 l3 l4
  clear_value l0 l1 l2
  have h5 : Keeps x l3.st := by
    unfold l3
    exact State.mxCoarse_keeps k0
  clear_value l3 l4
  split
  · rename_i v6 v7 v8 v9
    have h10 : Keeps x ((v7, v8)).1 := by
      rw [← v9]
      exact State.writeCoarse_keeps h5
    extract_lets l11 l12 l13 l14 l15
    clear_value l11
    have h16 : Keeps x l12 := by
      unfold l12
      exact State.count64_keeps h10
    clear_value l12
    have h17 : Keeps x l13 := by
      unfold l13
      exact State.count64_keeps h16
    clear_value l13
    have h18 : Keeps x l14 := by
      unfold l14
      exact Keeps.ite (State.err_keeps h17) h17
    clear_value l14 l15
    exact State.addCmd_keeps h18

theorem execMatmul_keeps {x : State} {a0} {a1} {a2} (k2 : Keeps x a2) : KeepsRes x (execMatmul a0 a1 a2) := by
  unfold execMatmul
  refine KeepsRes.next ?_
  refine State.command_keeps ?_ ?_ ?_
  · exact k2
  · intro a0 a1 a2
    refine Check.rest_keeps (fun _ _ => rfl) ?_
    exact a2
  · intro a3 a4 a5
    exact Keeps.ite (State.matmulCoarse_keeps a5) (State.matmulNormal_keeps a5)

end Sys2Proof.Machine
end

