-- ==== Sys2Proof/Laws/KeepsEpilogue.lean ====
section
/-! SUPPORT. What the operations of Machine/Epilogue.lean keep (`Keeps`, Laws/Keeps.lean). -/

namespace Sys2Proof.Machine

theorem State.readFp32_keeps {x : State} {a0} {a1} {a2} {a3} (k0 : Keeps x a0) : Keeps x (State.readFp32 a0 a1 a2
    a3).1 := by
  unfold State.readFp32
  extract_lets l0
  have h1 : Keeps x l0.st := by
    unfold l0
    exact State.readElems_keeps k0
  clear_value l0
  exact h1

theorem State.serveSlot_keeps {x : State} {a0} {a1} {a2} {a3} (k2 : Keeps x a2.1) : Keeps x (State.serveSlot a0 a1
    a2 a3).1 := by
  unfold State.serveSlot
  refine Keeps.iteP (p := (fun r => (Prod.fst r))) ?_ ?_
  · exact k2
  · split
    · rename_i v0 v1 v2 v3
      have h4 : Keeps x ((v1, v2)).1 := by
        rw [← v3]
        exact State.entryRead_keeps k2
      exact Keeps.ite (State.scsZero_keeps h4) h4

theorem State.serveSlots_keeps {x : State} {a0} {a1} {a2} (k0 : Keeps x a0) : Keeps x (State.serveSlots a0 a1 a2).1
    := by
  unfold State.serveSlots
  refine Keeps.foldl (p := (fun r => (Prod.fst r))) ?_ (fun b0 a1 h2 => ?_)
  · exact k0
  · exact State.serveSlot_keeps h2

theorem State.whenServed_keeps {x : State} {a0} {a1} {a2} {a3} (k0 : Keeps x a0) (k3 : ∀ b0 b1, Keeps x b0 → Keeps
    x (a3 b0 b1)) : Keeps x (State.whenServed a0 a1 a2 a3) := by
  unfold State.whenServed
  split
  · rename_i v0 v1 v2 v3
    have h4 : Keeps x ((v1, v2)).1 := by
      rw [← v3]
      exact State.serveSlots_keeps k0
    exact Keeps.ite (State.mapCmd_keeps h4) (k3 _ _ h4)

theorem RoRun.row_keeps {x : State} {a0} {a1} {a2} {a3} {a4} {a5} (k0 : Keeps x a0.st) : Keeps x (RoRun.row a0 a1
    a2 a3 a4 a5).st := by
  unfold RoRun.row
  extract_lets l0 l1 l2 l3 l4 l5
  clear_value l0 l1 l2 l3
  have h6 : Keeps x l4 := by
    unfold l4
    exact State.sqWrite_keeps k0
  clear_value l4
  have h7 : Keeps x l5 := by
    unfold l5
    exact Keeps.ite (State.sqWrite_keeps h6) h6
  clear_value l5
  exact h7

theorem State.readoutEnd_keeps {x : State} {a0} {a1} {a2} (k0 : Keeps x a0) : Keeps x (State.readoutEnd a0 a1 a2)
    := by
  unfold State.readoutEnd
  extract_lets l0
  clear_value l0
  split
  · rename_i v1 v2 v3 v4 v5
    have h6 : Keeps x ((v2, v3, v4)).1 := by
      rw [← v5]
      refine Keeps.iteP (p := (fun r => (Prod.fst r))) ?_ ?_
      · exact State.readFp32_keeps k0
      · exact k0
    split
    · rename_i v7 v8 v9 v10 v11
      have h12 : Keeps x ((v8, v9, v10)).1 := by
        rw [← v11]
        refine Keeps.iteP (p := (fun r => (Prod.fst r))) ?_ ?_
        · exact State.readFp32_keeps h6
        · exact h6
      extract_lets l13 l14
      have h15 : Keeps x l13.st := by
        unfold l13
        refine Keeps.foldl (p := (fun r => (RoRun.st r))) ?_ (fun b16 a17 h18 => ?_)
        · exact h12
        · exact RoRun.row_keeps h18
      clear_value l13 l14
      exact State.mapCmd_keeps h15

theorem State.readoutNow_keeps {x : State} {a0} {a1} (k0 : Keeps x a0) : Keeps x (State.readoutNow a0 a1) := by
  unfold State.readoutNow
  refine State.whenServed_keeps ?_ ?_
  · exact k0
  · intro a0 a1 a2
    exact State.readoutEnd_keeps a2

theorem execScsReadout_keeps {x : State} {a0} {a1} {a2} (k2 : Keeps x a2) : KeepsRes x (execScsReadout a0 a1 a2) := by
  unfold execScsReadout
  refine KeepsRes.next ?_
  refine State.command_keeps ?_ ?_ ?_
  · exact k2
  · intro a0 a1 a2
    refine Check.rest_keeps (fun _ _ => rfl) ?_
    exact a2
  · intro a3 a4 a5
    extract_lets l6
    clear_value l6
    exact State.readoutNow_keeps (State.addCmd_keeps a5)

theorem State.clearNow_keeps {x : State} {a0} {a1} (k0 : Keeps x a0) : Keeps x (State.clearNow a0 a1) := by
  unfold State.clearNow
  refine State.whenServed_keeps ?_ ?_
  · exact k0
  · intro a0 a1 a2
    exact State.mapCmd_keeps a2

theorem execScsClear_keeps {x : State} {a0} {a1} {a2} (k2 : Keeps x a2) : KeepsRes x (execScsClear a0 a1 a2) := by
  unfold execScsClear
  refine KeepsRes.next ?_
  refine State.command_keeps ?_ ?_ ?_
  · exact k2
  · intro a0 a1 a2
    refine Check.rest_keeps (fun _ _ => rfl) ?_
    exact a2
  · intro a3 a4 a5
    extract_lets l6
    clear_value l6
    exact State.clearNow_keeps (State.addCmd_keeps a5)

end Sys2Proof.Machine
end

