-- ==== Sys2Proof/Laws/KeepsJobs.lean ====
section
/-! SUPPORT. What the operations of Machine/Jobs.lean keep (`Keeps`, Laws/Keeps.lean). -/

namespace Sys2Proof.Machine

theorem State.setJob_keeps {x : State} {a0} {a1} {a2} (k0 : Keeps x a0) : Keeps x (State.setJob a0 a1 a2) := by
  unfold State.setJob
  extract_lets l0
  clear_value l0
  exact Keeps.upd k0 rfl rfl rfl rfl

theorem State.setTwin_keeps {x : State} {a0} {a1} (k0 : Keeps x a0) : Keeps x (State.setTwin a0 a1) := by
  unfold State.setTwin
  extract_lets l0
  clear_value l0
  exact State.setReg_keeps k0

theorem State.setRecovery_keeps {x : State} {a0} (k0 : Keeps x a0) : Keeps x (State.setRecovery a0) := by
  unfold State.setRecovery
  extract_lets l0 l1
  have h2 : Keeps x l0 := by
    unfold l0
    exact State.setReg_keeps k0
  clear_value l0 l1
  exact Keeps.upd h2 rfl rfl rfl rfl

end Sys2Proof.Machine
end

