-- ==== Sys2Proof/Laws/KeepsDma.lean ====
section
/-! SUPPORT. What the operations of Machine/Dma.lean keep (`Keeps`, Laws/Keeps.lean). -/

namespace Sys2Proof.Machine

theorem State.recordMem_keeps {x : State} {a0} {a1} {a2} {a3} {a4} (k0 : Keeps x a0) : Keeps x (State.recordMem a0
    a1 a2 a3 a4) := by
  unfold State.recordMem
  exact State.mapCmd_keeps k0

theorem State.dmaPut_keeps {x : State} {a0} {a1} {a2} {a3} {a4} (k0 : Keeps x a0) : Keeps x (State.dmaPut a0 a1 a2
    a3 a4).1 := by
  unfold State.dmaPut
  extract_lets l0 l1
  clear_value l0
  have h2 : Keeps x l1.st := by
    unfold l1
    exact State.memWrite_keeps k0
  clear_value l1
  exact State.recordMem_keeps h2

theorem State.dmaGet_keeps {x : State} {a0} {a1} {a2} {a3} (k0 : Keeps x a0) : Keeps x (State.dmaGet a0 a1 a2 a3).1
    := by
  unfold State.dmaGet
  extract_lets l0 l1 l2 l3
  clear_value l0
  have h4 : Keeps x l1.st := by
    unfold l1
    exact State.memRead_keeps k0
  clear_value l1
  have h5 : Keeps x l2 := by
    unfold l2
    exact State.recordMem_keeps h4
  clear_value l2
  have h6 : Keeps x l3 := by
    unfold l3
    exact Keeps.ite h5 (State.err_keeps h5)
  clear_value l3
  exact h6

theorem State.sendBoard_keeps {x : State} {a0} {a1} {a2} {a3} (k0 : Keeps x a0) : Keeps x (State.sendBoard a0 a1 a2
    a3) := by
  unfold State.sendBoard
  exact State.sendF0_keeps k0

theorem State.dmaWrite_keeps {x : State} {a0} {a1} {a2} {a3} {a4} {a5} (k0 : Keeps x a0) : Keeps x (State.dmaWrite
    a0 a1 a2 a3 a4 a5).1 := by
  unfold State.dmaWrite
  extract_lets l0 l1 l2
  clear_value l0
  have h3 : Keeps x l1.1 := by
    unfold l1
    exact State.dmaPut_keeps k0
  clear_value l1 l2
  refine Keeps.iteP (p := (fun r => (Prod.fst r))) ?_ ?_
  · exact h3
  · exact State.sendBoard_keeps k0

theorem State.dmaPiece_keeps {x : State} {a0} {a1} {a2} {a3} (k0 : Keeps x a0) : Keeps x (State.dmaPiece a0 a1 a2
    a3).1 := by
  unfold State.dmaPiece
  extract_lets l0 l1 l2 l3 l4
  clear_value l0 l1 l2
  have h5 : Keeps x l3.1 := by
    unfold l3
    exact State.dmaGet_keeps k0
  clear_value l3 l4
  refine Keeps.iteP (p := (fun r => (Prod.fst r))) ?_ ?_
  · exact State.dmaWrite_keeps k0
  · refine Keeps.iteP (p := (fun r => (Prod.fst r))) ?_ ?_
    · exact State.dmaWrite_keeps h5
    · exact State.sendBoard_keeps k0

theorem State.freeMem_keeps {x : State} {a0} {a1} {a2} {a3} (k0 : Keeps x a0) : Keeps x (State.freeMem a0 a1 a2 a3)
    := by
  unfold State.freeMem
  split
  · rename_i v0 v1 v2 v3
    have h4 : Keeps x ((v1, v2)).2 := by
      rw [← v3]
      exact State.draw_keeps k0
    exact State.memWrite_keeps h4

theorem State.dmaSpoil_keeps {x : State} {a0} {a1} (k0 : Keeps x a0) : Keeps x (State.dmaSpoil a0 a1) := by
  unfold State.dmaSpoil
  exact Keeps.ite (State.freeMem_keeps k0) k0

theorem State.dmaRun_keeps {x : State} {a0} {a1} (k0 : Keeps x a0) : Keeps x (State.dmaRun a0 a1) := by
  unfold State.dmaRun
  extract_lets l0 l1 l2 l3
  clear_value l0 l1 l2
  have h4 : Keeps x l3 := by
    unfold l3
    exact State.count64_keeps (State.addCmd_keeps k0)
  clear_value l3
  refine Keeps.ite ?_ ?_
  · exact State.addCmd_keeps (State.dmaSpoil_keeps k0)
  · split
    · rename_i v5 v6 v7 v8 v9
      have h10 : Keeps x ((v6, v7, v8)).1 := by
        rw [← v9]
        refine Keeps.foldl (p := (fun r => (Prod.fst r))) ?_ (fun b11 a12 h13 => ?_)
        · exact h4
        · split
          · rename_i v14 v15 v16 v17 v18
            have h19 : Keeps x ((v15, v16, v17)).1 := by
              rw [← v18]
              exact State.dmaPiece_keeps h13
            exact h19
      extract_lets l20
      clear_value l20
      exact State.mapCmd_keeps h10

theorem execDmaCopy_keeps {x : State} {a0} {a1} {a2} (k2 : Keeps x a2) : KeepsRes x (execDmaCopy a0 a1 a2) := by
  unfold execDmaCopy
  refine KeepsRes.next ?_
  refine State.command_keeps ?_ ?_ ?_
  · exact k2
  · intro a0 a1 a2
    refine Check.rest_keeps (fun _ _ => rfl) ?_
    exact a2
  · intro a3 a4 a5
    exact State.dmaRun_keeps a5

theorem execDmaFill_keeps {x : State} {a0} {a1} {a2} (k2 : Keeps x a2) : KeepsRes x (execDmaFill a0 a1 a2) := by
  unfold execDmaFill
  refine KeepsRes.next ?_
  refine State.command_keeps ?_ ?_ ?_
  · exact k2
  · intro a0 a1 a2
    refine Check.rest_keeps (fun _ _ => rfl) ?_
    exact a2
  · intro a3 a4 a5
    exact State.dmaRun_keeps a5

theorem State.onBoardRd_keeps {x : State} {a0} {a1} (k0 : Keeps x a0) : Keeps x (State.onBoardRd a0 a1) := by
  unfold State.onBoardRd
  split
  · extract_lets l6
    have h7 : Keeps x l6.st := by
      unfold l6
      exact State.memRead_keeps k0
    clear_value l6
    exact Keeps.ite (State.reply_keeps h7) (State.reply_keeps k0)
  · exact k0

theorem State.onBoardWr_keeps {x : State} {a0} {a1} (k0 : Keeps x a0) : Keeps x (State.onBoardWr a0 a1) := by
  unfold State.onBoardWr
  split
  · extract_lets l8 l9
    have h10 : Keeps x l8.st := by
      unfold l8
      exact State.memWrite_keeps k0
    clear_value l8
    have h11 : Keeps x l9 := by
      unfold l9
      exact Keeps.ite (State.writebackAll_keeps h10) h10
    clear_value l9
    exact Keeps.ite (State.reply_keeps h11) (State.reply_keeps k0)
  · exact k0

theorem State.onBoardRsp_keeps {x : State} {a0} {a1} (k0 : Keeps x a0) : Keeps x (State.onBoardRsp a0 a1) := by
  unfold State.onBoardRsp
  split
  · extract_lets l6 l7 l8
    clear_value l6
    have h9 : Keeps x l7 := by
      unfold l7
      exact State.recordMem_keeps k0
    clear_value l7 l8
    refine Keeps.ite ?_ ?_
    · exact k0
    · split
      · exact k0
      · split
        · split
          · exact k0
          · extract_lets l26 l27 l28
            clear_value l26
            have h29 : Keeps x l27 := by
              unfold l27
              exact Keeps.ite h9 (State.err_keeps h9)
            clear_value l27 l28
            refine Keeps.ite ?_ ?_
            · exact State.mapCmd_keeps h9
            · refine Keeps.ite ?_ ?_
              · split
                · rename_i v30 v31 v32 v33
                  have h34 : Keeps x ((v31, v32)).1 := by
                    rw [← v33]
                    exact State.dmaPut_keeps h29
                  exact State.mapCmd_keeps h34
              · exact State.mapCmd_keeps (State.sendBoard_keeps h29)
        · exact k0
  · exact k0

end Sys2Proof.Machine
end

