-- ==== Sys2Proof/Laws/KeepsVector.lean ====
section
/-! SUPPORT. What the operations of Machine/Vector.lean keep (`Keeps`, Laws/Keeps.lean). -/

namespace Sys2Proof.Machine

theorem State.vxRow_keeps {x : State} {a0} {a1} {a2} {a3} {a4} {a5} {a6} {a7} (k0 : Keeps x a0) : Keeps x
    (State.vxRow a0 a1 a2 a3 a4 a5 a6 a7).st := by
  unfold State.vxRow
  extract_lets l0 l1 l2 l3 l4
  have h5 : Keeps x l0.st := by
    unfold l0
    exact State.readElems_keeps k0
  clear_value l0 l1 l2
  have h6 : Keeps x l3.st := by
    unfold l3
    exact State.readElems_keeps h5
  clear_value l3 l4
  refine Keeps.iteP (p := (fun r => (VxRow.st r))) ?_ ?_
  · exact h6
  · exact h5

theorem State.vsX_keeps {x : State} {a0} {a1} {a2} (k0 : Keeps x a0) : Keeps x (State.vsX a0 a1 a2).st := by
  unfold State.vsX
  exact State.vxRow_keeps k0

theorem VxRun.emit_keeps {x : State} {a0} {a1} {a2} {a3} {a4} {a5} (k0 : Keeps x a0.st) : Keeps x (VxRun.emit a0 a1
    a2 a3 a4 a5).st := by
  unfold VxRun.emit
  extract_lets l0 l1 l2 l3 l4 l5 l6
  clear_value l0 l1 l2 l3 l4
  have h7 : Keeps x l5 := by
    unfold l5
    exact State.sqWrite_keeps k0
  clear_value l5
  have h8 : Keeps x l6 := by
    unfold l6
    exact Keeps.ite (State.sqWrite_keeps h7) h7
  clear_value l6
  exact h8

theorem VxRun.mapRow_keeps {x : State} {a0} {a1} {a2} (k0 : Keeps x a0.st) : Keeps x (VxRun.mapRow a0 a1 a2).st := by
  unfold VxRun.mapRow
  extract_lets l0 l1 l2 l3
  clear_value l0
  have h4 : Keeps x l1.st := by
    unfold l1
    exact State.vsX_keeps k0
  clear_value l1
  have h5 : Keeps x l2.st := by
    unfold l2
    exact State.vxRow_keeps h4
  clear_value l2 l3
  refine Keeps.iteP (p := (fun r => (VxRun.st r))) ?_ ?_
  · exact k0
  · refine Keeps.iteP (p := (fun r => (VxRun.st r))) ?_ ?_
    · exact VxRun.emit_keeps h5
    · exact VxRun.emit_keeps h4

theorem VxRun.convRow_keeps {x : State} {a0} {a1} {a2} {a3} (k0 : Keeps x a0.st) : Keeps x (VxRun.convRow a0 a1 a2
    a3).st := by
  unfold VxRun.convRow
  extract_lets l0
  have h1 : Keeps x l0.st := by
    unfold l0
    exact State.vsX_keeps k0
  clear_value l0
  refine Keeps.iteP (p := (fun r => (VxRun.st r))) ?_ ?_
  · exact k0
  · exact VxRun.emit_keeps h1

theorem State.tensorAmax_keeps {x : State} {a0} {a1} (k0 : Keeps x a0) : Keeps x (State.tensorAmax a0 a1).1 := by
  unfold State.tensorAmax
  refine Keeps.foldl (p := (fun r => (Prod.fst r))) ?_ (fun b0 a1 h2 => ?_)
  · exact k0
  · split
    · exact h2
    · extract_lets l11
      have h12 : Keeps x l11.st := by
        unfold l11
        exact State.vsX_keeps h2
      clear_value l11
      refine Keeps.iteP (p := (fun r => (Prod.fst r))) ?_ ?_
      · exact h12
      · exact h12

theorem State.vxBusy_keeps {x : State} {a0} {a1} {a2} (k0 : Keeps x a0) : Keeps x (State.vxBusy a0 a1 a2) := by
  unfold State.vxBusy
  exact State.count64_keeps k0

theorem State.vxUe_keeps {x : State} {a0} {a1} {a2} (k0 : Keeps x a0) : Keeps x (State.vxUe a0 a1 a2) := by
  unfold State.vxUe
  exact Keeps.ite (State.err_keeps k0) k0

theorem State.vxEnd_keeps {x : State} {a0} {a1} {a2} {a3} {a4} {a5} {a6} (k0 : Keeps x a0) (k2 : Keeps x a2.st) :
    Keeps x (State.vxEnd a0 a1 a2 a3 a4 a5 a6) := by
  unfold State.vxEnd
  exact State.addCmd_keeps (State.vxUe_keeps k0)

theorem State.mapRun_keeps {x : State} {a0} {a1} (k0 : Keeps x a0) : Keeps x (State.mapRun a0 a1) := by
  unfold State.mapRun
  extract_lets l0 l1 l2 l3 l4
  clear_value l0
  have h5 : Keeps x l1.st := by
    unfold l1
    refine Keeps.foldl (p := (fun r => (VxRun.st r))) ?_ (fun b6 a7 h8 => ?_)
    · exact k0
    · exact VxRun.mapRow_keeps h8
  clear_value l1 l2 l3
  have h9 : Keeps x l4 := by
    unfold l4
    exact State.vxBusy_keeps h5
  clear_value l4
  exact State.vxEnd_keeps h9 h5

theorem State.convertRun_keeps {x : State} {a0} {a1} (k0 : Keeps x a0) : Keeps x (State.convertRun a0 a1) := by
  unfold State.convertRun
  extract_lets l0 l1 l2 l3 l4
  clear_value l0 l1 l2
  have h5 : Keeps x l3.st := by
    unfold l3
    refine Keeps.foldl (p := (fun r => (VxRun.st r))) ?_ (fun b6 a7 h8 => ?_)
    · exact k0
    · exact VxRun.convRow_keeps h8
  clear_value l3 l4
  refine Keeps.ite ?_ ?_
  · split
    · rename_i v9 v10 v11 v12
      have h13 : Keeps x ((v10, v11)).1 := by
        rw [← v12]
        exact State.tensorAmax_keeps k0
      extract_lets l14
      have h15 : Keeps x l14 := by
        unfold l14
        exact State.vxBusy_keeps h13
      clear_value l14
      split
      · exact State.vxEnd_keeps h15 h15
      · extract_lets l20 l21 l22
        clear_value l20
        have h23 : Keeps x l21.st := by
          unfold l21
          refine Keeps.foldl (p := (fun r => (VxRun.st r))) ?_ (fun b24 a25 h26 => ?_)
          · exact h15
          · exact VxRun.convRow_keeps h26
        clear_value l21 l22
        exact State.vxEnd_keeps h23 h23
  · exact State.vxEnd_keeps (State.vxBusy_keeps h5) h5

theorem VxRun.reduceRow_keeps {x : State} {a0} {a1} {a2} (k0 : Keeps x a0.st) : Keeps x (VxRun.reduceRow a0 a1
    a2).st := by
  unfold VxRun.reduceRow
  extract_lets l0 l1 l2 l3
  clear_value l0
  have h4 : Keeps x l1.st := by
    unfold l1
    exact State.vsX_keeps k0
  clear_value l1 l2 l3
  refine Keeps.iteP (p := (fun r => (VxRun.st r))) ?_ ?_
  · exact k0
  · refine Keeps.iteP (p := (fun r => (VxRun.st r))) ?_ ?_
    · refine Keeps.iteP (p := (fun r => (VxRun.st r))) ?_ ?_
      · exact h4
      · exact State.sqWrite_keeps h4
    · dsimp only
      refine Keeps.foldl (p := fun r => r) ?_ (fun b5 a6 h7 => ?_)
      · exact h4
      · exact State.scsAdd_keeps h7

theorem State.reduceRun_keeps {x : State} {a0} {a1} (k0 : Keeps x a0) : Keeps x (State.reduceRun a0 a1) := by
  unfold State.reduceRun
  extract_lets l0 l1 l2 l3
  clear_value l0
  have h4 : Keeps x l1.st := by
    unfold l1
    refine Keeps.foldl (p := (fun r => (VxRun.st r))) ?_ (fun b5 a6 h7 => ?_)
    · exact k0
    · exact VxRun.reduceRow_keeps h7
  clear_value l1 l2
  have h8 : Keeps x l3 := by
    unfold l3
    exact State.vxBusy_keeps h4
  clear_value l3
  exact State.awaitScs_keeps (State.vxEnd_keeps h8 h4)

theorem State.aggPos_keeps {x : State} {a0} {a1} {a2} (k0 : Keeps x a0) : Keeps x (State.aggPos a0 a1 a2).1 := by
  refine KeepsOf.out (p := Prod.fst) ?_
  unfold State.aggPos
  extract_lets l0 l1 l2 l3
  clear_value l0
  have h4 : KeepsOf x ElemRes.st l1 := KeepsOf.mk (r := State.readElems ..) (State.readElems_keeps k0)
  clear_value l1 l2
  have h5 : KeepsOf x VxRow.st l3 := KeepsOf.mk (r := State.vxRow ..) (State.vxRow_keeps h4.out)
  clear_value l3
  refine KeepsOf.ite (KeepsOf.pair k0) (KeepsOf.ite (KeepsOf.pair h4.out) (KeepsOf.ite (KeepsOf.pair h4.out)
    (KeepsOf.ite (KeepsOf.pair h5.out) (KeepsOf.ite ?_ (KeepsOf.pair h5.out)))))
  split
  rename_i v7 v8 v9 v10
  have h11 : KeepsOf x Prod.fst (v7, v8, v9) := by
    rw [← v10]
    exact KeepsOf.mk (State.readFp32_keeps h5.out)
  exact KeepsOf.ite (KeepsOf.pair h11.out) (KeepsOf.pair h11.out)

theorem State.aggRead_keeps {x : State} {a0} {a1} {a2} {a3} (k0 : Keeps x a0) : Keeps x (State.aggRead a0 a1 a2
    a3).1 := by
  unfold State.aggRead
  refine Keeps.foldl (p := (fun r => (Prod.fst r))) ?_ (fun b0 a1 h2 => ?_)
  · exact k0
  · split
    · split
      · rename_i v7 v8 v9 v10
        have h11 : Keeps x ((v8, AggSeg.rows v9)).1 := by
          rw [← v10]
          exact State.aggPos_keeps h2
        exact h11
      · exact State.aggPos_keeps h2
    · exact h2

theorem AggRun.dest_keeps {x : State} {a0} {a1} {a2} {a3} {a4} {a5} (k0 : Keeps x a0.run.st) : Keeps x (AggRun.dest
    a0 a1 a2 a3 a4 a5).run.st := by
  unfold AggRun.dest
  extract_lets l0 l1 l2 l3 l4
  clear_value l0 l1
  have h5 : Keeps x l2.st := by
    unfold l2
    exact k0
  clear_value l2
  have h6 : ∀ b0 b1, Keeps x b0 → Keeps x (l3 b0 b1).st := by
    unfold l3
    intro a7 a8 a9
    exact State.sqWrite_keeps a9
  clear_value l3
  have h10 : ∀ b0, Keeps x b0 → Keeps x (l4 b0).run.st := by
    unfold l4
    intro a11 a12
    exact h6 _ _ a12
  clear_value l4
  refine Keeps.iteP (p := (fun r => (VxRun.st (AggRun.run r)))) ?_ ?_
  · exact k0
  · refine Keeps.iteP (p := (fun r => (VxRun.st (AggRun.run r)))) ?_ ?_
    · exact h10 _ k0
    · split
      · rename_i v13 v14 v15
        have h16 : Keeps x ((v14, AggSeg.ue)).1 := by
          rw [← v15]
          exact State.aggRead_keeps k0
        exact h16
      · rename_i v17 v18 v19
        have h20 : Keeps x ((v18, AggSeg.bad)).1 := by
          rw [← v19]
          exact State.aggRead_keeps k0
        exact h10 _ h20
      · rename_i v21 v22 v23 v24
        have h25 : Keeps x ((v22, AggSeg.rows v23)).1 := by
          rw [← v24]
          exact State.aggRead_keeps k0
        exact h6 _ _ h25

theorem AggRun.start_keeps {x s : State} (h : Keeps x s) :
    KeepsOf x (fun r => (VxRun.st (AggRun.run r))) ({ run := { st := s } } : AggRun) := h

theorem State.aggRun_keeps {x : State} {a0} {a1} (k0 : Keeps x a0) : Keeps x (State.aggRun a0 a1) := by
  unfold State.aggRun
  extract_lets l0 l1 l2 l3 l4 l5 l6 l7 l8 l9 l10 l11
  clear_value l0 l1
  have h12 : KeepsOf x ElemRes.st l2 := KeepsOf.mk (r := State.readElems ..) (State.readElems_keeps k0)
  clear_value l2 l3
  have h13 : KeepsOf x (fun r => (VxRun.st (AggRun.run r))) l4 := by
    refine KeepsOf.foldl (b := ({ run := { st := l2.st } } : AggRun)) (AggRun.start_keeps h12.out) (fun b14 a15 h16 => ?_)
    refine KeepsOf.ite ?_ ?_
    · exact KeepsOf.mk h16.out
    · exact KeepsOf.mk (AggRun.dest_keeps h16.out)
  clear_value l4
  have h20 : Keeps x l8 := State.vxBusy_keeps h13.out
  clear_value l5 l6 l7 l8
  have h21 : Keeps x l9 := State.count_keeps h20
  clear_value l9
  have h22 : Keeps x l10 := State.count_keeps h21
  clear_value l10
  have h23 : Keeps x l11 := Keeps.ite h22 (State.err_keeps h22)
  clear_value l11
  exact State.addCmd_keeps (State.vxUe_keeps h23)

theorem updateCheck_keeps {x : State} {a0} {a1} (k0 : Keeps x a0) : Keeps x (updateCheck.rest a0 a1).1 := by
  refine KeepsOf.out (p := Prod.fst) ?_
  unfold updateCheck
  dsimp -zeta only
  extract_lets l0 l1
  clear_value l0
  have h2 : KeepsOf x MemRes.st l1 := KeepsOf.mk (r := State.sqRead ..) (State.sqRead_keeps k0)
  clear_value l1
  exact KeepsOf.ite (KeepsOf.pair (State.err_keeps h2.out)) (KeepsOf.ite (KeepsOf.pair h2.out) (KeepsOf.pair h2.out))

theorem State.vuFactor_keeps {x : State} {a0} {a1} {a2} (k0 : Keeps x a0) : Keeps x (State.vuFactor a0 a1 a2).1 := by
  refine KeepsOf.out (p := Prod.fst) ?_
  unfold State.vuFactor
  extract_lets l0 l1
  have h2 : KeepsOf x MemRes.st l0 := KeepsOf.mk (r := State.sqRead ..) (State.sqRead_keeps k0)
  clear_value l0 l1
  exact KeepsOf.ite (KeepsOf.ite (KeepsOf.pair h2.out) (KeepsOf.ite (KeepsOf.pair h2.out) (KeepsOf.pair h2.out)))
    (KeepsOf.pair k0)

theorem State.vuArray_keeps {x : State} {a0} {a1} {a2} {a3} {a4} (k0 : Keeps x a0) : Keeps x (State.vuArray a0 a1
    a2 a3 a4).st := by
  unfold State.vuArray
  exact State.vxRow_keeps k0

theorem State.ratioAdd_keeps {x : State} {a0} {a1} {a2} {a3} (k0 : Keeps x a0) : Keeps x (State.ratioAdd a0 a1 a2
    a3) := by
  unfold State.ratioAdd
  extract_lets l0 l1 l2
  clear_value l0 l1
  have h3 : Keeps x l2 := by
    unfold l2
    exact State.scsAdd_keeps k0
  clear_value l2
  exact State.scsAdd_keeps h3

theorem State.put48_keeps {x : State} {a0} {a1} {a2} {a3} (k0 : Keeps x a0) : Keeps x (State.put48 a0 a1 a2 a3) := by
  unfold State.put48
  exact State.sqWrite_keeps k0

theorem State.updateWith_keeps {x : State} {a0} {a1} {a2} {a3} (k0 : Keeps x a0) : Keeps x (State.updateWith a0 a1
    a2 a3) := by
  unfold State.updateWith
  extract_lets l0 l1 l2 l3 l4 l5 l6 l7 l8 l9 l10 l11 l12 l13 l14 l15 l16 l17 l18 l19 l20 l21 l22 l23 l24
  clear_value l0 l1 l2 l3
  have h25 : Keeps x l4.st := by
    unfold l4
    exact State.vuArray_keeps k0
  clear_value l4
  have h26 : Keeps x l5.st := by
    unfold l5
    exact State.vuArray_keeps h25
  clear_value l5
  have h27 : Keeps x l6.st := by
    unfold l6
    exact State.vuArray_keeps h26
  clear_value l6
  have h28 : Keeps x l7.st := by
    unfold l7
    exact State.vuArray_keeps h27
  clear_value l7 l8 l9 l10 l11 l12
  have h29 : Keeps x l13 := by
    unfold l13
    exact State.put48_keeps h28
  clear_value l13
  have h30 : Keeps x l14 := by
    unfold l14
    exact Keeps.ite h29 (State.put48_keeps h29)
  clear_value l14
  have h31 : Keeps x l15 := by
    unfold l15
    exact Keeps.ite (State.put48_keeps h30) h30
  clear_value l15 l16
  have h32 : Keeps x l17 := by
    unfold l17
    exact Keeps.ite (State.sqWrite_keeps h31) h31
  clear_value l17
  have h33 : Keeps x l18 := by
    unfold l18
    exact Keeps.ite (State.sqWrite_keeps h32) h32
  clear_value l18
  have h34 : Keeps x l19 := by
    unfold l19
    exact Keeps.ite (State.count64_keeps h33) h33
  clear_value l19
  have h35 : Keeps x l20 := by
    unfold l20
    refine Keeps.ite ?_ ?_
    · refine Keeps.foldl (p := fun r => r) ?_ (fun b36 a37 h38 => ?_)
      · exact h34
      · exact State.ratioAdd_keeps h38
    · exact h34
  clear_value l20 l21 l22
  have h39 : Keeps x l23 := by
    unfold l23
    exact State.vxBusy_keeps h35
  clear_value l23
  have h40 : Keeps x l24.st := by
    unfold l24
    exact h39
  clear_value l24
  exact State.awaitScs_keeps (State.vxEnd_keeps h39 h40)

theorem State.updateRun_keeps {x : State} {a0} {a1} (k0 : Keeps x a0) : Keeps x (State.updateRun a0 a1) := by
  unfold State.updateRun
  extract_lets l0 l1
  clear_value l0 l1
  split
  · rename_i v2 v3 v4
    have h5 : Keeps x ((v3, VuFactor.ue)).1 := by
      rw [← v4]
      exact State.vuFactor_keeps k0
    exact State.vxEnd_keeps h5 h5
  · rename_i v6 v7 v8
    have h9 : Keeps x ((v7, VuFactor.skip)).1 := by
      rw [← v8]
      exact State.vuFactor_keeps k0
    extract_lets l10
    have h11 : Keeps x l10 := by
      unfold l10
      exact State.err_keeps (State.count_keeps h9)
    clear_value l10
    exact State.vxEnd_keeps h11 h11
  · rename_i v12 v13 v14 v15
    have h16 : Keeps x ((v13, VuFactor.f v14)).1 := by
      rw [← v15]
      exact State.vuFactor_keeps k0
    exact State.updateWith_keeps h16

theorem State.rlogWrite_keeps {x : State} {a0} {a1} {a2} (k0 : Keeps x a0) : Keeps x (State.rlogWrite a0 a1 a2) := by
  unfold State.rlogWrite
  extract_lets l0 l1 l2 l3 l4
  clear_value l0 l1 l2 l3
  have h5 : Keeps x l4.st := by
    unfold l4
    exact State.memWrite_keeps k0
  clear_value l4
  exact Keeps.ite k0 (Keeps.ite (State.err_keeps (State.count_keeps k0)) (State.setReg_keeps (State.recordMem_keeps
      h5)))

theorem State.ratioEnd_keeps {x : State} {a0} {a1} {a2} (k0 : Keeps x a0) : Keeps x (State.ratioEnd a0 a1 a2) := by
  unfold State.ratioEnd
  extract_lets l0 l1 l2 l3 l4 l5 l6 l7 l8 l9 l10 l11 l12 l13 l14 l15 l16
  clear_value l0 l1 l2 l3 l4 l5 l6 l7 l8 l9 l10 l11 l12 l13 l14
  have h17 : Keeps x l15 := by
    unfold l15
    exact State.rlogWrite_keeps k0
  clear_value l15
  have h18 : Keeps x l16 := by
    unfold l16
    exact Keeps.ite (State.err_keeps h17) h17
  clear_value l16
  exact State.mapCmd_keeps h18

theorem State.ratioNow_keeps {x : State} {a0} {a1} (k0 : Keeps x a0) : Keeps x (State.ratioNow a0 a1) := by
  unfold State.ratioNow
  refine State.whenServed_keeps ?_ ?_
  · exact k0
  · intro a0 a1 a2
    exact State.ratioEnd_keeps a2

theorem execVxMap_keeps {x : State} {a0} {a1} {a2} (k2 : Keeps x a2) : KeepsRes x (execVxMap a0 a1 a2) := by
  unfold execVxMap
  refine KeepsRes.next ?_
  refine State.command_keeps ?_ ?_ ?_
  · exact k2
  · intro a0 a1 a2
    refine Check.rest_keeps (fun _ _ => rfl) ?_
    exact a2
  · intro a3 a4 a5
    exact State.mapRun_keeps a5

theorem execVxConvert_keeps {x : State} {a0} {a1} {a2} (k2 : Keeps x a2) : KeepsRes x (execVxConvert a0 a1 a2) := by
  unfold execVxConvert
  refine KeepsRes.next ?_
  refine State.command_keeps ?_ ?_ ?_
  · exact k2
  · intro a0 a1 a2
    refine Check.rest_keeps (fun _ _ => rfl) ?_
    exact a2
  · intro a3 a4 a5
    exact State.convertRun_keeps a5

theorem execVxReduce_keeps {x : State} {a0} {a1} {a2} (k2 : Keeps x a2) : KeepsRes x (execVxReduce a0 a1 a2) := by
  unfold execVxReduce
  refine KeepsRes.next ?_
  refine State.command_keeps ?_ ?_ ?_
  · exact k2
  · intro a0 a1 a2
    refine Check.rest_keeps (fun _ _ => rfl) ?_
    exact a2
  · intro a3 a4 a5
    exact State.reduceRun_keeps a5

theorem execVxAgg_keeps {x : State} {a0} {a1} {a2} (k2 : Keeps x a2) : KeepsRes x (execVxAgg a0 a1 a2) := by
  unfold execVxAgg
  refine KeepsRes.next ?_
  refine State.command_keeps ?_ ?_ ?_
  · exact k2
  · intro a0 a1 a2
    refine Check.rest_keeps (fun _ _ => rfl) ?_
    exact a2
  · intro a3 a4 a5
    exact State.aggRun_keeps a5

theorem execVxUpdate_keeps {x : State} {a0} {a1} {a2} (k2 : Keeps x a2) : KeepsRes x (execVxUpdate a0 a1 a2) := by
  unfold execVxUpdate
  refine KeepsRes.next ?_
  refine State.command_keeps ?_ ?_ ?_
  · exact k2
  · intro a0 a1 a2
    exact updateCheck_keeps a2
  · intro a3 a4 a5
    exact State.updateRun_keeps a5

theorem execVxRatio_keeps {x : State} {a0} {a1} {a2} (k2 : Keeps x a2) : KeepsRes x (execVxRatio a0 a1 a2) := by
  unfold execVxRatio
  refine KeepsRes.next ?_
  refine State.command_keeps ?_ ?_ ?_
  · exact k2
  · intro a0 a1 a2
    refine Check.rest_keeps (fun _ _ => rfl) ?_
    exact a2
  · intro a3 a4 a5
    extract_lets l6
    clear_value l6
    exact State.ratioNow_keeps (State.addCmd_keeps a5)

end Sys2Proof.Machine
end

