-- ==== Sys2Proof/Laws/KeepsPlacement.lean ====
section
/-! SUPPORT. What the operations of Machine/Placement.lean keep (`Keeps`, Laws/Keeps.lean). -/

namespace Sys2Proof.Machine

theorem State.setPlc_keeps {x : State} {a0} {a1} (k0 : Keeps x a0) : Keeps x (State.setPlc a0 a1) := by
  unfold State.setPlc
  exact Keeps.upd k0 rfl rfl rfl rfl

theorem State.follow_keeps {x : State} {a0} {a1} {a2} (k0 : Keeps x a0) : Keeps x (State.follow a0 a1 a2) := by
  unfold State.follow
  extract_lets l0
  clear_value l0
  split
  · exact Keeps.ite (State.count64_keeps (State.send_keeps k0)) k0
  · exact Keeps.upd k0 rfl rfl rfl rfl

theorem State.dirMirror_keeps {x : State} {a0} {a1} {a2} (k0 : Keeps x a0) : Keeps x (State.dirMirror a0 a1 a2) := by
  unfold State.dirMirror
  extract_lets l0 l1 l2
  clear_value l0
  have h3 : Keeps x l1 := by
    unfold l1
    exact State.memWrite_keeps k0
  clear_value l1
  have h4 : Keeps x l2 := by
    unfold l2
    exact State.memWrite_keeps h3
  clear_value l2
  exact State.setReg_keeps h4

theorem State.dirPut_keeps {x : State} {a0} {a1} (k0 : Keeps x a0) : Keeps x (State.dirPut a0 a1).1 := by
  unfold State.dirPut
  split
  · extract_lets l3 l4 l5
    clear_value l3 l4
    have h6 : Keeps x l5 := by
      unfold l5
      exact State.dirMirror_keeps (State.setPlc_keeps k0)
    clear_value l5
    exact Keeps.ite (State.follow_keeps h6) (Keeps.ite (State.follow_keeps h6) h6)
  · exact State.err_keeps (State.count_keeps k0)

theorem State.dirDel_keeps {x : State} {a0} {a1} (k0 : Keeps x a0) : Keeps x (State.dirDel a0 a1) := by
  unfold State.dirDel
  split
  · extract_lets l4 l5
    clear_value l4
    have h6 : Keeps x l5 := by
      unfold l5
      exact State.dirMirror_keeps (State.setPlc_keeps k0)
    clear_value l5
    exact Keeps.ite (State.follow_keeps h6) h6
  · exact k0

theorem State.dirOwner_keeps {x : State} {a0} {a1} {a2} (k0 : Keeps x a0) : Keeps x (State.dirOwner a0 a1 a2) := by
  unfold State.dirOwner
  exact Keeps.ite (State.dirDel_keeps k0) (State.dirPut_keeps k0)

theorem State.dirRead_keeps {x : State} {a0} {a1} {a2} (k0 : Keeps x a0) : Keeps x (State.dirRead a0 a1 a2).1 := by
  refine KeepsOf.out (p := Prod.fst) ?_
  unfold State.dirRead
  extract_lets l0
  have h1 : KeepsOf x MemRes.st l0 := KeepsOf.mk (r := State.memRead ..) (State.memRead_keeps k0)
  clear_value l0
  exact KeepsOf.pair h1.out

theorem State.dirRepair_keeps {x : State} {a0} {a1} {a2} (k0 : Keeps x a0) : Keeps x (State.dirRepair a0 a1 a2) := by
  unfold State.dirRepair
  exact State.memPut_keeps k0

theorem State.lookup_keeps {x : State} {a0} {a1} {a2} (k0 : Keeps x a0) : Keeps x (State.lookup a0 a1 a2).1 := by
  unfold State.lookup
  extract_lets l0
  have h1 : Keeps x l0 := by
    unfold l0
    exact State.count64_keeps k0
  clear_value l0
  split
  · rename_i v2 v3 v4 v5
    have h6 : Keeps x ((v3, v4)).2 := by
      rw [← v5]
      exact State.draw_keeps h1
    extract_lets l7
    have h8 : Keeps x l7 := by
      unfold l7
      exact State.count64_keeps h6
    clear_value l7
    refine Keeps.iteP (p := (fun r => (Prod.fst r))) ?_ ?_
    · exact h6
    · split
      · rename_i v9 v10 v11 v12
        have h13 : Keeps x ((v10, v11)).1 := by
          rw [← v12]
          exact State.dirRead_keeps h8
        refine Keeps.iteP (p := (fun r => (Prod.fst r))) ?_ ?_
        · exact h13
        · split
          · rename_i v14 v15 v16 v17
            have h18 : Keeps x ((v15, v16)).1 := by
              rw [← v17]
              exact State.dirRead_keeps h13
            refine Keeps.iteP (p := (fun r => (Prod.fst r))) ?_ ?_
            · exact State.err_keeps h18
            · exact State.dirRepair_keeps h18

theorem State.putOut_keeps {x : State} {a0} {a1} (k0 : Keeps x a0) : Keeps x (State.putOut a0 a1) := by
  unfold State.putOut
  extract_lets l0
  clear_value l0
  exact State.setPlc_keeps k0

theorem State.delOut_keeps {x : State} {a0} {a1} (k0 : Keeps x a0) : Keeps x (State.delOut a0 a1) := by
  unfold State.delOut
  extract_lets l0
  clear_value l0
  exact State.setPlc_keeps k0

theorem State.putIn_keeps {x : State} {a0} {a1} (k0 : Keeps x a0) : Keeps x (State.putIn a0 a1) := by
  unfold State.putIn
  extract_lets l0
  clear_value l0
  exact State.setPlc_keeps k0

theorem State.delIn_keeps {x : State} {a0} {a1} (k0 : Keeps x a0) : Keeps x (State.delIn a0 a1) := by
  unfold State.delIn
  extract_lets l0
  clear_value l0
  exact State.setPlc_keeps k0

theorem State.putRow_keeps {x : State} {a0} {a1} {a2} (k0 : Keeps x a0) : Keeps x (State.putRow a0 a1 a2) := by
  unfold State.putRow
  extract_lets l0
  clear_value l0
  split
  · exact State.putIn_keeps k0
  · exact State.setPlc_keeps k0

theorem State.rowVisit_keeps {x : State} {a0} {a1} (k0 : Keeps x a0) : Keeps x (State.rowVisit a0 a1) := by
  unfold State.rowVisit
  extract_lets l0
  clear_value l0
  refine Keeps.foldl (p := fun r => r) ?_ (fun b1 a2 h3 => ?_)
  · exact k0
  · exact State.rowGet_keeps h3

theorem State.rowLay_keeps {x : State} {a0} {a1} {a2} (k0 : Keeps x a0) : Keeps x (State.rowLay a0 a1 a2) := by
  unfold State.rowLay
  refine Keeps.foldl (p := fun r => r) ?_ (fun b0 a1 h2 => ?_)
  · exact k0
  · exact State.rowSet_keeps h2

theorem State.fitRow_keeps {x : State} {a0} {a1} {a2} {a3} (k0 : Keeps x a0) : Keeps x (State.fitRow a0 a1 a2 a3).1
    := by
  unfold State.fitRow
  extract_lets l0 l1 l2 l3
  clear_value l0
  have h4 : Keeps x l1.1 := by
    unfold l1
    exact State.err_keeps k0
  clear_value l1 l2 l3
  refine Keeps.iteP (p := (fun r => (Prod.fst r))) ?_ ?_
  · exact k0
  · split
    · exact h4
    · refine Keeps.iteP (p := (fun r => (Prod.fst r))) ?_ ?_
      · exact k0
      · split
        · exact h4
        · exact k0

theorem State.wantRow_keeps {x : State} {a0} {a1} (k0 : Keeps x a0) : Keeps x (State.wantRow a0 a1) := by
  unfold State.wantRow
  extract_lets l0
  clear_value l0
  exact State.setPlc_keeps k0

theorem State.serveRow_keeps {x : State} {a0} {a1} (k0 : Keeps x a0) : Keeps x (State.serveRow a0 a1) := by
  unfold State.serveRow
  extract_lets l0
  clear_value l0
  exact State.setPlc_keeps k0

theorem State.sketchDecay_keeps {x : State} {a0} (k0 : Keeps x a0) : Keeps x (State.sketchDecay a0) := by
  unfold State.sketchDecay
  extract_lets l0
  clear_value l0
  exact Keeps.ite (State.setPlc_keeps k0) k0

theorem execSketchDecay_keeps {x : State} {a0} (k0 : Keeps x a0) : KeepsRes x (execSketchDecay a0) := by
  unfold execSketchDecay
  exact KeepsRes.next (State.sketchDecay_keeps k0)

theorem State.plcSend_keeps {x : State} {a0} {a1} {a2} {a3} (k0 : Keeps x a0) : Keeps x (State.plcSend a0 a1 a2 a3)
    := by
  unfold State.plcSend
  exact State.send_keeps k0

theorem State.sendChange_keeps {x : State} {a0} {a1} {a2} (k0 : Keeps x a0) : Keeps x (State.sendChange a0 a1 a2)
    := by
  unfold State.sendChange
  split
  · exact Keeps.ite k0 (State.plcSend_keeps (State.putOut_keeps k0))
  · exact k0

theorem State.planeRead_keeps {x : State} {a0} {a1} {a2} {a3} (k0 : Keeps x a0) : Keeps x (State.planeRead a0 a1 a2
    a3).1.st := by
  unfold State.planeRead
  extract_lets l0 l1 l2 l3 l4
  clear_value l0 l1 l2 l3
  have h5 : Keeps x l4.st := by
    unfold l4
    exact State.rowGet_keeps k0
  clear_value l4
  refine Keeps.iteP (p := (fun r => (RowAcc.st (Prod.fst r)))) ?_ ?_
  · exact k0
  · exact h5

theorem State.freeWords_keeps {x : State} {a0} {a1} {a2} {a3} (k0 : Keeps x a0) : Keeps x (State.freeWords a0 a1 a2
    a3).1 := by
  unfold State.freeWords
  refine Keeps.iteP (p := (fun r => (Prod.fst r))) ?_ ?_
  · exact k0
  · split
    · rename_i v0 v1 v2 v3
      have h4 : Keeps x ((v1, v2)).2 := by
        rw [← v3]
        exact State.drawN_keeps k0
      exact h4

theorem State.planeWrite_keeps {x : State} {a0} {a1} {a2} {a3} {a4} {a5} {a6} {a7} {a8} (k0 : Keeps x a0) : Keeps x
    (State.planeWrite a0 a1 a2 a3 a4 a5 a6 a7 a8).1.st := by
  unfold State.planeWrite
  extract_lets l0
  have h1 : Keeps x l0.st := by
    unfold l0
    exact State.rowSet_keeps k0
  clear_value l0
  exact h1

theorem State.refreshHolders_keeps {x : State} {a0} {a1} (k0 : Keeps x a0) : Keeps x (State.refreshHolders a0 a1)
    := by
  unfold State.refreshHolders
  extract_lets l0 l1
  clear_value l0
  have h2 : Keeps x l1.1.st := by
    unfold l1
    exact State.planeRead_keeps k0
  clear_value l1
  refine Keeps.ite ?_ ?_
  · exact k0
  · refine Keeps.foldl (p := fun r => r) ?_ (fun b3 a4 h5 => ?_)
    · exact h2
    · extract_lets l6
      clear_value l6
      exact State.plcSend_keeps (State.count64_keeps (State.setPlc_keeps h5))

theorem State.notifyHolders_keeps {x : State} {a0} {a1} {a2} (k0 : Keeps x a0) : Keeps x (State.notifyHolders a0 a1
    a2) := by
  unfold State.notifyHolders
  refine Keeps.foldl (p := fun r => r) ?_ (fun b0 a1 h2 => ?_)
  · exact k0
  · extract_lets l3
    clear_value l3
    exact State.plcSend_keeps (State.setPlc_keeps h2)

theorem State.setMark_keeps {x : State} {a0} {a1} (k0 : Keeps x a0) : Keeps x (State.setMark a0 a1) := by
  unfold State.setMark
  extract_lets l0
  clear_value l0
  split
  · exact Keeps.ite k0 (State.notifyHolders_keeps (State.putIn_keeps k0))
  · exact Keeps.ite k0 (State.notifyHolders_keeps (State.sendChange_keeps (State.putRow_keeps k0)))

theorem State.clearMark_keeps {x : State} {a0} {a1} (k0 : Keeps x a0) : Keeps x (State.clearMark a0 a1) := by
  unfold State.clearMark
  extract_lets l0 l1 l2 l3
  clear_value l0 l1
  have h4 : Keeps x l2 := by
    unfold l2
    exact State.putRow_keeps k0
  clear_value l2
  have h5 : Keeps x l3 := by
    unfold l3
    exact Keeps.ite (State.sendChange_keeps h4) h4
  clear_value l3
  split
  · exact State.putIn_keeps k0
  · exact Keeps.ite k0 (State.refreshHolders_keeps (State.sendChange_keeps h5))

theorem State.undoCopy_keeps {x : State} {a0} {a1} {a2} {a3} (k0 : Keeps x a0) : Keeps x (State.undoCopy a0 a1 a2
    a3).1 := by
  unfold State.undoCopy
  extract_lets l0 l1
  clear_value l0
  have h2 : Keeps x l1.1.st := by
    unfold l1
    refine Keeps.foldl (p := (fun r => (RowAcc.st (Prod.fst r)))) ?_ (fun b3 a4 h5 => ?_)
    · exact k0
    · extract_lets l6 l7 l8 l9 l10 l11
      clear_value l6 l7
      have h12 : Keeps x l8.st := by
        unfold l8
        exact State.rowGet_keeps h5
      clear_value l8
      have h13 : Keeps x l9.st := by
        unfold l9
        exact State.rowSet_keeps h12
      clear_value l9 l10 l11
      exact h13
  clear_value l1
  exact State.sendChange_keeps h2

theorem State.storePlane_keeps {x : State} {a0} {a1} {a2} {a3} {a4} {a5} (k0 : Keeps x a0) : Keeps x
    (State.storePlane a0 a1 a2 a3 a4 a5).st := by
  unfold State.storePlane
  extract_lets l0 l1
  clear_value l0 l1
  split
  · rename_i v2 v3 v4
    have h5 : Keeps x ((v3, none) : State × Option Row).1 := by
      rw [← v4]
      exact State.fitRow_keeps k0
    exact h5
  · rename_i v6 v7 v8 v9
    have h10 : Keeps x ((v7, some v8)).1 := by
      rw [← v9]
      exact State.fitRow_keeps k0
    split
    · rename_i v11 v12 v13 v14 v15
      have h16 : Keeps x ((v12, v13, v14)).1 := by
        rw [← v15]
        refine Keeps.iteP (p := (fun r => (Prod.fst r))) ?_ ?_
        · exact State.undoCopy_keeps (State.putRow_keeps h10)
        · exact State.putRow_keeps h10
      extract_lets l17 l18 l19
      clear_value l17 l18 l19
      split
      · rename_i v20 v21 v22 v23 v24
        have h25 : Keeps x ((v21, v22, v23)).1.st := by
          rw [← v24]
          exact State.planeWrite_keeps h16
        extract_lets l26 l27 l28 l29 l30 l31 l32 l33
        have h34 : Keeps x l26 := by
          unfold l26
          exact h25
        clear_value l26 l27 l28 l29 l30
        have h35 : Keeps x l31 := by
          unfold l31
          exact State.putRow_keeps h34
        clear_value l31
        have h36 : Keeps x l32 := by
          unfold l32
          exact State.sendChange_keeps h35
        clear_value l32
        have h37 : Keeps x l33 := by
          unfold l33
          exact Keeps.ite (Keeps.ite h36 (State.refreshHolders_keeps h36)) (State.sendChange_keeps h35)
        clear_value l33
        refine Keeps.iteP (p := (fun r => (StoreRes.st r))) ?_ ?_
        · exact State.putRow_keeps h34
        · exact h37

theorem State.storeAdj_keeps {x : State} {a0} {a1} {a2} {a3} {a4} {a5} (k0 : Keeps x a0) : Keeps x (State.storeAdj
    a0 a1 a2 a3 a4 a5).st := by
  unfold State.storeAdj
  extract_lets l0 l1 l2
  clear_value l0 l1 l2
  split
  · rename_i v3 v4 v5
    have h6 : Keeps x ((v4, none) : State × Option Row).1 := by
      rw [← v5]
      exact State.fitRow_keeps k0
    exact h6
  · rename_i v7 v8 v9 v10
    have h11 : Keeps x ((v8, some v9)).1 := by
      rw [← v10]
      exact State.fitRow_keeps k0
    extract_lets l12
    have h13 : Keeps x l12.st := by
      unfold l12
      exact State.rowSet_keeps h11
    clear_value l12
    refine Keeps.iteP (p := (fun r => (StoreRes.st r))) ?_ ?_
    · exact State.sendChange_keeps (State.putRow_keeps h13)
    · exact State.putRow_keeps h13

theorem State.storePart_keeps {x : State} {a0} {a1} {a2} {a3} (k0 : Keeps x a0) : Keeps x (State.storePart a0 a1 a2
    a3) := by
  unfold State.storePart
  extract_lets l0 l1
  clear_value l0 l1
  exact State.sendChange_keeps (State.putRow_keeps k0)

theorem State.storeEntry_keeps {x : State} {a0} {a1} {a2} {a3} (k0 : Keeps x a0) : Keeps x (State.storeEntry a0 a1
    a2 a3).st := by
  unfold State.storeEntry
  extract_lets l0
  clear_value l0
  refine Keeps.iteP (p := (fun r => (StoreRes.st r))) ?_ ?_
  · exact State.storePlane_keeps k0
  · split
    · exact State.storeAdj_keeps k0
    · exact State.storePart_keeps k0
    · exact State.storePart_keeps k0
    · exact State.storeAdj_keeps k0

theorem State.dropReplica_keeps {x : State} {a0} {a1} (k0 : Keeps x a0) : Keeps x (State.dropReplica a0 a1) := by
  unfold State.dropReplica
  extract_lets l0
  clear_value l0
  split
  · exact Keeps.ite (State.dirOwner_keeps (State.setPlc_keeps k0)) k0
  · exact k0

theorem State.maybeReplicate_keeps {x : State} {a0} {a1} {a2} (k0 : Keeps x a0) : Keeps x (State.maybeReplicate a0
    a1 a2) := by
  unfold State.maybeReplicate
  exact Keeps.ite (State.plcSend_keeps k0) k0

theorem State.onReplicaRequest_keeps {x : State} {a0} {a1} (k0 : Keeps x a0) : Keeps x (State.onReplicaRequest a0
    a1) := by
  unfold State.onReplicaRequest
  split
  · split
    · rename_i v5 v6 v7 v8
      have h9 : Keeps x ((v6, v7)).1 := by
        rw [← v8]
        exact State.lookup_keeps k0
      extract_lets l10 l11 l12 l13 l14
      clear_value l10 l11 l12
      have h15 : Keeps x l13 := by
        unfold l13
        exact State.putRow_keeps h9
      clear_value l13
      have h16 : Keeps x l14.1.st := by
        unfold l14
        exact State.planeRead_keeps h15
      clear_value l14
      refine Keeps.ite ?_ ?_
      · exact State.plcSend_keeps (State.count_keeps h9)
      · exact Keeps.ite (State.plcSend_keeps (State.count64_keeps h9)) (Keeps.ite (State.plcSend_keeps
            (State.count_keeps h16)) (State.plcSend_keeps (State.count_keeps h9)))
  · exact k0

theorem State.replWrite_keeps {x : State} {a0} {a1} {a2} {a3} {a4} (k0 : Keeps x a0) : Keeps x (State.replWrite a0
    a1 a2 a3 a4) := by
  unfold State.replWrite
  exact State.memWrite_keeps k0

theorem State.onReplicaGrant_keeps {x : State} {a0} {a1} (k0 : Keeps x a0) : Keeps x (State.onReplicaGrant a0 a1)
    := by
  unfold State.onReplicaGrant
  split
  · extract_lets l7
    have h8 : Keeps x l7 := by
      unfold l7
      exact State.dropReplica_keeps k0
    clear_value l7
    split
    · exact State.reply_keeps h8
    · split
      · rename_i v14 v15 v16
        have h17 : Keeps x ((v15, false)).1 := by
          rw [← v16]
          exact State.dirPut_keeps h8
        exact State.reply_keeps h17
      · rename_i v18 v19 v20
        have h21 : Keeps x ((v19, true)).1 := by
          rw [← v20]
          exact State.dirPut_keeps h8
        extract_lets l22 l23
        have h24 : Keeps x l22 := by
          unfold l22
          exact State.replWrite_keeps h21
        clear_value l22 l23
        exact Keeps.ite (State.setPlc_keeps h24) h24
  · exact k0

theorem State.onReplicaDrop_keeps {x : State} {a0} {a1} (k0 : Keeps x a0) : Keeps x (State.onReplicaDrop a0 a1) := by
  unfold State.onReplicaDrop
  split
  · extract_lets l3 l4 l5 l6
    clear_value l3 l4
    have h7 : Keeps x l5 := by
      unfold l5
      exact State.sendChange_keeps (State.putRow_keeps k0)
    clear_value l5 l6
    exact Keeps.ite (State.count_keeps (State.dropReplica_keeps k0)) (Keeps.ite (State.setPlc_keeps h7) k0)
  · exact k0

theorem State.onPendingNotice_keeps {x : State} {a0} {a1} (k0 : Keeps x a0) : Keeps x (State.onPendingNotice a0 a1)
    := by
  unfold State.onPendingNotice
  split
  · extract_lets l3 l4
    clear_value l3
    have h5 : Keeps x l4 := by
      unfold l4
      exact Keeps.ite (State.setPlc_keeps k0) k0
    clear_value l4
    exact State.reply_keeps h5
  · exact k0

theorem State.onRefresh_keeps {x : State} {a0} {a1} (k0 : Keeps x a0) : Keeps x (State.onRefresh a0 a1) := by
  unfold State.onRefresh
  split
  · extract_lets l6 l7
    clear_value l6
    have h8 : Keeps x l7 := by
      unfold l7
      split
      · extract_lets l12 l13 l14
        have h15 : Keeps x l12 := by
          unfold l12
          exact State.dirPut_keeps k0
        clear_value l12
        have h16 : Keeps x l13 := by
          unfold l13
          exact State.replWrite_keeps h15
        clear_value l13 l14
        exact Keeps.ite k0 (Keeps.ite (State.setPlc_keeps h16) (Keeps.ite (State.setPlc_keeps k0) k0))
      · exact k0
    clear_value l7
    exact State.reply_keeps h8
  · exact k0

theorem State.onRefreshAck_keeps {x : State} {a0} {a1} (k0 : Keeps x a0) : Keeps x (State.onRefreshAck a0 a1) := by
  unfold State.onRefreshAck
  split
  · extract_lets l4 l5
    clear_value l4 l5
    exact State.setPlc_keeps k0
  · exact k0

theorem State.migPrepare_keeps {x : State} {a0} {a1} (k0 : Keeps x a0) : Keeps x (State.migPrepare a0 a1) := by
  unfold State.migPrepare
  split
  · extract_lets l3
    clear_value l3
    refine Keeps.ite ?_ ?_
    · exact k0
    · split
      · rename_i v4 v5 v6
        have h7 : Keeps x ((v5, false)).1 := by
          rw [← v6]
          refine Keeps.iteP (p := (fun r => (Prod.fst r))) ?_ ?_
          · exact State.dirPut_keeps k0
          · exact k0
        exact State.delOut_keeps h7
      · rename_i v8 v9 v10
        have h11 : Keeps x ((v9, true)).1 := by
          rw [← v10]
          refine Keeps.iteP (p := (fun r => (Prod.fst r))) ?_ ?_
          · exact State.dirPut_keeps k0
          · exact k0
        extract_lets l12
        have h13 : Keeps x l12 := by
          unfold l12
          exact State.rowVisit_keeps (State.putOut_keeps h11)
        clear_value l12
        exact State.plcSend_keeps (State.count_keeps h13)
  · exact k0

theorem execMigrationPrepare_keeps {x : State} {a0} {a1} (k1 : Keeps x a1) : KeepsRes x (execMigrationPrepare a0
    a1) := by
  unfold execMigrationPrepare
  exact KeepsRes.next (State.migPrepare_keeps k1)

theorem State.onMigCopy_keeps {x : State} {a0} {a1} (k0 : Keeps x a0) : Keeps x (State.onMigCopy a0 a1) := by
  unfold State.onMigCopy
  split
  · extract_lets l5
    have h6 : Keeps x l5 := by
      unfold l5
      exact State.dropReplica_keeps k0
    clear_value l5
    split
    · rename_i v7 v8 v9
      have h10 : Keeps x ((v8, none) : State × Option Row).1 := by
        rw [← v9]
        exact State.fitRow_keeps h6
      exact State.reply_keeps h10
    · rename_i v11 v12 v13 v14
      have h15 : Keeps x ((v12, some v13)).1 := by
        rw [← v14]
        exact State.fitRow_keeps h6
      split
      · rename_i v16 v17 v18
        have h19 : Keeps x ((v17, false)).1 := by
          rw [← v18]
          refine Keeps.iteP (p := (fun r => (Prod.fst r))) ?_ ?_
          · exact h15
          · exact State.dirPut_keeps h15
        exact State.reply_keeps h19
      · rename_i v20 v21 v22
        have h23 : Keeps x ((v21, true)).1 := by
          rw [← v22]
          refine Keeps.iteP (p := (fun r => (Prod.fst r))) ?_ ?_
          · exact h15
          · exact State.dirPut_keeps h15
        exact State.reply_keeps (State.putIn_keeps (State.rowLay_keeps h23))
  · exact k0

theorem State.abandonOut_keeps {x : State} {a0} {a1} (k0 : Keeps x a0) : Keeps x (State.abandonOut a0 a1) := by
  unfold State.abandonOut
  split
  · extract_lets l3
    have h4 : Keeps x l3 := by
      unfold l3
      exact Keeps.ite k0 (State.count_keeps k0)
    clear_value l3
    exact State.dirOwner_keeps (State.delOut_keeps h4)
  · exact k0

theorem State.onMigCopyAck_keeps {x : State} {a0} {a1} (k0 : Keeps x a0) : Keeps x (State.onMigCopyAck a0 a1) := by
  unfold State.onMigCopyAck
  split
  · split
    · exact Keeps.ite k0 (Keeps.ite (State.putOut_keeps k0) (State.abandonOut_keeps k0))
    · exact k0
  · exact k0

theorem State.takeOver_keeps {x : State} {a0} {a1} (k0 : Keeps x a0) : Keeps x (State.takeOver a0 a1) := by
  unfold State.takeOver
  extract_lets l0 l1 l2 l3 l4 l5 l6 l7
  have h4 : Keeps x l4 := State.dirOwner_keeps (State.setPlc_keeps (State.putIn_keeps k0))
  have h5 : Keeps x l5 := by
    show Keeps x (match l4.shadowOf a1.key l1 with | some i => l4.follow a1.key.job i | none => l4)
    split
    · exact State.follow_keeps h4
    · exact h4
  have h7 : Keeps x l7 := Keeps.ite h5 (State.plcSend_keeps h5)
  exact Keeps.ite (State.notifyHolders_keeps h7) h7

theorem State.applyChanges_keeps {x : State} {a0} {a1} {a2} (k0 : Keeps x a0) : Keeps x (State.applyChanges a0 a1
    a2) := by
  induction a2 generalizing a0 a1
  · unfold State.applyChanges
    exact k0
  · rename_i v0 v1
    unfold State.applyChanges
    split
    · exact k0
    · split
      · exact k0
      · extract_lets l13 l14
        clear_value l13
        have h15 : Keeps x l14 := by
          unfold l14
          exact State.putIn_keeps k0
        clear_value l14
        split
        · exact State.takeOver_keeps (State.putIn_keeps k0)
        · exact v1 (Keeps.ite (State.rowLay_keeps h15) h15)

theorem State.onMigChange_keeps {x : State} {a0} {a1} (k0 : Keeps x a0) : Keeps x (State.onMigChange a0 a1) := by
  unfold State.onMigChange
  split
  · split
    · exact k0
    · exact Keeps.ite (State.count_keeps k0) (State.applyChanges_keeps (State.putIn_keeps k0))
  · exact k0

theorem State.flipNoticeSend_keeps {x : State} {a0} {a1} (k0 : Keeps x a0) : Keeps x (State.flipNoticeSend a0 a1)
    := by
  unfold State.flipNoticeSend
  extract_lets l0
  clear_value l0
  split
  · extract_lets l4 l5
    clear_value l4
    have h6 : Keeps x l5 := by
      unfold l5
      exact State.putOut_keeps k0
    clear_value l5
    refine Keeps.ite ?_ ?_
    · refine Keeps.foldl (p := fun r => r) ?_ (fun b7 a8 h9 => ?_)
      · exact h6
      · exact State.plcSend_keeps h9
    · exact k0
  · exact k0

theorem execFlipNoticeSend_keeps {x : State} {a0} {a1} (k1 : Keeps x a1) : KeepsRes x (execFlipNoticeSend a0 a1) := by
  unfold execFlipNoticeSend
  exact KeepsRes.next (State.flipNoticeSend_keeps k1)

theorem State.onFlipNotice_keeps {x : State} {a0} {a1} (k0 : Keeps x a0) : Keeps x (State.onFlipNotice a0 a1) := by
  unfold State.onFlipNotice
  split
  · extract_lets l6
    clear_value l6
    exact State.setPlc_keeps k0
  · exact k0

theorem State.flipsDue_keeps {x : State} {a0} (k0 : Keeps x a0) : Keeps x (State.flipsDue a0) := by
  unfold State.flipsDue
  extract_lets l0
  clear_value l0
  refine Keeps.foldl (p := fun r => r) ?_ (fun b1 a2 h3 => ?_)
  · exact k0
  · extract_lets l4 l5
    clear_value l4
    have h6 : Keeps x l5 := by
      unfold l5
      exact State.setPlc_keeps h3
    clear_value l5
    split
    · exact Keeps.ite (State.dirPut_keeps h6) (State.dirOwner_keeps h6)
    · exact State.dirOwner_keeps h6

theorem State.migTransfer_keeps {x : State} {a0} {a1} (k0 : Keeps x a0) : Keeps x (State.migTransfer a0 a1) := by
  unfold State.migTransfer
  extract_lets l0
  have h1 : Keeps x l0 := by
    unfold l0
    exact State.sendChange_keeps k0
  clear_value l0
  split
  · split
    · refine Keeps.ite ?_ ?_
      · split
        · extract_lets l11
          have h12 : Keeps x l11 := by
            unfold l11
            exact State.count_keeps (State.putOut_keeps h1)
          clear_value l11
          exact Keeps.ite (State.follow_keeps h12) h12
        · exact h1
      · exact k0
    · exact k0
  · exact k0

theorem execMigrationTransfer_keeps {x : State} {a0} {a1} (k1 : Keeps x a1) : KeepsRes x (execMigrationTransfer a0
    a1) := by
  unfold execMigrationTransfer
  exact KeepsRes.next (State.migTransfer_keeps k1)

theorem State.retire_keeps {x : State} {a0} {a1} (k0 : Keeps x a0) : Keeps x (State.retire a0 a1) := by
  unfold State.retire
  extract_lets l0 l1
  clear_value l0
  have h2 : Keeps x l1 := by
    unfold l1
    exact State.setPlc_keeps (State.delOut_keeps k0)
  clear_value l1
  split
  · exact Keeps.ite (Keeps.ite (State.dirPut_keeps h2) (State.dirDel_keeps h2)) k0
  · exact k0

theorem execRetire_keeps {x : State} {a0} {a1} (k1 : Keeps x a1) : KeepsRes x (execRetire a0 a1) := by
  unfold execRetire
  exact KeepsRes.next (State.retire_keeps k1)

theorem State.dropIn_keeps {x : State} {a0} {a1} (k0 : Keeps x a0) : Keeps x (State.dropIn a0 a1) := by
  unfold State.dropIn
  exact Keeps.ite (State.dirOwner_keeps k0) (State.dirDel_keeps k0)

theorem State.plcLost_keeps {x : State} {a0} {a1} (k0 : Keeps x a0) : Keeps x (State.plcLost a0 a1) := by
  unfold State.plcLost
  extract_lets l0 l1 l2 l3
  have h4 : Keeps x l0 := by
    unfold l0
    refine Keeps.foldl (p := fun r => r) ?_ (fun b5 a6 h7 => ?_)
    · exact k0
    · exact State.abandonOut_keeps h7
  clear_value l0
  have h8 : Keeps x l1 := by
    unfold l1
    refine Keeps.foldl (p := fun r => r) ?_ (fun b9 a10 h11 => ?_)
    · exact h4
    · exact State.dropIn_keeps (State.delIn_keeps h11)
  clear_value l1
  have h12 : Keeps x l2 := by
    unfold l2
    refine Keeps.foldl (p := fun r => r) ?_ (fun b13 a14 h15 => ?_)
    · exact h8
    · extract_lets l16 l17
      clear_value l16 l17
      exact State.sendChange_keeps (State.putRow_keeps h15)
  clear_value l2 l3
  exact State.setPlc_keeps h12

theorem State.evictReplicas_keeps {x : State} {a0} {a1} (k0 : Keeps x a0) : Keeps x (State.evictReplicas a0 a1) := by
  unfold State.evictReplicas
  extract_lets l0
  clear_value l0
  refine Keeps.foldl (p := fun r => r) ?_ (fun b1 a2 h3 => ?_)
  · exact k0
  · exact State.plcSend_keeps (State.count_keeps (State.dropReplica_keeps h3))

theorem State.surplusHolders_keeps {x : State} {a0} {a1} (k0 : Keeps x a0) : Keeps x (State.surplusHolders a0 a1)
    := by
  unfold State.surplusHolders
  refine Keeps.foldl (p := fun r => r) ?_ (fun b0 a1 h2 => ?_)
  · exact k0
  · extract_lets l3 l4 l5 l6
    clear_value l3 l4 l5
    have h7 : Keeps x l6 := by
      unfold l6
      exact State.sendChange_keeps (State.putRow_keeps h2)
    clear_value l6
    refine Keeps.ite ?_ ?_
    · exact h2
    · refine Keeps.foldl (p := fun r => r) ?_ (fun b8 a9 h10 => ?_)
      · exact h7
      · exact State.plcSend_keeps h10

theorem State.affinityOne_keeps {x : State} {a0} {a1} {a2} {a3} (k0 : Keeps x a0) : Keeps x (State.affinityOne a0
    a1 a2 a3) := by
  unfold State.affinityOne
  extract_lets l0
  clear_value l0
  split
  · rename_i v1 v2 v3 v4
    have h5 : Keeps x ((v2, v3)).2 := by
      rw [← v4]
      exact State.draw_keeps k0
    extract_lets l6 l7 l8 l9 l10 l11
    clear_value l6 l7 l8 l9
    have h12 : Keeps x l10 := by
      unfold l10
      exact State.setPlc_keeps h5
    clear_value l10 l11
    exact Keeps.ite (State.putOut_keeps h12) h12

theorem State.affinityKeep_keeps {x : State} {a0} {a1} (k0 : Keeps x a0) : Keeps x (State.affinityKeep a0 a1) := by
  unfold State.affinityKeep
  extract_lets l0
  clear_value l0
  exact State.setPlc_keeps k0

theorem State.affinityAll_keeps {x : State} {a0} {a1} (k0 : Keeps x a0) : Keeps x (State.affinityAll a0 a1) := by
  unfold State.affinityAll
  extract_lets l0
  have h1 : Keeps x l0 := by
    unfold l0
    exact State.affinityKeep_keeps k0
  clear_value l0
  refine Keeps.foldl (p := fun r => r) ?_ (fun b2 a3 h4 => ?_)
  · exact h1
  · exact State.affinityOne_keeps h4

theorem State.coldCount_keeps {x : State} {a0} {a1} (k0 : Keeps x a0) : Keeps x (State.coldCount a0 a1) := by
  unfold State.coldCount
  extract_lets l0 l1 l2
  clear_value l0 l1 l2
  exact State.setPlc_keeps k0

theorem State.demote_keeps {x : State} {a0} {a1} (k0 : Keeps x a0) : Keeps x (State.demote a0 a1) := by
  unfold State.demote
  extract_lets l0
  clear_value l0
  refine Keeps.ite ?_ ?_
  · exact k0
  · refine Keeps.foldl (p := fun r => r) ?_ (fun b1 a2 h3 => ?_)
    · exact k0
    · extract_lets l4
      clear_value l4
      exact Keeps.ite (State.count_keeps (State.putRow_keeps (State.rowLay_keeps (State.rowVisit_keeps h3)))) h3

theorem State.raise_keeps {x : State} {a0} {a1} (k0 : Keeps x a0) : Keeps x (State.raise a0 a1) := by
  unfold State.raise
  extract_lets l0
  clear_value l0
  refine Keeps.foldl (p := fun r => r) ?_ (fun b1 a2 h3 => ?_)
  · exact k0
  · extract_lets l4
    clear_value l4
    exact Keeps.ite (State.count_keeps (State.putRow_keeps (State.rowLay_keeps (State.rowVisit_keeps h3)))) h3

theorem State.dropLostEntries_keeps {x : State} {a0} {a1} (k0 : Keeps x a0) : Keeps x (State.dropLostEntries a0 a1)
    := by
  unfold State.dropLostEntries
  refine Keeps.foldl (p := fun r => r) ?_ (fun b0 a1 h2 => ?_)
  · exact k0
  · extract_lets l3
    clear_value l3
    refine Keeps.ite ?_ ?_
    · exact State.dirDel_keeps h2
    · split
      · exact Keeps.ite (State.dirOwner_keeps h2) h2
      · exact h2

theorem State.plcBoundary_keeps {x : State} {a0} {a1} (k0 : Keeps x a0) : Keeps x (State.plcBoundary a0 a1) := by
  unfold State.plcBoundary
  extract_lets l0 l1 l2 l3
  clear_value l0
  have h4 : Keeps x l1 := by
    unfold l1
    exact State.setReg_keeps k0
  clear_value l1 l2
  have h5 : Keeps x l3 := by
    unfold l3
    exact State.setPlc_keeps h4
  clear_value l3
  refine Keeps.ite ?_ ?_
  · exact State.raise_keeps (State.demote_keeps (State.coldCount_keeps (State.affinityAll_keeps
        (State.surplusHolders_keeps (State.evictReplicas_keeps (State.dropLostEntries_keeps h5))))))
  · exact k0

theorem State.doneWith_keeps {x : State} {a0} {a1} {a2} {a3} (k0 : Keeps x a0) : Keeps x (State.doneWith a0 a1 a2
    a3) := by
  unfold State.doneWith
  exact State.addCmd_keeps k0

theorem tableCheck_keeps {x : State} {a0} {a1} (k0 : Keeps x a0) : Keeps x (tableCheck.rest a0 a1).1 := by
  unfold tableCheck
  dsimp -zeta only
  extract_lets l0
  clear_value l0
  refine Keeps.iteP (p := (fun r => (Prod.fst r))) ?_ ?_
  · exact k0
  · split
    · refine Keeps.iteP (p := (fun r => (Prod.fst r))) ?_ ?_
      · exact k0
      · exact State.err_keeps k0
    · exact k0

theorem execPlcTable_keeps {x : State} {a0} {a1} {a2} (k2 : Keeps x a2) : KeepsRes x (execPlcTable a0 a1 a2) := by
  unfold execPlcTable
  refine KeepsRes.next ?_
  refine State.command_keeps ?_ ?_ ?_
  · exact k2
  · intro a0 a1 a2
    exact tableCheck_keeps a2
  · intro a3 a4 a5
    extract_lets l6
    clear_value l6
    exact State.doneWith_keeps (State.setPlc_keeps a5)

theorem State.dropTable_keeps {x : State} {a0} {a1} {a2} (k0 : Keeps x a0) : Keeps x (State.dropTable a0 a1 a2) := by
  unfold State.dropTable
  extract_lets l0 l1 l2 l3
  clear_value l0
  have h4 : Keeps x l1 := by
    unfold l1
    refine Keeps.foldl (p := fun r => r) ?_ (fun b5 a6 h7 => ?_)
    · exact k0
    · exact Keeps.ite h7 (State.count_keeps h7)
  clear_value l1
  have h8 : Keeps x l2 := by
    unfold l2
    refine Keeps.foldl (p := fun r => r) ?_ (fun b9 a10 h11 => ?_)
    · exact h4
    · exact State.dirDel_keeps h11
  clear_value l2 l3
  exact State.setPlc_keeps h8

theorem execPlcDrop_keeps {x : State} {a0} {a1} {a2} (k2 : Keeps x a2) : KeepsRes x (execPlcDrop a0 a1 a2) := by
  unfold execPlcDrop
  refine KeepsRes.next ?_
  refine State.command_keeps ?_ ?_ ?_
  · exact k2
  · intro a0 a1 a2
    refine Check.rest_keeps (fun _ _ => rfl) ?_
    exact a2
  · intro a3 a4 a5
    exact State.doneWith_keeps (State.dropTable_keeps a5)

theorem stepCheck_keeps {x : State} {a0} {a1} (k0 : Keeps x a0) : Keeps x (stepCheck.rest a0 a1).1 := by
  unfold stepCheck
  dsimp -zeta only
  extract_lets l0
  clear_value l0
  refine Keeps.iteP (p := (fun r => (Prod.fst r))) ?_ ?_
  · exact k0
  · refine Keeps.iteP (p := (fun r => (Prod.fst r))) ?_ ?_
    · exact State.err_keeps k0
    · exact k0

theorem execPlcStep_keeps {x : State} {a0} {a1} {a2} (k2 : Keeps x a2) : KeepsRes x (execPlcStep a0 a1 a2) := by
  unfold execPlcStep
  refine KeepsRes.next ?_
  refine State.command_keeps ?_ ?_ ?_
  · exact k2
  · intro a0 a1 a2
    exact stepCheck_keeps a2
  · intro a3 a4 a5
    exact State.doneWith_keeps (State.setReg_keeps (State.setReg_keeps a5))

theorem State.keepRow_keeps {x : State} {a0} {a1} (k0 : Keeps x a0) : Keeps x (State.keepRow a0 a1) := by
  unfold State.keepRow
  extract_lets l0 l1
  clear_value l0 l1
  exact State.sendChange_keeps (State.putRow_keeps k0)

theorem RowAcc.restore_keeps {x : State} {a0} {a1} {a2} {a3} {a4} (k0 : Keeps x a0.1.st) : Keeps x (RowAcc.restore
    a0 a1 a2 a3 a4).1.st := by
  unfold RowAcc.restore
  extract_lets l0 l1 l2 l3 l4
  clear_value l0 l1 l2
  have h5 : Keeps x l3.st := by
    unfold l3
    exact State.rowGet_keeps k0
  clear_value l3 l4
  split
  · rename_i v6 v7 v8 v9 v10
    have h11 : Keeps x ((v7, v8, v9)).1.st := by
      rw [← v10]
      exact State.planeWrite_keeps h5
    exact h11

theorem State.rollbackRow_keeps {x : State} {a0} {a1} {a2} (k0 : Keeps x a0) : Keeps x (State.rollbackRow a0 a1
    a2).st := by
  unfold State.rollbackRow
  extract_lets l0
  clear_value l0
  split
  · exact k0
  · split
    · rename_i v6 v7 v8 v9
      have h10 : Keeps x ((v7, v8)).1.st := by
        rw [← v9]
        refine Keeps.foldl (p := (fun r => (RowAcc.st (Prod.fst r)))) ?_ (fun b11 a12 h13 => ?_)
        · exact k0
        · exact RowAcc.restore_keeps h13
      extract_lets l14 l15 l16
      clear_value l14
      have h17 : Keeps x l15 := by
        unfold l15
        exact State.putRow_keeps h10
      clear_value l15
      have h18 : Keeps x l16 := by
        unfold l16
        refine Keeps.foldl (p := fun r => r) ?_ (fun b19 a20 h21 => ?_)
        · exact h17
        · exact State.sendChange_keeps h21
      clear_value l16
      exact State.refreshHolders_keeps (State.sendChange_keeps (State.sendChange_keeps h18))

theorem execPlcKeep_keeps {x : State} {a0} {a1} {a2} (k2 : Keeps x a2) : KeepsRes x (execPlcKeep a0 a1 a2) := by
  unfold execPlcKeep
  refine KeepsRes.next ?_
  refine State.command_keeps ?_ ?_ ?_
  · exact k2
  · intro a0 a1 a2
    refine Check.rest_keeps (fun _ _ => rfl) ?_
    exact a2
  · intro a3 a4 a5
    extract_lets l6
    clear_value l6
    refine State.doneWith_keeps ?_
    refine Keeps.foldl (p := fun r => r) ?_ (fun b7 a8 h9 => ?_)
    · exact a5
    · exact State.keepRow_keeps h9

theorem execPlcRollback_keeps {x : State} {a0} {a1} {a2} (k2 : Keeps x a2) : KeepsRes x (execPlcRollback a0 a1 a2)
    := by
  unfold execPlcRollback
  refine KeepsRes.next ?_
  refine State.command_keeps ?_ ?_ ?_
  · exact k2
  · intro a0 a1 a2
    refine Check.rest_keeps (fun _ _ => rfl) ?_
    exact a2
  · intro a3 a4 a5
    extract_lets l6
    clear_value l6
    split
    · rename_i v7 v8 v9 v10
      have h11 : Keeps x ((v8, v9)).1 := by
        rw [← v10]
        refine Keeps.foldl (p := (fun r => (Prod.fst r))) ?_ (fun b12 a13 h14 => ?_)
        · exact a5
        · extract_lets l15 l16
          have h17 : Keeps x l15.st := by
            unfold l15
            exact State.rollbackRow_keeps h14
          clear_value l15 l16
          exact h17
      exact State.doneWith_keeps h11

end Sys2Proof.Machine
end

