-- ==== Sys2Proof/Laws/KeepsTouch.lean ====
section
/-! SUPPORT. What the operations of Machine/Touch.lean keep (`Keeps`, Laws/Keeps.lean). -/

namespace Sys2Proof.Machine

theorem State.dieOthers_keeps {x : State} {a0} {a1} {a2} (k0 : Keeps x a0) : Keeps x (State.dieOthers a0 a1 a2).2
    := by
  unfold State.dieOthers
  extract_lets l0
  clear_value l0
  split
  · exact k0
  · exact k0
  · split
    · rename_i v7 v8 v9 v10
      have h11 : Keeps x ((v8, v9)).2 := by
        rw [← v10]
        exact State.draw_keeps k0
      exact h11

theorem State.setRk_keeps {x : State} {a0} {a1} {a2} (k0 : Keeps x a0) : Keeps x (State.setRk a0 a1 a2) := by
  unfold State.setRk
  exact Keeps.upd k0 rfl rfl rfl rfl

theorem State.touchHeader_keeps {x : State} {a0} {a1} (k0 : Keeps x a0) : Keeps x (State.touchHeader a0 a1) := by
  unfold State.touchHeader
  extract_lets l0 l1 l2
  clear_value l0 l1
  have h3 : Keeps x l2 := by
    unfold l2
    exact Keeps.ite k0 (State.sqWrite_keeps k0)
  clear_value l2
  exact State.setReg_keeps (State.setReg_keeps (State.setReg_keeps h3))

theorem State.touchWrite_keeps {x : State} {a0} {a1} {a2} (k0 : Keeps x a0) : Keeps x (State.touchWrite a0 a1 a2)
    := by
  unfold State.touchWrite
  split
  · exact State.sqWrite_keeps k0
  · exact k0

theorem State.setTouch_keeps {x : State} {a0} {a1} {a2} {a3} (k0 : Keeps x a0) : Keeps x (State.setTouch a0 a1 a2
    a3) := by
  unfold State.setTouch
  extract_lets l0
  clear_value l0
  exact State.touchWrite_keeps (State.setRk_keeps k0)

theorem State.receiver_keeps {x : State} {a0} {a1} (k0 : Keeps x a0) : Keeps x (State.receiver a0 a1).2 := by
  unfold State.receiver
  extract_lets l0
  clear_value l0
  split
  · exact k0
  · split
    · rename_i v6 v7 v8 v9
      have h10 : Keeps x ((some v7, v8)).2 := by
        rw [← v9]
        exact State.choose_keeps k0
      extract_lets l11
      clear_value l11
      exact State.setPlc_keeps h10
    · exact State.choose_keeps k0

theorem State.addElems_keeps {x : State} {a0} {a1} {a2} {a3} {a4} (k0 : Keeps x a0) : Keeps x (State.addElems a0 a1
    a2 a3 a4) := by
  unfold State.addElems
  extract_lets l0
  clear_value l0
  refine Keeps.foldl (p := fun r => r) ?_ (fun b1 a2 h3 => ?_)
  · exact k0
  · exact State.scsAdd_keeps h3

theorem State.segAdd_keeps {x : State} {a0} {a1} {a2} {a3} {a4} {a5} (k0 : Keeps x a0) : Keeps x (State.segAdd a0
    a1 a2 a3 a4 a5).1 := by
  unfold State.segAdd
  extract_lets l0
  clear_value l0
  split
  · exact State.addElems_keeps k0
  · split
    · exact k0
    · exact State.addElems_keeps (State.setRk_keeps k0)

theorem State.absorbEntry_keeps {x : State} {a0} {a1} {a2} {a3} {a4} (k0 : Keeps x a0) : Keeps x (State.absorbEntry
    a0 a1 a2 a3 a4) := by
  unfold State.absorbEntry
  split
  · exact k0
  · extract_lets l5 l6
    clear_value l5 l6
    split
    · rename_i v7 v8 v9 v10
      have h11 : Keeps x ((v8, v9)).1 := by
        rw [← v10]
        split
        · exact State.segAdd_keeps k0
        · exact k0
      extract_lets l15
      have h16 : Keeps x l15 := by
        unfold l15
        exact Keeps.ite h11 (State.addElems_keeps h11)
      clear_value l15
      refine Keeps.ite ?_ ?_
      · split
        · rename_i v17 v18 v19 v20
          have h21 : Keeps x ((v18, v19)).2 := by
            rw [← v20]
            exact State.dieOthers_keeps h16
          extract_lets l22
          clear_value l22
          exact Keeps.ite (State.setTouch_keeps h21) (State.setTouch_keeps (State.count_keeps h21))
      · exact State.setTouch_keeps h16

theorem State.touchCreate_keeps {x : State} {a0} {a1} {a2} {a3} {a4} (k0 : Keeps x a0) : OptAll (fun r => Keeps x
    r) (State.touchCreate a0 a1 a2 a3 a4) := by
  unfold State.touchCreate
  extract_lets l0 l1 l2
  clear_value l0 l1
  have h3 : Keeps x l2 := by
    unfold l2
    exact State.setRk_keeps k0
  clear_value l2
  exact OptAll.ite (OptAll.some (State.setMark_keeps (State.touchHeader_keeps (State.touchWrite_keeps h3))))
      OptAll.none

theorem State.ovfAppend_keeps {x : State} {a0} {a1} {a2} {a3} {a4} (k0 : Keeps x a0) : Keeps x (State.ovfAppend a0
    a1 a2 a3 a4).1 := by
  unfold State.ovfAppend
  extract_lets l0 l1 l2 l3 l4
  clear_value l0 l1 l2
  have h5 : Keeps x l3.st := by
    unfold l3
    exact State.memWrite_keeps k0
  clear_value l3
  have h6 : Keeps x l4 := by
    unfold l4
    exact State.setRk_keeps h5
  clear_value l4
  refine Keeps.iteP (p := (fun r => (Prod.fst r))) ?_ ?_
  · exact State.err_keeps (State.count_keeps k0)
  · refine Keeps.iteP (p := (fun r => (Prod.fst r))) ?_ ?_
    · exact h5
    · refine Keeps.iteP (p := (fun r => (Prod.fst r))) ?_ ?_
      · exact h5
      · exact State.setMark_keeps (State.touchHeader_keeps (State.count_keeps h6))

theorem State.takeEntry_keeps {x : State} {a0} {a1} {a2} {a3} {a4} (k0 : Keeps x a0) : Keeps x (State.takeEntry a0
    a1 a2 a3 a4).1 := by
  unfold State.takeEntry
  extract_lets l0 l1
  clear_value l0
  have h2 : OptAll (fun r => Keeps x r) l1 := by
    unfold l1
    exact OptAll.ite OptAll.none (State.touchCreate_keeps k0)
  clear_value l1
  split
  · exact State.count64_keeps (State.absorbEntry_keeps k0)
  · split
    · split
      · exact State.count64_keeps (State.absorbEntry_keeps (OptAll.get h2 :))
      · exact (OptAll.get h2 :)
    · split
      · rename_i v16 v17 v18
        have h19 : Keeps x ((v17, EntryOut.kept)).1 := by
          rw [← v18]
          exact State.ovfAppend_keeps k0
        exact State.count64_keeps h19
      · exact State.ovfAppend_keeps k0

theorem State.ownEntry_keeps {x : State} {a0} {a1} {a2} {a3} (k0 : Keeps x a0) : Keeps x (State.ownEntry a0 a1 a2
    a3).1 := by
  unfold State.ownEntry
  split
  · rename_i v0 v1 v2 v3
    have h4 : Keeps x ((some v1, v2)).2 := by
      rw [← v3]
      exact State.receiver_keeps k0
    extract_lets l5
    clear_value l5
    refine Keeps.iteP (p := (fun r => (Prod.fst r))) ?_ ?_
    · exact State.setRk_keeps h4
    · exact State.takeEntry_keeps h4
  · rename_i v6 v7 v8
    have h9 : Keeps x ((none, v7) : Option ℕ × State).2 := by
      rw [← v8]
      exact State.receiver_keeps k0
    exact State.err_keeps (State.count_keeps h9)

theorem State.batchAck_keeps {x : State} {a0} {a1} (k0 : Keeps x a0) : Keeps x (State.batchAck a0 a1) := by
  unfold State.batchAck
  exact State.respond_keeps k0

theorem State.mapBatch_keeps {x : State} {a0} {a1} {a2} (k0 : Keeps x a0) : Keeps x (State.mapBatch a0 a1 a2) := by
  unfold State.mapBatch
  extract_lets l0
  clear_value l0
  exact State.setPlc_keeps k0

theorem State.pumpBatches_keeps {x : State} {a0} (k0 : Keeps x a0) : Keeps x (State.pumpBatches a0) := by
  unfold State.pumpBatches
  extract_lets l0
  clear_value l0
  refine Keeps.foldl (p := fun r => r) ?_ (fun b1 a2 h3 => ?_)
  · exact k0
  · extract_lets l4
    clear_value l4
    exact State.batchAck_keeps (State.setPlc_keeps h3)

theorem State.freshId_keeps {x : State} {a0} (k0 : Keeps x a0) : Keeps x (State.freshId a0).2 := by
  unfold State.freshId
  exact Keeps.upd k0 rfl rfl rfl rfl

theorem State.sortReq_keeps {x : State} {α : Type} {s : State} {q : Nat} {key : α → Option RowKey}
    {home : State → RowKey → Nat} {es : List α} (k : Keeps x s) : Keeps x (s.sortReq q key home es).st := by
  unfold State.sortReq
  refine Keeps.foldl (p := Sorted.st) k (fun b a h => ?_)
  split
  · exact h
  · split
    rename_i t u e
    have ht : Keeps x ((t, u) : State × Bool).1 := by
      rw [← e]
      exact State.lookup_keeps h
    extract_lets m
    split
    · exact ht
    · split <;> exact ht

theorem Sorted.passOn_keeps {x : State} {α : Type} {r : Sorted α} {j : Nat} {b : List α → Body} (k : Keeps x r.st) :
    Keeps x (r.passOn j b) := by
  unfold Sorted.passOn
  exact Keeps.foldl (p := fun t => t) k (fun _ _ h => State.plcSend_keeps (State.count64_keeps h))

theorem State.onScatter_keeps {x : State} {a0} {a1} (k0 : Keeps x a0) : Keeps x (State.onScatter a0 a1) := by
  unfold State.onScatter
  split
  · extract_lets l6 l7 l8
    clear_value l6
    have h9 : Keeps x l7.st := by
      unfold l7
      exact State.sortReq_keeps k0
    clear_value l7
    have h10 : Keeps x l8 := by
      unfold l8
      exact Sorted.passOn_keeps h9
    clear_value l8
    refine Keeps.ite ?_ ?_
    · exact h10
    · split
      · rename_i v11 v12 v13 v14
        have h15 : Keeps x ((v12, v13)).2 := by
          rw [← v14]
          exact State.freshId_keeps h10
        extract_lets l16 l17
        clear_value l16 l17
        split
        · rename_i v18 v19 v20 v21
          have h22 : Keeps x ((v19, v20)).1 := by
            rw [← v21]
            refine Keeps.foldl (p := (fun r => (Prod.fst r))) ?_ (fun b23 a24 h25 => ?_)
            · exact h15
            · split
              · split
                · exact h25
                · extract_lets l34
                  clear_value l34
                  refine Keeps.iteP (p := (fun r => (Prod.fst r))) ?_ ?_
                  · exact h25
                  · split
                    · rename_i v35 v36 v37
                      have h38 : Keeps x ((v36, EntryOut.kept)).1 := by
                        rw [← v37]
                        exact State.ownEntry_keeps h25
                      exact h38
                    · rename_i v39 v40 v41
                      have h42 : Keeps x ((v40, EntryOut.held)).1 := by
                        rw [← v41]
                        exact State.ownEntry_keeps h25
                      exact h42
                    · rename_i v43 v44 v45 v46
                      have h47 : Keeps x ((v44, EntryOut.lost v45)).1 := by
                        rw [← v46]
                        exact State.ownEntry_keeps h25
                      exact h47
          extract_lets l48
          clear_value l48
          exact State.pumpBatches_keeps (State.setPlc_keeps h22)
  · exact k0

theorem State.onPendingNoticeAck_keeps {x : State} {a0} {a1} (k0 : Keeps x a0) : Keeps x (State.onPendingNoticeAck
    a0 a1) := by
  unfold State.onPendingNoticeAck
  split
  · extract_lets l3
    clear_value l3
    exact State.pumpBatches_keeps (State.setPlc_keeps k0)
  · exact k0

theorem State.settleSlot_keeps {x : State} {a0} {a1} {a2} {a3} {a4} (k0 : Keeps x a0) : OptAll (fun r => Keeps x r)
    (State.settleSlot a0 a1 a2 a3 a4) := by
  unfold State.settleSlot
  split
  · extract_lets l6
    clear_value l6
    refine OptAll.ite ?_ ?_
    · exact OptAll.none
    · split
      · rename_i v7 v8 v9 v10
        have h11 : Keeps x ((v8, v9)).1 := by
          rw [← v10]
          exact State.entryRead_keeps k0
        exact OptAll.some (State.scsAdd_keeps (State.scsZero_keeps h11))
  · exact OptAll.some k0

theorem State.freeSeg_keeps {x : State} {a0} {a1} {a2} {a3} (k0 : Keeps x a0) : Keeps x (State.freeSeg a0 a1 a2 a3)
    := by
  unfold State.freeSeg
  extract_lets l0 l1
  clear_value l0
  have h2 : Keeps x l1 := by
    unfold l1
    exact State.setRk_keeps k0
  clear_value l1
  exact Keeps.ite h2 (State.count_keeps h2)

theorem State.settleMore_keeps {x : State} {a0} {a1} (k0 : Keeps x a0) : Keeps x (State.settleMore a0 a1) := by
  unfold State.settleMore
  split
  · exact k0
  · split
    · extract_lets l9
      clear_value l9
      split
      · rename_i v10 v11 v12 v13
        have h14 : Keeps x ((v11, v12)).1 := by
          rw [← v13]
          refine Keeps.foldl (p := (fun r => (Prod.fst r))) ?_ (fun b15 a16 h17 => ?_)
          · exact k0
          · split
            · rename_i v18 v19 v20
              have h21 : OptAll (fun r => Keeps x r) (some v19) := by
                rw [← v20]
                exact State.settleSlot_keeps h17
              exact (OptAll.get h21 :)
            · exact h17
        extract_lets l24 l25 l26 l27
        clear_value l24
        have h28 : Keeps x l25 := by
          unfold l25
          refine Keeps.foldl (p := fun r => r) ?_ (fun b29 a30 h31 => ?_)
          · exact h14
          · exact State.freeSeg_keeps h31
        clear_value l25 l26
        have h32 : Keeps x l27 := by
          unfold l27
          exact State.mapCmd_keeps h28
        clear_value l27
        exact Keeps.ite (State.mapCmd_keeps h28) (Keeps.ite h32 (State.finish_keeps h32))
    · exact k0

theorem execRookSettle_keeps {x : State} {a0} {a1} {a2} (k2 : Keeps x a2) : KeepsRes x (execRookSettle a0 a1 a2) := by
  unfold execRookSettle
  refine KeepsRes.next ?_
  refine State.command_keeps ?_ ?_ ?_
  · exact k2
  · intro a0 a1 a2
    refine Check.rest_keeps (fun _ _ => rfl) ?_
    exact a2
  · intro a3 a4 a5
    exact State.settleMore_keeps (State.addCmd_keeps a5)

theorem State.releaseMore_keeps {x : State} {a0} {a1} (k0 : Keeps x a0) : Keeps x (State.releaseMore a0 a1) := by
  unfold State.releaseMore
  split
  · exact k0
  · split
    · extract_lets l8
      clear_value l8
      split
      · rename_i v9 v10 v11 v12
        have h13 : Keeps x ((v10, v11)).1 := by
          rw [← v12]
          refine Keeps.foldl (p := (fun r => (Prod.fst r))) ?_ (fun b14 a15 h16 => ?_)
          · exact k0
          · refine Keeps.iteP (p := (fun r => (Prod.fst r))) ?_ ?_
            · exact h16
            · exact State.scsZero_keeps (State.entryRead_keeps h16)
        extract_lets l17 l18 l19 l20 l21 l22 l23
        clear_value l17 l18
        have h24 : Keeps x l19 := by
          unfold l19
          exact State.setRk_keeps h13
        clear_value l19 l20
        have h25 : Keeps x l21 := by
          unfold l21
          exact State.setPlc_keeps h24
        clear_value l21
        have h26 : Keeps x l22 := by
          unfold l22
          refine Keeps.foldl (p := fun r => r) ?_ (fun b27 a28 h29 => ?_)
          · exact h25
          · exact State.clearMark_keeps h29
        clear_value l22
        have h30 : Keeps x l23 := by
          unfold l23
          exact State.count_keeps (State.touchHeader_keeps h26)
        clear_value l23
        exact Keeps.ite (State.mapCmd_keeps h13) (State.mapCmd_keeps h30)
    · exact k0

theorem execRookRelease_keeps {x : State} {a0} {a1} {a2} (k2 : Keeps x a2) : KeepsRes x (execRookRelease a0 a1 a2)
    := by
  unfold execRookRelease
  refine KeepsRes.next ?_
  refine State.command_keeps ?_ ?_ ?_
  · exact k2
  · intro a0 a1 a2
    refine Check.rest_keeps (fun _ _ => rfl) ?_
    exact a2
  · intro a3 a4 a5
    exact State.releaseMore_keeps (State.addCmd_keeps a5)

theorem DrainRun.one_keeps {x : State} {a0} {a1} {a2} (k0 : Keeps x a0.st) : Keeps x (DrainRun.one a0 a1 a2).st := by
  unfold DrainRun.one
  extract_lets l0 l1 l2 l3 l4 l5 l6
  clear_value l0
  have h7 : Keeps x l1.st := by
    unfold l1
    exact State.memRead_keeps k0
  clear_value l1
  have h8 : Keeps x l2 := by
    unfold l2
    exact h7
  clear_value l2 l3 l4 l5
  have h9 : Keeps x l6.st := by
    unfold l6
    exact h8
  clear_value l6
  refine Keeps.iteP (p := (fun r => (DrainRun.st r))) ?_ ?_
  · exact h9
  · split
    · exact h9
    · extract_lets l15
      have h16 : OptAll (fun r => Keeps x r) l15 := by
        unfold l15
        split
        · exact OptAll.some h8
        · exact State.touchCreate_keeps h8
      clear_value l15
      split
      · exact h9
      · split
        · exact State.absorbEntry_keeps (OptAll.get h16 :)
        · exact (OptAll.get h16 :)

theorem State.ovfRewrite_keeps {x : State} {a0} {a1} {a2} (k0 : Keeps x a0) : Keeps x (State.ovfRewrite a0 a1 a2)
    := by
  unfold State.ovfRewrite
  refine Keeps.foldl (p := (fun r => (Prod.fst r))) ?_ (fun b0 a1 h2 => ?_)
  · exact k0
  · extract_lets l3
    clear_value l3
    exact State.memWrite_keeps h2

theorem State.drainRun_keeps {x : State} {a0} {a1} (k0 : Keeps x a0) : Keeps x (State.drainRun a0 a1) := by
  unfold State.drainRun
  extract_lets l0 l1 l2 l3 l4 l5
  clear_value l0
  have h6 : Keeps x l1.st := by
    unfold l1
    refine Keeps.foldl (p := (fun r => (DrainRun.st r))) ?_ (fun b7 a8 h9 => ?_)
    · exact State.addCmd_keeps k0
    · exact DrainRun.one_keeps h9
  clear_value l1 l2
  have h10 : Keeps x l3 := by
    unfold l3
    exact State.setRk_keeps h6
  clear_value l3
  have h11 : Keeps x l4 := by
    unfold l4
    exact State.touchHeader_keeps (State.ovfRewrite_keeps h10)
  clear_value l4
  have h12 : Keeps x l5 := by
    unfold l5
    exact State.mapCmd_keeps h11
  clear_value l5
  exact Keeps.ite (State.addCmd_keeps k0) (Keeps.ite h12 (State.finish_keeps h12))

theorem execRookDrain_keeps {x : State} {a0} {a1} {a2} (k2 : Keeps x a2) : KeepsRes x (execRookDrain a0 a1 a2) := by
  unfold execRookDrain
  refine KeepsRes.next ?_
  refine State.command_keeps ?_ ?_ ?_
  · exact k2
  · intro a0 a1 a2
    refine Check.rest_keeps (fun _ _ => rfl) ?_
    exact a2
  · intro a3 a4 a5
    exact State.drainRun_keeps a5

end Sys2Proof.Machine
end

