-- ==== Sys2Proof/Laws/KeepsKnight.lean ====
section
/-! SUPPORT. What the operations of Machine/Knight.lean keep (`Keeps`, Laws/Keeps.lean). -/

namespace Sys2Proof.Machine

theorem State.sampleCount_keeps {x : State} {a0} {a1} {a2} (k0 : Keeps x a0) : Keeps x (State.sampleCount a0 a1
    a2).1 := by
  refine KeepsOf.out (p := Prod.fst) ?_
  unfold State.sampleCount
  extract_lets l0 l1
  have h2 : KeepsOf x ElemRes.st l0 := KeepsOf.mk (r := State.readElems ..) (State.readElems_keeps k0)
  clear_value l0 l1
  exact KeepsOf.ite (KeepsOf.pair h2.out) (KeepsOf.ite (KeepsOf.pair (State.sqWrite_keeps h2.out)) (KeepsOf.pair h2.out))

theorem sampleCheck_keeps {x : State} {a0} {a1} (k0 : Keeps x a0) : Keeps x (sampleCheck.rest a0 a1).1 := by
  refine KeepsOf.out (p := Prod.fst) ?_
  unfold sampleCheck
  dsimp -zeta only
  extract_lets l0 l1 l2 l3
  clear_value l0
  have h4 : KeepsOf x MemRes.st l1 := KeepsOf.mk (r := State.sqRead ..) (State.sqRead_keeps k0)
  clear_value l1 l2
  have h5 : Keeps x l3 := h4.out
  clear_value l3
  exact KeepsOf.ite (KeepsOf.pair k0) (KeepsOf.ite (KeepsOf.pair h5)
    (KeepsOf.ite (KeepsOf.pair h5) (KeepsOf.ite (KeepsOf.mk (State.sampleCount_keeps h5)) (KeepsOf.pair h5))))

theorem State.splitRow_keeps {x : State} {a0} {a1} {a2} {a3} {a4} (k0 : Keeps x a0) : Keeps x (State.splitRow a0 a1
    a2 a3 a4).2.2 := by
  unfold State.splitRow
  extract_lets l0 l1
  clear_value l0 l1
  refine Keeps.iteP (p := (fun r => (Prod.snd (Prod.snd r)))) ?_ ?_
  · exact k0
  · split
    · rename_i v2 v3 v4 v5
      have h6 : Keeps x ((v3, v4)).2 := by
        rw [← v5]
        exact State.dieOthers_keeps k0
      extract_lets l7 l8
      have h9 : Keeps x l7 := by
        unfold l7
        exact State.count_keeps h6
      clear_value l7 l8
      dsimp only
      refine Keeps.foldl (p := fun r => r) ?_ (fun b10 a11 h12 => ?_)
      · exact h9
      · exact State.count_keeps h12

theorem State.drawRow_keeps {x : State} {a0} {a1} {a2} {a3} {a4} {a5} {a6} {a7} {a8} (k0 : Keeps x a0) : Keeps x
    (State.drawRow a0 a1 a2 a3 a4 a5 a6 a7 a8).st := by
  unfold State.drawRow
  extract_lets l0 l1 l2 l3 l4 l5 l6 l7 l8 l9 l10 l11 l12 l13 l14 l15
  clear_value l0 l1 l2 l3 l4 l5
  have h16 : Keeps x l6 := by
    unfold l6
    exact Keeps.ite (State.count_keeps (State.splitRow_keeps k0)) k0
  clear_value l6 l7 l8
  have h17 : ∀ b0 b1, Keeps x b0 → Keeps x (l9 b0 b1).st := by
    unfold l9
    intro a18 a19 a20
    exact a20
  clear_value l9
  have h21 : ∀ b0 b1 b2, Keeps x b0 → Keeps x (l10 b0 b1 b2).st := by
    unfold l10
    intro a22 a23 a24 a25
    exact a25
  clear_value l10 l11 l12 l13
  have h26 : Keeps x l14 := by
    unfold l14
    exact Keeps.ite (State.count_keeps h16) h16
  clear_value l14 l15
  refine Keeps.iteP (p := (fun r => (DrawOut.st r))) ?_ ?_
  · exact h17 _ _ (State.count_keeps h16)
  · split
    · refine Keeps.iteP (p := (fun r => (DrawOut.st r))) ?_ ?_
      · exact h21 _ _ _ h16
      · exact h21 _ _ _ (State.count64_keeps h16)
    · refine Keeps.iteP (p := (fun r => (DrawOut.st r))) ?_ ?_
      · exact h17 _ _ (State.count_keeps h16)
      · refine Keeps.iteP (p := (fun r => (DrawOut.st r))) ?_ ?_
        · exact h17 _ _ (State.err_keeps (State.count_keeps h16))
        · split
          · extract_lets l35 l36 l37
            have h38 : Keeps x l35 := by
              unfold l35
              exact State.count64_keeps h16
            clear_value l35
            have h39 : Keeps x l36 := by
              unfold l36
              exact Keeps.ite (State.count_keeps h38) h38
            clear_value l36
            have h40 : Keeps x l37.st := by
              unfold l37
              exact h21 _ _ _ h39
            clear_value l37
            exact h40
    · exact h21 _ _ _ h16
    · split
      · rename_i v47 v48 v49 v50 v51
        have h52 : Keeps x ((v48, v49, v50)).2.2 := by
          rw [← v51]
          exact State.splitRow_keeps h26
        extract_lets l53
        have h54 : Keeps x l53.st := by
          unfold l53
          exact h21 _ _ _ h52
        clear_value l53
        exact h54

theorem State.adjWords_keeps {x : State} {a0} {a1} {a2} {a3} {a4} (k0 : Keeps x a0) : Keeps x (State.adjWords a0 a1
    a2 a3 a4).st := by
  unfold State.adjWords
  extract_lets l0
  clear_value l0
  refine Keeps.iteP (p := (fun r => (RowAcc.st r))) ?_ ?_
  · exact State.rowWords_keeps k0
  · exact k0

theorem State.drawHere_keeps {x : State} {a0} {a1} {a2} {a3} {a4} {a5} {a6} {a7} {a8} (k0 : Keeps x a0) : Keeps x
    (State.drawHere a0 a1 a2 a3 a4 a5 a6 a7 a8).st := by
  unfold State.drawHere
  extract_lets l0 l1 l2 l3 l4 l5
  have h6 : Keeps x l0 := by
    unfold l0
    exact State.serveRow_keeps k0
  clear_value l0
  have h7 : ∀ b0 b1, Keeps x b0 → Keeps x (l1 b0 b1).st := by
    unfold l1
    intro a8 a9 a10
    exact a10
  clear_value l1
  have h11 : Keeps x l2.st := by
    unfold l2
    exact State.adjWords_keeps h6
  clear_value l2
  have h12 : Keeps x l3.st := by
    unfold l3
    exact State.drawRow_keeps h11
  clear_value l3
  have h13 : Keeps x l4.st := by
    unfold l4
    exact State.adjWords_keeps h12
  clear_value l4
  have h14 : Keeps x l5.st := by
    unfold l5
    exact State.adjWords_keeps h13
  clear_value l5
  refine Keeps.iteP (p := (fun r => (DrawOut.st r))) ?_ ?_
  · exact h7 _ _ h6
  · refine Keeps.iteP (p := (fun r => (DrawOut.st r))) ?_ ?_
    · exact h7 _ _ h11
    · refine Keeps.iteP (p := (fun r => (DrawOut.st r))) ?_ ?_
      · exact h7 _ _ (State.count_keeps h11)
      · refine Keeps.iteP (p := (fun r => (DrawOut.st r))) ?_ ?_
        · exact h7 _ _ h14
        · refine Keeps.iteP (p := (fun r => (DrawOut.st r))) ?_ ?_
          · exact h7 _ _ h14
          · refine Keeps.iteP (p := (fun r => (DrawOut.st r))) ?_ ?_
            · exact h7 _ _ h14
            · exact h14

theorem State.sendSample_keeps {x : State} {a0} {a1} {a2} {a3} (k0 : Keeps x a0) : Keeps x (State.sendSample a0 a1
    a2 a3).1 := by
  unfold State.sendSample
  extract_lets l0
  have h1 : Keeps x l0 := by
    unfold l0
    exact State.count_keeps k0
  clear_value l0
  exact State.sendF0_keeps h1

theorem State.kntDest_keeps {x : State} {a0} {a1} {a2} {a3} (k0 : Keeps x a0) : OptAll (fun r => Keeps x r.1)
    (State.kntDest a0 a1 a2 a3) := by
  unfold State.kntDest
  extract_lets l0 l1 l2 l3 l4
  clear_value l0 l1 l2
  have h5 : ∀ b0 b1, Keeps x b0 → OptAll (fun r => Keeps x r.1) (l3 b0 b1) := by
    unfold l3
    intro a6 a7 a8
    exact OptAll.some a8
  clear_value l3 l4
  split
  · exact h5 _ _ k0
  · split
    · rename_i v14 v15 v16 v17
      have h18 : Keeps x ((v15, v16)).1 := by
        rw [← v17]
        exact State.lookup_keeps k0
      extract_lets l19 l20 l21
      have h22 : Keeps x l19 := by
        unfold l19
        exact State.wantRow_keeps h18
      clear_value l19 l20
      have h23 : Keeps x l21.st := by
        unfold l21
        exact State.drawHere_keeps h22
      clear_value l21
      refine OptAll.ite ?_ ?_
      · exact h5 _ _ h22
      · refine OptAll.ite ?_ ?_
        · exact OptAll.some h23
        · split
          · exact OptAll.ite OptAll.none (OptAll.some h22)
          · extract_lets l29
            clear_value l29
            exact OptAll.ite (OptAll.some (State.sendSample_keeps h22)) (OptAll.some h22)

theorem State.kntDests_keeps {x : State} {a0} {a1} {a2} {a3} (k0 : Keeps x a0) : Keeps x (State.kntDests a0 a1 a2
    a3).1 := by
  induction a3 generalizing a0 a1 a2
  · unfold State.kntDests
    exact k0
  · rename_i v0 v1
    unfold State.kntDests
    split
    · rename_i v2 v3 v4 v5
      have h6 : OptAll (fun r => Keeps x r.1) (some (v3, v4)) := by
        rw [← v5]
        exact State.kntDest_keeps k0
      exact v1 (OptAll.get h6 :)
    · exact State.countFree_keeps k0

theorem State.fillFree_keeps {x : State} {a0} {a1} {a2} (k0 : Keeps x a0) : Keeps x (State.fillFree a0 a1 a2) := by
  unfold State.fillFree
  split
  · rename_i v0 v1 v2 v3
    have h4 : Keeps x ((v1, v2)).2 := by
      rw [← v3]
      exact State.draw_keeps k0
    exact State.sqWrite_keeps h4

theorem State.sampleSpoil_keeps {x : State} {a0} {a1} {a2} (k0 : Keeps x a0) : Keeps x (State.sampleSpoil a0 a1 a2)
    := by
  unfold State.sampleSpoil
  extract_lets l0
  have h1 : Keeps x l0 := by
    unfold l0
    refine Keeps.foldl (p := fun r => r) ?_ (fun b2 a3 h4 => ?_)
    · exact k0
    · exact State.fillFree_keeps h4
  clear_value l0
  refine Keeps.ite ?_ ?_
  · exact h1
  · split
    · rename_i v5 v6 v7 v8
      have h9 : Keeps x ((v6, v7)).2 := by
        rw [← v8]
        exact State.draw_keeps h1
      exact State.memWrite_keeps h9

theorem State.logRan_keeps {x : State} {a0} {a1} {a2} {a3} (k0 : Keeps x a0) : Keeps x (State.logRan a0 a1 a2 a3)
    := by
  unfold State.logRan
  extract_lets l0 l1 l2 l3
  clear_value l0 l1 l2
  have h4 : Keeps x l3 := by
    unfold l3
    exact State.setRk_keeps k0
  clear_value l3
  refine Keeps.foldl (p := (fun r => (Prod.fst r))) ?_ (fun b5 a6 h7 => ?_)
  · exact h4
  · extract_lets l8
    clear_value l8
    split
    · rename_i v9 v10 v11 v12
      have h13 : Keeps x ((v10, v11)).2 := by
        rw [← v12]
        refine Keeps.iteP (p := (fun r => (Prod.snd r))) ?_ ?_
        · split
          · exact h7
          · exact State.dieOthers_keeps h7
        · exact h7
      extract_lets l19 l20
      clear_value l19 l20
      exact Keeps.ite h13 (State.setRk_keeps h13)

theorem State.kntEmit_keeps {x : State} {a0} {a1} {a2} (k0 : Keeps x a0) : Keeps x (State.kntEmit a0 a1 a2) := by
  unfold State.kntEmit
  extract_lets l0 l1 l2 l3 l4 l5 l6 l7 l8 l9 l10 l11 l12 l13 l14 l15 l16 l17 l18
  clear_value l0 l1 l2
  have h19 : Keeps x l3 := by
    unfold l3
    exact Keeps.ite (State.err_keeps k0) k0
  clear_value l3 l4 l5 l6 l7 l8
  have h20 : Keeps x l9 := by
    unfold l9
    exact State.sqWrite_keeps k0
  clear_value l9
  have h21 : Keeps x l10 := by
    unfold l10
    exact Keeps.ite (State.sqWrite_keeps h20) h20
  clear_value l10
  have h22 : Keeps x l11 := by
    unfold l11
    exact State.sqWrite_keeps h21
  clear_value l11
  have h23 : Keeps x l12.st := by
    unfold l12
    exact State.memWrite_keeps h22
  clear_value l12
  have h24 : Keeps x l13 := by
    unfold l13
    exact Keeps.ite h22 (State.logRan_keeps (State.recordMem_keeps h23))
  clear_value l13
  have h25 : Keeps x l14 := by
    unfold l14
    exact State.count64_keeps h24
  clear_value l14 l15 l16
  have h26 : Keeps x l17 := by
    unfold l17
    exact Keeps.ite h25 (State.err_keeps (State.count_keeps h25))
  clear_value l17
  have h27 : Keeps x l18 := by
    unfold l18
    exact Keeps.ite h26 (State.err_keeps (State.count_keeps h26))
  clear_value l18
  exact Keeps.ite (State.endCmd_keeps (State.mapCmd_keeps (State.sampleSpoil_keeps h19))) (State.mapCmd_keeps h27)

theorem State.kntPump_keeps {x : State} {a0} {a1} (k0 : Keeps x a0) : Keeps x (State.kntPump a0 a1) := by
  unfold State.kntPump
  split
  · exact k0
  · refine Keeps.ite ?_ ?_
    · exact k0
    · split
      · split
        · rename_i v8 v9 v10 v11
          have h12 : Keeps x ((v9, v10)).1 := by
            rw [← v11]
            exact State.kntDests_keeps k0
          extract_lets l13
          clear_value l13
          split
          · rename_i v14 v15 v16 v17
            have h18 : Keeps x ((v15, v16)).1 := by
              rw [← v17]
              refine Keeps.foldl (p := (fun r => (Prod.fst r))) ?_ (fun b19 a20 h21 => ?_)
              · exact h12
              · exact State.sendSample_keeps h21
            extract_lets l22
            have h23 : Keeps x l22 := by
              unfold l22
              exact State.mapCmd_keeps h18
            clear_value l22
            exact Keeps.ite (State.kntEmit_keeps h23) h23
      · exact k0

theorem State.sampleRun_keeps {x : State} {a0} {a1} (k0 : Keeps x a0) : Keeps x (State.sampleRun a0 a1) := by
  unfold State.sampleRun
  extract_lets l0 l1 l2 l3 l4 l5 l6 l7 l8
  clear_value l0 l1 l2
  have h9 : Keeps x l3.st := by
    unfold l3
    exact State.readElems_keeps k0
  clear_value l3 l4
  have h10 : Keeps x l5.st := by
    unfold l5
    exact State.readElems_keeps k0
  clear_value l5
  have h11 : Keeps x l6.st := by
    unfold l6
    refine Keeps.iteP (p := (fun r => (ElemRes.st r))) ?_ ?_
    · exact State.readElems_keeps h10
    · exact h10
  clear_value l6 l7
  have h12 : Keeps x l8 := by
    unfold l8
    exact State.addCmd_keeps h11
  clear_value l8
  exact Keeps.ite (State.endCmd_keeps (State.sampleSpoil_keeps h12)) (State.kntPump_keeps h12)

theorem execKntSample_keeps {x : State} {a0} {a1} {a2} (k2 : Keeps x a2) : KeepsRes x (execKntSample a0 a1 a2) := by
  unfold execKntSample
  refine KeepsRes.next ?_
  refine State.command_keeps ?_ ?_ ?_
  · exact k2
  · intro a0 a1 a2
    exact sampleCheck_keeps a2
  · intro a3 a4 a5
    exact State.sampleRun_keeps a5

theorem execKntBatchTimeout_keeps {x : State} {a0} {a1} {a2} (k2 : Keeps x a2) : KeepsRes x (execKntBatchTimeout a0
    a1 a2) := by
  unfold execKntBatchTimeout
  refine KeepsRes.next ?_
  split
  · exact k2
  · split
    · split
      · split
        · rename_i v11 v12 v13 v14
          have h15 : Keeps x ((v12, v13)).1 := by
            rw [← v14]
            exact State.sendSample_keeps k2
          exact State.mapCmd_keeps h15
      · exact k2
    · exact k2

theorem State.onSampleRsp_keeps {x : State} {a0} {a1} (k0 : Keeps x a0) : Keeps x (State.onSampleRsp a0 a1) := by
  unfold State.onSampleRsp
  split
  · split
    · exact k0
    · split
      · extract_lets l13 l14 l15 l16
        clear_value l13 l14 l15 l16
        exact Keeps.ite k0 (State.kntPump_keeps (State.mapCmd_keeps k0))
      · exact k0
  · exact k0

theorem State.serveSquare_keeps {x : State} {a0} {a1} (k0 : Keeps x a0) : Keeps x (State.serveSquare a0 a1).2 := by
  unfold State.serveSquare
  extract_lets l0
  clear_value l0
  split
  · exact k0
  · exact k0
  · split
    · rename_i v7 v8 v9 v10
      have h11 : Keeps x ((v8, v9)).2 := by
        rw [← v10]
        exact State.draw_keeps k0
      exact h11

theorem State.serveEntry_keeps {x : State} {a0} {a1} {a2} {a3} {a4} (k0 : Keeps x a0) : Keeps x (State.serveEntry
    a0 a1 a2 a3 a4).1 := by
  unfold State.serveEntry
  split
  · exact k0
  · extract_lets l5
    clear_value l5
    refine Keeps.iteP (p := (fun r => (Prod.fst r))) ?_ ?_
    · exact k0
    · split
      · rename_i v6 v7 v8
        have h9 : Keeps x ((none, v7) : Option ℕ × State).2 := by
          rw [← v8]
          exact State.serveSquare_keeps k0
        exact h9
      · rename_i v10 v11 v12 v13
        have h14 : Keeps x ((some v11, v12)).2 := by
          rw [← v13]
          exact State.serveSquare_keeps k0
        extract_lets l15
        have h16 : Keeps x l15.st := by
          unfold l15
          exact State.drawHere_keeps (State.count_keeps h14)
        clear_value l15
        exact h16

theorem State.onSampleReq_keeps {x : State} {a0} {a1} (k0 : Keeps x a0) : Keeps x (State.onSampleReq a0 a1) := by
  unfold State.onSampleReq
  split
  · extract_lets l6 l7 l8
    clear_value l6
    have h9 : Keeps x l7.st := by
      unfold l7
      exact State.sortReq_keeps k0
    clear_value l7
    have h10 : Keeps x l8 := by
      unfold l8
      exact Sorted.passOn_keeps h9
    clear_value l8
    refine Keeps.ite ?_ ?_
    · exact h10
    · split
      · rename_i v11 v12 v13 v14
        have h15 : Keeps x ((v12, v13)).1 := by
          rw [← v14]
          refine Keeps.foldl (p := (fun r => (Prod.fst r))) ?_ (fun b16 a17 h18 => ?_)
          · exact h10
          · split
            · rename_i v19 v20 v21 v22
              have h23 : Keeps x ((v20, v21)).1 := by
                rw [← v22]
                exact State.serveEntry_keeps h18
              exact h23
        exact State.respond_keeps h15
  · exact k0

theorem AliasRun.row_keeps {x : State} {a0} {a1} {a2} {a3} {a4} (k0 : Keeps x a0.st) : Keeps x (AliasRun.row a0 a1
    a2 a3 a4).st := by
  unfold AliasRun.row
  extract_lets l0
  have h1 : Keeps x l0 := by
    unfold l0
    exact k0
  clear_value l0
  refine Keeps.iteP (p := (fun r => (AliasRun.st r))) ?_ ?_
  · exact k0
  · split
    · rename_i v2 v3 v4
      have h5 : Keeps x ((none, v3) : Option ℕ × State).2 := by
        rw [← v4]
        exact State.serveSquare_keeps h1
      exact h5
    · rename_i v6 v7 v8 v9
      have h10 : Keeps x ((some v7, v8)).2 := by
        rw [← v9]
        exact State.serveSquare_keeps h1
      extract_lets l11 l12 l13 l14 l15 l16
      clear_value l11 l12
      have h17 : Keeps x l13.st := by
        unfold l13
        exact State.adjWords_keeps h10
      clear_value l13
      have h18 : Keeps x l14 := by
        unfold l14
        exact h17
      clear_value l14
      have h19 : Keeps x l15 := by
        unfold l15
        exact State.splitRow_keeps h18
      clear_value l15 l16
      refine Keeps.iteP (p := (fun r => (AliasRun.st r))) ?_ ?_
      · exact State.err_keeps h18
      · refine Keeps.iteP (p := (fun r => (AliasRun.st r))) ?_ ?_
        · exact h18
        · split
          · extract_lets l24 l25
            have h26 : Keeps x l24 := by
              unfold l24
              exact Keeps.ite (State.rowSet_keeps (State.rowSet_keeps h19)) h19
            clear_value l24
            have h27 : Keeps x l25 := by
              unfold l25
              exact State.sendChange_keeps (State.putRow_keeps h26)
            clear_value l25
            refine Keeps.iteP (p := (fun r => (AliasRun.st r))) ?_ ?_
            · exact State.count_keeps (State.count_keeps h27)
            · exact State.err_keeps (State.count_keeps h27)

theorem AliasRun.take_keeps {x : State} {a0} {a1} {a2} {a3} {a4} (k0 : Keeps x a0.st) : Keeps x (AliasRun.take a0
    a1 a2 a3 a4).st := by
  unfold AliasRun.take
  split
  · rename_i v0 v1 v2 v3
    have h4 : Keeps x ((v1, v2)).1 := by
      rw [← v3]
      exact State.lookup_keeps k0
    refine Keeps.iteP (p := (fun r => (AliasRun.st r))) ?_ ?_
    · exact h4
    · refine Keeps.iteP (p := (fun r => (AliasRun.st r))) ?_ ?_
      · exact h4
      · refine Keeps.iteP (p := (fun r => (AliasRun.st r))) ?_ ?_
        · exact AliasRun.row_keeps h4
        · exact h4

theorem State.aliasHere_keeps {x : State} {a0} {a1} {a2} {a3} {a4} {a5} {a6} {a7} (k0 : Keeps x a0) : Keeps x
    (State.aliasHere a0 a1 a2 a3 a4 a5 a6 a7).st := by
  unfold State.aliasHere
  refine Keeps.foldl (p := (fun r => (AliasRun.st r))) ?_ (fun b0 a1 h2 => ?_)
  · exact k0
  · split
    · exact AliasRun.take_keeps h2
    · exact h2

theorem State.aliasGot_keeps {x : State} {a0} {a1} {a2} {a3} {a4} {a5} {a6} (k0 : Keeps x a0) : Keeps x
    (State.aliasGot a0 a1 a2 a3 a4 a5 a6) := by
  unfold State.aliasGot
  split
  · exact k0
  · split
    · extract_lets l10 l11 l12 l13
      clear_value l10 l11
      have h14 : Keeps x l12 := by
        unfold l12
        exact Keeps.ite k0 (State.err_keeps (State.count_keeps k0))
      clear_value l12
      have h15 : Keeps x l13 := by
        unfold l13
        exact State.mapCmd_keeps h14
      clear_value l13
      exact Keeps.ite k0 (Keeps.ite (State.endCmd_keeps h15) (Keeps.ite (State.finish_keeps h15) h15))
    · exact k0

theorem AliasRun.report_keeps {x : State} {a0} {a1} {a2} {a3} {a4} (k0 : Keeps x a0.st) : Keeps x (AliasRun.report
    a0 a1 a2 a3 a4) := by
  unfold AliasRun.report
  extract_lets l0
  clear_value l0
  refine Keeps.ite ?_ ?_
  · exact State.setPlc_keeps k0
  · split
    · exact State.reply_keeps k0
    · exact State.aliasGot_keeps k0

theorem State.aliasResume_keeps {x : State} {a0} (k0 : Keeps x a0) : Keeps x (State.aliasResume a0) := by
  unfold State.aliasResume
  extract_lets l0
  clear_value l0
  refine Keeps.foldl (p := fun r => r) ?_ (fun b1 a2 h3 => ?_)
  · exact State.setPlc_keeps k0
  · extract_lets l4 l5
    have h6 : Keeps x l4.st := by
      unfold l4
      exact h3
    clear_value l4 l5
    refine AliasRun.report_keeps ?_
    refine Keeps.foldl (p := (fun r => (AliasRun.st r))) ?_ (fun b7 a8 h9 => ?_)
    · exact h6
    · exact AliasRun.take_keeps h9

theorem State.aliasRun_keeps {x : State} {a0} {a1} (k0 : Keeps x a0) : Keeps x (State.aliasRun a0 a1) := by
  unfold State.aliasRun
  extract_lets l0 l1 l2 l3 l4
  clear_value l0 l1 l2
  have h5 : Keeps x l3 := by
    unfold l3
    exact State.addCmd_keeps k0
  clear_value l3
  have h6 : Keeps x l4 := by
    unfold l4
    refine Keeps.foldl (p := fun r => r) ?_ (fun b7 a8 h9 => ?_)
    · exact h5
    · exact State.sendF0_keeps h9
  clear_value l4
  exact Keeps.ite (State.endCmd_keeps h5) (AliasRun.report_keeps (State.aliasHere_keeps h6))

theorem execAliasBuild_keeps {x : State} {a0} {a1} {a2} (k2 : Keeps x a2) : KeepsRes x (execAliasBuild a0 a1 a2) := by
  unfold execAliasBuild
  refine KeepsRes.next ?_
  refine State.command_keeps ?_ ?_ ?_
  · exact k2
  · intro a0 a1 a2
    refine Check.rest_keeps (fun _ _ => rfl) ?_
    exact a2
  · intro a3 a4 a5
    exact State.aliasRun_keeps a5

theorem State.onAliasRequest_keeps {x : State} {a0} {a1} (k0 : Keeps x a0) : Keeps x (State.onAliasRequest a0 a1)
    := by
  unfold State.onAliasRequest
  split
  · exact AliasRun.report_keeps (State.aliasHere_keeps k0)
  · exact k0

theorem State.onAliasReport_keeps {x : State} {a0} {a1} (k0 : Keeps x a0) : Keeps x (State.onAliasReport a0 a1) := by
  unfold State.onAliasReport
  split
  · exact State.aliasGot_keeps k0
  · exact k0

end Sys2Proof.Machine
end

