-- ==== Sys2Proof/Laws/KeepsGambit.lean ====
section
/-! SUPPORT. What the operations of Machine/Gambit.lean keep (`Keeps`, Laws/Keeps.lean). -/

namespace Sys2Proof.Machine

theorem layerCheck_keeps {x : State} {a0} {a1} (k0 : Keeps x a0) : Keeps x (layerCheck.rest a0 a1).1 := by
  refine KeepsOf.out (p := Prod.fst) ?_
  unfold layerCheck
  dsimp -zeta only
  extract_lets l0 l1
  clear_value l0
  have h2 : KeepsOf x MemRes.st l1 := KeepsOf.mk (r := State.sqRead ..) (State.sqRead_keeps k0)
  clear_value l1
  exact KeepsOf.ite (KeepsOf.pair (State.err_keeps h2.out)) (KeepsOf.ite (KeepsOf.pair h2.out) (KeepsOf.pair h2.out))

theorem GmbRun.tile_keeps {x : State} {a0} {a1} {a2} {a3} {a4} {a5} (k0 : Keeps x a0.st) : Keeps x (GmbRun.tile a0
    a1 a2 a3 a4 a5).1.st := by
  unfold GmbRun.tile
  extract_lets l0 l1 l2 l3 l4
  clear_value l0
  have h5 : Keeps x l1.st := by
    unfold l1
    exact State.mxNormal_keeps k0
  clear_value l1 l2
  have h6 : Keeps x l3 := by
    unfold l3
    exact State.scsIssue_keeps h5
  clear_value l3 l4
  refine Keeps.iteP (p := (fun r => (GmbRun.st (Prod.fst r)))) ?_ ?_
  · exact k0
  · exact h6

theorem GmbRun.fullPass_keeps {x : State} {a0} {a1} {a2} {a3} {a4} {a5} (k0 : Keeps x a0.st) : Keeps x
    (GmbRun.fullPass a0 a1 a2 a3 a4 a5).1.st := by
  unfold GmbRun.fullPass
  refine Keeps.foldl (p := (fun r => (GmbRun.st (Prod.fst r)))) ?_ (fun b0 a1 h2 => ?_)
  · exact k0
  · split
    · rename_i v3 v4 v5 v6 v7 v8
      have h9 : Keeps x ((v5, v6, v7)).1.st := by
        rw [← v8]
        refine Keeps.foldl (p := (fun r => (GmbRun.st (Prod.fst r)))) ?_ (fun b10 a11 h12 => ?_)
        · exact h2
        · exact GmbRun.tile_keeps h12
      exact h9

theorem GmbRun.activePass_keeps {x : State} {a0} {a1} {a2} {a3} {a4} {a5} (k0 : Keeps x a0.st) : Keeps x
    (GmbRun.activePass a0 a1 a2 a3 a4 a5).st := by
  unfold GmbRun.activePass
  split
  · rename_i v0 v1 v2 v3 v4
    have h5 : Keeps x ((v1, v2, v3)).1.st := by
      rw [← v4]
      exact GmbRun.fullPass_keeps k0
    exact h5

theorem GmbRun.makeupPass_keeps {x : State} {a0} {a1} {a2} {a3} {a4} {a5} (k0 : Keeps x a0.st) : Keeps x
    (GmbRun.makeupPass a0 a1 a2 a3 a4 a5).st := by
  unfold GmbRun.makeupPass
  split
  · rename_i v0 v1 v2 v3 v4
    have h5 : Keeps x ((v1, v2, v3)).1.st := by
      rw [← v4]
      exact GmbRun.fullPass_keeps k0
    exact h5

theorem GmbRun.auditPass_keeps {x : State} {a0} {a1} {a2} {a3} {a4} {a5} (k0 : Keeps x a0.st) : Keeps x
    (GmbRun.auditPass a0 a1 a2 a3 a4 a5).st := by
  unfold GmbRun.auditPass
  split
  · rename_i v0 v1 v2 v3 v4
    have h5 : Keeps x ((v1, v2, v3)).1.st := by
      rw [← v4]
      exact GmbRun.fullPass_keeps k0
    exact h5

theorem GmbRun.miss_keeps {x : State} {a0} {a1} {a2} {a3} {a4} {a5} {a6} (k0 : Keeps x a0.st) : Keeps x
    (GmbRun.miss a0 a1 a2 a3 a4 a5 a6).1.st := by
  unfold GmbRun.miss
  extract_lets l0
  have h1 : Keeps x l0.st := by
    unfold l0
    exact GmbRun.makeupPass_keeps k0
  clear_value l0
  split
  · rename_i v2 v3 v4 v5
    have h6 : Keeps x ((v3, v4)).1.st := by
      rw [← v5]
      refine Keeps.iteP (p := (fun r => (GmbRun.st (Prod.fst r)))) ?_ ?_
      · exact h1
      · exact k0
    exact h6

theorem GmbRun.coarsePass_keeps {x : State} {a0} {a1} {a2} {a3} {a4} {a5} (k0 : Keeps x a0.st) : Keeps x
    (GmbRun.coarsePass a0 a1 a2 a3 a4 a5).1.st := by
  unfold GmbRun.coarsePass
  refine Keeps.foldl (p := (fun r => (GmbRun.st (Prod.fst r)))) ?_ (fun b0 a1 h2 => ?_)
  · exact k0
  · extract_lets l3 l4 l5 l6 l7
    have h8 : Keeps x l3.st := by
      unfold l3
      exact h2
    clear_value l3 l4
    have h9 : Keeps x l5.st := by
      unfold l5
      exact State.mxCoarse_keeps h8
    clear_value l5 l6
    have h10 : Keeps x l7.st := by
      unfold l7
      exact h9
    clear_value l7
    refine Keeps.iteP (p := (fun r => (GmbRun.st (Prod.fst r)))) ?_ ?_
    · exact h2
    · refine Keeps.iteP (p := (fun r => (GmbRun.st (Prod.fst r)))) ?_ ?_
      · exact h10
      · refine Keeps.foldl (p := (fun r => (GmbRun.st (Prod.fst r)))) ?_ (fun b11 a12 h13 => ?_)
        · exact h10
        · extract_lets l14 l15 l16
          clear_value l14
          have h17 : Keeps x l15.st := by
            unfold l15
            exact h13
          clear_value l15 l16
          refine Keeps.iteP (p := (fun r => (GmbRun.st (Prod.fst r)))) ?_ ?_
          · exact h13
          · refine Keeps.iteP (p := (fun r => (GmbRun.st (Prod.fst r)))) ?_ ?_
            · exact h17
            · exact GmbRun.miss_keeps h13

theorem GmbRun.fillAll_keeps {x : State} {a0} {a1} {a2} {a3} {a4} {a5} (k0 : Keeps x a0.st) : Keeps x
    (GmbRun.fillAll a0 a1 a2 a3 a4 a5).st := by
  unfold GmbRun.fillAll
  extract_lets l0
  clear_value l0
  refine Keeps.iteP (p := (fun r => (GmbRun.st r))) ?_ ?_
  · exact k0
  · dsimp only
    refine Keeps.foldl (p := fun r => r) ?_ (fun b1 a2 h3 => ?_)
    · exact k0
    · refine Keeps.foldl (p := fun r => r) ?_ (fun b4 a5 h6 => ?_)
      · exact h3
      · exact State.scsSet_keeps h6

theorem GmbRun.outMask_keeps {x : State} {a0} {a1} {a2} {a3} {a4} (k0 : Keeps x a0.st) : Keeps x (GmbRun.outMask a0
    a1 a2 a3 a4).st := by
  unfold GmbRun.outMask
  extract_lets l0 l1
  clear_value l0 l1
  refine Keeps.iteP (p := (fun r => (GmbRun.st r))) ?_ ?_
  · exact k0
  · exact State.sqWrite_keeps k0

theorem GmbRun.group_keeps {x : State} {a0} {a1} {a2} {a3} (k0 : Keeps x a0.st) : Keeps x (GmbRun.group a0 a1 a2
    a3).st := by
  unfold GmbRun.group
  extract_lets l0 l1 l2 l3 l4 l5 l6 l7 l8 l9
  clear_value l0
  have h10 : Keeps x l1.st := by
    unfold l1
    exact k0
  clear_value l1
  have h11 : Keeps x l2.st := by
    unfold l2
    exact State.sqRead_keeps h10
  clear_value l2
  have h12 : Keeps x l3.st := by
    unfold l3
    exact h11
  clear_value l3 l4 l5 l6
  have h13 : Keeps x l7.st := by
    unfold l7
    exact h12
  clear_value l7 l8 l9
  refine Keeps.iteP (p := (fun r => (GmbRun.st r))) ?_ ?_
  · exact k0
  · split
    · extract_lets l18 l19 l20 l21
      have h22 : Keeps x l18.st := by
        unfold l18
        exact GmbRun.activePass_keeps h13
      clear_value l18
      have h23 : Keeps x l19.st := by
        unfold l19
        exact GmbRun.auditPass_keeps h22
      clear_value l19
      have h24 : Keeps x l20.st := by
        unfold l20
        exact h23
      clear_value l20
      have h25 : Keeps x l21.st := by
        unfold l21
        exact h22
      clear_value l21
      refine Keeps.iteP (p := (fun r => (GmbRun.st r))) ?_ ?_
      · exact h12
      · split
        · split
          · rename_i v28 v29 v30 v31
            have h32 : Keeps x ((v29, v30)).1.st := by
              rw [← v31]
              exact GmbRun.coarsePass_keeps h22
            extract_lets l33 l34
            have h35 : Keeps x l33.st := by
              unfold l33
              exact GmbRun.fillAll_keeps h32
            clear_value l33
            have h36 : Keeps x l34.st := by
              unfold l34
              exact GmbRun.makeupPass_keeps h35
            clear_value l34
            exact GmbRun.outMask_keeps h36
        · exact GmbRun.outMask_keeps (GmbRun.fillAll_keeps h24)
        · exact GmbRun.outMask_keeps (GmbRun.fillAll_keeps h25)

theorem GmbRun.counts_keeps {x : State} {a0} {a1} (k0 : Keeps x a0.st) : Keeps x (GmbRun.counts a0 a1) := by
  unfold GmbRun.counts
  extract_lets l0 l1 l2 l3 l4 l5 l6 l7 l8 l9 l10 l11
  clear_value l0 l1
  have h12 : Keeps x l2 := by
    unfold l2
    exact k0
  clear_value l2
  have h13 : Keeps x l3 := by
    unfold l3
    exact State.count64_keeps (State.count64_keeps (State.count64_keeps h12))
  clear_value l3
  have h14 : Keeps x l4 := by
    unfold l4
    exact State.count64_keeps (State.count64_keeps (State.count64_keeps h13))
  clear_value l4
  have h15 : Keeps x l5 := by
    unfold l5
    exact State.count_keeps (State.count64_keeps h14)
  clear_value l5
  have h16 : Keeps x l6 := by
    unfold l6
    exact State.count_keeps (State.count_keeps (State.count_keeps h15))
  clear_value l6
  have h17 : Keeps x l7 := by
    unfold l7
    exact State.setReg_keeps (State.count_keeps h16)
  clear_value l7
  have h18 : Keeps x l8 := by
    unfold l8
    exact State.count64_keeps (State.count64_keeps h17)
  clear_value l8
  have h19 : Keeps x l9 := by
    unfold l9
    exact State.count_keeps (State.count64_keeps h18)
  clear_value l9
  have h20 : Keeps x l10 := by
    unfold l10
    exact State.count_keeps h19
  clear_value l10
  have h21 : Keeps x l11 := by
    unfold l11
    split
    · exact State.setReg_keeps h20
    · exact h20
  clear_value l11
  exact Keeps.ite (State.err_keeps h21) h21

theorem State.layerRun_keeps {x : State} {a0} {a1} (k0 : Keeps x a0) : Keeps x (State.layerRun a0 a1) := by
  unfold State.layerRun
  extract_lets l0 l1 l2 l3 l4 l5 l6
  clear_value l0 l1 l2
  have h8 : KeepsOf x GmbRun.st l3 :=
    KeepsOf.foldl (b := ({ st := a0 } : GmbRun)) (KeepsOf.mk k0) (fun b9 a10 h11 => KeepsOf.mk (GmbRun.group_keeps h11.out))
  clear_value l3
  have h12 : Keeps x l4 := GmbRun.counts_keeps h8.out
  clear_value l4
  have h13 : Keeps x l5 := Keeps.ite (State.err_keeps h12) h12
  clear_value l5
  have h15 : Keeps x l6 := State.addCmd_keeps h13
  clear_value l6
  exact State.awaitScs_keeps h15

theorem execGmbLayer_keeps {x : State} {a0} {a1} {a2} (k2 : Keeps x a2) : KeepsRes x (execGmbLayer a0 a1 a2) := by
  unfold execGmbLayer
  refine KeepsRes.next ?_
  refine State.command_keeps ?_ ?_ ?_
  · exact k2
  · intro a0 a1 a2
    exact layerCheck_keeps a2
  · intro a3 a4 a5
    exact State.layerRun_keeps a5

end Sys2Proof.Machine
end

