-- ==== Sys2Proof/Laws/KeepsScrub.lean ====
section
/-! SUPPORT. What the operations of Machine/Scrub.lean keep (`Keeps`, Laws/Keeps.lean). -/

namespace Sys2Proof.Machine

theorem State.setStack_keeps {x : State} {a0} {a1} {a2} (k0 : Keeps x a0) : Keeps x (State.setStack a0 a1 a2) := by
  unfold State.setStack
  extract_lets l0 l1 l2
  clear_value l0
  have h3 : Keeps x l2 := by
    unfold l2
    exact Keeps.upd k0 rfl rfl rfl rfl
  clear_value l2
  exact Keeps.ite (State.err_keeps h3) h3

theorem State.flushStack_keeps {x : State} {a0} {a1} (k0 : Keeps x a0) : Keeps x (State.flushStack a0 a1) := by
  unfold State.flushStack
  exact State.writebackAll_keeps k0

theorem State.scrubLine_keeps {x : State} {a0} {a1} (k0 : Keeps x a0) : Keeps x (State.scrubLine a0 a1).st := by
  unfold State.scrubLine
  extract_lets l0 l1 l2 l3 l4 l5
  clear_value l0 l1
  have h6 : Keeps x l2 := by
    unfold l2
    exact State.count64_keeps k0
  clear_value l2 l3
  have h7 : Keeps x l4 := by
    unfold l4
    refine Keeps.foldl (p := fun r => r) ?_ (fun b8 a9 h10 => ?_)
    · exact h6
    · exact State.wordStore_keeps h10
  clear_value l4
  have h11 : Keeps x l5 := by
    unfold l5
    refine Keeps.foldl (p := fun r => r) ?_ (fun b12 a13 h14 => ?_)
    · exact h7
    · exact State.hbmUe_keeps h14
  clear_value l5
  refine Keeps.iteP (p := (fun r => (ScrubOut.st r))) ?_ ?_
  · exact h11
  · exact State.count_keeps (State.count64_keeps h11)

theorem State.scrubQueued_keeps {x : State} {a0} {a1} (k0 : Keeps x a0) : Keeps x (State.scrubQueued a0 a1) := by
  unfold State.scrubQueued
  extract_lets l0 l1
  have h2 : Keeps x l1 := by
    unfold l1
    exact Keeps.upd k0 rfl rfl rfl rfl
  clear_value l1
  exact Keeps.ite (State.scrubLine_keeps h2) k0

theorem execScrubRewrite_keeps {x : State} {a0} {a1} (k1 : Keeps x a1) : KeepsRes x (execScrubRewrite a0 a1) := by
  unfold execScrubRewrite
  exact KeepsRes.next (State.scrubQueued_keeps k1)

theorem State.scrubPass_keeps {x : State} {a0} {a1} (k0 : Keeps x a0) : Keeps x (State.scrubPass a0 a1) := by
  unfold State.scrubPass
  extract_lets l0 l1
  have h2 : Keeps x l0 := by
    unfold l0
    exact State.count_keeps k0
  clear_value l0
  exact Keeps.upd h2 rfl rfl rfl rfl

theorem State.patrol_keeps {x : State} {a0} {a1} (k0 : Keeps x a0) : Keeps x (State.patrol a0 a1) := by
  unfold State.patrol
  extract_lets l0 l1 l2 l3 l4 l5 l6 l7
  clear_value l0 l1 l2
  have h8 : Keeps x l3.st := by
    unfold l3
    exact State.scrubLine_keeps k0
  clear_value l3
  have h9 : Keeps x l4 := by
    unfold l4
    exact Keeps.ite (State.rowCorrected_keeps h8) h8
  clear_value l4 l5
  have h10 : Keeps x l7 := by
    unfold l7
    exact Keeps.upd h9 rfl rfl rfl rfl
  clear_value l7
  exact Keeps.ite (Keeps.ite (State.scrubPass_keeps h10) h10) k0

theorem execPatrolScrub_keeps {x : State} {a0} {a1} (k1 : Keeps x a1) : KeepsRes x (execPatrolScrub a0 a1) := by
  unfold execPatrolScrub
  exact KeepsRes.next (State.patrol_keeps k1)

theorem State.wcbEvict_keeps {x : State} {a0} {a1} {a2} (k0 : Keeps x a0) : Keeps x (State.wcbEvict a0 a1 a2) := by
  unfold State.wcbEvict
  extract_lets l0
  clear_value l0
  split
  · extract_lets l4
    clear_value l4
    exact Keeps.ite (State.count64_keeps (State.count_keeps (State.writeback_keeps k0))) k0
  · exact k0

theorem execWcbEvict_keeps {x : State} {a0} {a1} {a2} (k2 : Keeps x a2) : KeepsRes x (execWcbEvict a0 a1 a2) := by
  unfold execWcbEvict
  exact KeepsRes.next (State.wcbEvict_keeps k2)

theorem State.wcbFull_keeps {x : State} {a0} {a1} (k0 : Keeps x a0) : Keeps x (State.wcbFull a0 a1) := by
  unfold State.wcbFull
  split
  · exact Keeps.ite (State.writeback_keeps k0) k0
  · exact k0

theorem execWcbFullWriteback_keeps {x : State} {a0} {a1} (k1 : Keeps x a1) : KeepsRes x (execWcbFullWriteback a0
    a1) := by
  unfold execWcbFullWriteback
  exact KeepsRes.next (State.wcbFull_keeps k1)

theorem State.flushChange_keeps {x : State} {a0} {a1} {a2} (k0 : Keeps x a0) : Keeps x (State.flushChange a0 a1 a2)
    := by
  unfold State.flushChange
  extract_lets l0 l1
  clear_value l0
  exact Keeps.upd k0 rfl rfl rfl rfl

theorem State.wcbBeatFlush_keeps {x : State} {a0} {a1} (k0 : Keeps x a0) : Keeps x (State.wcbBeatFlush a0 a1) := by
  unfold State.wcbBeatFlush
  extract_lets l0 l1 l2 l3
  clear_value l0 l1
  have h4 : Keeps x l2 := by
    unfold l2
    exact State.count_keeps (State.writebackAll_keeps k0)
  clear_value l2
  exact Keeps.ite (Keeps.upd h4 rfl rfl rfl rfl) k0

theorem execWcbBeatFlush_keeps {x : State} {a0} {a1} (k1 : Keeps x a1) : KeepsRes x (execWcbBeatFlush a0 a1) := by
  unfold execWcbBeatFlush
  exact KeepsRes.next (State.wcbBeatFlush_keeps k1)

theorem State.wcbIdle_keeps {x : State} {a0} {a1} (k0 : Keeps x a0) : Keeps x (State.wcbIdle a0 a1) := by
  unfold State.wcbIdle
  split
  · exact State.writeback_keeps k0
  · exact k0

theorem execWcbIdleWriteback_keeps {x : State} {a0} {a1} (k1 : Keeps x a1) : KeepsRes x (execWcbIdleWriteback a0
    a1) := by
  unfold execWcbIdleWriteback
  exact KeepsRes.next (State.wcbIdle_keeps k1)

end Sys2Proof.Machine
end

