-- ==== Sys2Proof/Laws/KeepsPorts.lean ====
section
/-! SUPPORT. What the operations of Machine/Ports.lean keep (`Keeps`, Laws/Keeps.lean). -/

namespace Sys2Proof.Machine

theorem State.guardWrite_keeps {x : State} {a0} {a1} {a2} {a3} {a4} {a5} (k0 : Keeps x a0) (k5 : ∀ b0, Keeps x b0 →
    Keeps x (a5 b0)) : Keeps x (State.guardWrite a0 a1 a2 a3 a4 a5) := by
  unfold State.guardWrite
  exact Keeps.ite k0 (Keeps.ite (State.violation_keeps k0) (k5 _ k0))

theorem State.cutPacket_keeps {x : State} {a0} {a1} (k0 : Keeps x a0) : Keeps x (State.cutPacket a0 a1) := by
  unfold State.cutPacket
  extract_lets l0
  clear_value l0
  exact Keeps.ite k0 (State.err_keeps (State.count_keeps (State.setPort_keeps k0)))

theorem State.reroute_keeps {x : State} {a0} {a1} (k0 : Keeps x a0) : Keeps x (State.reroute a0 a1) := by
  unfold State.reroute
  extract_lets l0 l1 l2 l3 l4
  have h5 : Keeps x l0 := by
    unfold l0
    exact State.cutPacket_keeps k0
  clear_value l0 l1 l2
  have h6 : Keeps x l3 := by
    unfold l3
    exact State.setPort_keeps h5
  clear_value l3
  have h7 : Keeps x l4 := by
    unfold l4
    exact State.count_keeps h6
  clear_value l4
  refine Keeps.foldl (p := fun r => r) ?_ (fun b8 a9 h10 => ?_)
  · exact h7
  · extract_lets l11
    clear_value l11
    exact State.forwardBut_keeps h10

theorem State.portFail_keeps {x : State} {a0} {a1} (k0 : Keeps x a0) : Keeps x (State.portFail a0 a1) := by
  unfold State.portFail
  extract_lets l0 l1
  clear_value l0
  have h2 : Keeps x l1 := by
    unfold l1
    exact State.setPort_keeps k0
  clear_value l1
  exact State.reroute_keeps (State.err_keeps h2)

theorem State.portRetrain_keeps {x : State} {a0} {a1} (k0 : Keeps x a0) : Keeps x (State.portRetrain a0 a1) := by
  unfold State.portRetrain
  extract_lets l0
  clear_value l0
  exact State.count_keeps (State.setPort_keeps k0)

theorem State.trainFailed_keeps {x : State} {a0} {a1} (k0 : Keeps x a0) : Keeps x (State.trainFailed a0 a1) := by
  unfold State.trainFailed
  extract_lets l0 l1
  clear_value l0
  have h2 : Keeps x l1 := by
    unfold l1
    exact State.setPort_keeps k0
  clear_value l1
  exact Keeps.ite (State.portFail_keeps h2) h2

theorem State.portTrain_keeps {x : State} {a0} {a1} {a2} (k0 : Keeps x a0) : Keeps x (State.portTrain a0 a1 a2) := by
  unfold State.portTrain
  extract_lets l0 l1 l2
  clear_value l0 l1 l2
  exact Keeps.ite k0 (Keeps.ite (State.trainFailed_keeps k0) (Keeps.ite (State.pump_keeps (State.setPort_keeps k0))
      (State.err_keeps (State.setPort_keeps k0))))

theorem execPortTrainDone_keeps {x : State} {a0} {a1} {a2} (k2 : Keeps x a2) : KeepsRes x (execPortTrainDone a0 a1
    a2) := by
  unfold execPortTrainDone
  exact KeepsRes.next (State.portTrain_keeps k2)

theorem State.laneFault_keeps {x : State} {a0} {a1} {a2} (k0 : Keeps x a0) : Keeps x (State.laneFault a0 a1 a2) := by
  unfold State.laneFault
  extract_lets l0
  clear_value l0
  exact Keeps.ite (State.portRetrain_keeps (State.setPort_keeps k0)) k0

theorem execLaneFault_keeps {x : State} {a0} {a1} {a2} (k2 : Keeps x a2) : KeepsRes x (execLaneFault a0 a1 a2) := by
  unfold execLaneFault
  exact KeepsRes.next (State.laneFault_keeps k2)

theorem State.resendFlits_keeps {x : State} {a0} {a1} (k0 : Keeps x a0) : Keeps x (State.resendFlits a0 a1) := by
  unfold State.resendFlits
  extract_lets l0
  clear_value l0
  refine State.count64_keeps ?_
  refine State.setPort_keeps ?_
  refine Keeps.foldl (p := fun r => r) ?_ (fun b1 a2 h3 => ?_)
  · exact k0
  · exact State.emit_keeps h3

theorem State.retrainDone_keeps {x : State} {a0} {a1} {a2} {a3} (k0 : Keeps x a0) : Keeps x (State.retrainDone a0
    a1 a2 a3) := by
  unfold State.retrainDone
  extract_lets l0 l1 l2 l3 l4 l5
  clear_value l0 l1
  have h6 : Keeps x l2 := by
    unfold l2
    exact State.setPort_keeps k0
  clear_value l2
  have h7 : Keeps x l3 := by
    unfold l3
    exact State.setPort_keeps h6
  clear_value l3
  have h8 : Keeps x l4 := by
    unfold l4
    exact State.resendFlits_keeps h7
  clear_value l4
  have h9 : Keeps x l5 := by
    unfold l5
    exact Keeps.ite (State.err_keeps (State.count_keeps h8)) h8
  clear_value l5
  exact Keeps.ite k0 (Keeps.ite (State.portFail_keeps h6) (State.pump_keeps h9))

theorem execRetrainDone_keeps {x : State} {a0} {a1} {a2} (k2 : Keeps x a2) : KeepsRes x (execRetrainDone a0 a1 a2)
    := by
  unfold execRetrainDone
  exact KeepsRes.next (State.retrainDone_keeps k2)

theorem State.linkUnit_keeps {x : State} {a0} {a1} {a2} (k0 : Keeps x a0) : Keeps x (State.linkUnit a0 a1 a2) := by
  unfold State.linkUnit
  extract_lets l0 l1
  clear_value l0 l1
  exact State.pump_keeps (State.setPort_keeps k0)

theorem State.sendNak_keeps {x : State} {a0} {a1} (k0 : Keeps x a0) : Keeps x (State.sendNak a0 a1) := by
  unfold State.sendNak
  extract_lets l0
  clear_value l0
  exact Keeps.ite k0 (State.sendFlit_keeps (State.setPort_keeps k0))

theorem State.rxPackets_keeps {x : State} {a0} {a1} {a2} (k0 : Keeps x a0) : Keeps x (State.rxPackets a0 a1 a2) := by
  induction a2 generalizing a0 a1
  · unfold State.rxPackets
    exact k0
  · rename_i v0 v1
    unfold State.rxPackets
    extract_lets l2 l3 l4 l5 l6 l7 l8 l9
    clear_value l2 l3 l4 l5 l6 l7
    have h10 : Keeps x l8 := by
      unfold l8
      exact State.setPort_keeps k0
    clear_value l8
    have h11 : Keeps x l9 := by
      unfold l9
      exact Keeps.ite h10 (State.err_keeps (State.count_keeps h10))
    clear_value l9
    exact Keeps.ite k0 (Keeps.ite (v1 (State.setPort_keeps k0)) (Keeps.ite k0 (v1 h11)))

theorem State.flitTake_keeps {x : State} {a0} {a1} {a2} (k0 : Keeps x a0) : Keeps x (State.flitTake a0 a1 a2) := by
  unfold State.flitTake
  extract_lets l0 l1
  clear_value l0
  have h2 : Keeps x l1 := by
    unfold l1
    exact State.setPort_keeps k0
  clear_value l1
  exact State.linkUnit_keeps (State.rxPackets_keeps (State.count64_keeps h2))

theorem State.flitRx_keeps {x : State} {a0} {a1} {a2} (k0 : Keeps x a0) : Keeps x (State.flitRx a0 a1 a2) := by
  unfold State.flitRx
  extract_lets l0 l1
  clear_value l0
  have h2 : Keeps x l1 := by
    unfold l1
    exact State.countFree_keeps k0
  clear_value l1
  refine Keeps.ite ?_ ?_
  · exact k0
  · refine Keeps.ite ?_ ?_
    · split
      · rename_i v3 v4 v5 v6
        have h7 : Keeps x ((v4, v5)).2 := by
          rw [← v6]
          exact State.draw_keeps h2
        exact State.sendNak_keeps (State.count_keeps (State.count_keeps h7))
    · exact Keeps.ite (State.count_keeps h2) (Keeps.ite (State.linkUnit_keeps h2) (Keeps.ite (State.sendNak_keeps
          h2) (State.flitTake_keeps h2)))

theorem execDataFlitRx_keeps {x : State} {a0} {a1} {a2} (k2 : Keeps x a2) : KeepsRes x (execDataFlitRx a0 a1 a2) := by
  unfold execDataFlitRx
  exact KeepsRes.next (State.flitRx_keeps k2)

theorem execIdleFlit_keeps {x : State} {a0} {a1} {a2} (k2 : Keeps x a2) : KeepsRes x (execIdleFlit a0 a1 a2) := by
  unfold execIdleFlit
  exact KeepsRes.next (State.flitRx_keeps k2)

theorem State.nakRx_keeps {x : State} {a0} {a1} {a2} (k0 : Keeps x a0) : Keeps x (State.nakRx a0 a1 a2) := by
  unfold State.nakRx
  extract_lets l0 l1 l2 l3 l4 l5
  clear_value l0 l1 l2 l3
  have h6 : Keeps x l4 := by
    unfold l4
    exact State.setPort_keeps k0
  clear_value l4
  have h7 : Keeps x l5 := by
    unfold l5
    exact State.count_keeps h6
  clear_value l5
  exact Keeps.ite k0 (Keeps.ite (State.portRetrain_keeps (State.err_keeps h7)) (State.pump_keeps
      (State.resendFlits_keeps h7)))

theorem execNakRx_keeps {x : State} {a0} {a1} {a2} (k2 : Keeps x a2) : KeepsRes x (execNakRx a0 a1 a2) := by
  unfold execNakRx
  exact KeepsRes.next (State.nakRx_keeps k2)

theorem State.stopRx_keeps {x : State} {a0} {a1} {a2} (k0 : Keeps x a0) : Keeps x (State.stopRx a0 a1 a2) := by
  unfold State.stopRx
  extract_lets l0 l1 l2
  clear_value l0
  have h3 : Keeps x l1 := by
    unfold l1
    exact State.setPort_keeps k0
  clear_value l1
  have h4 : Keeps x l2 := by
    unfold l2
    exact State.err_keeps (State.count_keeps h3)
  clear_value l2
  exact Keeps.ite (State.emit_keeps (State.reroute_keeps h4)) k0

theorem execStopFlitRx_keeps {x : State} {a0} {a1} {a2} {a3} (k3 : Keeps x a3) : KeepsRes x (execStopFlitRx a0 a1
    a2 a3) := by
  unfold execStopFlitRx
  exact KeepsRes.next (State.emit_keeps (State.stopRx_keeps k3))

theorem State.sendStops_keeps {x : State} {a0} {a1} (k0 : Keeps x a0) : Keeps x (State.sendStops a0 a1) := by
  unfold State.sendStops
  refine Keeps.foldl (p := fun r => r) ?_ (fun b0 a1 h2 => ?_)
  · exact k0
  · extract_lets l3 l4
    clear_value l3 l4
    refine Keeps.foldl (p := fun r => r) ?_ (fun b5 a6 h7 => ?_)
    · exact h2
    · exact State.sendFlit_keeps h7

theorem State.onE2eAck_keeps {x : State} {a0} {a1} (k0 : Keeps x a0) : Keeps x (State.onE2eAck a0 a1) := by
  unfold State.onE2eAck
  split
  · extract_lets l4 l5 l6
    clear_value l4 l5
    have h7 : Keeps x l6 := by
      unfold l6
      exact State.setTx_keeps k0
    clear_value l6
    exact State.drainWaiting_keeps h7
  · exact k0

theorem State.e2eAckTimer_keeps {x : State} {a0} {a1} {a2} (k0 : Keeps x a0) : Keeps x (State.e2eAckTimer a0 a1 a2)
    := by
  unfold State.e2eAckTimer
  exact Keeps.ite (State.ackStream_keeps k0) k0

theorem execE2eAckTimer_keeps {x : State} {a0} {a1} {a2} (k2 : Keeps x a2) : KeepsRes x (execE2eAckTimer a0 a1 a2)
    := by
  unfold execE2eAckTimer
  exact KeepsRes.next (State.e2eAckTimer_keeps k2)

theorem State.e2eResend_keeps {x : State} {a0} {a1} {a2} (k0 : Keeps x a0) : Keeps x (State.e2eResend a0 a1 a2) := by
  unfold State.e2eResend
  extract_lets l0 l1 l2 l3 l4 l5 l6
  clear_value l0 l1 l2 l3
  have h7 : Keeps x l4 := by
    unfold l4
    exact State.setTx_keeps k0
  clear_value l4
  have h8 : Keeps x l5 := by
    unfold l5
    exact State.count_keeps h7
  clear_value l5
  have h9 : Keeps x l6 := by
    unfold l6
    exact Keeps.ite (State.emit_keeps (State.err_keeps h8)) h8
  clear_value l6
  refine Keeps.ite ?_ ?_
  · exact k0
  · refine Keeps.foldl (p := fun r => r) ?_ (fun b10 a11 h12 => ?_)
    · exact h9
    · exact State.forward_keeps (State.owe_keeps h12)

theorem execE2eResend_keeps {x : State} {a0} {a1} {a2} (k2 : Keeps x a2) : KeepsRes x (execE2eResend a0 a1 a2) := by
  unfold execE2eResend
  exact KeepsRes.next (State.e2eResend_keeps k2)

theorem State.passOn_keeps {x : State} {a0} {a1} {a2} (k0 : Keeps x a0) : Keeps x (State.passOn a0 a1 a2) := by
  unfold State.passOn
  extract_lets l0 l1 l2 l3 l4
  clear_value l0 l1
  have h5 : Keeps x l2 := by
    unfold l2
    exact State.err_keeps (State.count_keeps k0)
  clear_value l2 l3 l4
  refine Keeps.ite ?_ ?_
  · exact State.count_keeps k0
  · split
    · exact State.nackPkt_keeps h5
    · extract_lets l11 l12 l13 l14 l15
      clear_value l11 l12
      have h16 : Keeps x l13 := by
        unfold l13
        exact Keeps.upd k0 rfl rfl rfl rfl
      clear_value l13 l14 l15
      exact Keeps.ite (State.forward_keeps k0) (Keeps.ite (Keeps.upd h16 rfl rfl rfl rfl) (State.forward_keeps h16))

end Sys2Proof.Machine
end

