-- ==== Sys2Proof/Laws/KeepsTempo.lean ====
section
/-! SUPPORT. What the operations of Machine/Tempo.lean keep (`Keeps`, Laws/Keeps.lean). -/

namespace Sys2Proof.Machine

theorem State.setTempo_keeps {x : State} {a0} {a1} {a2} {a3} {a4} (k0 : Keeps x a0) : Keeps x (State.setTempo a0 a1
    a2 a3 a4) := by
  unfold State.setTempo
  exact State.setReg_keeps k0

theorem State.setTempoSt_keeps {x : State} {a0} {a1} (k0 : Keeps x a0) : Keeps x (State.setTempoSt a0 a1) := by
  unfold State.setTempoSt
  extract_lets l0
  clear_value l0
  exact State.setReg_keeps k0

theorem State.discipline_keeps {x : State} {a0} {a1} {a2} (k0 : Keeps x a0) : Keeps x (State.discipline a0 a1 a2)
    := by
  unfold State.discipline
  extract_lets l0 l1 l2 l3 l4 l5 l6 l7 l8 l9
  clear_value l0 l1
  have h10 : Keeps x l2 := by
    unfold l2
    exact State.setReg_keeps k0
  clear_value l2
  have h11 : Keeps x l3 := by
    unfold l3
    exact State.setTempo_keeps h10
  clear_value l3 l4 l5
  have h12 : Keeps x l6 := by
    unfold l6
    exact State.setTempo_keeps h10
  clear_value l6 l7
  have h13 : Keeps x l8 := by
    unfold l8
    exact State.setTempo_keeps h10
  clear_value l8 l9
  exact Keeps.ite (Keeps.upd h11 rfl rfl rfl rfl) (Keeps.ite (Keeps.ite h12 (State.err_keeps (State.count_keeps
      h12))) (Keeps.upd h13 rfl rfl rfl rfl))

theorem State.sendMark_keeps {x : State} {a0} {a1} {a2} {a3} {a4} (k0 : Keeps x a0) : Keeps x (State.sendMark a0 a1
    a2 a3 a4) := by
  unfold State.sendMark
  split
  · rename_i v0 v1 v2 v3
    have h4 : Keeps x ((v1, v2)).2 := by
      rw [← v3]
      exact State.draw_keeps k0
    extract_lets l5
    clear_value l5
    exact State.sendFlit_keeps h4

theorem State.forwardMark_keeps {x : State} {a0} {a1} {a2} (k0 : Keeps x a0) : Keeps x (State.forwardMark a0 a1 a2)
    := by
  unfold State.forwardMark
  refine Keeps.foldl (p := fun r => r) ?_ (fun b0 a1 h2 => ?_)
  · exact k0
  · exact State.sendMark_keeps h2

theorem State.markRx_keeps {x : State} {a0} {a1} {a2} (k0 : Keeps x a0) : Keeps x (State.markRx a0 a1 a2) := by
  unfold State.markRx
  extract_lets l0 l1 l2 l3 l4 l5
  have h6 : Keeps x l0 := by
    unfold l0
    exact State.count_keeps k0
  clear_value l0
  have h7 : Keeps x l1 := by
    unfold l1
    exact State.forwardMark_keeps h6
  clear_value l1 l2
  have h8 : Keeps x l3 := by
    unfold l3
    exact Keeps.upd h7 rfl rfl rfl rfl
  clear_value l3 l4
  have h9 : Keeps x l5 := by
    unfold l5
    split
    · exact Keeps.ite (State.discipline_keeps h8) h8
    · exact h8
  clear_value l5
  exact Keeps.ite k0 (Keeps.ite (State.count_keeps k0) (Keeps.ite h6 (Keeps.ite (State.err_keeps h9) h9)))

theorem execMarkRx_keeps {x : State} {a0} {a1} {a2} (k2 : Keeps x a2) : KeepsRes x (execMarkRx a0 a1 a2) := by
  unfold execMarkRx
  exact KeepsRes.next (State.markRx_keeps k2)

theorem State.markSend_keeps {x : State} {a0} (k0 : Keeps x a0) : Keeps x (State.markSend a0) := by
  unfold State.markSend
  extract_lets l0 l1
  have h2 : Keeps x l0 := by
    unfold l0
    refine Keeps.foldl (p := fun r => r) ?_ (fun b3 a4 h5 => ?_)
    · exact k0
    · exact State.sendMark_keeps h5
  clear_value l0 l1
  exact Keeps.ite (Keeps.upd h2 rfl rfl rfl rfl) k0

theorem execMarkSend_keeps {x : State} {a0} (k0 : Keeps x a0) : KeepsRes x (execMarkSend a0) := by
  unfold execMarkSend
  exact KeepsRes.next (State.markSend_keeps k0)

theorem State.tempoHoldover_keeps {x : State} {a0} (k0 : Keeps x a0) : Keeps x (State.tempoHoldover a0) := by
  unfold State.tempoHoldover
  extract_lets l0 l1 l2
  have h3 : Keeps x l0 := by
    unfold l0
    exact State.setTempoSt_keeps k0
  clear_value l0 l1
  have h4 : Keeps x l2 := by
    unfold l2
    exact Keeps.upd h3 rfl rfl rfl rfl
  clear_value l2
  exact Keeps.ite (State.err_keeps (State.count_keeps h4)) k0

theorem execTempoHoldover_keeps {x : State} {a0} (k0 : Keeps x a0) : KeepsRes x (execTempoHoldover a0) := by
  unfold execTempoHoldover
  exact KeepsRes.next (State.tempoHoldover_keeps k0)

theorem State.setMaster_keeps {x : State} {a0} {a1} (k0 : Keeps x a0) : Keeps x (State.setMaster a0 a1) := by
  unfold State.setMaster
  extract_lets l0 l1 l2 l3
  have h4 : Keeps x l0 := by
    unfold l0
    exact Keeps.ite (Keeps.upd k0 rfl rfl rfl rfl) k0
  clear_value l0
  have h5 : Keeps x l1 := by
    unfold l1
    exact State.setTempoSt_keeps k0
  clear_value l1 l2
  have h6 : Keeps x l3 := by
    unfold l3
    exact Keeps.upd h5 rfl rfl rfl rfl
  clear_value l3
  exact Keeps.ite (Keeps.ite k0 (State.setTempo_keeps h4)) (Keeps.ite (State.err_keeps (State.count_keeps h6)) k0)

end Sys2Proof.Machine
end

