-- ==== Sys2Proof/Laws/KeepsRook.lean ====
section
/-! SUPPORT. What the operations of Machine/Rook.lean keep (`Keeps`, Laws/Keeps.lean). -/

namespace Sys2Proof.Machine

theorem State.rgUsed_keeps {x : State} {a0} {a1} (k0 : Keeps x a0) : Keeps x (State.rgUsed a0 a1).1 := by
  refine KeepsOf.out (p := Prod.fst) ?_
  unfold State.rgUsed
  extract_lets l0 l1
  clear_value l0
  have h2 : KeepsOf x ElemRes.st l1 := KeepsOf.mk (r := State.readElems ..) (State.readElems_keeps k0)
  clear_value l1
  exact KeepsOf.ite (KeepsOf.pair h2.out) (KeepsOf.pair k0)

theorem rgCheck_keeps {x : State} {a0} {a1} (k0 : Keeps x a0) : Keeps x (rgCheck.rest a0 a1).1 := by
  unfold rgCheck
  dsimp -zeta only
  extract_lets l0
  clear_value l0
  refine Keeps.iteP (p := (fun r => (Prod.fst r))) ?_ ?_
  · exact k0
  · refine Keeps.iteP (p := (fun r => (Prod.fst r))) ?_ ?_
    · exact State.err_keeps (State.rgUsed_keeps k0)
    · refine Keeps.iteP (p := (fun r => (Prod.fst r))) ?_ ?_
      · exact Keeps.ite (State.sqWrite_keeps (State.rgUsed_keeps k0)) (State.rgUsed_keeps k0)
      · refine Keeps.iteP (p := (fun r => (Prod.fst r))) ?_ ?_
        · exact State.rgUsed_keeps k0
        · exact State.rgUsed_keeps k0

theorem State.rgIndices_keeps {x : State} {a0} {a1} {a2} (k0 : Keeps x a0) : Keeps x (State.rgIndices a0 a1 a2).1
    := by
  unfold State.rgIndices
  extract_lets l0 l1 l2
  clear_value l0
  have h3 : Keeps x l1.st := by
    unfold l1
    exact State.readElems_keeps k0
  clear_value l1
  have h4 : Keeps x l2.st := by
    unfold l2
    exact State.readElems_keeps k0
  clear_value l2
  refine Keeps.iteP (p := (fun r => (Prod.fst r))) ?_ ?_
  · exact h3
  · exact h4

theorem State.readReplica_keeps {x : State} {a0} {a1} {a2} (k0 : Keeps x a0) : Keeps x (State.readReplica a0 a1
    a2).1 := by
  unfold State.readReplica
  extract_lets l0 l1
  clear_value l0
  have h2 : Keeps x l1.st := by
    unfold l1
    exact State.memRead_keeps k0
  clear_value l1
  exact h2

theorem State.readOwner_keeps {x : State} {a0} {a1} {a2} {a3} (k0 : Keeps x a0) : Keeps x (State.readOwner a0 a1 a2
    a3).1 := by
  unfold State.readOwner
  extract_lets l0
  have h1 : Keeps x l0.1.st := by
    unfold l0
    exact State.planeRead_keeps (State.serveRow_keeps k0)
  clear_value l0
  exact h1

theorem State.readRow_keeps {x : State} {a0} {a1} {a2} {a3} {a4} {a5} (k0 : Keeps x a0) : Keeps x (State.readRow a0
    a1 a2 a3 a4 a5).1 := by
  unfold State.readRow
  split
  · refine Keeps.iteP (p := (fun r => (Prod.fst r))) ?_ ?_
    · exact k0
    · exact State.readReplica_keeps k0
  · refine Keeps.iteP (p := (fun r => (Prod.fst r))) ?_ ?_
    · exact k0
    · exact State.readOwner_keeps k0

theorem State.waitRow_keeps {x : State} {a0} {a1} {a2} {a3} {a4} (k0 : Keeps x a0) : Keeps x (State.waitRow a0 a1
    a2 a3 a4) := by
  unfold State.waitRow
  extract_lets l0
  clear_value l0
  exact State.setPlc_keeps k0

theorem State.dropWaits_keeps {x : State} {a0} {a1} (k0 : Keeps x a0) : Keeps x (State.dropWaits a0 a1) := by
  unfold State.dropWaits
  extract_lets l0
  clear_value l0
  exact State.setPlc_keeps k0

theorem State.gatherOut_keeps {x : State} {a0} {a1} {a2} {a3} {a4} (k0 : Keeps x a0) : Keeps x (State.gatherOut a0
    a1 a2 a3 a4) := by
  unfold State.gatherOut
  refine State.count64_keeps ?_
  refine Keeps.foldl (p := fun r => r) ?_ (fun b0 a1 h2 => ?_)
  · exact k0
  · exact State.sqWrite_keeps h2

theorem State.gatherBad_keeps {x : State} {a0} {a1} {a2} (k0 : Keeps x a0) : Keeps x (State.gatherBad a0 a1 a2) := by
  unfold State.gatherBad
  extract_lets l0 l1 l2
  clear_value l0 l1
  have h3 : Keeps x l2 := by
    unfold l2
    split
    · exact State.gatherOut_keeps k0
    · exact k0
  clear_value l2
  exact State.mapCmd_keeps (State.err_keeps (State.count_keeps h3))

theorem State.gatherSpoil_keeps {x : State} {a0} {a1} (k0 : Keeps x a0) : Keeps x (State.gatherSpoil a0 a1) := by
  unfold State.gatherSpoil
  refine Keeps.foldl (p := fun r => r) ?_ (fun b0 a1 h2 => ?_)
  · exact k0
  · exact State.fillFree_keeps h2

theorem State.strictCount_keeps {x : State} {a0} {a1} (k0 : Keeps x a0) : Keeps x (State.strictCount a0 a1) := by
  unfold State.strictCount
  split
  · exact Keeps.ite (State.countFree_keeps k0) k0
  · exact k0

theorem State.gatherUe_keeps {x : State} {a0} {a1} {a2} (k0 : Keeps x a0) : Keeps x (State.gatherUe a0 a1 a2) := by
  unfold State.gatherUe
  extract_lets l0 l1
  have h2 : Keeps x l0 := by
    unfold l0
    exact Keeps.ite k0 (State.err_keeps k0)
  clear_value l0
  have h3 : Keeps x l1 := by
    unfold l1
    split
    · exact State.mapCmd_keeps (State.strictCount_keeps h2)
    · exact h2
  clear_value l1
  exact State.endCmd_keeps (State.dropWaits_keeps (State.gatherSpoil_keeps h3))

theorem State.gatherTake_keeps {x : State} {a0} {a1} {a2} {a3} {a4} {a5} {a6} (k0 : Keeps x a0) : Keeps x
    (State.gatherTake a0 a1 a2 a3 a4 a5 a6) := by
  unfold State.gatherTake
  split
  · extract_lets l3
    have h4 : Keeps x l3 := by
      unfold l3
      exact State.count_keeps (State.recordMem_keeps k0)
    clear_value l3
    exact State.gatherOut_keeps h4
  · exact State.gatherBad_keeps k0

theorem State.gatherEnd_keeps {x : State} {a0} {a1} {a2} (k0 : Keeps x a0) : Keeps x (State.gatherEnd a0 a1 a2) := by
  unfold State.gatherEnd
  exact Keeps.ite (State.mapCmd_keeps k0) k0

theorem State.sendReads_keeps {x : State} {a0} {a1} {a2} {a3} (k0 : Keeps x a0) : Keeps x (State.sendReads a0 a1 a2
    a3).1 := by
  unfold State.sendReads
  extract_lets l0
  have h1 : Keeps x l0 := by
    unfold l0
    exact State.count64_keeps k0
  clear_value l0
  exact State.sendF0_keeps h1

theorem State.gatherOne_keeps {x : State} {a0} {a1} {a2} {a3} (k0 : Keeps x a0) : Keeps x (State.gatherOne a0 a1 a2
    a3).st := by
  unfold State.gatherOne
  extract_lets l0 l1 l2 l3 l4
  clear_value l0 l1 l2 l3
  have h5 : ∀ b0, Keeps x b0 → Keeps x (l4 b0) := by
    unfold l4
    intro a6 a7
    exact State.count64_keeps a7
  clear_value l4
  split
  · dsimp only [FetchOut.st]
    exact State.gatherBad_keeps (h5 _ k0)
  · extract_lets l13
    clear_value l13
    refine Keeps.iteP (p := (fun r => (FetchOut.st r))) ?_ ?_
    · dsimp only [FetchOut.st]
      exact State.gatherBad_keeps (h5 _ k0)
    · refine Keeps.iteP (p := (fun r => (FetchOut.st r))) ?_ ?_
      · dsimp only [FetchOut.st]
        exact State.countFree_keeps k0
      · refine Keeps.iteP (p := (fun r => (FetchOut.st r))) ?_ ?_
        · dsimp only [FetchOut.st]
          exact State.countFree_keeps k0
        · split
          · rename_i v14 v15 v16 v17
            have h18 : Keeps x ((v15, v16)).1 := by
              rw [← v17]
              exact State.lookup_keeps (h5 _ k0)
            extract_lets l19 l20 l21 l22 l23 l24
            clear_value l19
            have h25 : Keeps x l20 := by
              unfold l20
              exact Keeps.ite h18 (State.wantRow_keeps h18)
            clear_value l20 l21 l22 l23 l24
            refine Keeps.iteP (p := (fun r => (FetchOut.st r))) ?_ ?_
            · exact h25
            · refine Keeps.iteP (p := (fun r => (FetchOut.st r))) ?_ ?_
              · split
                · rename_i v26 v27 v28 v29 v30 v31 v32
                  have h33 : Keeps x ((v27, RowRead.codes v28 v29 v30 v31)).1 := by
                    rw [← v32]
                    exact State.readRow_keeps h25
                  dsimp only [FetchOut.st]
                  exact State.gatherTake_keeps h33
                · rename_i v34 v35 v36
                  have h37 : Keeps x ((v35, RowRead.ue)).1 := by
                    rw [← v36]
                    exact State.readRow_keeps h25
                  exact h37
                · rename_i v38 v39 v40
                  have h41 : Keeps x ((v39, RowRead.wait)).1 := by
                    rw [← v40]
                    exact State.readRow_keeps h25
                  dsimp only [FetchOut.st]
                  exact State.waitRow_keeps h41
              · refine Keeps.iteP (p := (fun r => (FetchOut.st r))) ?_ ?_
                · split
                  · rename_i v42 v43 v44 v45
                    have h46 : Keeps x ((v43, v44)).1 := by
                      rw [← v45]
                      exact State.sendReads_keeps h25
                    exact h46
                · exact h25

theorem State.gatherRows_keeps {x : State} {a0 : State} {a1 : Cmd} {a2 : GatherCtx} {a3 : Nat} (k0 : Keeps x a0) :
    Keeps x (State.gatherRows a0 a1 a2 a3).1 := by
  induction a3 generalizing a0 a2 with
  | zero => exact k0
  | succ n ih =>
    unfold State.gatherRows
    split
    · exact k0
    · rename_i f l e
      have h := State.gatherOne_keeps (x := x) (a0 := a0) (a1 := a1) (a2 := a2) (a3 := f) k0
      split
      · rename_i t y q; rw [q] at h; exact ih h
      · rename_i t q; rw [q] at h; exact h
      · rename_i t q; rw [q] at h; exact h

theorem State.gatherPump_keeps {x : State} {a0 : State} {a1 : Nat} (k0 : Keeps x a0) : Keeps x (State.gatherPump a0 a1) := by
  unfold State.gatherPump
  split
  · exact k0
  · rename_i c e
    refine Keeps.ite k0 ?_
    split
    · rename_i y q
      have h := State.gatherRows_keeps (x := x) (a0 := a0) (a1 := c) (a2 := y) (a3 := y.todo.length + 1) k0
      split
      · rename_i t z u r; rw [r] at h; exact State.gatherUe_keeps (State.mapCmd_keeps h)
      · rename_i t z r
        rw [r] at h
        extract_lets p ahead
        clear_value p ahead
        split
        rename_i v w g
        have hv : Keeps x ((v, w) : State × GatherCtx).1 := by
          rw [← g]
          exact Keeps.foldl (p := Prod.fst) (b := ((t, z) : State × GatherCtx)) h (fun b a hb => State.sendReads_keeps hb)
        exact State.gatherEnd_keeps (State.mapCmd_keeps hv)
    · exact k0

theorem State.gatherRun_keeps {x : State} {a0} {a1} (k0 : Keeps x a0) : Keeps x (State.gatherRun a0 a1) := by
  unfold State.gatherRun
  extract_lets l0
  clear_value l0
  split
  · rename_i v1 v2 v3 v4 v5
    have h6 : Keeps x ((v2, v3, v4)).1 := by
      rw [← v5]
      exact State.rgUsed_keeps k0
    split
    · rename_i v7 v8 v9 v10 v11
      have h12 : Keeps x ((v8, v9, v10)).1 := by
        rw [← v11]
        exact State.rgIndices_keeps h6
      extract_lets l13 l14 l15
      clear_value l13
      have h16 : Keeps x l14 := by
        unfold l14
        exact State.addCmd_keeps h12
      clear_value l14
      have h17 : Keeps x l15 := by
        unfold l15
        exact Keeps.ite (State.sqWrite_keeps (State.sqWrite_keeps h16)) h16
      clear_value l15
      exact Keeps.ite (State.gatherUe_keeps h16) (State.gatherPump_keeps h17)

theorem execRookGather_keeps {x : State} {a0} {a1} {a2} (k2 : Keeps x a2) : KeepsRes x (execRookGather a0 a1 a2) := by
  unfold execRookGather
  refine KeepsRes.next ?_
  refine State.command_keeps ?_ ?_ ?_
  · exact k2
  · intro a0 a1 a2
    exact rgCheck_keeps a2
  · intro a3 a4 a5
    exact State.gatherRun_keeps a5

theorem execRookReadBatchTimeout_keeps {x : State} {a0} {a1} {a2} (k2 : Keeps x a2) : KeepsRes x
    (execRookReadBatchTimeout a0 a1 a2) := by
  unfold execRookReadBatchTimeout
  refine KeepsRes.next ?_
  split
  · exact k2
  · split
    · split
      · split
        · rename_i v11 v12 v13 v14
          have h15 : Keeps x ((v12, v13)).1 := by
            rw [← v14]
            exact State.sendReads_keeps k2
          exact State.mapCmd_keeps h15
      · exact k2
    · exact k2

theorem State.sendRows_keeps {x : State} {a0} {a1} {a2} {a3} {a4} (k0 : Keeps x a0) : Keeps x (State.sendRows a0 a1
    a2 a3 a4) := by
  unfold State.sendRows
  exact Keeps.ite k0 (State.respond_keeps k0)

theorem State.serveRead_keeps {x : State} {a0} {a1} {a2} {a3} {a4} (k0 : Keeps x a0) : Keeps x (State.serveRead a0
    a1 a2 a3 a4).1 := by
  unfold State.serveRead
  split
  · exact k0
  · split
    · rename_i v5 v6 v7 v8
      have h9 : Keeps x ((v6, v7)).1 := by
        rw [← v8]
        exact State.readRow_keeps k0
      split
      · exact h9
      · exact State.waitRow_keeps h9

theorem State.onReadReq_keeps {x : State} {a0} {a1} (k0 : Keeps x a0) : Keeps x (State.onReadReq a0 a1) := by
  unfold State.onReadReq
  split
  · extract_lets l5 l6 l7
    clear_value l5
    have h8 : Keeps x l6.st := by
      unfold l6
      exact State.sortReq_keeps k0
    clear_value l6
    have h9 : Keeps x l7 := by
      unfold l7
      exact Sorted.passOn_keeps h8
    clear_value l7
    split
    · rename_i v10 v11 v12 v13
      have h14 : Keeps x ((v11, v12)).1 := by
        rw [← v13]
        refine Keeps.foldl (p := (fun r => (Prod.fst r))) ?_ (fun b15 a16 h17 => ?_)
        · exact h9
        · split
          · rename_i v18 v19 v20 v21
            have h22 : Keeps x ((v19, v20)).1 := by
              rw [← v21]
              exact State.serveRead_keeps h17
            exact h22
      exact State.sendRows_keeps h14
  · exact k0

theorem State.gatherGot_keeps {x : State} {a0} {a1} {a2} {a3} (k0 : Keeps x a0) : Keeps x (State.gatherGot a0 a1 a2
    a3) := by
  unfold State.gatherGot
  split
  · exact k0
  · split
    · split
      · exact k0
      · extract_lets l14 l15 l16 l17 l18
        clear_value l14 l15
        have h19 : Keeps x l16 := by
          unfold l16
          exact Keeps.ite (State.countFree_keeps k0) k0
        clear_value l16
        have h20 : ∀ b0, Keeps x (l17 b0) := by
          unfold l17
          intro a21
          exact State.mapCmd_keeps h19
        clear_value l17
        have h22 : Keeps x l18 := by
          unfold l18
          refine State.gatherTake_keeps ?_
          refine h20 _
        clear_value l18
        refine Keeps.ite ?_ ?_
        · exact k0
        · refine Keeps.ite ?_ ?_
          · refine State.gatherUe_keeps ?_
            refine h20 _
          · refine Keeps.ite ?_ ?_
            · refine State.gatherBad_keeps ?_
              refine h20 _
            · split
              · exact State.maybeReplicate_keeps h22
              · exact h22
    · exact k0

theorem State.onReadRsp_keeps {x : State} {a0} {a1} (k0 : Keeps x a0) : Keeps x (State.onReadRsp a0 a1) := by
  unfold State.onReadRsp
  split
  · refine State.gatherPump_keeps ?_
    refine Keeps.foldl (p := fun r => r) ?_ (fun b4 a5 h6 => ?_)
    · exact k0
    · exact State.gatherGot_keeps h6
  · exact k0

theorem State.rsUsed_keeps {x : State} {a0} {a1} (k0 : Keeps x a0) : Keeps x (State.rsUsed a0 a1).1 := by
  refine KeepsOf.out (p := Prod.fst) ?_
  unfold State.rsUsed
  extract_lets l0 l1
  clear_value l0
  have h2 : KeepsOf x ElemRes.st l1 := KeepsOf.mk (r := State.readElems ..) (State.readElems_keeps k0)
  clear_value l1
  exact KeepsOf.ite (KeepsOf.pair h2.out) (KeepsOf.pair k0)

theorem scatterCheck_keeps {x : State} {a0} {a1} (k0 : Keeps x a0) : Keeps x (scatterCheck.rest a0 a1).1 := by
  unfold scatterCheck
  dsimp -zeta only
  extract_lets l0
  clear_value l0
  refine Keeps.iteP (p := (fun r => (Prod.fst r))) ?_ ?_
  · exact k0
  · refine Keeps.iteP (p := (fun r => (Prod.fst r))) ?_ ?_
    · exact State.err_keeps (State.rsUsed_keeps k0)
    · refine Keeps.iteP (p := (fun r => (Prod.fst r))) ?_ ?_
      · exact State.rsUsed_keeps k0
      · refine Keeps.iteP (p := (fun r => (Prod.fst r))) ?_ ?_
        · exact State.rsUsed_keeps k0
        · exact State.rsUsed_keeps k0

theorem State.rsGrad_keeps {x : State} {a0} {a1} {a2} {a3} {a4} {a5} {a6} (k0 : Keeps x a0) : Keeps x (State.rsGrad
    a0 a1 a2 a3 a4 a5 a6).1 := by
  unfold State.rsGrad
  extract_lets l0 l1 l2 l3 l4 l5
  clear_value l0 l1 l2 l3
  have h6 : Keeps x l4.st := by
    unfold l4
    exact State.readElems_keeps k0
  clear_value l4
  have h7 : Keeps x l5.st := by
    unfold l5
    exact State.readElems_keeps h6
  clear_value l5
  refine Keeps.iteP (p := (fun r => (Prod.fst r))) ?_ ?_
  · exact k0
  · refine Keeps.iteP (p := (fun r => (Prod.fst r))) ?_ ?_
    · exact k0
    · refine Keeps.iteP (p := (fun r => (Prod.fst r))) ?_ ?_
      · exact h7
      · exact h7

theorem State.rsRecord_keeps {x : State} {a0} {a1} {a2} {a3} (k0 : Keeps x a0) : Keeps x (State.rsRecord a0 a1 a2
    a3).1 := by
  refine KeepsOf.out (p := Prod.fst) ?_
  unfold State.rsRecord
  extract_lets l0 l1 l2' l2 l3 l4 l5
  clear_value l0
  have h6 : KeepsOf x ElemRes.st l1 := KeepsOf.mk (r := State.readElems ..) (State.readElems_keeps k0)
  clear_value l1 l2'
  have h7 : KeepsOf x MemRes.st l2 := KeepsOf.mk (r := State.memRead ..) (State.memRead_keeps k0)
  clear_value l2
  have h8 : Keeps x l3 := State.recordMem_keeps h7.out
  clear_value l3 l4 l5
  exact KeepsOf.ite (KeepsOf.ite (KeepsOf.pair h6.out) (KeepsOf.mk (State.rsGrad_keeps h6.out)))
    (KeepsOf.ite (KeepsOf.pair h8) (KeepsOf.ite (KeepsOf.pair h8) (KeepsOf.mk (State.rsGrad_keeps h8))))

theorem State.sendScatter_keeps {x : State} {a0} {a1} {a2} {a3} (k0 : Keeps x a0) : Keeps x (State.sendScatter a0
    a1 a2 a3).1 := by
  unfold State.sendScatter
  extract_lets l0 l1
  clear_value l0 l1
  exact State.sendF0_keeps k0

theorem State.trySendScatter_keeps {x : State} {a0} {a1} {a2} {a3} (k0 : Keeps x a0) : Keeps x
    (State.trySendScatter a0 a1 a2 a3).1 := by
  unfold State.trySendScatter
  refine Keeps.iteP (p := (fun r => (Prod.fst r))) ?_ ?_
  · exact State.sendScatter_keeps k0
  · exact k0

theorem State.replaySquare_keeps {x : State} {a0} {a1} {a2} {a3} {a4} (k0 : Keeps x a0) : Keeps x
    (State.replaySquare a0 a1 a2 a3 a4).2 := by
  unfold State.replaySquare
  refine Keeps.iteP (p := (fun r => (Prod.snd r))) ?_ ?_
  · split
    · exact k0
    · split
      · rename_i v5 v6 v7 v8
        have h9 : Keeps x ((v6, v7)).2 := by
          rw [← v8]
          exact State.dieOthers_keeps k0
        exact h9
  · exact k0

theorem State.scatterOne_keeps {x : State} {a0} {a1} {a2} {a3} {a4} {a5} {a6} (k0 : Keeps x a0) : Keeps x
    (State.scatterOne a0 a1 a2 a3 a4 a5 a6).st := by
  unfold State.scatterOne
  extract_lets l0 l1 l2
  clear_value l0 l1 l2
  refine Keeps.iteP (p := (fun r => (SendOut.st r))) ?_ ?_
  · dsimp only [SendOut.st]
    exact State.addElems_keeps k0
  · split
    · exact k0
    · extract_lets l8 l9 l10 l11 l12 l13
      clear_value l8 l9 l10 l11 l12 l13
      refine Keeps.iteP (p := (fun r => (SendOut.st r))) ?_ ?_
      · exact k0
      · split
        · rename_i v14 v15 v16 v17
          have h18 : Keeps x ((v15, v16)).1 := by
            rw [← v17]
            exact State.lookup_keeps k0
          extract_lets l19
          have h20 : Keeps x l19 := by
            unfold l19
            exact State.count64_keeps h18
          clear_value l19
          refine Keeps.iteP (p := (fun r => (SendOut.st r))) ?_ ?_
          · exact h18
          · refine Keeps.iteP (p := (fun r => (SendOut.st r))) ?_ ?_
            · split
              · rename_i v21 v22 v23
                have h24 : Keeps x ((v22, EntryOut.kept)).1 := by
                  rw [← v23]
                  exact State.ownEntry_keeps h20
                exact h24
              · rename_i v25 v26 v27
                have h28 : Keeps x ((v26, EntryOut.held)).1 := by
                  rw [← v27]
                  exact State.ownEntry_keeps h20
                exact h28
              · rename_i v29 v30 v31 v32
                have h33 : Keeps x ((v30, EntryOut.lost v31)).1 := by
                  rw [← v32]
                  exact State.ownEntry_keeps h20
                dsimp only [SendOut.st]
                exact State.recordMem_keeps h33
            · split
              · rename_i v34 v35 v36 v37
                have h38 : Keeps x ((v35, v36)).1 := by
                  rw [← v37]
                  refine Keeps.iteP (p := (fun r => (Prod.fst r))) ?_ ?_
                  · exact State.sendScatter_keeps h20
                  · exact h20
                exact h38

theorem State.scatterRecs_keeps {x : State} {a0 : State} {a1 : Cmd} {a2 : ScatterCtx} {a3 : Nat} (k0 : Keeps x a0) :
    Keeps x (State.scatterRecs a0 a1 a2 a3).1 := by
  induction a3 generalizing a0 a2 with
  | zero => exact k0
  | succ n ih =>
    unfold State.scatterRecs
    refine Keeps.iteP (p := Prod.fst) k0 ?_
    extract_lets pg next
    have h := State.rsRecord_keeps (x := x) (a0 := a0) (a1 := a1) (a2 := a2) (a3 := a2.todo) k0
    split
    · rename_i t e; rw [e] at h; exact h
    · rename_i t e; rw [e] at h
      exact ih (State.mapCmd_keeps (State.err_keeps (State.count_keeps h)))
    · rename_i t e; rw [e] at h; exact ih (State.count_keeps h)
    · rename_i t u v w y z e
      rw [e] at h
      have g := State.replaySquare_keeps (x := x) (a0 := t) (a1 := a1) (a2 := w) (a3 := y) (a4 := z) h
      split
      rename_i sq t' e'
      rw [e'] at g
      have o := State.scatterOne_keeps (x := x) (a0 := t') (a1 := a1) (a2 := a2) (a3 := a2.todo) (a4 := u) (a5 := v) (a6 := sq) g
      split
      · rename_i p q r; rw [r] at o; exact ih o
      · exact k0
      · rename_i p r; rw [r] at o; exact o

theorem State.scatterEnd_keeps {x : State} {a0} {a1} {a2} (k0 : Keeps x a0) : Keeps x (State.scatterEnd a0 a1 a2)
    := by
  unfold State.scatterEnd
  exact Keeps.ite (State.mapCmd_keeps k0) k0

theorem State.freeSlot_keeps {x : State} {a0} {a1} {a2} (k0 : Keeps x a0) : Keeps x (State.freeSlot a0 a1 a2) := by
  unfold State.freeSlot
  split
  · rename_i v0 v1 v2 v3
    have h4 : Keeps x ((v1, v2)).2 := by
      rw [← v3]
      exact State.draw_keeps k0
    exact State.writeNarrow_keeps (State.releaseGroup_keeps h4)

theorem State.freeSlots_keeps {x : State} {a0} {a1} {a2} (k0 : Keeps x a0) : Keeps x (State.freeSlots a0 a1 a2) := by
  unfold State.freeSlots
  refine Keeps.foldl (p := fun r => r) ?_ (fun b0 a1 h2 => ?_)
  · exact k0
  · exact State.freeSlot_keeps h2

theorem State.freeTouched_keeps {x : State} {a0} {a1} {a2} (k0 : Keeps x a0) : Keeps x (State.freeTouched a0 a1 a2)
    := by
  unfold State.freeTouched
  refine Keeps.foldl (p := fun r => r) ?_ (fun b0 a1 h2 => ?_)
  · exact k0
  · refine Keeps.foldl (p := fun r => r) ?_ (fun b3 a4 h5 => ?_)
    · exact h2
    · exact State.freeSlots_keeps h5

theorem State.scatterSpoil_keeps {x : State} {a0} {a1} (k0 : Keeps x a0) : Keeps x (State.scatterSpoil a0 a1) := by
  unfold State.scatterSpoil
  extract_lets l0 l1
  clear_value l0 l1
  exact Keeps.ite (State.freeSlots_keeps k0) (State.freeTouched_keeps k0)

theorem State.scatterUe_keeps {x : State} {a0} {a1} {a2} {a3} (k0 : Keeps x a0) : Keeps x (State.scatterUe a0 a1 a2
    a3) := by
  unfold State.scatterUe
  extract_lets l0
  have h1 : Keeps x l0 := by
    unfold l0
    exact Keeps.ite k0 (State.err_keeps k0)
  clear_value l0
  exact State.endCmd_keeps (State.mapCmd_keeps (State.scatterSpoil_keeps h1))

theorem State.scatterPump_keeps {x : State} {a0} {a1} (k0 : Keeps x a0) : Keeps x (State.scatterPump a0 a1) := by
  unfold State.scatterPump
  split
  · exact k0
  · refine Keeps.ite ?_ ?_
    · exact k0
    · split
      · split
        · rename_i v8 v9 v10 v11 v12
          have h13 : Keeps x ((v9, v10, some v11)).1 := by
            rw [← v12]
            exact State.scatterRecs_keeps k0
          exact State.scatterUe_keeps h13
        · rename_i v14 v15 v16 v17
          have h18 : Keeps x ((v15, v16, none) : State × ScatterCtx × Option Bool).1 := by
            rw [← v17]
            exact State.scatterRecs_keeps k0
          extract_lets l19
          clear_value l19
          split
          · rename_i v20 v21 v22 v23
            have h24 : Keeps x ((v21, v22)).1 := by
              rw [← v23]
              refine Keeps.foldl (p := (fun r => (Prod.fst r))) ?_ (fun b25 a26 h27 => ?_)
              · exact h18
              · exact State.trySendScatter_keeps h27
            exact State.scatterEnd_keeps (State.mapCmd_keeps h24)
      · exact k0

theorem State.scatterRun_keeps {x : State} {a0} {a1} (k0 : Keeps x a0) : Keeps x (State.scatterRun a0 a1) := by
  unfold State.scatterRun
  split
  · rename_i v0 v1 v2 v3 v4
    have h5 : Keeps x ((v1, v2, v3)).1 := by
      rw [← v4]
      exact State.rsUsed_keeps k0
    exact State.scatterPump_keeps (State.addCmd_keeps h5)

theorem execRookScatter_keeps {x : State} {a0} {a1} {a2} (k2 : Keeps x a2) : KeepsRes x (execRookScatter a0 a1 a2)
    := by
  unfold execRookScatter
  refine KeepsRes.next ?_
  refine State.command_keeps ?_ ?_ ?_
  · exact k2
  · intro a0 a1 a2
    exact scatterCheck_keeps a2
  · intro a3 a4 a5
    exact State.scatterRun_keeps a5

theorem State.shadowAdj_keeps {x : State} {a0} {a1} {a2} (k0 : Keeps x a0) : Keeps x (State.shadowAdj a0 a1 a2).1
    := by
  unfold State.shadowAdj
  extract_lets l0 l1 l2
  clear_value l0
  have h3 : Keeps x l1 := by
    unfold l1
    exact State.count64_keeps (State.plcSend_keeps k0)
  clear_value l1 l2
  refine Keeps.iteP (p := (fun r => (Prod.fst r))) ?_ ?_
  · exact k0
  · refine Keeps.iteP (p := (fun r => (Prod.fst r))) ?_ ?_
    · exact Keeps.upd h3 rfl rfl rfl rfl
    · exact State.count_keeps k0

theorem State.storeHere_keeps {x : State} {a0} {a1} {a2} {a3} {a4} (k0 : Keeps x a0) : Keeps x (State.storeHere a0
    a1 a2 a3 a4).1 := by
  unfold State.storeHere
  extract_lets l0
  have h1 : Keeps x l0.st := by
    unfold l0
    exact State.storeEntry_keeps k0
  clear_value l0
  refine Keeps.iteP (p := (fun r => (Prod.fst r))) ?_ ?_
  · exact State.waitRow_keeps k0
  · refine Keeps.iteP (p := (fun r => (Prod.fst r))) ?_ ?_
    · exact k0
    · refine Keeps.iteP (p := (fun r => (Prod.fst r))) ?_ ?_
      · exact h1
      · refine Keeps.iteP (p := (fun r => (Prod.fst r))) ?_ ?_
        · exact h1
        · refine Keeps.iteP (p := (fun r => (Prod.fst r))) ?_ ?_
          · exact h1
          · split
            · rename_i v2 v3 v4 v5
              have h6 : Keeps x ((v3, v4)).1 := by
                rw [← v5]
                exact State.shadowAdj_keeps h1
              exact h6

theorem State.publish_keeps {x : State} {a0} {a1} {a2} (k0 : Keeps x a0) : Keeps x (State.publish a0 a1 a2) := by
  unfold State.publish
  extract_lets l0
  have h1 : Keeps x l0 := by
    unfold l0
    exact State.clearMark_keeps k0
  clear_value l0
  refine Keeps.ite ?_ ?_
  · refine Keeps.ite ?_ ?_
    · split
      · split
        · exact State.setTouch_keeps h1
        · exact h1
      · exact h1
    · exact h1
  · exact k0

theorem State.sendStores_keeps {x : State} {a0} {a1} {a2} {a3} (k0 : Keeps x a0) : Keeps x (State.sendStores a0 a1
    a2 a3).1 := by
  unfold State.sendStores
  extract_lets l0
  clear_value l0
  exact State.sendF0_keeps k0

theorem State.trySendStores_keeps {x : State} {a0} {a1} {a2} {a3} (k0 : Keeps x a0) : Keeps x (State.trySendStores
    a0 a1 a2 a3).1 := by
  unfold State.trySendStores
  refine Keeps.iteP (p := (fun r => (Prod.fst r))) ?_ ?_
  · exact State.sendStores_keeps k0
  · exact k0

theorem State.storeBad_keeps {x : State} {a0} {a1} (k0 : Keeps x a0) : Keeps x (State.storeBad a0 a1) := by
  unfold State.storeBad
  extract_lets l0
  clear_value l0
  exact State.mapCmd_keeps (State.err_keeps (State.count_keeps k0))

theorem State.storeOne_keeps {x : State} {a0} {a1} {a2} {a3} (k0 : Keeps x a0) : Keeps x (State.storeOne a0 a1 a2
    a3).st := by
  unfold State.storeOne
  extract_lets l0 l1 l2
  clear_value l0 l1
  have h3 : ∀ b0, Keeps x b0 → Keeps x (l2 b0).st := by
    unfold l2
    intro a4 a5
    dsimp only [SendOut.st]
    exact State.storeBad_keeps a5
  clear_value l2
  split
  · exact h3 _ k0
  · extract_lets l11 l12 l13 l14 l15 l16
    clear_value l11 l12 l13 l14 l15 l16
    refine Keeps.iteP (p := (fun r => (SendOut.st r))) ?_ ?_
    · exact h3 _ k0
    · refine Keeps.iteP (p := (fun r => (SendOut.st r))) ?_ ?_
      · split
        · rename_i v17 v18 v19 v20
          have h21 : Keeps x ((v18, v19)).1 := by
            rw [← v20]
            exact State.lookup_keeps k0
          refine Keeps.iteP (p := (fun r => (SendOut.st r))) ?_ ?_
          · exact h21
          · split
            · rename_i v22 v23 v24
              have h25 : Keeps x ((v23, StoreOut.later)).1 := by
                rw [← v24]
                exact State.storeHere_keeps h21
              exact h25
            · rename_i v26 v27 v28 v29
              have h30 : Keeps x ((v27, StoreOut.lost v28)).1 := by
                rw [← v29]
                exact State.storeHere_keeps h21
              dsimp only [SendOut.st]
              exact State.recordMem_keeps h30
            · rename_i v31 v32 v33 v34
              have h35 : Keeps x ((v32, StoreOut.written v33)).1 := by
                rw [← v34]
                exact State.storeHere_keeps h21
              dsimp only [SendOut.st]
              exact State.publish_keeps h35
      · refine Keeps.iteP (p := (fun r => (SendOut.st r))) ?_ ?_
        · exact h3 _ k0
        · refine Keeps.iteP (p := (fun r => (SendOut.st r))) ?_ ?_
          · exact k0
          · split
            · rename_i v36 v37 v38 v39
              have h40 : Keeps x ((v37, v38)).1 := by
                rw [← v39]
                exact State.lookup_keeps k0
              refine Keeps.iteP (p := (fun r => (SendOut.st r))) ?_ ?_
              · exact h40
              · split
                · rename_i v41 v42 v43 v44
                  have h45 : Keeps x ((v42, v43)).1 := by
                    rw [← v44]
                    refine Keeps.iteP (p := (fun r => (Prod.fst r))) ?_ ?_
                    · exact State.sendStores_keeps h40
                    · exact h40
                  exact h45

theorem State.storeRows_keeps {x : State} {a0 : State} {a1 : Cmd} {a2 : StoreCtx} {a3 : Nat} (k0 : Keeps x a0) :
    Keeps x (State.storeRows a0 a1 a2 a3).1 := by
  induction a3 generalizing a0 a2 with
  | zero => exact k0
  | succ n ih =>
    unfold State.storeRows
    split
    · exact k0
    · rename_i f l e
      have h := State.storeOne_keeps (x := x) (a0 := a0) (a1 := a1) (a2 := a2) (a3 := f) k0
      split
      · rename_i t y q; rw [q] at h; exact ih h
      · exact k0
      · rename_i t q; rw [q] at h; exact h

theorem State.freeCodes_keeps {x : State} {a0} {a1} {a2} (k0 : Keeps x a0) : Keeps x (State.freeCodes a0 a1 a2).1
    := by
  unfold State.freeCodes
  split
  · rename_i v0 v1 v2 v3
    have h4 : Keeps x ((v1, v2)).2 := by
      rw [← v3]
      exact State.drawN_keeps k0
    exact h4

theorem State.freeRow_keeps {x : State} {a0} {a1} {a2} (k0 : Keeps x a0) : Keeps x (State.freeRow a0 a1 a2) := by
  unfold State.freeRow
  split
  · exact k0
  · extract_lets l5
    clear_value l5
    refine Keeps.ite ?_ ?_
    · exact k0
    · refine Keeps.ite ?_ ?_
      · refine Keeps.ite ?_ ?_
        · split
          · rename_i v6 v7 v8 v9
            have h10 : Keeps x ((v7, v8)).1 := by
              rw [← v9]
              exact State.freeCodes_keeps k0
            exact State.storePlane_keeps h10
        · exact k0
      · split
        · rename_i v11 v12 v13 v14
          have h15 : Keeps x ((v12, v13)).2 := by
            rw [← v14]
            exact State.draw_keeps k0
          split
          · rename_i v16 v17 v18 v19
            have h20 : Keeps x ((v17, v18)).1 := by
              rw [← v19]
              exact State.freeCodes_keeps h15
            extract_lets l21
            clear_value l21
            exact State.storeAdj_keeps h20

theorem State.storeSpoil_keeps {x : State} {a0} {a1} {a2} (k0 : Keeps x a0) : Keeps x (State.storeSpoil a0 a1 a2)
    := by
  unfold State.storeSpoil
  refine Keeps.foldl (p := fun r => r) ?_ (fun b0 a1 h2 => ?_)
  · exact k0
  · exact State.freeRow_keeps h2

theorem State.storeUe_keeps {x : State} {a0} {a1} {a2} (k0 : Keeps x a0) : Keeps x (State.storeUe a0 a1 a2) := by
  unfold State.storeUe
  exact State.endCmd_keeps (State.mapCmd_keeps (State.dropWaits_keeps (State.storeSpoil_keeps k0)))

theorem State.storeEnd_keeps {x : State} {a0} {a1} {a2} (k0 : Keeps x a0) : Keeps x (State.storeEnd a0 a1 a2) := by
  unfold State.storeEnd
  exact Keeps.ite (State.mapCmd_keeps k0) k0

theorem State.storePump_keeps {x : State} {a0} {a1} (k0 : Keeps x a0) : Keeps x (State.storePump a0 a1) := by
  unfold State.storePump
  split
  · exact k0
  · refine Keeps.ite ?_ ?_
    · exact k0
    · split
      · split
        · rename_i v8 v9 v10 v11
          have h12 : Keeps x ((v9, v10, true)).1 := by
            rw [← v11]
            exact State.storeRows_keeps k0
          exact State.storeUe_keeps h12
        · rename_i v13 v14 v15 v16
          have h17 : Keeps x ((v14, v15, false)).1 := by
            rw [← v16]
            exact State.storeRows_keeps k0
          extract_lets l18
          clear_value l18
          split
          · rename_i v19 v20 v21 v22
            have h23 : Keeps x ((v20, v21)).1 := by
              rw [← v22]
              refine Keeps.foldl (p := (fun r => (Prod.fst r))) ?_ (fun b24 a25 h26 => ?_)
              · exact h17
              · exact State.trySendStores_keeps h26
            exact State.storeEnd_keeps (State.mapCmd_keeps h23)
      · exact k0

theorem State.storeStart_keeps {x : State} {a0} {a1} {a2} {a3} (k0 : Keeps x a0) : Keeps x (State.storeStart a0 a1
    a2 a3) := by
  unfold State.storeStart
  extract_lets l0 l1 l2 l3 l4
  clear_value l0 l1 l2
  have h5 : Keeps x l3 := by
    unfold l3
    exact State.addCmd_keeps k0
  clear_value l3
  have h6 : Keeps x l4 := by
    unfold l4
    exact Keeps.ite (State.err_keeps h5) h5
  clear_value l4
  exact Keeps.ite (State.storeUe_keeps h6) (State.storePump_keeps h6)

theorem State.planeEntry_keeps {x : State} {a0} {a1} {a2} {a3} {a4} {a5} {a6} (k0 : Keeps x a0) : Keeps x
    (State.planeEntry a0 a1 a2 a3 a4 a5 a6).1 := by
  unfold State.planeEntry
  extract_lets l0 l1
  clear_value l0
  have h2 : Keeps x l1.st := by
    unfold l1
    exact State.sqRead_keeps k0
  clear_value l1
  exact h2

theorem State.rookStoreRun_keeps {x : State} {a0} {a1} (k0 : Keeps x a0) : Keeps x (State.rookStoreRun a0 a1) := by
  unfold State.rookStoreRun
  extract_lets l0 l1
  clear_value l0 l1
  split
  · rename_i v2 v3 v4 v5 v6
    have h7 : Keeps x ((v3, v4, v5)).1 := by
      rw [← v6]
      exact State.rgUsed_keeps k0
    split
    · rename_i v8 v9 v10 v11 v12
      have h13 : Keeps x ((v9, v10, v11)).1 := by
        rw [← v12]
        exact State.rgIndices_keeps h7
      split
      · rename_i v14 v15 v16 v17
        have h18 : Keeps x ((v15, v16)).1 := by
          rw [← v17]
          refine Keeps.foldl (p := (fun r => (Prod.fst r))) ?_ (fun b19 a20 h21 => ?_)
          · exact h13
          · split
            · split
              · split
                · rename_i v29 v30 v31 v32
                  have h33 : Keeps x ((v30, v31)).1 := by
                    rw [← v32]
                    exact State.planeEntry_keeps h21
                  exact h33
              · exact h21
        exact State.storeStart_keeps h18

theorem execRookStore_keeps {x : State} {a0} {a1} {a2} (k2 : Keeps x a2) : KeepsRes x (execRookStore a0 a1 a2) := by
  unfold execRookStore
  refine KeepsRes.next ?_
  refine State.command_keeps ?_ ?_ ?_
  · exact k2
  · intro a0 a1 a2
    exact rgCheck_keeps a2
  · intro a3 a4 a5
    exact State.rookStoreRun_keeps a5

theorem State.loadImages_keeps {x : State} {a0} {a1} {a2} {a3} (k0 : Keeps x a0) : Keeps x (State.loadImages a0 a1
    a2 a3).1 := by
  refine KeepsOf.out (p := Prod.fst) ?_
  induction a2 generalizing a0 a1 a3
  · unfold State.loadImages
    exact KeepsOf.pair k0
  · rename_i v0 v1
    unfold State.loadImages
    extract_lets l2 l3 l4
    have h5 : KeepsOf x MemRes.st l2 := KeepsOf.mk (r := State.sqRead ..) (State.sqRead_keeps k0)
    clear_value l2 l3
    have h6 : KeepsOf x MemRes.st l4 := KeepsOf.mk (r := State.sqRead ..) (State.sqRead_keeps h5.out)
    clear_value l4
    refine KeepsOf.ite (KeepsOf.pair k0) (KeepsOf.ite (KeepsOf.pair h5.out) ?_)
    split
    · rename_i v7 v8 v9 v10
      have h11 : KeepsOf x Prod.fst (v8, some v9) := by
        rw [← v10]
        exact v1 h6.out
      exact KeepsOf.pair h11.out
    · rename_i v12 v13 v14
      have h15 : KeepsOf x Prod.fst ((v13, none) : State × Option (List (List Edge × List Nat))) := by
        rw [← v14]
        exact v1 h6.out
      exact KeepsOf.pair h15.out

theorem loadCheck_keeps {x : State} {a0} {a1} (k0 : Keeps x a0) : Keeps x (loadCheck.rest a0 a1).1 := by
  unfold loadCheck
  dsimp -zeta only
  extract_lets l0
  clear_value l0
  refine Keeps.iteP (p := (fun r => (Prod.fst r))) ?_ ?_
  · exact k0
  · refine Keeps.iteP (p := (fun r => (Prod.fst r))) ?_ ?_
    · split
      · rename_i v1 v2 v3 v4
        have h5 : Keeps x ((v2, some v3)).1 := by
          rw [← v4]
          exact State.loadImages_keeps k0
        exact h5
      · rename_i v6 v7 v8
        have h9 : Keeps x ((v7, none) : State × Option (List (List Edge × List ℕ))).1 := by
          rw [← v8]
          exact State.loadImages_keeps k0
        exact h9
    · exact k0

theorem State.plcLoadRun_keeps {x : State} {a0} {a1} (k0 : Keeps x a0) : Keeps x (State.plcLoadRun a0 a1) := by
  unfold State.plcLoadRun
  extract_lets l0 l1 l2 l3 l4
  clear_value l0 l1
  have h5 : Keeps x l2.st := by
    unfold l2
    exact State.readElems_keeps k0
  clear_value l2 l3 l4
  refine Keeps.ite ?_ ?_
  · split
    · rename_i v6 v7 v8 v9
      have h10 : Keeps x ((v7, v8)).1 := by
        rw [← v9]
        exact State.loadImages_keeps h5
      extract_lets l11
      clear_value l11
      exact State.storeStart_keeps h10
  · split
    · exact State.storeStart_keeps h5
    · split
      · rename_i v17 v18 v19 v20
        have h21 : Keeps x ((v18, v19)).1 := by
          rw [← v20]
          refine Keeps.foldl (p := (fun r => (Prod.fst r))) ?_ (fun b22 a23 h24 => ?_)
          · exact h5
          · split
            · rename_i v25 v26 v27 v28
              have h29 : Keeps x ((v26, v27)).1 := by
                rw [← v28]
                exact State.planeEntry_keeps h24
              exact h29
        exact State.storeStart_keeps h21

theorem execPlcLoad_keeps {x : State} {a0} {a1} {a2} (k2 : Keeps x a2) : KeepsRes x (execPlcLoad a0 a1 a2) := by
  unfold execPlcLoad
  refine KeepsRes.next ?_
  refine State.command_keeps ?_ ?_ ?_
  · exact k2
  · intro a0 a1 a2
    exact loadCheck_keeps a2
  · intro a3 a4 a5
    exact State.plcLoadRun_keeps a5

theorem execRookScatterBatchTimeout_keeps {x : State} {a0} {a1} {a2} (k2 : Keeps x a2) : KeepsRes x
    (execRookScatterBatchTimeout a0 a1 a2) := by
  unfold execRookScatterBatchTimeout
  refine KeepsRes.next ?_
  split
  · exact k2
  · split
    · split
      · rename_i v8 v9 v10 v11
        have h12 : Keeps x ((v9, v10)).1 := by
          rw [← v11]
          refine Keeps.foldl (p := (fun r => (Prod.fst r))) ?_ (fun b13 a14 h15 => ?_)
          · exact k2
          · exact State.trySendScatter_keeps h15
        exact State.mapCmd_keeps h12
    · split
      · rename_i v19 v20 v21 v22
        have h23 : Keeps x ((v20, v21)).1 := by
          rw [← v22]
          refine Keeps.foldl (p := (fun r => (Prod.fst r))) ?_ (fun b24 a25 h26 => ?_)
          · exact k2
          · exact State.trySendStores_keeps h26
        exact State.mapCmd_keeps h23
    · exact k2

theorem State.onStore_keeps {x : State} {a0} {a1} (k0 : Keeps x a0) : Keeps x (State.onStore a0 a1) := by
  unfold State.onStore
  split
  · extract_lets l6 l7 l8
    clear_value l6
    have h9 : Keeps x l7.st := by
      unfold l7
      exact State.sortReq_keeps k0
    clear_value l7
    have h10 : Keeps x l8 := by
      unfold l8
      exact Sorted.passOn_keeps h9
    clear_value l8
    refine Keeps.ite ?_ ?_
    · exact h10
    · split
      · rename_i v11 v12 v13 v14
        have h15 : Keeps x ((v12, v13)).2 := by
          rw [← v14]
          exact State.freshId_keeps h10
        extract_lets l16 l17
        clear_value l16 l17
        split
        · rename_i v18 v19 v20 v21
          have h22 : Keeps x ((v19, v20)).1 := by
            rw [← v21]
            refine Keeps.foldl (p := (fun r => (Prod.fst r))) ?_ (fun b23 a24 h25 => ?_)
            · exact h15
            · split
              · split
                · exact h25
                · split
                  · rename_i v34 v35 v36
                    have h37 : Keeps x ((v35, StoreOut.later)).1 := by
                      rw [← v36]
                      exact State.storeHere_keeps h25
                    exact h37
                  · rename_i v38 v39 v40 v41
                    have h42 : Keeps x ((v39, StoreOut.lost v40)).1 := by
                      rw [← v41]
                      exact State.storeHere_keeps h25
                    exact h42
                  · rename_i v43 v44 v45 v46
                    have h47 : Keeps x ((v44, StoreOut.written v45)).1 := by
                      rw [← v46]
                      exact State.storeHere_keeps h25
                    exact h47
          extract_lets l48
          clear_value l48
          exact State.pumpBatches_keeps (State.setPlc_keeps h22)
  · exact k0

theorem State.onWriteAck_keeps {x : State} {a0} {a1} (k0 : Keeps x a0) : Keeps x (State.onWriteAck a0 a1) := by
  unfold State.onWriteAck
  split
  · split
    · exact k0
    · refine Keeps.ite ?_ ?_
      · exact k0
      · split
        · extract_lets l15
          clear_value l15
          exact Keeps.ite (Keeps.ite (State.scatterUe_keeps k0) (State.scatterPump_keeps (State.mapCmd_keeps k0))) k0
        · extract_lets l19
          clear_value l19
          exact Keeps.ite (Keeps.ite (State.storeUe_keeps k0) (State.storePump_keeps (State.mapCmd_keeps k0))) k0
        · exact k0
  · exact k0

theorem State.heldEntry_keeps {x : State} {a0} {a1} {a2} (k0 : Keeps x a0) : Keeps x (State.heldEntry a0 a1 a2) := by
  unfold State.heldEntry
  split
  · rename_i v0 v1 v2 v3
    have h4 : Keeps x ((v1, v2)).1 := by
      rw [← v3]
      exact State.takeEntry_keeps k0
    extract_lets l5
    clear_value l5
    exact Keeps.ite (State.mapBatch_keeps h4) (State.scatterPump_keeps (State.mapCmd_keeps h4))

theorem State.releaseHeld_keeps {x : State} {a0} {a1} (k0 : Keeps x a0) : Keeps x (State.releaseHeld a0 a1) := by
  unfold State.releaseHeld
  extract_lets l0 l1
  clear_value l0 l1
  refine Keeps.ite ?_ ?_
  · exact k0
  · refine State.pumpBatches_keeps ?_
    refine Keeps.foldl (p := fun r => r) ?_ (fun b2 a3 h4 => ?_)
    · exact State.setRk_keeps k0
    · exact State.heldEntry_keeps h4

theorem State.releaseAll_keeps {x : State} {a0} (k0 : Keeps x a0) : Keeps x (State.releaseAll a0) := by
  unfold State.releaseAll
  refine Keeps.foldl (p := fun r => r) ?_ (fun b0 a1 h2 => ?_)
  · exact k0
  · exact State.releaseHeld_keeps h2

theorem State.storeDone_keeps {x : State} {a0} {a1} {a2} {a3} {a4} (k0 : Keeps x a0) : Keeps x (State.storeDone a0
    a1 a2 a3 a4) := by
  unfold State.storeDone
  exact Keeps.ite (State.pumpBatches_keeps (State.mapBatch_keeps k0)) (State.storePump_keeps (State.mapCmd_keeps k0))

theorem State.serveWait_keeps {x : State} {a0} {a1} (k0 : Keeps x a0) : Keeps x (State.serveWait a0 a1) := by
  unfold State.serveWait
  split
  · split
    · exact k0
    · split
      · extract_lets l12
        have h13 : Keeps x l12 := by
          unfold l12
          exact State.countFree_keeps (State.mapCmd_keeps k0)
        clear_value l12
        refine Keeps.ite ?_ ?_
        · exact k0
        · split
          · rename_i v14 v15 v16 v17 v18 v19 v20
            have h21 : Keeps x ((v15, RowRead.codes v16 v17 v18 v19)).1 := by
              rw [← v20]
              exact State.readRow_keeps h13
            exact State.gatherPump_keeps (State.gatherTake_keeps h21)
          · rename_i v22 v23 v24
            have h25 : Keeps x ((v23, RowRead.ue)).1 := by
              rw [← v24]
              exact State.readRow_keeps h13
            exact State.gatherUe_keeps h25
          · rename_i v26 v27 v28
            have h29 : Keeps x ((v27, RowRead.wait)).1 := by
              rw [← v28]
              exact State.readRow_keeps h13
            exact h29
      · exact k0
  · split
    · rename_i v37 v38 v39 v40
      have h41 : Keeps x ((v38, v39)).1 := by
        rw [← v40]
        exact State.readRow_keeps k0
      exact State.sendRows_keeps h41
  · extract_lets l46
    clear_value l46
    split
    · rename_i v47 v48 v49 v50
      have h51 : Keeps x ((v48, StoreOut.written v49)).1 := by
        rw [← v50]
        exact State.storeHere_keeps k0
      extract_lets l52
      have h53 : Keeps x l52 := by
        unfold l52
        split
        · exact State.publish_keeps h51
        · exact h51
      clear_value l52
      exact State.storeDone_keeps h53
    · rename_i v59 v60 v61 v62
      have h63 : Keeps x ((v60, StoreOut.lost v61)).1 := by
        rw [← v62]
        exact State.storeHere_keeps k0
      exact State.storeDone_keeps h63
    · rename_i v64 v65 v66
      have h67 : Keeps x ((v65, StoreOut.later)).1 := by
        rw [← v66]
        exact State.storeHere_keeps k0
      exact h67

theorem State.moveWait_keeps {x : State} {a0} {a1} (k0 : Keeps x a0) : Keeps x (State.moveWait a0 a1) := by
  unfold State.moveWait
  split
  · extract_lets l4
    have h5 : Keeps x l4 := by
      unfold l4
      split
      · exact State.countFree_keeps k0
      · exact k0
    clear_value l4
    exact State.gatherPump_keeps (State.mapCmd_keeps h5)
  · exact State.plcSend_keeps (State.count64_keeps k0)
  · split
    · exact State.pumpBatches_keeps (State.mapBatch_keeps (State.plcSend_keeps (State.count64_keeps k0)))
    · exact State.storePump_keeps (State.mapCmd_keeps k0)

theorem State.resumeRow_keeps {x : State} {a0} {a1} (k0 : Keeps x a0) : Keeps x (State.resumeRow a0 a1) := by
  unfold State.resumeRow
  refine Keeps.foldl (p := fun r => r) ?_ (fun b0 a1 h2 => ?_)
  · exact k0
  · extract_lets l3 l4
    clear_value l3
    have h5 : Keeps x l4 := by
      unfold l4
      exact State.setPlc_keeps h2
    clear_value l4
    exact Keeps.ite (State.moveWait_keeps h5) (Keeps.ite (State.serveWait_keeps h5) h2)

theorem execStrictReadResume_keeps {x : State} {a0} {a1} (k1 : Keeps x a1) : KeepsRes x (execStrictReadResume a0
    a1) := by
  unfold execStrictReadResume
  exact KeepsRes.next (State.resumeRow_keeps k1)

theorem State.moveWaits_keeps {x : State} {a0} (k0 : Keeps x a0) : Keeps x (State.moveWaits a0) := by
  unfold State.moveWaits
  refine State.aliasResume_keeps ?_
  refine Keeps.foldl (p := fun r => r) ?_ (fun b0 a1 h2 => ?_)
  · exact k0
  · exact State.resumeRow_keeps h2

theorem execPlcBoundary_keeps {x : State} {a0} {a1} (k1 : Keeps x a1) : KeepsRes x (execPlcBoundary a0 a1) := by
  unfold execPlcBoundary
  exact KeepsRes.next (State.moveWaits_keeps (State.plcBoundary_keeps k1))

theorem State.onDropOrder_keeps {x : State} {a0} {a1} (k0 : Keeps x a0) : Keeps x (State.onDropOrder a0 a1) := by
  unfold State.onDropOrder
  exact State.moveWaits_keeps (State.onReplicaDrop_keeps k0)

theorem State.onMigrationChange_keeps {x : State} {a0} {a1} (k0 : Keeps x a0) : Keeps x (State.onMigrationChange a0
    a1) := by
  unfold State.onMigrationChange
  split
  · extract_lets l5
    have h6 : Keeps x l5 := by
      unfold l5
      exact State.onMigChange_keeps k0
    clear_value l5
    exact Keeps.ite (State.aliasResume_keeps (State.resumeRow_keeps h6)) h6
  · exact k0

end Sys2Proof.Machine
end

