-- ==== Sys2Proof/Laws/KeepsReduce.lean ====
section
/-! SUPPORT. What the operations of Machine/Reduce.lean keep (`Keeps`, Laws/Keeps.lean). -/

namespace Sys2Proof.Machine

theorem State.setCtx_keeps {x : State} {a0} {a1} {a2} (k0 : Keeps x a0) : Keeps x (State.setCtx a0 a1 a2) := by
  unfold State.setCtx
  exact Keeps.upd k0 rfl rfl rfl rfl

theorem State.sendRed_keeps {x : State} {a0} {a1} {a2} {a3} {a4} {a5} {a6} (k0 : Keeps x a0) : Keeps x
    (State.sendRed a0 a1 a2 a3 a4 a5 a6) := by
  unfold State.sendRed
  extract_lets l0
  clear_value l0
  exact State.sendPkt_keeps k0

theorem State.collSpoil_keeps {x : State} {a0} {a1} {a2} (k0 : Keeps x a0) : Keeps x (State.collSpoil a0 a1 a2) := by
  unfold State.collSpoil
  split
  · extract_lets l7 l8 l9
    clear_value l7 l8
    have h10 : Keeps x l9 := by
      unfold l9
      exact Keeps.ite k0 (Keeps.ite (State.freeMem_keeps k0) (State.freeMem_keeps (State.freeMem_keeps k0)))
    clear_value l9
    refine Keeps.ite ?_ ?_
    · split
      · rename_i v11 v12 v13 v14
        have h15 : Keeps x ((v12, v13)).2 := by
          rw [← v14]
          exact State.draw_keeps h10
        exact State.sqWrite_keeps h15
    · exact h10
  · exact k0

theorem State.endOne_keeps {x : State} {a0} {a1} {a2} {a3} (k0 : Keeps x a0) : Keeps x (State.endOne a0 a1 a2 a3)
    := by
  unfold State.endOne
  split
  · exact k0
  · refine Keeps.ite ?_ ?_
    · exact k0
    · split
      · rename_i v5 v6 v7 v8
        have h9 : Keeps x ((v6, v7)).2 := by
          rw [← v8]
          exact State.draw_keeps (State.collSpoil_keeps k0)
        exact State.mapCmd_keeps (State.endCmd_keeps h9)

theorem State.endInstance_keeps {x : State} {a0} {a1} {a2} (k0 : Keeps x a0) : Keeps x (State.endInstance a0 a1 a2)
    := by
  unfold State.endInstance
  extract_lets l0
  have h1 : Keeps x l0 := by
    unfold l0
    refine Keeps.foldl (p := fun r => r) ?_ (fun b2 a3 h4 => ?_)
    · exact k0
    · exact State.endOne_keeps h4
  clear_value l0
  exact Keeps.ite (State.setRecovery_keeps h1) h1

theorem State.abortLocal_keeps {x : State} {a0} {a1} {a2} (k0 : Keeps x a0) : Keeps x (State.abortLocal a0 a1 a2)
    := by
  unfold State.abortLocal
  extract_lets l0 l1 l2
  clear_value l0
  have h3 : Keeps x l1 := by
    unfold l1
    exact State.endInstance_keeps k0
  clear_value l1 l2
  exact State.setCtx_keeps h3

theorem State.redAbort_keeps {x : State} {a0} {a1} {a2} (k0 : Keeps x a0) : Keeps x (State.redAbort a0 a1 a2) := by
  unfold State.redAbort
  extract_lets l0 l1 l2 l3 l4 l5
  clear_value l0
  have h6 : Keeps x l1 := by
    unfold l1
    exact State.err_keeps (State.count_keeps k0)
  clear_value l1 l2 l3 l4
  have h7 : Keeps x l5 := by
    unfold l5
    refine Keeps.foldl (p := fun r => r) ?_ (fun b8 a9 h10 => ?_)
    · exact h6
    · exact State.sendRed_keeps h10
  clear_value l5
  exact Keeps.ite k0 (State.abortLocal_keeps h7)

theorem State.redMismatch_keeps {x : State} {a0} {a1} (k0 : Keeps x a0) : Keeps x (State.redMismatch a0 a1) := by
  unfold State.redMismatch
  exact State.redAbort_keeps (State.err_keeps (State.count_keeps k0))

theorem State.writeResult_keeps {x : State} {a0} {a1} {a2} {a3} {a4} {a5} {a6} {a7} (k0 : Keeps x a0) : Keeps x
    (State.writeResult a0 a1 a2 a3 a4 a5 a6 a7) := by
  unfold State.writeResult
  extract_lets l0 l1 l2 l3 l4 l5 l6 l7 l8
  clear_value l0 l1 l2 l3 l4
  have h9 : Keeps x l5.st := by
    unfold l5
    exact State.memWrite_keeps k0
  clear_value l5 l6
  have h10 : Keeps x l7.st := by
    unfold l7
    exact State.memWrite_keeps k0
  clear_value l7
  have h11 : Keeps x l8.st := by
    unfold l8
    exact State.memWrite_keeps h10
  clear_value l8
  exact Keeps.ite (State.mapCmd_keeps h9) (State.mapCmd_keeps h11)

theorem State.deliverChunk_keeps {x : State} {a0} {a1} {a2} {a3} (k0 : Keeps x a0) : Keeps x (State.deliverChunk a0
    a1 a2 a3) := by
  unfold State.deliverChunk
  split
  · exact k0
  · split
    · refine Keeps.foldl (p := fun r => r) ?_ (fun b12 a13 h14 => ?_)
      · exact k0
      · split
        · exact State.writeResult_keeps h14
        · exact h14
    · exact k0

theorem State.finishInstance_keeps {x : State} {a0} {a1} (k0 : Keeps x a0) : Keeps x (State.finishInstance a0 a1)
    := by
  unfold State.finishInstance
  extract_lets l0 l1 l2 l3 l4 l5
  clear_value l0 l1 l2 l3
  have h6 : Keeps x l4 := by
    unfold l4
    refine Keeps.foldl (p := fun r => r) ?_ (fun b7 a8 h9 => ?_)
    · exact k0
    · split
      · exact h9
      · extract_lets l15
        have h16 : Keeps x l15 := by
          unfold l15
          split
          · exact State.sqWrite_keeps h9
          · exact h9
        clear_value l15
        exact State.mapCmd_keeps h16
  clear_value l4 l5
  exact State.setCtx_keeps h6

theorem State.redResult_keeps {x : State} {a0} {a1} {a2} (k0 : Keeps x a0) : Keeps x (State.redResult a0 a1 a2) := by
  unfold State.redResult
  extract_lets l0 l1 l2 l3 l4
  clear_value l0 l1
  have h5 : Keeps x l2 := by
    unfold l2
    refine Keeps.foldl (p := fun r => r) ?_ (fun b6 a7 h8 => ?_)
    · exact k0
    · exact State.sendRed_keeps h8
  clear_value l2
  have h9 : Keeps x l3 := by
    unfold l3
    exact State.setCtx_keeps h5
  clear_value l3
  have h10 : Keeps x l4 := by
    unfold l4
    refine Keeps.foldl (p := fun r => r) ?_ (fun b11 a12 h13 => ?_)
    · exact h9
    · exact State.deliverChunk_keeps h13
  clear_value l4
  exact Keeps.ite (State.count_keeps k0) (Keeps.ite (State.finishInstance_keeps h10) h10)

theorem State.redFit_keeps {x : State} {a0} {a1} {a2} {a3} (k3 : Keeps x a3) : OptAll (fun r => Keeps x r)
    (State.redFit a0 a1 a2 a3) := by
  induction a2 generalizing a0 a1 a3
  · unfold State.redFit
    exact OptAll.ite (OptAll.some k3) OptAll.none
  · rename_i v0 v1
    unfold State.redFit
    extract_lets l2
    clear_value l2
    refine OptAll.ite ?_ ?_
    · exact OptAll.some k3
    · split
      · exact OptAll.none
      · extract_lets l9
        have h10 : Keeps x l9 := by
          unfold l9
          exact State.count_keeps (State.setCtx_keeps k3)
        clear_value l9
        exact v1 (State.owe_keeps h10)

theorem State.redMake_keeps {x : State} {a0} {a1} {a2} (k0 : Keeps x a0) : OptAll (fun r => Keeps x r)
    (State.redMake a0 a1 a2) := by
  unfold State.redMake
  exact State.redFit_keeps k0

theorem State.redRoom_keeps {x : State} {a0} {a1} {a2} (k0 : Keeps x a0) : OptAll (fun r => Keeps x r.1)
    (State.redRoom a0 a1 a2) := by
  unfold State.redRoom
  split
  · rename_i v0 v1 v2
    have h3 : OptAll (fun r => Keeps x r) (some v1) := by
      rw [← v2]
      exact State.redMake_keeps k0
    exact OptAll.some (OptAll.get h3 :)
  · exact OptAll.ite (OptAll.some (State.owe_keeps (State.count_keeps k0))) OptAll.none

theorem State.unspill_keeps {x : State} {a0} {a1} {a2} {a3} (k0 : Keeps x a0) : Keeps x (State.unspill a0 a1 a2 a3)
    := by
  unfold State.unspill
  exact State.owe_keeps k0

theorem State.nanBlocks_keeps {x : State} {a0} {a1} {a2} (k0 : Keeps x a0) : Keeps x (State.nanBlocks a0 a1 a2) := by
  unfold State.nanBlocks
  exact Keeps.ite k0 (State.err_keeps (State.count_keeps k0))

theorem State.addUp_keeps {x : State} {a0} {a1} {a2} {a3} (k0 : Keeps x a0) : Keeps x (State.addUp a0 a1 a2 a3).1
    := by
  unfold State.addUp
  extract_lets l0 l1 l2 l3 l4 l5 l6
  clear_value l0 l1 l2 l3
  have h7 : Keeps x l4 := by
    unfold l4
    exact State.count_keeps (State.count64_keeps k0)
  clear_value l4
  have h8 : Keeps x l5 := by
    unfold l5
    exact State.nanBlocks_keeps h7
  clear_value l5 l6
  exact h8

theorem State.addHeld_keeps {x : State} {a0} {a1} {a2} {a3} (k0 : Keeps x a0) : Keeps x (State.addHeld a0 a1 a2
    a3).1 := by
  induction a2 generalizing a0 a1 a3
  · unfold State.addHeld
    exact k0
  · rename_i v0 v1
    unfold State.addHeld
    split
    · exact k0
    · split
      · rename_i v7 v8 v9 v10
        have h11 : Keeps x ((v8, v9)).1 := by
          rw [← v10]
          exact State.addUp_keeps (State.unspill_keeps k0)
        exact v1 h11

theorem State.encodeChunk_keeps {x : State} {a0} {a1} {a2} {a3} (k0 : Keeps x a0) : Keeps x (State.encodeChunk a0
    a1 a2 a3).1 := by
  unfold State.encodeChunk
  extract_lets l0 l1 l2
  clear_value l0 l1
  have h3 : Keeps x l2 := by
    unfold l2
    exact State.nanBlocks_keeps (State.count_keeps k0)
  clear_value l2
  exact h3

theorem State.keepUp_keeps {x : State} {a0} {a1} {a2} {a3} (k0 : Keeps x a0) : Keeps x (State.keepUp a0 a1 a2 a3)
    := by
  unfold State.keepUp
  extract_lets l0
  clear_value l0
  exact State.owe_keeps (State.setCtx_keeps k0)

theorem State.sendUp_keeps {x : State} {a0} {a1} {a2} {a3} {a4} (k0 : Keeps x a0) : Keeps x (State.sendUp a0 a1 a2
    a3 a4) := by
  unfold State.sendUp
  extract_lets l0
  clear_value l0
  exact State.sendPkt_keeps (State.keepUp_keeps k0)

theorem State.redDrop_keeps {x : State} {a0} {a1} {a2} {a3} {a4} (k0 : Keeps x a0) : Keeps x (State.redDrop a0 a1
    a2 a3 a4) := by
  unfold State.redDrop
  extract_lets l0
  have h1 : Keeps x l0 := by
    unfold l0
    exact State.err_keeps (State.count_keeps k0)
  clear_value l0
  exact Keeps.ite (State.keepUp_keeps h1) h1

theorem State.nodeAdd_keeps {x : State} {a0} {a1} {a2} {a3} {a4} {a5} (k0 : Keeps x a0) : Keeps x (State.nodeAdd a0
    a1 a2 a3 a4 a5) := by
  induction a5 generalizing a0 a1 a2 a3 a4
  · unfold State.nodeAdd
    exact k0
  · rename_i v0 v1
    unfold State.nodeAdd
    extract_lets l2 l3 l4
    clear_value l2 l3
    have h5 : Keeps x l4 := by
      unfold l4
      exact State.count_keeps k0
    clear_value l4
    split
    · exact State.redMismatch_keeps k0
    · extract_lets l11
      clear_value l11
      refine Keeps.ite ?_ ?_
      · exact State.redMismatch_keeps k0
      · refine Keeps.ite ?_ ?_
        · split
          · exact Keeps.ite h5 (State.sendRed_keeps h5)
          · exact h5
        · refine Keeps.ite ?_ ?_
          · split
            · exact State.redDrop_keeps k0
            · rename_i v19 v20 v21 v22
              have h23 : OptAll (fun r => Keeps x r.1) (some (v20, v21)) := by
                rw [← v22]
                exact State.redRoom_keeps k0
              exact State.setCtx_keeps (State.count64_keeps (OptAll.get h23 :))
          · split
            · split
              · exact State.redDrop_keeps k0
              · rename_i v28 v29 v30 v31
                have h32 : OptAll (fun r => Keeps x r.1) (some (v29, v30)) := by
                  rw [← v31]
                  exact State.redRoom_keeps k0
                exact State.setCtx_keeps (OptAll.get h32 :)
            · rename_i v33 v34 v35
              have h36 : OptAll (fun r => Keeps x r) (some v34) := by
                rw [← v35]
                exact State.redMake_keeps k0
              extract_lets l37
              clear_value l37
              split
              · rename_i v38 v39 v40 v41
                have h42 : Keeps x ((v39, v40)).1 := by
                  rw [← v41]
                  exact State.addUp_keeps (OptAll.get h36 :)
                split
                · rename_i v43 v44 v45 v46
                  have h47 : Keeps x ((v44, v45)).1 := by
                    rw [← v46]
                    exact State.addHeld_keeps h42
                  refine Keeps.ite ?_ ?_
                  · exact State.setCtx_keeps h47
                  · split
                    · rename_i v48 v49 v50 v51 v52
                      have h53 : Keeps x ((v49, v50, v51)).1 := by
                        rw [← v52]
                        exact State.encodeChunk_keeps h47
                      extract_lets l54 l55
                      have h56 : Keeps x l54 := by
                        unfold l54
                        exact State.setCtx_keeps h53
                      clear_value l54 l55
                      split
                      · exact State.redResult_keeps h56
                      · extract_lets l62
                        clear_value l62
                        exact Keeps.ite (v1 h56) (State.sendUp_keeps h56)

theorem State.redPump_keeps {x : State} {a0} {a1} {a2} (k2 : Keeps x a2) : Keeps x (State.redPump a0 a1 a2) := by
  induction a1 generalizing a0 a2
  · unfold State.redPump
    exact k2
  · rename_i v0 v1
    unfold State.redPump
    split
    · exact k2
    · extract_lets l9 l10
      clear_value l9
      have h11 : Keeps x l10 := by
        unfold l10
        exact State.setCtx_keeps k2
      clear_value l10
      split
      · exact k2
      · rename_i v14 v15 v16
        have h17 : OptAll (fun r => Keeps x r) (some v15) := by
          rw [← v16]
          exact State.redMake_keeps h11
        exact v1 (State.nodeAdd_keeps (State.unspill_keeps (OptAll.get h17 :)))

theorem State.backupAdd_keeps {x : State} {a0} {a1} {a2} {a3} {a4} (k0 : Keeps x a0) : Keeps x (State.backupAdd a0
    a1 a2 a3 a4) := by
  unfold State.backupAdd
  extract_lets l0 l1 l2 l3
  clear_value l0 l1
  have h4 : Keeps x l2 := by
    unfold l2
    exact State.setCtx_keeps k0
  clear_value l2
  have h5 : ∀ b0, Keeps x b0 → Keeps x (l3 b0) := by
    unfold l3
    intro a6 a7
    split
    · exact Keeps.ite a7 (State.sendRed_keeps a7)
    · exact a7
  clear_value l3
  split
  · exact Keeps.ite (Keeps.ite (h5 _ (State.count_keeps h4)) (State.nodeAdd_keeps h4)) (h5 _ (State.count_keeps h4))
  · refine Keeps.ite ?_ ?_
    · exact State.count_keeps h4
    · split
      · exact State.redDrop_keeps h4
      · rename_i v22 v23 v24 v25
        have h26 : OptAll (fun r => Keeps x r.1) (some (v23, v24)) := by
          rw [← v25]
          exact State.redRoom_keeps h4
        extract_lets l27 l28 l29 l30 l31
        clear_value l27 l28 l29 l30
        have h32 : Keeps x l31 := by
          unfold l31
          exact State.setCtx_keeps (State.count_keeps (OptAll.get h26 :))
        clear_value l31
        refine Keeps.ite ?_ ?_
        · exact State.setCtx_keeps (OptAll.get h26 :)
        · refine Keeps.foldl (p := fun r => r) ?_ (fun b33 a34 h35 => ?_)
          · exact h32
          · split
            · exact State.nodeAdd_keeps (State.unspill_keeps h35)
            · exact h35

theorem State.upHere_keeps {x : State} {a0} {a1} {a2} {a3} {a4} (k0 : Keeps x a0) : Keeps x (State.upHere a0 a1 a2
    a3 a4) := by
  unfold State.upHere
  extract_lets l0 l1
  clear_value l0
  have h2 : Keeps x l1 := by
    unfold l1
    refine Keeps.ite ?_ ?_
    · split
      · exact Keeps.ite (State.backupAdd_keeps k0) (State.redMismatch_keeps k0)
      · exact State.redMismatch_keeps k0
    · exact State.nodeAdd_keeps k0
  clear_value l1
  exact Keeps.ite (State.redAbort_keeps (State.err_keeps k0)) (State.redPump_keeps h2)

theorem State.redStale_keeps {x : State} {a0} {a1} (k0 : Keeps x a0) : Keeps x (State.redStale a0 a1) := by
  unfold State.redStale
  exact State.count_keeps k0

theorem State.redEarly_keeps {x : State} {a0} {a1} {a2} (k0 : Keeps x a0) : Keeps x (State.redEarly a0 a1 a2) := by
  unfold State.redEarly
  split
  · exact State.err_keeps (State.count_keeps k0)
  · rename_i v2 v3 v4 v5
    have h6 : OptAll (fun r => Keeps x r.1) (some (v3, v4)) := by
      rw [← v5]
      exact State.redRoom_keeps k0
    extract_lets l7
    clear_value l7
    exact State.setCtx_keeps (OptAll.get h6 :)

theorem State.upActive_keeps {x : State} {a0} {a1} {a2} (k0 : Keeps x a0) : Keeps x (State.upActive a0 a1 a2) := by
  unfold State.upActive
  extract_lets l0
  clear_value l0
  exact Keeps.ite (State.redMismatch_keeps k0) (State.upHere_keeps k0)

theorem State.downActive_keeps {x : State} {a0} {a1} {a2} (k0 : Keeps x a0) : Keeps x (State.downActive a0 a1 a2)
    := by
  unfold State.downActive
  extract_lets l0 l1 l2 l3 l4
  clear_value l0 l1 l2 l3
  have h5 : Keeps x l4 := by
    unfold l4
    refine Keeps.foldl (p := fun r => r) ?_ (fun b6 a7 h8 => ?_)
    · exact k0
    · exact State.sendRed_keeps h8
  clear_value l4
  exact Keeps.ite (Keeps.ite (State.redResult_keeps k0) (State.redMismatch_keeps k0)) (State.abortLocal_keeps h5)

theorem State.onRedUp_keeps {x : State} {a0} {a1} (k0 : Keeps x a0) : Keeps x (State.onRedUp a0 a1) := by
  unfold State.onRedUp
  split
  · extract_lets l3 l4 l5
    clear_value l3 l4
    have h6 : Keeps x l5 := by
      unfold l5
      exact Keeps.ite (State.count_keeps k0) (Keeps.ite (State.count_keeps k0) k0)
    clear_value l5
    refine Keeps.ite ?_ ?_
    · exact State.redStale_keeps k0
    · refine Keeps.ite ?_ ?_
      · exact State.redEarly_keeps k0
      · refine Keeps.ite ?_ ?_
        · exact State.redStale_keeps k0
        · split
          · exact State.upActive_keeps k0
          · split
            · exact State.sendRed_keeps h6
            · exact State.sendRed_keeps h6
            · exact h6
  · exact k0

theorem State.onRedDown_keeps {x : State} {a0} {a1} (k0 : Keeps x a0) : Keeps x (State.onRedDown a0 a1) := by
  unfold State.onRedDown
  split
  · extract_lets l3 l4
    clear_value l3 l4
    refine Keeps.ite ?_ ?_
    · exact State.redStale_keeps k0
    · refine Keeps.ite ?_ ?_
      · exact State.redEarly_keeps k0
      · refine Keeps.ite ?_ ?_
        · exact State.redStale_keeps k0
        · split
          · exact State.downActive_keeps k0
          · exact Keeps.ite (State.count_keeps k0) k0
  · exact k0

theorem collCheck_keeps {x : State} {a0} {a1} (k0 : Keeps x a0) : Keeps x (collCheck.rest a0 a1).1 := by
  refine KeepsOf.out (p := Prod.fst) ?_
  unfold collCheck
  dsimp -zeta only
  extract_lets l0 l1 l2 l3 l4 l5 l6
  clear_value l0 l1 l2 l4 l5
  have h7 : KeepsOf x MemRes.st l6 := KeepsOf.mk (r := State.sqRead ..) (State.sqRead_keeps k0)
  clear_value l6
  exact KeepsOf.ite (KeepsOf.pair k0) (KeepsOf.ite (KeepsOf.pair h7.out)
    (KeepsOf.ite (KeepsOf.pair h7.out) (KeepsOf.pair h7.out)))

theorem State.sourceBlock_keeps {x : State} {a0} {a1} {a2} {a3} (k0 : Keeps x a0) : Keeps x (State.sourceBlock a0
    a1 a2 a3).1 := by
  unfold State.sourceBlock
  extract_lets l0 l1 l2 l3 l4 l5 l6 l7 l8 l9 l10
  clear_value l0 l1 l2 l3
  have h11 : Keeps x l4.st := by
    unfold l4
    exact State.memRead_keeps k0
  clear_value l4
  have h12 : Keeps x l5 := by
    unfold l5
    exact State.mapCmd_keeps h11
  clear_value l5 l6
  have h13 : Keeps x l7.st := by
    unfold l7
    exact State.memRead_keeps k0
  clear_value l7
  have h14 : Keeps x l8.st := by
    unfold l8
    exact State.memRead_keeps h13
  clear_value l8
  have h15 : Keeps x l9 := by
    unfold l9
    exact State.mapCmd_keeps h14
  clear_value l9 l10
  refine Keeps.iteP (p := (fun r => (Prod.fst r))) ?_ ?_
  · exact h12
  · exact h15

theorem State.contribute_keeps {x : State} {a0} {a1} {a2} {a3} (k0 : Keeps x a0) : Keeps x (State.contribute a0 a1
    a2 a3) := by
  unfold State.contribute
  extract_lets l0
  clear_value l0
  split
  · exact k0
  · extract_lets l6
    clear_value l6
    exact Keeps.ite (State.upHere_keeps k0) (State.sendUp_keeps k0)

theorem State.sendChunk_keeps {x : State} {a0} {a1} {a2} {a3} {a4} {a5} {a6} {a7} (k0 : Keeps x a0) : Keeps x
    (State.sendChunk a0 a1 a2 a3 a4 a5 a6 a7) := by
  unfold State.sendChunk
  extract_lets l0
  clear_value l0
  refine Keeps.ite ?_ ?_
  · exact k0
  · split
    · rename_i v1 v2 v3 v4 v5
      have h6 : Keeps x ((v2, v3, v4)).1 := by
        rw [← v5]
        refine Keeps.foldl (p := (fun r => (Prod.fst r))) ?_ (fun b7 a8 h9 => ?_)
        · exact k0
        · split
          · rename_i v10 v11 v12 v13 v14
            have h15 : Keeps x ((v11, v12, v13)).1 := by
              rw [← v14]
              exact State.sourceBlock_keeps h9
            exact h15
      extract_lets l16
      have h17 : Keeps x l16 := by
        unfold l16
        exact State.nanBlocks_keeps h6
      clear_value l16
      exact State.contribute_keeps h17

theorem State.collContribute_keeps {x : State} {a0} {a1} (k0 : Keeps x a0) : Keeps x (State.collContribute a0 a1)
    := by
  unfold State.collContribute
  split
  · exact k0
  · split
    · extract_lets l11 l12
      clear_value l11 l12
      refine Keeps.ite ?_ ?_
      · exact k0
      · split
        · rename_i v13 v14 v15 v16
          have h17 : Keeps x ((v14, v15)).1 := by
            rw [← v16]
            refine Keeps.iteP (p := (fun r => (Prod.fst r))) ?_ ?_
            · split
              · rename_i v18 v19 v20 v21
                have h22 : Keeps x ((v19, v20)).1 := by
                  rw [← v21]
                  exact State.entryRead_keeps k0
                exact Keeps.ite (State.scsZero_keeps h22) h22
            · exact k0
          extract_lets l23
          have h24 : Keeps x l23 := by
            unfold l23
            exact State.mapCmd_keeps h17
          clear_value l23
          refine Keeps.foldl (p := fun r => r) ?_ (fun b25 a26 h27 => ?_)
          · exact h24
          · exact State.sendChunk_keeps h27
    · exact k0

theorem State.collRun_keeps {x : State} {a0} {a1} (k0 : Keeps x a0) : Keeps x (State.collRun a0 a1) := by
  unfold State.collRun
  extract_lets l0 l1 l2 l3 l4 l5 l6 l7 l8 l9 l10 l11
  clear_value l0 l1 l2 l3 l4 l6 l7
  have h12 : Keeps x l8 := by
    unfold l8
    exact State.addCmd_keeps k0
  clear_value l8
  have h13 : Keeps x l9 := by
    unfold l9
    exact State.setCtx_keeps h12
  clear_value l9
  have h14 : Keeps x l10 := by
    unfold l10
    refine Keeps.foldl (p := fun r => r) ?_ (fun b15 a16 h17 => ?_)
    · exact h13
    · exact State.deliverChunk_keeps h17
  clear_value l10
  have h18 : Keeps x l11 := by
    unfold l11
    refine Keeps.ite ?_ ?_
    · refine Keeps.foldl (p := fun r => r) ?_ (fun b19 a20 h21 => ?_)
      · exact h14
      · extract_lets l22 l23
        have h24 : Keeps x l22 := by
          unfold l22
          exact State.unspill_keeps h21
        clear_value l22 l23
        split
        · exact Keeps.ite (State.upActive_keeps h24) (Keeps.ite (State.redEarly_keeps h24) (State.redStale_keeps h24))
        · exact Keeps.ite (State.downActive_keeps h24) (Keeps.ite (State.redEarly_keeps h24) (State.redStale_keeps
              h24))
        · exact h24
    · exact h14
  clear_value l11
  exact State.collContribute_keeps h18

theorem execCollAllreduce_keeps {x : State} {a0} {a1} {a2} (k2 : Keeps x a2) : KeepsRes x (execCollAllreduce a0 a1
    a2) := by
  unfold execCollAllreduce
  refine KeepsRes.next ?_
  refine State.command_keeps ?_ ?_ ?_
  · exact k2
  · intro a0 a1 a2
    exact collCheck_keeps a2
  · intro a3 a4 a5
    exact State.collRun_keeps a5

theorem execCollNorm_keeps {x : State} {a0} {a1} {a2} (k2 : Keeps x a2) : KeepsRes x (execCollNorm a0 a1 a2) := by
  unfold execCollNorm
  refine KeepsRes.next ?_
  refine State.command_keeps ?_ ?_ ?_
  · exact k2
  · intro a0 a1 a2
    exact collCheck_keeps a2
  · intro a3 a4 a5
    exact State.collRun_keeps a5

theorem State.redDeadline_keeps {x : State} {a0} {a1} (k0 : Keeps x a0) : Keeps x (State.redDeadline a0 a1) := by
  unfold State.redDeadline
  extract_lets l0
  clear_value l0
  split
  · exact Keeps.ite (State.redAbort_keeps k0) k0
  · exact k0

theorem execRedDeadlineAbort_keeps {x : State} {a0} {a1} {a2} (k2 : Keeps x a2) : KeepsRes x (execRedDeadlineAbort
    a0 a1 a2) := by
  unfold execRedDeadlineAbort
  exact KeepsRes.next (State.redDeadline_keeps k2)

theorem State.redGrace_keeps {x : State} {a0} {a1} (k0 : Keeps x a0) : Keeps x (State.redGrace a0 a1) := by
  unfold State.redGrace
  extract_lets l0
  clear_value l0
  split
  · exact Keeps.ite (State.redAbort_keeps k0) k0
  · exact k0

theorem execAbortGraceExpire_keeps {x : State} {a0} {a1} {a2} (k2 : Keeps x a2) : KeepsRes x (execAbortGraceExpire
    a0 a1 a2) := by
  unfold execAbortGraceExpire
  exact KeepsRes.next (State.redGrace_keeps k2)

theorem execRedResend_keeps {x : State} {a0} {a1} {a2} {a3} (k3 : Keeps x a3) : KeepsRes x (execRedResend a0 a1 a2
    a3) := by
  unfold execRedResend
  extract_lets l0 l1
  clear_value l0 l1
  refine KeepsRes.next ?_
  split
  · exact k3
  · extract_lets l9 l10
    have h11 : Keeps x l9 := by
      unfold l9
      exact State.setCtx_keeps k3
    clear_value l9 l10
    exact State.sendPkt_keeps (State.owe_keeps (State.count_keeps h11))

theorem State.ctxOrphan_keeps {x : State} {a0} {a1} (k0 : Keeps x a0) : Keeps x (State.ctxOrphan a0 a1) := by
  unfold State.ctxOrphan
  extract_lets l0 l1
  clear_value l0
  have h2 : Keeps x l1 := by
    unfold l1
    refine Keeps.foldl (p := fun r => r) ?_ (fun b3 a4 h5 => ?_)
    · exact k0
    · exact State.endOne_keeps h5
  clear_value l1
  exact Keeps.ite k0 (State.redAbort_keeps (State.setCtx_keeps h2))

theorem State.redLost_keeps {x : State} {a0} {a1} {a2} (k0 : Keeps x a0) : Keeps x (State.redLost a0 a1 a2) := by
  unfold State.redLost
  refine Keeps.foldl (p := fun r => r) ?_ (fun b0 a1 h2 => ?_)
  · exact k0
  · extract_lets l3
    clear_value l3
    exact Keeps.ite (State.redAbort_keeps h2) h2

end Sys2Proof.Machine
end

