-- ==== Sys2Proof/Laws/KeepsSync.lean ====
section
/-! SUPPORT. What the operations of Machine/Sync.lean keep (`Keeps`, Laws/Keeps.lean). -/

namespace Sys2Proof.Machine

theorem execNop_keeps {x : State} {a0} {a1} {a2} (k2 : Keeps x a2) : KeepsRes x (execNop a0 a1 a2) := by
  unfold execNop
  refine KeepsRes.next ?_
  refine Keeps.ite ?_ ?_
  · exact k2
  · refine State.command_keeps ?_ ?_ ?_
    · exact k2
    · intro a0 a1 a2
      refine Check.rest_keeps (fun _ _ => rfl) ?_
      exact a2
    · intro a3 a4 a5
      exact State.addCmd_keeps a5

theorem execFence_keeps {x : State} {a0} {a1} {a2} (k2 : Keeps x a2) : KeepsRes x (execFence a0 a1 a2) := by
  unfold execFence
  refine KeepsRes.next ?_
  refine State.command_keeps ?_ ?_ ?_
  · exact k2
  · intro a0 a1 a2
    refine Check.rest_keeps (fun _ _ => rfl) ?_
    exact a2
  · intro a3 a4 a5
    extract_lets l6
    clear_value l6
    exact Keeps.ite (State.addCmd_keeps a5) (State.addCmd_keeps (State.count_keeps a5))

theorem execArbInit_keeps {x : State} {a0} {a1} {a2} (k2 : Keeps x a2) : KeepsRes x (execArbInit a0 a1 a2) := by
  unfold execArbInit
  refine KeepsRes.next ?_
  refine State.command_keeps ?_ ?_ ?_
  · exact k2
  · intro a0 a1 a2
    refine Check.rest_keeps (fun _ _ => rfl) ?_
    exact a2
  · intro a3 a4 a5
    exact State.addCmd_keeps (State.setObj_keeps a5)

theorem execArbSignal_keeps {x : State} {a0} {a1} {a2} (k2 : Keeps x a2) : KeepsRes x (execArbSignal a0 a1 a2) := by
  unfold execArbSignal
  refine KeepsRes.next ?_
  refine State.command_keeps ?_ ?_ ?_
  · exact k2
  · intro a0 a1 a2
    refine Check.rest_keeps (fun _ _ => rfl) ?_
    exact a2
  · intro a3 a4 a5
    exact State.addCmd_keeps (State.objAdd_keeps a5)

theorem execArbWaitGe_keeps {x : State} {a0} {a1} {a2} (k2 : Keeps x a2) : KeepsRes x (execArbWaitGe a0 a1 a2) := by
  unfold execArbWaitGe
  refine KeepsRes.next ?_
  refine State.command_keeps ?_ ?_ ?_
  · exact k2
  · intro a0 a1 a2
    refine Check.rest_keeps (fun _ _ => rfl) ?_
    exact a2
  · intro a3 a4 a5
    extract_lets l6
    clear_value l6
    exact Keeps.ite (State.addCmd_keeps a5) (State.addCmd_keeps (State.setObj_keeps a5))

theorem execArbTake_keeps {x : State} {a0} {a1} {a2} (k2 : Keeps x a2) : KeepsRes x (execArbTake a0 a1 a2) := by
  unfold execArbTake
  refine KeepsRes.next ?_
  refine State.command_keeps ?_ ?_ ?_
  · exact k2
  · intro a0 a1 a2
    refine Check.rest_keeps (fun _ _ => rfl) ?_
    exact a2
  · intro a3 a4 a5
    extract_lets l6
    clear_value l6
    exact Keeps.ite (State.addCmd_keeps (State.setObj_keeps a5)) (State.addCmd_keeps (State.setObj_keeps a5))

theorem Cmd.mask_keeps {x : State} {a0} {a1} (k0 : Keeps x a0) : Keeps x (Cmd.mask a0 a1).st := by
  unfold Cmd.mask
  exact State.sqRead_keeps k0

theorem arbBarrierCheck_keeps {x : State} {a0} {a1} (k0 : Keeps x a0) : Keeps x (arbBarrierCheck.rest a0 a1).1 := by
  refine KeepsOf.out (p := Prod.fst) ?_
  unfold arbBarrierCheck
  dsimp -zeta only
  extract_lets l0 l1 l2
  have h3 : KeepsOf x MemRes.st l0 := KeepsOf.mk (r := Cmd.mask ..) (Cmd.mask_keeps k0)
  clear_value l0
  have h4 : Keeps x l1 := h3.out
  clear_value l1 l2
  refine KeepsOf.ite (KeepsOf.pair h4) (KeepsOf.ite (KeepsOf.pair h4) ?_)
  split
  · exact KeepsOf.pair h4
  · exact KeepsOf.ite (KeepsOf.pair (State.err_keeps h4)) (KeepsOf.pair h4)

theorem execArbBarrier_keeps {x : State} {a0} {a1} {a2} (k2 : Keeps x a2) : KeepsRes x (execArbBarrier a0 a1 a2) := by
  unfold execArbBarrier
  refine KeepsRes.next ?_
  refine State.command_keeps k2 ?_ ?_
  · intro a0 a1 a2
    exact arbBarrierCheck_keeps a2
  · intro a3 a4 a5
    extract_lets l6
    clear_value l6
    exact State.barrierArrive_keeps (State.addCmd_keeps a5)

theorem State.trackerServe_keeps {x : State} {a0} {a1} (k0 : Keeps x a0) : Keeps x (State.trackerServe a0 a1) := by
  unfold State.trackerServe
  extract_lets l0 l1
  clear_value l0
  have h2 : Keeps x l1 := by
    unfold l1
    exact Keeps.upd k0 rfl rfl rfl rfl
  clear_value l1
  split
  · exact k0
  · exact Keeps.ite k0 (Keeps.ite (State.trackerJoin_keeps k0) (Keeps.ite (State.barrierBegin_keeps
        (State.countFree_keeps h2)) k0))

theorem execBarrierTrackerGrant_keeps {x : State} {a0} (k0 : Keeps x a0) : KeepsRes x (execBarrierTrackerGrant a0)
    := by
  unfold execBarrierTrackerGrant
  refine KeepsRes.next ?_
  refine Keeps.foldl (p := fun r => r) ?_ (fun b0 a1 h2 => ?_)
  · exact k0
  · exact State.trackerServe_keeps h2

theorem State.setFnode_keeps {x : State} {a0} {a1} (k0 : Keeps x a0) : Keeps x (State.setFnode a0 a1) := by
  unfold State.setFnode
  extract_lets l0
  clear_value l0
  exact Keeps.upd k0 rfl rfl rfl rfl

theorem State.dropFnode_keeps {x : State} {a0} {a1} {a2} (k0 : Keeps x a0) : Keeps x (State.dropFnode a0 a1 a2) := by
  unfold State.dropFnode
  extract_lets l0
  clear_value l0
  exact Keeps.upd k0 rfl rfl rfl rfl

theorem State.sendBar_keeps {x : State} {a0} {a1} {a2} {a3} {a4} {a5} (k0 : Keeps x a0) : Keeps x (State.sendBar a0
    a1 a2 a3 a4 a5) := by
  unfold State.sendBar
  exact State.sendPkt_keeps k0

theorem State.fbarsEnd_keeps {x : State} {a0} {a1} {a2} (k0 : Keeps x a0) : Keeps x (State.fbarsEnd a0 a1 a2) := by
  unfold State.fbarsEnd
  extract_lets l0 l1
  clear_value l0
  have h2 : Keeps x l1 := by
    unfold l1
    exact Keeps.upd k0 rfl rfl rfl rfl
  clear_value l1
  refine Keeps.foldl (p := fun r => r) ?_ (fun b3 a4 h5 => ?_)
  · exact h2
  · exact State.endCmd_keeps h5

theorem State.fbarEnd_keeps {x : State} {a0} {a1} {a2} {a3} (k0 : Keeps x a0) : Keeps x (State.fbarEnd a0 a1 a2 a3)
    := by
  unfold State.fbarEnd
  exact State.dropFnode_keeps (State.fbarsEnd_keeps k0)

theorem State.fbarStop_keeps {x : State} {a0} {a1} {a2} {a3} (k0 : Keeps x a0) : Keeps x (State.fbarStop a0 a1 a2
    a3) := by
  unfold State.fbarStop
  extract_lets l0 l1
  have h2 : Keeps x l0 := by
    unfold l0
    exact State.dropFnode_keeps k0
  clear_value l0 l1
  exact Keeps.ite (Keeps.upd h2 rfl rfl rfl rfl) (State.fbarEnd_keeps k0)

theorem State.fbarAbort_keeps {x : State} {a0} {a1} {a2} {a3} {a4} {a5} {a6} (k0 : Keeps x a0) : Keeps x
    (State.fbarAbort a0 a1 a2 a3 a4 a5 a6) := by
  unfold State.fbarAbort
  extract_lets l0 l1
  clear_value l0
  have h2 : Keeps x l1 := by
    unfold l1
    refine Keeps.foldl (p := fun r => r) ?_ (fun b3 a4 h5 => ?_)
    · exact k0
    · exact State.sendBar_keeps h5
  clear_value l1
  exact State.fbarStop_keeps h2

theorem State.fbarLocal_keeps {x : State} {a0} {a1} {a2} (k0 : Keeps x a0) : Keeps x (State.fbarLocal a0 a1 a2) := by
  unfold State.fbarLocal
  extract_lets l0 l1 l2 l3 l4 l5
  clear_value l0 l1 l2
  have h6 : Keeps x l3 := by
    unfold l3
    exact Keeps.upd k0 rfl rfl rfl rfl
  clear_value l3 l4
  have h7 : Keeps x l5 := by
    unfold l5
    exact State.releaseLive_keeps h6
  clear_value l5
  exact Keeps.ite (State.objAdd_keeps (State.count_keeps h7)) h7

theorem State.fbarDown_keeps {x : State} {a0} {a1} {a2} {a3} {a4} {a5} (k0 : Keeps x a0) : Keeps x (State.fbarDown
    a0 a1 a2 a3 a4 a5) := by
  unfold State.fbarDown
  extract_lets l0 l1 l2 l3 l4
  clear_value l0 l1 l2 l3
  have h5 : Keeps x l4 := by
    unfold l4
    refine Keeps.foldl (p := fun r => r) ?_ (fun b6 a7 h8 => ?_)
    · exact k0
    · exact State.sendBar_keeps h8
  clear_value l4
  exact State.fbarLocal_keeps (State.dropFnode_keeps h5)

theorem State.fbarUp_keeps {x : State} {a0} {a1} {a2} {a3} {a4} {a5} {a6} {a7} {a8} {a9} {a10} (k0 : Keeps x a0) :
    Keeps x (State.fbarUp a0 a1 a2 a3 a4 a5 a6 a7 a8 a9 a10).1 := by
  induction a8 generalizing a0 a1 a2 a3 a4 a5 a6 a7 a9 a10
  · unfold State.fbarUp
    exact k0
  · rename_i v0 v1 v2
    unfold State.fbarUp
    extract_lets l3 l4 l5
    clear_value l3 l4 l5
    refine Keeps.iteP (p := (fun r => (Prod.fst r))) ?_ ?_
    · exact v2 k0
    · split
      · exact k0
      · extract_lets l11
        clear_value l11
        refine Keeps.iteP (p := (fun r => (Prod.fst r))) ?_ ?_
        · exact v2 k0
        · exact v2 (State.sendBar_keeps k0)

theorem State.fbarArrive_keeps {x : State} {a0} {a1} {a2} {a3} {a4} {a5} {a6} {a7} (k0 : Keeps x a0) : Keeps x
    (State.fbarArrive a0 a1 a2 a3 a4 a5 a6 a7) := by
  unfold State.fbarArrive
  extract_lets l0 l1 l2
  clear_value l0 l1 l2
  refine Keeps.ite ?_ ?_
  · exact Keeps.ite (State.setFnode_keeps k0) (State.setFnode_keeps k0)
  · refine Keeps.ite ?_ ?_
    · exact State.setFnode_keeps k0
    · refine Keeps.ite ?_ ?_
      · exact State.fbarAbort_keeps k0
      · refine Keeps.ite ?_ ?_
        · exact State.setFnode_keeps k0
        · split
          · rename_i v3 v4 v5 v6 v7 v8
            have h9 : Keeps x ((v4, v5, v6, v7)).1 := by
              rw [← v8]
              exact State.fbarUp_keeps k0
            exact Keeps.ite (State.fbarDown_keeps h9) (State.setFnode_keeps h9)

theorem State.fbarReplay_keeps {x : State} {a0} {a1} {a2} {a3} (k0 : Keeps x a0) : Keeps x (State.fbarReplay a0 a1
    a2 a3) := by
  unfold State.fbarReplay
  refine Keeps.ite ?_ ?_
  · exact k0
  · refine Keeps.foldl (p := fun r => r) ?_ (fun b0 a1 h2 => ?_)
    · exact k0
    · split
      · exact State.fbarArrive_keeps h2
      · exact h2

theorem State.fbarListed_keeps {x : State} {a0} {a1} (k0 : Keeps x a0) : Keeps x (State.fbarListed a0 a1) := by
  unfold State.fbarListed
  refine Keeps.foldl (p := fun r => r) ?_ (fun b0 a1 h2 => ?_)
  · exact k0
  · exact State.fbarReplay_keeps (State.dropFnode_keeps h2)

theorem State.onBarArrive_keeps {x : State} {a0} {a1} (k0 : Keeps x a0) : Keeps x (State.onBarArrive a0 a1) := by
  unfold State.onBarArrive
  split
  · exact State.fbarReplay_keeps (State.fbarArrive_keeps k0)
  · exact k0

theorem State.fbarRank_keeps {x : State} {a0} {a1} {a2} {a3} {a4} {a5} {a6} (k0 : Keeps x a0) : Keeps x
    (State.fbarRank a0 a1 a2 a3 a4 a5 a6) := by
  unfold State.fbarRank
  extract_lets l0 l1 l2
  clear_value l0 l1 l2
  split
  · exact k0
  · extract_lets l8
    clear_value l8
    exact Keeps.ite (State.onBarArrive_keeps k0) (State.sendBar_keeps k0)

theorem State.fbarOwn_keeps {x : State} {a0} {a1} {a2} {a3} {a4} {a5} (k0 : Keeps x a0) : Keeps x (State.fbarOwn a0
    a1 a2 a3 a4 a5) := by
  unfold State.fbarOwn
  refine Keeps.foldl (p := fun r => r) ?_ (fun b0 a1 h2 => ?_)
  · exact k0
  · exact State.fbarRank_keeps h2

theorem State.fbarAssume_keeps {x : State} {a0} (k0 : Keeps x a0) : Keeps x (State.fbarAssume a0) := by
  unfold State.fbarAssume
  refine Keeps.foldl (p := fun r => r) ?_ (fun b0 a1 h2 => ?_)
  · exact k0
  · split
    · split
      · exact State.fbarRank_keeps h2
      · exact h2
    · exact h2

theorem execArbFbarrier_keeps {x : State} {a0} {a1} {a2} (k2 : Keeps x a2) : KeepsRes x (execArbFbarrier a0 a1 a2)
    := by
  unfold execArbFbarrier
  refine KeepsRes.next ?_
  refine State.command_keeps ?_ ?_ ?_
  · exact k2
  · intro a0 a1 a2
    refine Check.rest_keeps (fun _ _ => rfl) ?_
    exact a2
  · intro a3 a4 a5
    split
    · extract_lets l10 l11 l12 l13 l14 l15
      clear_value l10 l11
      have h16 : Keeps x l12 := by
        unfold l12
        exact State.addCmd_keeps a5
      clear_value l12 l13
      have h17 : Keeps x l14 := by
        unfold l14
        exact Keeps.upd h16 rfl rfl rfl rfl
      clear_value l14 l15
      split
      · exact State.fbarEnd_keeps (Keeps.upd h17 rfl rfl rfl rfl)
      · exact Keeps.ite (State.fbarEnd_keeps h17) (State.fbarOwn_keeps h17)

theorem State.onBarRelease_keeps {x : State} {a0} {a1} (k0 : Keeps x a0) : Keeps x (State.onBarRelease a0 a1) := by
  unfold State.onBarRelease
  split
  · extract_lets l3 l4
    clear_value l3
    have h5 : Keeps x l4 := by
      unfold l4
      split
      · exact State.fbarDown_keeps k0
      · split
        · exact State.fbarDown_keeps k0
        · exact State.fbarLocal_keeps k0
    clear_value l4
    exact State.fbarReplay_keeps h5
  · exact State.fbarReplay_keeps (State.fbarStop_keeps k0)
  · exact k0

theorem execArbFsignal_keeps {x : State} {a0} {a1} {a2} (k2 : Keeps x a2) : KeepsRes x (execArbFsignal a0 a1 a2) := by
  unfold execArbFsignal
  refine KeepsRes.next ?_
  refine State.command_keeps ?_ ?_ ?_
  · exact k2
  · intro a0 a1 a2
    refine Check.rest_keeps (fun _ _ => rfl) ?_
    exact a2
  · intro a3 a4 a5
    extract_lets l6
    clear_value l6
    exact State.sendF0_keeps (State.addCmd_keeps a5)

theorem State.onFsignal_keeps {x : State} {a0} {a1} (k0 : Keeps x a0) : Keeps x (State.onFsignal a0 a1) := by
  unfold State.onFsignal
  split
  · extract_lets l5 l6
    clear_value l5 l6
    exact Keeps.ite (State.reply_keeps k0) (Keeps.ite (State.reply_keeps k0) (State.reply_keeps (State.objAdd_keeps
        k0)))
  · exact k0

theorem State.onFsignalAck_keeps {x : State} {a0} {a1} (k0 : Keeps x a0) : Keeps x (State.onFsignalAck a0 a1) := by
  unfold State.onFsignalAck
  split
  · split
    · split
      · exact Keeps.ite (State.finish_keeps k0) (State.endCmd_keeps k0)
      · exact k0
    · exact k0
  · exact k0

end Sys2Proof.Machine
end

