-- ==== Sys2Proof/Laws/KeepsCastle.lean ====
section
/-! SUPPORT. What the operations of Machine/Castle.lean keep (`Keeps`, Laws/Keeps.lean). -/

namespace Sys2Proof.Machine

theorem State.castleList_keeps {x : State} {a0} {a1} {a2} {a3} (k0 : Keeps x a0) : Keeps x (State.castleList a0 a1
    a2 a3).1 := by
  unfold State.castleList
  extract_lets l0 l1
  have h2 : Keeps x l0.st := by
    unfold l0
    exact State.memRead_keeps k0
  clear_value l0 l1
  exact h2

theorem State.examine_keeps {x : State} {a0} {a1} (k0 : Keeps x a0) : Keeps x (State.examine a0 a1).1 := by
  unfold State.examine
  extract_lets l0 l1 l2 l3 l4
  clear_value l0 l1 l2
  have h5 : Keeps x l4 := by
    unfold l4
    exact Keeps.ite k0 (State.orphan_keeps k0)
  clear_value l4
  refine Keeps.iteP (p := (fun r => (Prod.fst r))) ?_ ?_
  · exact State.err_keeps (State.count_keeps h5)
  · exact h5

theorem State.examineAll_keeps {x : State} {a0} {a1} (k0 : Keeps x a0) : Keeps x (State.examineAll a0 a1).1 := by
  unfold State.examineAll
  refine Keeps.foldl (p := (fun r => (Prod.fst r))) ?_ (fun b0 a1 h2 => ?_)
  · exact k0
  · split
    · rename_i v3 v4 v5 v6 v7
      have h8 : Keeps x ((v5, v6)).1 := by
        rw [← v7]
        exact State.examine_keeps h2
      exact h8

theorem State.castleCtxs_keeps {x : State} {a0} {a1} (k0 : Keeps x a0) : Keeps x (State.castleCtxs a0 a1).1 := by
  unfold State.castleCtxs
  refine Keeps.foldl (p := (fun r => (Prod.fst r))) ?_ (fun b0 a1 h2 => ?_)
  · exact k0
  · extract_lets l3 l4
    have h5 : Keeps x l3 := by
      unfold l3
      exact h2
    clear_value l3 l4
    refine Keeps.iteP (p := (fun r => (Prod.fst r))) ?_ ?_
    · exact State.ctxOrphan_keeps h5
    · exact h2

theorem State.queueOff_keeps {x : State} {a0} {a1} (k0 : Keeps x a0) : Keeps x (State.queueOff a0 a1) := by
  unfold State.queueOff
  extract_lets l0 l1
  have h2 : Keeps x l0 := by
    unfold l0
    exact State.setQreg_keeps k0
  clear_value l0 l1
  exact State.setQst_keeps h2

theorem State.reportHeader_keeps {x : State} {a0} {a1} {a2} {a3} {a4} {a5} {a6} (k0 : Keeps x a0) : Keeps x
    (State.reportHeader a0 a1 a2 a3 a4 a5 a6) := by
  unfold State.reportHeader
  exact State.memWrite_keeps k0

theorem State.writeReport_keeps {x : State} {a0} {a1} {a2} (k0 : Keeps x a0) : Keeps x (State.writeReport a0 a1 a2)
    := by
  unfold State.writeReport
  extract_lets l0 l1 l2 l3 l4
  clear_value l0 l1 l2
  have h5 : Keeps x l3 := by
    unfold l3
    exact State.reportHeader_keeps k0
  clear_value l3
  have h6 : Keeps x l4 := by
    unfold l4
    exact State.memWrite_keeps h5
  clear_value l4
  exact Keeps.ite h6 (State.err_keeps (State.count_keeps h6))

theorem State.orphanCmd_keeps {x : State} {a0} {a1} (k0 : Keeps x a0) : Keeps x (State.orphanCmd a0 a1) := by
  unfold State.orphanCmd
  extract_lets l0
  have h1 : Keeps x l0 := by
    unfold l0
    split
    · exact State.strictCount_keeps k0
    · exact k0
  clear_value l0
  exact State.dropWaits_keeps (State.unwait_keeps (State.mapCmd_keeps h1))

theorem State.castleStart_keeps {x : State} {a0} {a1} {a2} (k0 : Keeps x a0) : Keeps x (State.castleStart a0 a1 a2)
    := by
  unfold State.castleStart
  extract_lets l0
  have h1 : Keeps x l0 := by
    unfold l0
    exact k0
  clear_value l0
  split
  · rename_i v2 v3 v4 v5
    have h6 : Keeps x ((v3, v4)).1 := by
      rw [← v5]
      exact State.examineAll_keeps k0
    extract_lets l7
    have h8 : Keeps x l7 := by
      unfold l7
      refine Keeps.foldl (p := fun r => r) ?_ (fun b9 a10 h11 => ?_)
      · exact h6
      · exact State.orphanCmd_keeps h11
    clear_value l7
    split
    · rename_i v12 v13 v14 v15
      have h16 : Keeps x ((v13, v14)).1 := by
        rw [← v15]
        exact State.castleCtxs_keeps h8
      extract_lets l17 l18 l19 l20 l21 l22 l23 l24
      clear_value l17
      have h25 : Keeps x l18 := by
        unfold l18
        exact State.count_keeps h16
      clear_value l18
      have h26 : Keeps x l19 := by
        unfold l19
        refine Keeps.foldl (p := fun r => r) ?_ (fun b27 a28 h29 => ?_)
        · exact h25
        · exact State.queueOff_keeps h29
      clear_value l19
      have h30 : Keeps x l20 := by
        unfold l20
        exact State.writeReport_keeps h26
      clear_value l20
      have h31 : Keeps x l21 := by
        unfold l21
        refine Keeps.foldl (p := fun r => r) ?_ (fun b32 a33 h34 => ?_)
        · exact h30
        · exact State.wakeSquare_keeps h34
      clear_value l21
      have h35 : Keeps x l22 := by
        unfold l22
        exact State.setReg_keeps (State.setReg_keeps h31)
      clear_value l22
      have h36 : Keeps x l23 := by
        unfold l23
        exact State.dropShadow_keeps h35
      clear_value l23 l24
      exact Keeps.upd h36 rfl rfl rfl rfl

theorem State.bindOne_keeps {x : State} {a0} {a1} {a2} (k0 : Keeps x a0) : Keeps x (State.bindOne a0 a1 a2) := by
  unfold State.bindOne
  extract_lets l0 l1 l2 l3 l4 l5
  clear_value l0
  have h6 : Keeps x l1 := by
    unfold l1
    exact State.setSqp_keeps k0
  clear_value l1 l3
  have h7 : Keeps x l4 := by
    unfold l4
    exact State.setReg_keeps k0
  clear_value l4
  split
  · exact Keeps.ite h6 (State.scsReset_keeps h6)
  · exact State.queueOff_keeps k0
  · exact State.setReg_keeps k0
  · exact Keeps.ite k0 (State.uninit_keeps k0)
  · exact Keeps.ite k0 (State.uninit_keeps k0)
  · exact Keeps.ite (State.setCtx_keeps k0) (State.setCtx_keeps k0)
  · exact Keeps.ite (Keeps.upd k0 rfl rfl rfl rfl) (Keeps.upd h7 rfl rfl rfl rfl)
  · exact Keeps.ite k0 (State.setReg_keeps k0)

theorem State.dropJob_keeps {x : State} {a0} {a1} (k0 : Keeps x a0) : Keeps x (State.dropJob a0 a1) := by
  unfold State.dropJob
  exact State.dropShadow_keeps (State.setReg_keeps (State.setJob_keeps k0))

theorem State.castleBind_keeps {x : State} {a0} (k0 : Keeps x a0) : Keeps x (State.castleBind a0) := by
  unfold State.castleBind
  split
  · exact k0
  · extract_lets l5 l6 l7 l8 l9 l10 l11 l12
    have h13 : Keeps x l5 := by
      unfold l5
      refine Keeps.foldl (p := fun r => r) ?_ (fun b14 a15 h16 => ?_)
      · exact k0
      · exact State.complete_keeps h16
    clear_value l5 l6 l7 l8
    have h17 : Keeps x l9 := by
      unfold l9
      refine Keeps.foldl (p := fun r => r) ?_ (fun b18 a19 h20 => ?_)
      · exact h13
      · exact State.dropJob_keeps h20
    clear_value l9 l10
    have h21 : Keeps x l11 := by
      unfold l11
      exact Keeps.upd h17 rfl rfl rfl rfl
    clear_value l11
    have h22 : Keeps x l12 := by
      unfold l12
      refine Keeps.foldl (p := fun r => r) ?_ (fun b23 a24 h25 => ?_)
      · exact h21
      · refine Keeps.foldl (p := fun r => r) ?_ (fun b26 a27 h28 => ?_)
        · exact h25
        · exact State.bindOne_keeps h28
    clear_value l12
    refine Keeps.ite ?_ ?_
    · exact k0
    · refine Keeps.foldl (p := fun r => r) ?_ (fun b29 a30 h31 => ?_)
      · exact h22
      · exact State.dropJob_keeps h31

theorem execCastleBind_keeps {x : State} {a0} (k0 : Keeps x a0) : KeepsRes x (execCastleBind a0) := by
  unfold execCastleBind
  exact KeepsRes.next (State.castleBind_keeps k0)

theorem State.castleGot_keeps {x : State} {a0} {a1} {a2} (k0 : Keeps x a0) : Keeps x (State.castleGot a0 a1 a2) := by
  unfold State.castleGot
  split
  · exact k0
  · extract_lets l5 l6
    clear_value l5 l6
    exact Keeps.upd k0 rfl rfl rfl rfl

theorem State.castleComplete_keeps {x : State} {a0} (k0 : Keeps x a0) : Keeps x (State.castleComplete a0) := by
  unfold State.castleComplete
  split
  · exact k0
  · extract_lets l5 l6 l7
    have h8 : Keeps x l5 := by
      unfold l5
      exact State.count_keeps (State.setReg_keeps k0)
    clear_value l5
    have h9 : Keeps x l6 := by
      unfold l6
      exact State.memWrite_keeps h8
    clear_value l6 l7
    exact Keeps.ite (Keeps.upd h9 rfl rfl rfl rfl) k0

theorem execCastleComplete_keeps {x : State} {a0} (k0 : Keeps x a0) : KeepsRes x (execCastleComplete a0) := by
  unfold execCastleComplete
  exact KeepsRes.next (State.castleComplete_keeps k0)

theorem State.readList_keeps {x : State} {a0} {a1} {a2} {a3} (k0 : Keeps x a0) : Keeps x (State.readList a0 a1 a2
    a3).1 := by
  unfold State.readList
  extract_lets l0
  have h1 : Keeps x l0.st := by
    unfold l0
    exact State.memRead_keeps k0
  clear_value l0
  exact h1

theorem State.startMoves_keeps {x : State} {a0} {a1} {a2} {a3} (k0 : Keeps x a0) : Keeps x (State.startMoves a0 a1
    a2 a3) := by
  unfold State.startMoves
  refine Keeps.ite ?_ ?_
  · exact k0
  · refine Keeps.foldl (p := fun r => r) ?_ (fun b0 a1 h2 => ?_)
    · exact k0
    · extract_lets l3 l4 l5
      clear_value l3 l4
      have h6 : Keeps x l5 := by
        unfold l5
        exact State.plcSend_keeps (State.putOut_keeps h2)
      clear_value l5
      exact Keeps.ite h6 (State.plcSend_keeps h6)

theorem State.armedMoves_keeps {x : State} {a0} {a1} {a2} (k0 : Keeps x a0) : Keeps x (State.armedMoves a0 a1 a2)
    := by
  unfold State.armedMoves
  refine Keeps.foldl (p := fun r => r) ?_ (fun b0 a1 h2 => ?_)
  · exact k0
  · exact Keeps.ite (State.putOut_keeps h2) (State.abandonOut_keeps h2)

theorem State.tellHomes_keeps {x : State} {a0} {a1} {a2} (k0 : Keeps x a0) : Keeps x (State.tellHomes a0 a1 a2) := by
  unfold State.tellHomes
  refine Keeps.foldl (p := fun r => r) ?_ (fun b0 a1 h2 => ?_)
  · exact k0
  · extract_lets l3 l4 l5
    clear_value l3 l4 l5
    exact Keeps.ite h2 (State.plcSend_keeps h2)

theorem State.listEntries_keeps {x : State} {a0} {a1} {a2} (k0 : Keeps x a0) : Keeps x (State.listEntries a0 a1 a2)
    := by
  unfold State.listEntries
  extract_lets l0
  clear_value l0
  refine Keeps.foldl (p := fun r => r) ?_ (fun b1 a2 h3 => ?_)
  · exact k0
  · exact State.dirDel_keeps h3

theorem State.installList_keeps {x : State} {a0} {a1} {a2} (k0 : Keeps x a0) : Keeps x (State.installList a0 a1 a2)
    := by
  unfold State.installList
  extract_lets l0 l1 l2
  clear_value l0
  have h3 : Keeps x l1 := by
    unfold l1
    exact State.tellHomes_keeps (State.startMoves_keeps (State.armedMoves_keeps k0))
  clear_value l1
  have h4 : Keeps x l2 := by
    unfold l2
    exact State.listEntries_keeps (State.setJob_keeps h3)
  clear_value l2
  exact State.fbarListed_keeps (State.dropShadow_keeps (State.setReg_keeps (State.count_keeps h4)))

theorem State.wipeRegs_keeps {x : State} {a0} {a1} (k0 : Keeps x a0) : Keeps x (State.wipeRegs a0 a1) := by
  unfold State.wipeRegs
  extract_lets l0 l1
  clear_value l0 l1
  exact Keeps.upd k0 rfl rfl rfl rfl

theorem State.wipeSquare_keeps {x : State} {a0} {a1} (k0 : Keeps x a0) : Keeps x (State.wipeSquare a0 a1) := by
  unfold State.wipeSquare
  extract_lets l0 l1
  clear_value l0
  have h2 : Keeps x l1 := by
    unfold l1
    exact State.wipeRegs_keeps k0
  clear_value l1
  refine Keeps.foldl (p := fun r => r) ?_ (fun b3 a4 h5 => ?_)
  · exact h2
  · exact State.setReg_keeps h5

theorem State.staleOne_keeps {x : State} {a0} {a1} {a2} (k0 : Keeps x a0) : Keeps x (State.staleOne a0 a1 a2) := by
  unfold State.staleOne
  extract_lets l0 l1 l2
  clear_value l0
  have h3 : Keeps x l1 := by
    unfold l1
    exact Keeps.upd k0 rfl rfl rfl rfl
  clear_value l1
  have h4 : Keeps x l2 := by
    unfold l2
    exact State.err_keeps (State.count_keeps h3)
  clear_value l2
  exact Keeps.ite (State.orphanOwned_keeps h4) h4

theorem State.unitStale_keeps {x : State} {a0} {a1} {a2} (k0 : Keeps x a0) : Keeps x (State.unitStale a0 a1 a2) := by
  unfold State.unitStale
  extract_lets l0
  have h1 : Keeps x l0 := by
    unfold l0
    exact State.staleOne_keeps k0
  clear_value l0
  refine Keeps.ite ?_ ?_
  · exact h1
  · refine Keeps.foldl (p := fun r => r) ?_ (fun b2 a3 h4 => ?_)
    · exact h1
    · exact State.staleOne_keeps h4

theorem State.resync_keeps {x : State} {a0} {a1} (k0 : Keeps x a0) : Keeps x (State.resync a0 a1) := by
  unfold State.resync
  extract_lets l0 l1 l2 l3
  clear_value l0
  have h4 : Keeps x l1 := by
    unfold l1
    exact Keeps.upd k0 rfl rfl rfl rfl
  clear_value l1
  have h5 : Keeps x l2 := by
    unfold l2
    exact State.count_keeps h4
  clear_value l2
  have h6 : Keeps x l3 := by
    unfold l3
    exact Keeps.ite (State.scsReset_keeps (State.wipeSquare_keeps h5)) h5
  clear_value l3
  refine Keeps.ite ?_ ?_
  · exact k0
  · refine Keeps.foldl (p := fun r => r) ?_ (fun b7 a8 h9 => ?_)
    · exact h6
    · refine Keeps.foldl (p := fun r => r) ?_ (fun b10 a11 h12 => ?_)
      · exact h9
      · exact State.plcSend_keeps h12

theorem execBndResync_keeps {x : State} {a0} {a1} {a2} (k2 : Keeps x a2) : KeepsRes x (execBndResync a0 a1 a2) := by
  unfold execBndResync
  refine KeepsRes.next ?_
  refine State.command_keeps ?_ ?_ ?_
  · exact k2
  · intro a0 a1 a2
    refine Check.rest_keeps (fun _ _ => rfl) ?_
    exact a2
  · intro a3 a4 a5
    extract_lets l6
    clear_value l6
    exact State.addCmd_keeps (State.resync_keeps a5)

theorem State.resyncWrite_keeps {x : State} {a0} {a1} (k0 : Keeps x a0) : Keeps x (State.resyncWrite a0 a1) := by
  unfold State.resyncWrite
  extract_lets l0 l1
  clear_value l0 l1
  exact Keeps.ite (State.err_keeps k0) (State.resync_keeps k0)

theorem execResyncCmd_keeps {x : State} {a0} {a1} {a2} (k2 : Keeps x a2) : KeepsRes x (execResyncCmd a0 a1 a2) := by
  unfold execResyncCmd
  refine KeepsRes.next ?_
  refine State.guardWrite_keeps ?_ ?_
  · exact k2
  · intro a0 a1
    exact State.resyncWrite_keeps a1

theorem State.onEpochNotice_keeps {x : State} {a0} {a1} (k0 : Keeps x a0) : Keeps x (State.onEpochNotice a0 a1) := by
  unfold State.onEpochNotice
  split
  · extract_lets l4
    clear_value l4
    exact Keeps.upd k0 rfl rfl rfl rfl
  · exact k0

theorem State.stackLost_keeps {x : State} {a0} {a1} (k0 : Keeps x a0) : Keeps x (State.stackLost a0 a1) := by
  unfold State.stackLost
  exact Keeps.ite (State.unitStale_keeps (State.setStack_keeps k0)) k0

theorem execStackContentsLost_keeps {x : State} {a0} {a1} (k1 : Keeps x a1) : KeepsRes x (execStackContentsLost a0
    a1) := by
  unfold execStackContentsLost
  exact KeepsRes.next (State.stackLost_keeps k1)

theorem State.returnUnit_keeps {x : State} {a0} {a1} {a2} (k0 : Keeps x a0) : Keeps x (State.returnUnit a0 a1 a2)
    := by
  unfold State.returnUnit
  extract_lets l0
  clear_value l0
  exact Keeps.ite (State.unitStale_keeps (Keeps.ite (State.setStack_keeps k0) k0)) k0

theorem execReturnToService_keeps {x : State} {a0} {a1} {a2} (k2 : Keeps x a2) : KeepsRes x (execReturnToService a0
    a1 a2) := by
  unfold execReturnToService
  exact KeepsRes.next (State.returnUnit_keeps k2)

end Sys2Proof.Machine
end

