-- ==== Sys2Proof/Laws/KeepsEndings.lean ====
section
/-! SUPPORT. What the operations of Machine/Endings.lean keep (`Keeps`, Laws/Keeps.lean). -/

namespace Sys2Proof.Machine

theorem State.spoil_keeps {x : State} {a0} {a1} (k0 : Keeps x a0) : Keeps x (State.spoil a0 a1) := by
  unfold State.spoil
  extract_lets l0
  clear_value l0
  split
  · exact State.dmaSpoil_keeps k0
  · exact State.dmaSpoil_keeps k0
  · exact State.sampleSpoil_keeps k0
  · exact State.gatherSpoil_keeps (State.strictCount_keeps k0)
  · exact State.scatterSpoil_keeps k0
  · exact State.storeSpoil_keeps k0
  · exact State.collSpoil_keeps k0
  · refine Keeps.foldl (p := fun r => r) ?_ (fun b35 a36 h37 => ?_)
    · exact State.freeSlots_keeps k0
    · exact State.fillFree_keeps h37

theorem State.stopCmd_keeps {x : State} {a0} {a1} {a2} (k0 : Keeps x a0) : Keeps x (State.stopCmd a0 a1 a2) := by
  unfold State.stopCmd
  extract_lets l0
  have h1 : Keeps x l0 := by
    unfold l0
    exact State.mapCmd_keeps (State.spoil_keeps k0)
  clear_value l0
  exact State.dropWaits_keeps (State.unwait_keeps h1)

theorem State.endWaiters_keeps {x : State} {a0} {a1} (k0 : Keeps x a0) : Keeps x (State.endWaiters a0 a1) := by
  unfold State.endWaiters
  refine Keeps.foldl (p := fun r => r) ?_ (fun b0 a1 h2 => ?_)
  · exact k0
  · exact State.stopCmd_keeps h2

theorem State.twinLost_keeps {x : State} {a0} (k0 : Keeps x a0) : Keeps x (State.twinLost a0) := by
  unfold State.twinLost
  extract_lets l0 l1 l2
  clear_value l0 l1
  have h3 : Keeps x l2 := by
    unfold l2
    exact Keeps.upd k0 rfl rfl rfl rfl
  clear_value l2
  refine Keeps.foldl (p := fun r => r) ?_ (fun b4 a5 h6 => ?_)
  · exact h3
  · exact Keeps.ite (State.storeDone_keeps (State.count_keeps h6)) h6

theorem State.fbarLost_keeps {x : State} {a0} {a1} (k0 : Keeps x a0) : Keeps x (State.fbarLost a0 a1) := by
  unfold State.fbarLost
  extract_lets l0 l1
  clear_value l0 l1
  refine Keeps.ite ?_ ?_
  · exact State.fbarReplay_keeps (State.fbarEnd_keeps k0)
  · split
    · rename_i v2 v3 v4 v5 v6 v7
      have h8 : Keeps x ((v3, v4, v5, v6)).1 := by
        rw [← v7]
        exact State.fbarUp_keeps k0
      exact Keeps.ite (State.fbarReplay_keeps (State.fbarDown_keeps h8)) (State.setFnode_keeps h8)

theorem State.barriersLost_keeps {x : State} {a0} (k0 : Keeps x a0) : Keeps x (State.barriersLost a0) := by
  unfold State.barriersLost
  extract_lets l0
  have h1 : Keeps x l0 := by
    unfold l0
    exact State.fbarsEnd_keeps k0
  clear_value l0
  refine Keeps.foldl (p := fun r => r) ?_ (fun b2 a3 h4 => ?_)
  · exact h1
  · exact State.fbarLost_keeps h4

theorem State.requeue_keeps {x : State} {a0} {a1} {a2} (k0 : Keeps x a0) : Keeps x (State.requeue a0 a1 a2) := by
  unfold State.requeue
  extract_lets l0
  clear_value l0
  split
  · extract_lets l5
    have h6 : Keeps x l5 := by
      unfold l5
      exact State.setPort_keeps k0
    clear_value l5
    refine Keeps.foldl (p := fun r => r) ?_ (fun b7 a8 h9 => ?_)
    · exact h6
    · extract_lets l10
      clear_value l10
      exact Keeps.ite (State.sendPkt_keeps h9) (State.passOn_keeps h9)

theorem State.freeStreams_keeps {x : State} {a0} {a1} (k0 : Keeps x a0) : Keeps x (State.freeStreams a0 a1) := by
  unfold State.freeStreams
  extract_lets l0
  clear_value l0
  exact Keeps.upd k0 rfl rfl rfl rfl

theorem State.declareLost_keeps {x : State} {a0} {a1} {a2} (k0 : Keeps x a0) : Keeps x (State.declareLost a0 a1 a2)
    := by
  unfold State.declareLost
  extract_lets l0 l1 l2 l3 l4 l5 l6 l7 l8 l9 l10 l11 l12 l13 l14
  clear_value l0
  have h15 : Keeps x l1 := by
    unfold l1
    exact State.endWaiters_keeps k0
  clear_value l1 l2
  have h16 : Keeps x l3 := by
    unfold l3
    exact Keeps.upd h15 rfl rfl rfl rfl
  clear_value l3
  have h17 : Keeps x l4 := by
    unfold l4
    exact State.setRecovery_keeps (State.setReg_keeps h16)
  clear_value l4
  have h18 : Keeps x l5 := by
    unfold l5
    exact State.freeStreams_keeps h17
  clear_value l5
  have h19 : Keeps x l6 := by
    unfold l6
    refine Keeps.foldl (p := fun r => r) ?_ (fun b20 a21 h22 => ?_)
    · exact h18
    · exact State.reroute_keeps h22
  clear_value l6
  have h23 : Keeps x l7 := by
    unfold l7
    refine Keeps.foldl (p := fun r => r) ?_ (fun b24 a25 h26 => ?_)
    · exact h19
    · exact State.requeue_keeps h26
  clear_value l7 l8 l9
  have h27 : Keeps x l10 := by
    unfold l10
    exact Keeps.upd h23 rfl rfl rfl rfl
  clear_value l10
  have h28 : Keeps x l11 := by
    unfold l11
    refine Keeps.foldl (p := fun r => r) ?_ (fun b29 a30 h31 => ?_)
    · exact h27
    · exact State.sendPkt_keeps h31
  clear_value l11
  have h32 : Keeps x l12 := by
    unfold l12
    exact Keeps.ite (State.twinLost_keeps h28) h28
  clear_value l12
  have h33 : Keeps x l13 := by
    unfold l13
    exact State.hostGone_keeps h32
  clear_value l13
  have h34 : Keeps x l14 := by
    unfold l14
    exact State.redLost_keeps (State.moveWaits_keeps (State.plcLost_keeps h33))
  clear_value l14
  exact State.pumpBatches_keeps (State.drainWaiting_keeps (State.barriersLost_keeps h34))

theorem State.declareSub_keeps {x : State} {a0} {a1} (k0 : Keeps x a0) : Keeps x (State.declareSub a0 a1) := by
  unfold State.declareSub
  extract_lets l0
  clear_value l0
  exact Keeps.ite (State.err_keeps k0) (State.declareLost_keeps k0)

theorem State.clearLost_keeps {x : State} {a0} {a1} (k0 : Keeps x a0) : Keeps x (State.clearLost a0 a1) := by
  unfold State.clearLost
  extract_lets l0 l1 l2
  clear_value l0
  have h3 : Keeps x l1 := by
    unfold l1
    exact Keeps.upd k0 rfl rfl rfl rfl
  clear_value l1
  have h4 : Keeps x l2 := by
    unfold l2
    exact State.setReg_keeps h3
  clear_value l2
  refine Keeps.foldl (p := fun r => r) ?_ (fun b5 a6 h7 => ?_)
  · exact h4
  · exact State.pump_keeps h7

theorem execLostDeclare_keeps {x : State} {a0} {a1} {a2} (k2 : Keeps x a2) : KeepsRes x (execLostDeclare a0 a1 a2)
    := by
  unfold execLostDeclare
  refine KeepsRes.next ?_
  refine State.guardWrite_keeps ?_ ?_
  · exact k2
  · intro a0 a1
    exact State.declareLost_keeps a1

theorem execLostDeclareSub_keeps {x : State} {a0} {a1} {a2} (k2 : Keeps x a2) : KeepsRes x (execLostDeclareSub a0
    a1 a2) := by
  unfold execLostDeclareSub
  refine KeepsRes.next ?_
  refine State.guardWrite_keeps ?_ ?_
  · exact k2
  · intro a0 a1
    exact State.declareSub_keeps a1

theorem execLostClear_keeps {x : State} {a0} {a1} {a2} (k2 : Keeps x a2) : KeepsRes x (execLostClear a0 a1 a2) := by
  unfold execLostClear
  refine KeepsRes.next ?_
  refine State.guardWrite_keeps ?_ ?_
  · exact k2
  · intro a0 a1
    exact State.clearLost_keeps a1

theorem State.lostWrite_keeps {x : State} {a0} {a1} (k0 : Keeps x a0) : Keeps x (State.lostWrite a0 a1) := by
  unfold State.lostWrite
  split
  · exact State.declareLost_keeps k0
  · exact State.declareSub_keeps k0
  · exact State.clearLost_keeps k0
  · exact k0

end Sys2Proof.Machine
end

