-- ==== Sys2Proof/Laws/KeepsTwin.lean ====
section
/-! SUPPORT. What the operations of Machine/Twin.lean keep (`Keeps`, Laws/Keeps.lean). -/

namespace Sys2Proof.Machine

theorem State.setTw_keeps {x : State} {a0} {a1} (k0 : Keeps x a0) : Keeps x (State.setTw a0 a1) := by
  unfold State.setTw
  exact Keeps.upd k0 rfl rfl rfl rfl

theorem State.shUsed_keeps {x : State} {a0} {a1} (k0 : Keeps x a0) : Keeps x (State.shUsed a0 a1).1 := by
  refine KeepsOf.out (p := Prod.fst) ?_
  unfold State.shUsed
  extract_lets l0 l1
  clear_value l0
  have h2 : KeepsOf x ElemRes.st l1 := KeepsOf.mk (r := State.readElems ..) (State.readElems_keeps k0)
  clear_value l1
  exact KeepsOf.ite (KeepsOf.pair h2.out) (KeepsOf.pair k0)

theorem shadowCheck_keeps {x : State} {a0} {a1} (k0 : Keeps x a0) : Keeps x (shadowCheck.rest a0 a1).1 := by
  unfold shadowCheck
  dsimp -zeta only
  extract_lets l0
  clear_value l0
  refine Keeps.iteP (p := (fun r => (Prod.fst r))) ?_ ?_
  · exact k0
  · refine Keeps.iteP (p := (fun r => (Prod.fst r))) ?_ ?_
    · exact State.shUsed_keeps k0
    · refine Keeps.iteP (p := (fun r => (Prod.fst r))) ?_ ?_
      · exact State.shUsed_keeps k0
      · exact State.shUsed_keeps k0

theorem State.shRows_keeps {x : State} {a0} {a1} (k0 : Keeps x a0) : Keeps x (State.shRows a0 a1).1 := by
  unfold State.shRows
  extract_lets l0
  clear_value l0
  refine Keeps.iteP (p := (fun r => (Prod.fst r))) ?_ ?_
  · exact k0
  · split
    · rename_i v1 v2 v3 v4 v5
      have h6 : Keeps x ((v2, v3, v4)).1 := by
        rw [← v5]
        exact State.shUsed_keeps k0
      extract_lets l7 l8
      have h9 : Keeps x l7.st := by
        unfold l7
        exact State.readElems_keeps h6
      clear_value l7
      have h10 : Keeps x l8.st := by
        unfold l8
        exact State.readElems_keeps h6
      clear_value l8
      refine Keeps.iteP (p := (fun r => (Prod.fst r))) ?_ ?_
      · exact h9
      · exact h10

theorem State.sendShadow_keeps {x : State} {a0} {a1} {a2} {a3} {a4} {a5} (k0 : Keeps x a0) : Keeps x
    (State.sendShadow a0 a1 a2 a3 a4 a5) := by
  unfold State.sendShadow
  exact State.count64_keeps (State.send_keeps k0)

theorem State.openGen_keeps {x : State} {a0} {a1} {a2} {a3} (k0 : Keeps x a0) : Keeps x (State.openGen a0 a1 a2 a3)
    := by
  unfold State.openGen
  extract_lets l0 l1 l2
  clear_value l0 l1
  have h3 : Keeps x l2 := by
    unfold l2
    exact State.setTw_keeps k0
  clear_value l2
  refine Keeps.ite ?_ ?_
  · exact k0
  · refine Keeps.foldl (p := fun r => r) ?_ (fun b4 a5 h6 => ?_)
    · exact h3
    · exact State.sendShadow_keeps h6

theorem State.shadowRead_keeps {x : State} {a0} {a1} {a2} (k0 : Keeps x a0) : Keeps x (State.shadowRead a0 a1
    a2).1.st := by
  unfold State.shadowRead
  extract_lets l0 l1
  clear_value l0 l1
  refine Keeps.iteP (p := (fun r => (RowAcc.st (Prod.fst r)))) ?_ ?_
  · split
    · rename_i v2 v3 v4 v5
      have h6 : Keeps x ((v3, v4)).1.st := by
        rw [← v5]
        refine Keeps.foldl (p := (fun r => (RowAcc.st (Prod.fst r)))) ?_ (fun b7 a8 h9 => ?_)
        · exact k0
        · refine Keeps.iteP (p := (fun r => (RowAcc.st (Prod.fst r)))) ?_ ?_
          · exact h9
          · split
            · rename_i v10 v11 v12 v13
              have h14 : Keeps x ((v11, v12)).1.st := by
                rw [← v13]
                exact State.planeRead_keeps h9
              split
              · rename_i v15 v16 v17 v18
                have h19 : Keeps x ((v16, v17)).1 := by
                  rw [← v18]
                  exact State.freeWords_keeps h14
                exact h19
      exact h6
  · refine Keeps.iteP (p := (fun r => (RowAcc.st (Prod.fst r)))) ?_ ?_
    · exact State.rowVisit_keeps k0
    · exact k0

theorem State.shadowReads_keeps {x : State} {a0} {a1} {a2} (k0 : Keeps x a0) : Keeps x (State.shadowReads a0 a1
    a2).1.st := by
  unfold State.shadowReads
  refine Keeps.foldl (p := (fun r => (RowAcc.st (Prod.fst r)))) ?_ (fun b0 a1 h2 => ?_)
  · exact k0
  · split
    · rename_i v3 v4 v5 v6 v7
      have h8 : Keeps x ((v5, v6)).1.st := by
        rw [← v7]
        exact State.shadowRead_keeps h2
      exact h8

theorem State.shadowSkip_keeps {x : State} {a0} {a1} (k0 : Keeps x a0) : Keeps x (State.shadowSkip a0 a1) := by
  unfold State.shadowSkip
  exact State.doneWith_keeps (State.err_keeps (State.count_keeps k0))

theorem State.shadowRun_keeps {x : State} {a0} {a1} (k0 : Keeps x a0) : Keeps x (State.shadowRun a0 a1) := by
  unfold State.shadowRun
  extract_lets l0
  clear_value l0
  refine Keeps.ite ?_ ?_
  · exact State.shadowSkip_keeps k0
  · split
    · rename_i v1 v2 v3 v4 v5
      have h6 : Keeps x ((v2, v3, v4)).1 := by
        rw [← v5]
        exact State.shRows_keeps k0
      extract_lets l7
      clear_value l7
      refine Keeps.ite ?_ ?_
      · exact State.endCmd_keeps (State.addCmd_keeps h6)
      · split
        · rename_i v8 v9 v10 v11
          have h12 : Keeps x ((v9, v10)).1.st := by
            rw [← v11]
            exact State.shadowReads_keeps h6
          extract_lets l13
          have h14 : Keeps x l13 := by
            unfold l13
            exact State.addCmd_keeps (State.openGen_keeps h12)
          clear_value l13
          refine Keeps.foldl (p := fun r => r) ?_ (fun b15 a16 h17 => ?_)
          · exact h14
          · exact State.sendShadow_keeps h17

theorem execBndShadow_keeps {x : State} {a0} {a1} {a2} (k2 : Keeps x a2) : KeepsRes x (execBndShadow a0 a1 a2) := by
  unfold execBndShadow
  refine KeepsRes.next ?_
  refine State.command_keeps ?_ ?_ ?_
  · exact k2
  · intro a0 a1 a2
    exact shadowCheck_keeps a2
  · intro a3 a4 a5
    exact State.shadowRun_keeps a5

theorem State.sealRun_keeps {x : State} {a0} {a1} (k0 : Keeps x a0) : Keeps x (State.sealRun a0 a1) := by
  unfold State.sealRun
  extract_lets l0 l1
  clear_value l0 l1
  exact Keeps.ite (State.shadowSkip_keeps k0) (State.sendShadow_keeps (State.addCmd_keeps k0))

theorem execBndSeal_keeps {x : State} {a0} {a1} {a2} (k2 : Keeps x a2) : KeepsRes x (execBndSeal a0 a1 a2) := by
  unfold execBndSeal
  refine KeepsRes.next ?_
  refine State.command_keeps ?_ ?_ ?_
  · exact k2
  · intro a0 a1 a2
    refine Check.rest_keeps (fun _ _ => rfl) ?_
    exact a2
  · intro a3 a4 a5
    exact State.sealRun_keeps a5

theorem State.openFull_keeps {x : State} {a0} {a1} (k0 : Keeps x a0) : Keeps x (State.openFull a0 a1) := by
  unfold State.openFull
  extract_lets l0
  clear_value l0
  exact State.setReg_keeps (State.setTw_keeps k0)

theorem State.dropGen_keeps {x : State} {a0} {a1} (k0 : Keeps x a0) : Keeps x (State.dropGen a0 a1) := by
  unfold State.dropGen
  extract_lets l0 l1
  clear_value l0 l1
  exact State.count_keeps (State.setTw_keeps k0)

theorem State.shadowReply_keeps {x : State} {a0} {a1} {a2} {a3} (k0 : Keeps x a0) : Keeps x (State.shadowReply a0
    a1 a2 a3) := by
  unfold State.shadowReply
  exact Keeps.ite k0 (State.reply_keeps k0)

theorem State.beginGen_keeps {x : State} {a0} {a1} {a2} {a3} (k0 : Keeps x a0) : Keeps x (State.beginGen a0 a1 a2
    a3) := by
  unfold State.beginGen
  extract_lets l0 l1 l2
  have h3 : Keeps x l0 := by
    unfold l0
    exact State.dropGen_keeps k0
  clear_value l0
  have h4 : Keeps x l1 := by
    unfold l1
    exact Keeps.ite (State.openFull_keeps h3) h3
  clear_value l1 l2
  exact State.setTw_keeps h4

theorem State.shadowRecord_keeps {x : State} {a0} {a1} {a2} {a3} {a4} {a5} {a6} (k0 : Keeps x a0) : Keeps x
    (State.shadowRecord a0 a1 a2 a3 a4 a5 a6) := by
  unfold State.shadowRecord
  extract_lets l0 l1 l2 l3
  clear_value l0
  have h4 : Keeps x l1 := by
    unfold l1
    exact Keeps.ite k0 (State.beginGen_keeps k0)
  clear_value l1 l2 l3
  refine Keeps.ite ?_ ?_
  · exact State.nackPkt_keeps k0
  · refine Keeps.ite ?_ ?_
    · exact State.shadowReply_keeps (State.setTw_keeps h4)
    · split
      · exact Keeps.ite (State.shadowReply_keeps (State.setReg_keeps (State.setTw_keeps h4)))
            (State.shadowReply_keeps (State.setTw_keeps h4))
      · exact State.shadowReply_keeps (State.owe_keeps (State.setTw_keeps h4))

theorem State.onShadowWrite_keeps {x : State} {a0} {a1} (k0 : Keeps x a0) : Keeps x (State.onShadowWrite a0 a1) := by
  unfold State.onShadowWrite
  extract_lets l0
  clear_value l0
  split
  · extract_lets l8
    clear_value l8
    refine Keeps.ite ?_ ?_
    · exact State.setTw_keeps k0
    · exact Keeps.ite (Keeps.ite (State.shadowReply_keeps k0) (State.shadowReply_keeps (State.owe_keeps
          (State.setTw_keeps k0)))) (State.shadowRecord_keeps k0)
  · exact k0

theorem State.foldNow_keeps {x : State} {a0} {a1} (k0 : Keeps x a0) : Keeps x (State.foldNow a0 a1) := by
  unfold State.foldNow
  split
  · exact k0
  · extract_lets l5 l6
    clear_value l5 l6
    exact State.setReg_keeps (State.owe_keeps (State.owe_keeps (State.setTw_keeps k0)))

theorem State.foldDone_keeps {x : State} {a0} {a1} (k0 : Keeps x a0) : Keeps x (State.foldDone a0 a1) := by
  unfold State.foldDone
  extract_lets l0 l1
  have h2 : Keeps x l0 := by
    unfold l0
    exact State.foldNow_keeps k0
  clear_value l0 l1
  refine Keeps.ite ?_ ?_
  · split
    · refine Keeps.foldl (p := fun r => r) ?_ (fun b7 a8 h9 => ?_)
      · exact State.setTw_keeps h2
      · exact State.onShadowWrite_keeps h9
  · exact k0

theorem execFoldComplete_keeps {x : State} {a0} {a1} (k1 : Keeps x a1) : KeepsRes x (execFoldComplete a0 a1) := by
  unfold execFoldComplete
  exact KeepsRes.next (State.foldDone_keeps k1)

theorem State.killGen_keeps {x : State} {a0} {a1} (k0 : Keeps x a0) : Keeps x (State.killGen a0 a1) := by
  unfold State.killGen
  extract_lets l0
  clear_value l0
  exact State.err_keeps (State.setTw_keeps k0)

theorem State.sealed_keeps {x : State} {a0} {a1} (k0 : Keeps x a0) : Keeps x (State.sealed a0 a1) := by
  unfold State.sealed
  extract_lets l0
  clear_value l0
  exact State.finish_keeps (State.count_keeps (State.setReg_keeps (State.setTw_keeps k0)))

theorem State.onShadowAck_keeps {x : State} {a0} {a1} (k0 : Keeps x a0) : Keeps x (State.onShadowAck a0 a1) := by
  unfold State.onShadowAck
  split
  · extract_lets l4 l5 l6 l7
    clear_value l4
    have h8 : Keeps x l5 := by
      unfold l5
      exact Keeps.ite (State.killGen_keeps k0) k0
    clear_value l5 l6
    have h9 : Keeps x l7 := by
      unfold l7
      exact State.setTw_keeps h8
    clear_value l7
    refine Keeps.ite ?_ ?_
    · exact State.storeDone_keeps (Keeps.ite (State.err_keeps h9) h9)
    · split
      · exact h8
      · split
        · extract_lets l20
          clear_value l20
          exact Keeps.ite (Keeps.ite (State.mapCmd_keeps h8) (State.sealed_keeps h8)) (State.mapCmd_keeps h8)
        · exact h8
  · exact k0

theorem State.heartbeatSend_keeps {x : State} {a0} (k0 : Keeps x a0) : Keeps x (State.heartbeatSend a0) := by
  unfold State.heartbeatSend
  extract_lets l0 l1 l2
  clear_value l0 l1
  have h3 : Keeps x l2 := by
    unfold l2
    exact State.setTw_keeps k0
  clear_value l2
  refine Keeps.ite ?_ ?_
  · refine Keeps.foldl (p := fun r => r) ?_ (fun b4 a5 h6 => ?_)
    · exact h3
    · exact State.emit_keeps h6
  · exact k0

theorem execHeartbeatSend_keeps {x : State} {a0} (k0 : Keeps x a0) : KeepsRes x (execHeartbeatSend a0) := by
  unfold execHeartbeatSend
  exact KeepsRes.next (State.heartbeatSend_keeps k0)

theorem State.pairFrom_keeps {x : State} {a0} {a1} {a2} (k0 : Keeps x a0) : Keeps x (State.pairFrom a0 a1 a2) := by
  unfold State.pairFrom
  exact State.setTwin_keeps k0

theorem State.heartbeatRx_keeps {x : State} {a0} {a1} {a2} {a3} (k0 : Keeps x a0) : Keeps x (State.heartbeatRx a0
    a1 a2 a3) := by
  unfold State.heartbeatRx
  extract_lets l0 l1
  clear_value l0
  have h2 : Keeps x l1 := by
    unfold l1
    exact State.setTw_keeps k0
  clear_value l1
  refine Keeps.ite ?_ ?_
  · exact k0
  · refine Keeps.ite ?_ ?_
    · exact State.pairFrom_keeps h2
    · split
      · exact Keeps.ite (State.setTwin_keeps h2) h2
      · exact Keeps.ite h2 (State.pairFrom_keeps h2)
      · exact Keeps.ite (State.setTwin_keeps h2) h2
      · exact h2

theorem execHeartbeatRx_keeps {x : State} {a0} {a1} {a2} {a3} (k3 : Keeps x a3) : KeepsRes x (execHeartbeatRx a0 a1
    a2 a3) := by
  unfold execHeartbeatRx
  exact KeepsRes.next (State.heartbeatRx_keeps k3)

theorem State.twinSilent_keeps {x : State} {a0} (k0 : Keeps x a0) : Keeps x (State.twinSilent a0) := by
  unfold State.twinSilent
  exact State.emit_keeps (State.err_keeps (State.setTwin_keeps k0))

theorem State.heartbeatTimeout_keeps {x : State} {a0} (k0 : Keeps x a0) : Keeps x (State.heartbeatTimeout a0) := by
  unfold State.heartbeatTimeout
  extract_lets l0 l1 l2
  clear_value l0 l1
  have h3 : Keeps x l2 := by
    unfold l2
    exact State.count_keeps (State.setTw_keeps k0)
  clear_value l2
  exact Keeps.ite k0 (Keeps.ite (State.twinSilent_keeps h3) h3)

theorem execHeartbeatTimeout_keeps {x : State} {a0} (k0 : Keeps x a0) : KeepsRes x (execHeartbeatTimeout a0) := by
  unfold execHeartbeatTimeout
  exact KeepsRes.next (State.heartbeatTimeout_keeps k0)

theorem State.twinSense_keeps {x : State} {a0} {a1} (k0 : Keeps x a0) : Keeps x (State.twinSense a0 a1) := by
  unfold State.twinSense
  extract_lets l0
  clear_value l0
  exact Keeps.ite k0 (State.setTw_keeps k0)

theorem State.twinFall_keeps {x : State} {a0} (k0 : Keeps x a0) : Keeps x (State.twinFall a0) := by
  unfold State.twinFall
  extract_lets l0 l1
  clear_value l0
  have h2 : Keeps x l1 := by
    unfold l1
    exact State.setTw_keeps k0
  clear_value l1
  exact Keeps.ite k0 (Keeps.ite (State.twinSilent_keeps h2) h2)

theorem execTwinSenseChange_keeps {x : State} {a0} {a1} (k1 : Keeps x a1) : KeepsRes x (execTwinSenseChange a0 a1)
    := by
  unfold execTwinSenseChange
  exact KeepsRes.next (State.twinSense_keeps k1)

theorem State.twinStart_keeps {x : State} {a0} (k0 : Keeps x a0) : Keeps x (State.twinStart a0) := by
  unfold State.twinStart
  extract_lets l0
  clear_value l0
  exact Keeps.ite (State.setTw_keeps k0) (State.setTwin_keeps k0)

theorem State.twinWaitEnd_keeps {x : State} {a0} (k0 : Keeps x a0) : Keeps x (State.twinWaitEnd a0) := by
  unfold State.twinWaitEnd
  extract_lets l0
  clear_value l0
  split
  · exact Keeps.ite (State.twinSilent_keeps (State.setTw_keeps k0)) k0
  · exact k0

theorem execTwinWaitTimeout_keeps {x : State} {a0} (k0 : Keeps x a0) : KeepsRes x (execTwinWaitTimeout a0) := by
  unfold execTwinWaitTimeout
  exact KeepsRes.next (State.twinWaitEnd_keeps k0)

theorem State.assumeRow_keeps {x : State} {a0} {a1} (k0 : Keeps x a0) : Keeps x (State.assumeRow a0 a1) := by
  unfold State.assumeRow
  extract_lets l0 l1 l2 l3 l4
  clear_value l0 l1 l2 l3 l4
  split
  · rename_i v5 v6 v7 v8
    have h9 : Keeps x ((v6, v7)).1 := by
      rw [← v8]
      refine Keeps.iteP (p := (fun r => (Prod.fst r))) ?_ ?_
      · split
        · rename_i v10 v11 v12 v13
          have h14 : Keeps x ((v11, v12)).1 := by
            rw [← v13]
            exact State.freeCodes_keeps k0
          split
          · rename_i v15 v16 v17 v18
            have h19 : Keeps x ((v16, v17)).2 := by
              rw [← v18]
              exact State.draw_keeps h14
            exact h19
      · exact k0
    extract_lets l20 l21
    clear_value l20
    have h22 : Keeps x l21 := by
      unfold l21
      exact State.setPlc_keeps h9
    clear_value l21
    exact State.dirOwner_keeps h22

theorem State.assumeTwin_keeps {x : State} {a0} (k0 : Keeps x a0) : Keeps x (State.assumeTwin a0) := by
  unfold State.assumeTwin
  extract_lets l0 l1 l2 l3 l4 l5 l6 l7 l8 l9
  clear_value l0
  have h10 : Keeps x l1 := by
    unfold l1
    refine Keeps.foldl (p := fun r => r) ?_ (fun b11 a12 h13 => ?_)
    · exact k0
    · exact State.foldNow_keeps h13
  clear_value l1
  have h14 : Keeps x l2 := by
    unfold l2
    refine Keeps.foldl (p := fun r => r) ?_ (fun b15 a16 h17 => ?_)
    · exact h10
    · exact State.dropGen_keeps h17
  clear_value l2 l3 l4 l5
  have h18 : Keeps x l6 := by
    unfold l6
    exact State.setTwin_keeps (State.setTw_keeps h14)
  clear_value l6
  have h19 : Keeps x l7 := by
    unfold l7
    refine Keeps.foldl (p := fun r => r) ?_ (fun b20 a21 h22 => ?_)
    · exact h18
    · exact State.setReg_keeps h22
  clear_value l7
  have h23 : Keeps x l8 := by
    unfold l8
    refine Keeps.foldl (p := fun r => r) ?_ (fun b24 a25 h26 => ?_)
    · exact h19
    · exact State.assumeRow_keeps h26
  clear_value l8
  have h27 : Keeps x l9 := by
    unfold l9
    refine Keeps.foldl (p := fun r => r) ?_ (fun b28 a29 h30 => ?_)
    · exact h23
    · exact State.dirPut_keeps h30
  clear_value l9
  exact Keeps.ite k0 (State.setRecovery_keeps (State.fbarAssume_keeps h27))

theorem execAssume_keeps {x : State} {a0} {a1} (k1 : Keeps x a1) : KeepsRes x (execAssume a0 a1) := by
  unfold execAssume
  refine KeepsRes.next ?_
  refine State.guardWrite_keeps ?_ ?_
  · exact k1
  · intro a0 a1
    exact State.assumeTwin_keeps a1

theorem State.tellMoved_keeps {x : State} {a0} (k0 : Keeps x a0) : Keeps x (State.tellMoved a0) := by
  unfold State.tellMoved
  refine Keeps.foldl (p := fun r => r) ?_ (fun b0 a1 h2 => ?_)
  · exact k0
  · exact State.plcSend_keeps h2

theorem State.refillImage_keeps {x : State} {a0} {a1} {a2} (k0 : Keeps x a0) : Keeps x (State.refillImage a0 a1 a2)
    := by
  unfold State.refillImage
  extract_lets l0 l1 l2 l3
  clear_value l0 l1 l2 l3
  split
  · rename_i v4 v5 v6 v7
    have h8 : Keeps x ((v5, v6)).1.st := by
      rw [← v7]
      exact State.shadowReads_keeps k0
    extract_lets l9 l10
    have h11 : Keeps x l9 := by
      unfold l9
      exact h8
    clear_value l9
    have h12 : Keeps x l10 := by
      unfold l10
      refine Keeps.foldl (p := fun r => r) ?_ (fun b13 a14 h15 => ?_)
      · exact h11
      · exact State.sendShadow_keeps h15
    clear_value l10
    exact State.sendShadow_keeps h12

theorem State.refillTwin_keeps {x : State} {a0} (k0 : Keeps x a0) : Keeps x (State.refillTwin a0) := by
  unfold State.refillTwin
  extract_lets l0 l1 l2 l3 l4
  clear_value l0 l1
  have h5 : Keeps x l2 := by
    unfold l2
    exact State.setTwin_keeps (State.setTw_keeps k0)
  clear_value l2
  have h6 : Keeps x l3 := by
    unfold l3
    refine Keeps.foldl (p := fun r => r) ?_ (fun b7 a8 h9 => ?_)
    · exact h5
    · exact State.migPrepare_keeps (State.putOut_keeps h9)
  clear_value l3
  have h10 : Keeps x l4 := by
    unfold l4
    exact State.tellMoved_keeps h6
  clear_value l4
  refine Keeps.ite ?_ ?_
  · exact k0
  · refine Keeps.foldl (p := fun r => r) ?_ (fun b11 a12 h13 => ?_)
    · exact h10
    · exact State.refillImage_keeps h13

theorem execRefill_keeps {x : State} {a0} {a1} (k1 : Keeps x a1) : KeepsRes x (execRefill a0 a1) := by
  unfold execRefill
  refine KeepsRes.next ?_
  refine State.guardWrite_keeps ?_ ?_
  · exact k1
  · intro a0 a1
    exact State.refillTwin_keeps a1

theorem State.twinWrite_keeps {x : State} {a0} {a1} (k0 : Keeps x a0) : Keeps x (State.twinWrite a0 a1) := by
  unfold State.twinWrite
  split
  · exact State.assumeTwin_keeps k0
  · exact State.refillTwin_keeps k0
  · exact k0

theorem State.handback_keeps {x : State} {a0} (k0 : Keeps x a0) : Keeps x (State.handback a0) := by
  unfold State.handback
  extract_lets l0 l1 l2 l3 l4 l5 l6 l7 l8 l9
  clear_value l0 l1 l2 l3 l4
  have h10 : Keeps x l5 := by
    unfold l5
    exact State.tellMoved_keeps k0
  clear_value l5
  have h11 : Keeps x l6 := by
    unfold l6
    refine Keeps.foldl (p := fun r => r) ?_ (fun b12 a13 h14 => ?_)
    · exact h10
    · exact State.dirDel_keeps h14
  clear_value l6
  have h15 : Keeps x l7 := by
    unfold l7
    refine Keeps.foldl (p := fun r => r) ?_ (fun b16 a17 h18 => ?_)
    · exact h11
    · exact State.setReg_keeps h18
  clear_value l7
  have h19 : Keeps x l8 := by
    unfold l8
    refine Keeps.foldl (p := fun r => r) ?_ (fun b20 a21 h22 => ?_)
    · exact h15
    · split
      · exact State.migTransfer_keeps (State.putOut_keeps h22)
      · exact h22
  clear_value l8 l9
  exact Keeps.ite k0 (State.setTwin_keeps (State.setTw_keeps h19))

theorem execHandback_keeps {x : State} {a0} (k0 : Keeps x a0) : KeepsRes x (execHandback a0) := by
  unfold execHandback
  exact KeepsRes.next (State.handback_keeps k0)

end Sys2Proof.Machine
end

