-- ==== Sys2Proof/Laws/KeepsPower.lean ====
section
/-! SUPPORT. What the operations of Machine/Power.lean keep (`Keeps`, Laws/Keeps.lean). -/

namespace Sys2Proof.Machine

theorem State.setPwr_keeps {x : State} {a0} {a1} (k0 : Keeps x a0) : Keeps x (State.setPwr a0 a1) := by
  unfold State.setPwr
  exact Keeps.upd k0 rfl rfl rfl rfl

theorem State.setMgt_keeps {x : State} {a0} {a1} {a2} {a3} (k0 : Keeps x a0) : Keeps x (State.setMgt a0 a1 a2 a3)
    := by
  unfold State.setMgt
  extract_lets l0 l1
  clear_value l0
  have h2 : Keeps x l1 := by
    unfold l1
    exact State.setReg_keeps k0
  clear_value l1
  exact Keeps.ite h2 (State.emit_keeps h2)

theorem State.rampRun_keeps {x : State} {a0} {a1} (k0 : Keeps x a0) : Keeps x (State.rampRun a0 a1) := by
  unfold State.rampRun
  extract_lets l0 l1 l2
  clear_value l0 l1
  have h3 : Keeps x l2 := by
    unfold l2
    exact State.setSqp_keeps k0
  clear_value l2
  exact Keeps.ite (State.addCmd_keeps h3) (State.doneWith_keeps h3)

theorem execRamp_keeps {x : State} {a0} {a1} {a2} (k2 : Keeps x a2) : KeepsRes x (execRamp a0 a1 a2) := by
  unfold execRamp
  refine KeepsRes.next ?_
  refine State.command_keeps ?_ ?_ ?_
  · exact k2
  · intro a0 a1 a2
    refine Check.rest_keeps (fun _ _ => rfl) ?_
    exact a2
  · intro a3 a4 a5
    exact State.rampRun_keeps a5

theorem State.rampsDone_keeps {x : State} {a0} (k0 : Keeps x a0) : Keeps x (State.rampsDone a0) := by
  unfold State.rampsDone
  refine Keeps.foldl (p := fun r => r) ?_ (fun b0 a1 h2 => ?_)
  · exact k0
  · split
    · extract_lets l6 l7
      clear_value l6 l7
      exact Keeps.ite h2 (Keeps.ite (State.mapCmd_keeps h2) (Keeps.ite (State.mapCmd_keeps h2) h2))
    · exact h2

theorem State.sleepRun_keeps {x : State} {a0} {a1} (k0 : Keeps x a0) : Keeps x (State.sleepRun a0 a1) := by
  unfold State.sleepRun
  extract_lets l0 l1 l2 l3
  clear_value l0 l1 l2
  have h4 : Keeps x l3 := by
    unfold l3
    exact Keeps.ite k0 (State.setSqp_keeps k0)
  clear_value l3
  exact State.doneWith_keeps h4

theorem execPwrSleep_keeps {x : State} {a0} {a1} {a2} (k2 : Keeps x a2) : KeepsRes x (execPwrSleep a0 a1 a2) := by
  unfold execPwrSleep
  refine KeepsRes.next ?_
  refine State.command_keeps ?_ ?_ ?_
  · exact k2
  · intro a0 a1 a2
    refine Check.rest_keeps (fun _ _ => rfl) ?_
    exact a2
  · intro a3 a4 a5
    exact State.sleepRun_keeps a5

theorem State.sleepEnter_keeps {x : State} {a0} {a1} (k0 : Keeps x a0) : Keeps x (State.sleepEnter a0 a1) := by
  unfold State.sleepEnter
  extract_lets l0
  clear_value l0
  split
  · exact Keeps.ite k0 (State.count_keeps (State.setSqp_keeps k0))
  · exact k0

theorem execSleepEnter_keeps {x : State} {a0} {a1} (k1 : Keeps x a1) : KeepsRes x (execSleepEnter a0 a1) := by
  unfold execSleepEnter
  exact KeepsRes.next (State.sleepEnter_keeps k1)

theorem State.wakeDue_keeps {x : State} {a0} {a1} (k0 : Keeps x a0) : Keeps x (State.wakeDue a0 a1) := by
  unfold State.wakeDue
  split
  · exact Keeps.ite (State.wakeSquare_keeps k0) k0
  · exact Keeps.ite (State.wakeSquare_keeps k0) k0
  · exact k0

theorem execWakeBeat_keeps {x : State} {a0} {a1} (k1 : Keeps x a1) : KeepsRes x (execWakeBeat a0 a1) := by
  unfold execWakeBeat
  exact KeepsRes.next (State.wakeDue_keeps k1)

theorem State.loseQueue_keeps {x : State} {a0} {a1} (k0 : Keeps x a0) : Keeps x (State.loseQueue a0 a1) := by
  unfold State.loseQueue
  extract_lets l0 l1
  clear_value l0 l1
  exact Keeps.upd k0 rfl rfl rfl rfl

theorem State.loseSquare_keeps {x : State} {a0} {a1} (k0 : Keeps x a0) : Keeps x (State.loseSquare a0 a1) := by
  unfold State.loseSquare
  extract_lets l0 l1 l2
  clear_value l0
  have h3 : Keeps x l1 := by
    unfold l1
    exact State.loseRange_keeps (State.wipeSquare_keeps k0)
  clear_value l1
  have h4 : Keeps x l2 := by
    unfold l2
    refine Keeps.foldl (p := fun r => r) ?_ (fun b5 a6 h7 => ?_)
    · exact State.scsReset_keeps h3
    · exact State.loseQueue_keeps h7
  clear_value l2
  exact Keeps.upd h4 rfl rfl rfl rfl

theorem State.wakeComplete_keeps {x : State} {a0} {a1} (k0 : Keeps x a0) : Keeps x (State.wakeComplete a0 a1) := by
  unfold State.wakeComplete
  extract_lets l0 l1
  clear_value l0
  have h2 : Keeps x l1 := by
    unfold l1
    exact State.setSqp_keeps k0
  clear_value l1
  split
  · exact Keeps.ite k0 (Keeps.ite h2 (State.staleOne_keeps (State.loseSquare_keeps h2)))
  · exact k0

theorem execWakeComplete_keeps {x : State} {a0} {a1} (k1 : Keeps x a1) : KeepsRes x (execWakeComplete a0 a1) := by
  unfold execWakeComplete
  exact KeepsRes.next (State.wakeComplete_keeps k1)

theorem State.sleepWake_keeps {x : State} {a0} {a1} {a2} (k0 : Keeps x a0) : Keeps x (State.sleepWake a0 a1 a2) := by
  unfold State.sleepWake
  refine Keeps.foldl (p := fun r => r) ?_ (fun b0 a1 h2 => ?_)
  · exact k0
  · exact State.wakeSquare_keeps h2

theorem execSleepWake_keeps {x : State} {a0} {a1} {a2} {a3} (k3 : Keeps x a3) : KeepsRes x (execSleepWake a0 a1 a2
    a3) := by
  unfold execSleepWake
  refine KeepsRes.next ?_
  refine Keeps.ite ?_ ?_
  · refine State.guardWrite_keeps ?_ ?_
    · exact k3
    · intro a0 a1
      exact State.sleepWake_keeps a1
  · exact k3

theorem State.clockGate_keeps {x : State} {a0} {a1} {a2} (k0 : Keeps x a0) : Keeps x (State.clockGate a0 a1 a2) := by
  unfold State.clockGate
  extract_lets l0 l1
  have h2 : Keeps x l0 := by
    unfold l0
    exact State.count64_keeps k0
  clear_value l0 l1
  exact Keeps.ite (State.setPwr_keeps h2) k0

theorem execClockGate_keeps {x : State} {a0} {a1} {a2} (k2 : Keeps x a2) : KeepsRes x (execClockGate a0 a1 a2) := by
  unfold execClockGate
  exact KeepsRes.next (State.clockGate_keeps k2)

theorem State.ungateReady_keeps {x : State} {a0} (k0 : Keeps x a0) : Keeps x (State.ungateReady a0) := by
  unfold State.ungateReady
  extract_lets l0
  clear_value l0
  exact State.setPwr_keeps k0

theorem State.governor_keeps {x : State} {a0} {a1} (k0 : Keeps x a0) : Keeps x (State.governor a0 a1) := by
  unfold State.governor
  split
  · split
    · extract_lets l8 l9 l10 l11 l12 l13 l14
      clear_value l8 l9
      have h15 : Keeps x l10 := by
        unfold l10
        exact Keeps.ite (State.err_keeps k0) k0
      clear_value l10
      have h16 : Keeps x l11 := by
        unfold l11
        exact State.count_keeps h15
      clear_value l11
      have h17 : Keeps x l12 := by
        unfold l12
        exact State.count_keeps h16
      clear_value l12 l13 l14
      exact State.setPwr_keeps h17

theorem State.allowOne_keeps {x : State} {a0} {a1} {a2} (k0 : Keeps x a0) : Keeps x (State.allowOne a0 a1 a2) := by
  unfold State.allowOne
  extract_lets l0 l1 l2 l3
  clear_value l0 l1 l2 l3
  exact State.setSqp_keeps k0

theorem State.ballast_keeps {x : State} {a0} (k0 : Keeps x a0) : Keeps x (State.ballast a0) := by
  unfold State.ballast
  exact Keeps.ite (State.countFree_keeps k0) k0

theorem State.warnInput_keeps {x : State} {a0} {a1} (k0 : Keeps x a0) : Keeps x (State.warnInput a0 a1) := by
  unfold State.warnInput
  extract_lets l0 l1 l2 l3 l4
  clear_value l0 l1 l2
  have h5 : Keeps x l3 := by
    unfold l3
    exact Keeps.upd k0 rfl rfl rfl rfl
  clear_value l3
  have h6 : Keeps x l4 := by
    unfold l4
    exact State.setReg_keeps h5
  clear_value l4
  exact Keeps.ite (Keeps.upd k0 rfl rfl rfl rfl) (Keeps.ite (State.emit_keeps h6) h6)

theorem State.measure_keeps {x : State} {a0} {a1} (k0 : Keeps x a0) : Keeps x (State.measure a0 a1) := by
  unfold State.measure
  extract_lets l0 l1 l2 l3
  clear_value l0 l1
  have h4 : Keeps x l2 := by
    unfold l2
    exact State.setPwr_keeps k0
  clear_value l2
  have h5 : Keeps x l3 := by
    unfold l3
    exact State.setReg_keeps (State.warnInput_keeps h4)
  clear_value l3
  split
  · extract_lets l12
    have h13 : Keeps x l12 := by
      unfold l12
      exact State.setReg_keeps h5
    clear_value l12
    split
    · exact Keeps.ite (State.setReg_keeps h13) h13

theorem State.stopModule_keeps {x : State} {a0} {a1} {a2} {a3} (k0 : Keeps x a0) : Keeps x (State.stopModule a0 a1
    a2 a3) := by
  unfold State.stopModule
  extract_lets l0 l1 l2 l3
  have h4 : Keeps x l0 := by
    unfold l0
    exact State.setMgt_keeps k0
  clear_value l0
  have h5 : Keeps x l1 := by
    unfold l1
    exact State.sendStops_keeps h4
  clear_value l1
  have h6 : Keeps x l2 := by
    unfold l2
    refine Keeps.foldl (p := fun r => r) ?_ (fun b7 a8 h9 => ?_)
    · exact h5
    · extract_lets l10
      clear_value l10
      exact Keeps.ite (State.setPort_keeps h9) h9
  clear_value l2
  exact Keeps.upd h6 rfl rfl rfl rfl

theorem State.coolantStop_keeps {x : State} {a0} (k0 : Keeps x a0) : Keeps x (State.coolantStop a0) := by
  unfold State.coolantStop
  extract_lets l0 l1 l2 l3
  clear_value l0
  have h4 : Keeps x l1 := by
    unfold l1
    exact State.setPwr_keeps k0
  clear_value l1 l2
  have h5 : Keeps x l3 := by
    unfold l3
    exact Keeps.upd h4 rfl rfl rfl rfl
  clear_value l3
  exact Keeps.ite k0 (State.emit_keeps (State.err_keeps (State.stopModule_keeps h5)))

theorem execCoolantStop_keeps {x : State} {a0} (k0 : Keeps x a0) : KeepsRes x (execCoolantStop a0) := by
  unfold execCoolantStop
  exact KeepsRes.next (State.coolantStop_keeps k0)

theorem State.thermalTrip_keeps {x : State} {a0} (k0 : Keeps x a0) : Keeps x (State.thermalTrip a0) := by
  unfold State.thermalTrip
  extract_lets l0 l1
  clear_value l0
  have h2 : Keeps x l1 := by
    unfold l1
    exact State.setPwr_keeps k0
  clear_value l1
  exact Keeps.ite (State.stopModule_keeps h2) k0

theorem execThermalTrip_keeps {x : State} {a0} {a1} (k1 : Keeps x a1) : KeepsRes x (execThermalTrip a0 a1) := by
  unfold execThermalTrip
  exact KeepsRes.next (State.thermalTrip_keeps k1)

theorem State.clocksStop_keeps {x : State} {a0} (k0 : Keeps x a0) : Keeps x (State.clocksStop a0) := by
  unfold State.clocksStop
  extract_lets l0
  clear_value l0
  exact Keeps.ite (State.setPwr_keeps k0) k0

theorem execCoolantClocksStop_keeps {x : State} {a0} (k0 : Keeps x a0) : KeepsRes x (execCoolantClocksStop a0) := by
  unfold execCoolantClocksStop
  exact KeepsRes.next (State.clocksStop_keeps k0)

theorem State.stopFlush_keeps {x : State} {a0} (k0 : Keeps x a0) : Keeps x (State.stopFlush a0) := by
  unfold State.stopFlush
  exact Keeps.ite (State.writebackAll_keeps k0) k0

theorem execCoolantWcbFlush_keeps {x : State} {a0} (k0 : Keeps x a0) : KeepsRes x (execCoolantWcbFlush a0) := by
  unfold execCoolantWcbFlush
  exact KeepsRes.next (State.stopFlush_keeps k0)

theorem State.stopRefresh_keeps {x : State} {a0} (k0 : Keeps x a0) : Keeps x (State.stopRefresh a0) := by
  unfold State.stopRefresh
  refine Keeps.ite ?_ ?_
  · refine Keeps.foldl (p := fun r => r) ?_ (fun b0 a1 h2 => ?_)
    · exact k0
    · exact State.setStack_keeps (State.flushStack_keeps h2)
  · exact k0

theorem execCoolantSelfRefresh_keeps {x : State} {a0} (k0 : Keeps x a0) : KeepsRes x (execCoolantSelfRefresh a0) := by
  unfold execCoolantSelfRefresh
  exact KeepsRes.next (State.stopRefresh_keeps k0)

theorem execThermalTripRailsOff_keeps {x : State} {a0} (k0 : Keeps x a0) : KeepsRes x (execThermalTripRailsOff a0)
    := by
  unfold execThermalTripRailsOff
  exact KeepsRes.next (State.railsOff_keeps k0)

theorem State.coolantHigh_keeps {x : State} {a0} (k0 : Keeps x a0) : Keeps x (State.coolantHigh a0) := by
  unfold State.coolantHigh
  extract_lets l0 l1 l2 l3 l4
  clear_value l0 l1
  have h5 : Keeps x l2 := by
    unfold l2
    exact Keeps.upd k0 rfl rfl rfl rfl
  clear_value l2 l3
  have h6 : Keeps x l4 := by
    unfold l4
    exact Keeps.ite (State.setMgt_keeps (Keeps.upd h5 rfl rfl rfl rfl)) h5
  clear_value l4
  exact Keeps.ite (State.count_keeps h6) h6

theorem State.coolantSample_keeps {x : State} {a0} {a1} (k0 : Keeps x a0) : Keeps x (State.coolantSample a0 a1) := by
  unfold State.coolantSample
  extract_lets l0 l1 l2 l3
  clear_value l0 l1
  have h4 : Keeps x l2 := by
    unfold l2
    exact Keeps.upd k0 rfl rfl rfl rfl
  clear_value l2 l3
  refine Keeps.ite ?_ ?_
  · exact k0
  · refine Keeps.ite ?_ ?_
    · exact k0
    · refine Keeps.ite ?_ ?_
      · exact State.setPwr_keeps (State.coolantHigh_keeps k0)
      · split
        · exact State.setPwr_keeps h4
        · exact Keeps.ite (State.coolantStop_keeps h4) h4

theorem State.coolantRise_keeps {x : State} {a0} (k0 : Keeps x a0) : Keeps x (State.coolantRise a0) := by
  unfold State.coolantRise
  exact Keeps.ite k0 (State.coolantHigh_keeps k0)

theorem execCoolantOkRise_keeps {x : State} {a0} (k0 : Keeps x a0) : KeepsRes x (execCoolantOkRise a0) := by
  unfold execCoolantOkRise
  exact KeepsRes.next (State.coolantRise_keeps k0)

theorem State.recalStart_keeps {x : State} {a0} (k0 : Keeps x a0) : Keeps x (State.recalStart a0) := by
  unfold State.recalStart
  extract_lets l0
  clear_value l0
  exact State.setPwr_keeps k0

theorem State.driftBegin_keeps {x : State} {a0} (k0 : Keeps x a0) : Keeps x (State.driftBegin a0) := by
  unfold State.driftBegin
  extract_lets l0
  clear_value l0
  exact Keeps.ite (State.recalStart_keeps (State.err_keeps (State.count_keeps (State.setPwr_keeps k0)))) k0

theorem State.driftStep_keeps {x : State} {a0} {a1} (k0 : Keeps x a0) : Keeps x (State.driftStep a0 a1) := by
  unfold State.driftStep
  extract_lets l0 l1 l2 l3
  clear_value l0 l1 l2 l3
  refine Keeps.ite ?_ ?_
  · exact Keeps.ite (State.setPwr_keeps k0) (State.setPwr_keeps k0)
  · exact Keeps.ite k0 (Keeps.ite (State.recalStart_keeps (State.count_keeps (State.setPwr_keeps k0))) (Keeps.ite
        (State.setPwr_keeps k0) (State.setPwr_keeps k0)))

theorem State.recalStep_keeps {x : State} {a0} (k0 : Keeps x a0) : Keeps x (State.recalStep a0) := by
  unfold State.recalStep
  split
  · exact k0
  · extract_lets l6
    clear_value l6
    exact Keeps.ite (State.setPwr_keeps k0) (State.recalStart_keeps k0)

theorem State.driftPeriod_keeps {x : State} {a0} (k0 : Keeps x a0) : Keeps x (State.driftPeriod a0) := by
  unfold State.driftPeriod
  refine Keeps.ite ?_ ?_
  · exact k0
  · split
    · extract_lets l6 l7 l8 l9
      clear_value l6 l7
      have h10 : Keeps x l8 := by
        unfold l8
        exact State.setPwr_keeps k0
      clear_value l8
      have h11 : Keeps x l9 := by
        unfold l9
        exact Keeps.ite (State.err_keeps h10) h10
      clear_value l9
      exact State.driftStep_keeps (State.recalStep_keeps h11)

theorem execDriftPeriod_keeps {x : State} {a0} {a1} {a2} (k2 : Keeps x a2) : KeepsRes x (execDriftPeriod a0 a1 a2)
    := by
  unfold execDriftPeriod
  exact KeepsRes.next (State.driftPeriod_keeps k2)

theorem State.recalDone_keeps {x : State} {a0} (k0 : Keeps x a0) : Keeps x (State.recalDone a0) := by
  unfold State.recalDone
  split
  · exact k0
  · refine Keeps.ite ?_ ?_
    · exact k0
    · split
      · rename_i v6 v7 v8 v9
        have h10 : Keeps x ((v7, v8)).2 := by
          rw [← v9]
          exact State.draw_keeps k0
        extract_lets l11 l12 l13 l14 l15
        clear_value l11 l12 l13
        have h16 : Keeps x l14 := by
          unfold l14
          exact State.setPwr_keeps h10
        clear_value l14
        exact State.count_keeps (Keeps.upd h16 rfl rfl rfl rfl)

theorem execRecalComplete_keeps {x : State} {a0} (k0 : Keeps x a0) : KeepsRes x (execRecalComplete a0) := by
  unfold execRecalComplete
  exact KeepsRes.next (State.recalDone_keeps k0)

theorem State.calInvalidate_keeps {x : State} {a0} (k0 : Keeps x a0) : Keeps x (State.calInvalidate a0) := by
  unfold State.calInvalidate
  extract_lets l0
  clear_value l0
  exact State.setPwr_keeps k0

theorem execRecal_keeps {x : State} {a0} {a1} (k1 : Keeps x a1) : KeepsRes x (execRecal a0 a1) := by
  unfold execRecal
  refine KeepsRes.next ?_
  refine State.guardWrite_keeps ?_ ?_
  · exact k1
  · intro a0 a1
    exact State.recalStart_keeps a1

theorem execInvalidate_keeps {x : State} {a0} {a1} (k1 : Keeps x a1) : KeepsRes x (execInvalidate a0 a1) := by
  unfold execInvalidate
  refine KeepsRes.next ?_
  refine State.guardWrite_keeps ?_ ?_
  · exact k1
  · intro a0 a1
    exact State.calInvalidate_keeps a1

theorem State.calWrite_keeps {x : State} {a0} {a1} (k0 : Keeps x a0) : Keeps x (State.calWrite a0 a1) := by
  unfold State.calWrite
  extract_lets l0
  have h1 : Keeps x l0 := by
    unfold l0
    exact Keeps.ite (State.calInvalidate_keeps k0) k0
  clear_value l0
  exact Keeps.ite (State.recalStart_keeps h1) h1

theorem State.freqChange_keeps {x : State} {a0} {a1} {a2} (k0 : Keeps x a0) : Keeps x (State.freqChange a0 a1 a2)
    := by
  unfold State.freqChange
  extract_lets l0 l1
  clear_value l0 l1
  exact Keeps.ite (State.setPwr_keeps k0) (State.setPwr_keeps k0)

theorem State.railSettled_keeps {x : State} {a0} {a1} (k0 : Keeps x a0) : Keeps x (State.railSettled a0 a1) := by
  unfold State.railSettled
  extract_lets l0
  clear_value l0
  exact Keeps.ite (State.setPwr_keeps k0) k0

theorem execRailSettled_keeps {x : State} {a0} {a1} (k1 : Keeps x a1) : KeepsRes x (execRailSettled a0 a1) := by
  unfold execRailSettled
  exact KeepsRes.next (State.railSettled_keeps k1)

theorem State.setTrim_keeps {x : State} {a0} {a1} {a2} (k0 : Keeps x a0) : Keeps x (State.setTrim a0 a1 a2) := by
  unfold State.setTrim
  extract_lets l0
  clear_value l0
  exact State.setPwr_keeps k0

theorem State.trimRaise_keeps {x : State} {a0} {a1} {a2} {a3} (k0 : Keeps x a0) : Keeps x (State.trimRaise a0 a1 a2
    a3) := by
  unfold State.trimRaise
  extract_lets l0 l1 l2 l3 l4 l5
  clear_value l0
  have h6 : Keeps x l1 := by
    unfold l1
    exact State.setPwr_keeps k0
  clear_value l1
  have h7 : Keeps x l2 := by
    unfold l2
    exact State.count_keeps (State.setTrim_keeps h6)
  clear_value l2 l3 l4
  have h8 : Keeps x l5 := by
    unfold l5
    exact State.setPwr_keeps h6
  clear_value l5
  exact Keeps.ite k0 (Keeps.ite h6 (Keeps.ite (State.setPwr_keeps h7) (State.err_keeps h8)))

theorem execTrimRaise_keeps {x : State} {a0} {a1} {a2} {a3} (k3 : Keeps x a3) : KeepsRes x (execTrimRaise a0 a1 a2
    a3) := by
  unfold execTrimRaise
  exact KeepsRes.next (State.trimRaise_keeps k3)

theorem State.markWork_keeps {x : State} {a0} (k0 : Keeps x a0) : Keeps x (State.markWork a0) := by
  unfold State.markWork
  extract_lets l0
  clear_value l0
  exact State.setPwr_keeps k0

theorem State.replan_keeps {x : State} {a0} {a1} (k0 : Keeps x a0) : Keeps x (State.replan a0 a1) := by
  unfold State.replan
  extract_lets l0 l1 l2
  clear_value l0 l1
  have h3 : Keeps x l2 := by
    unfold l2
    exact Keeps.ite (State.setTrim_keeps k0) k0
  clear_value l2
  exact Keeps.ite k0 (Keeps.ite (State.setTrim_keeps (State.setPwr_keeps k0)) (Keeps.ite k0 (State.count_keeps h3)))

theorem State.thermalSample_keeps {x : State} {a0} {a1} {a2} (k0 : Keeps x a0) : Keeps x (State.thermalSample a0 a1
    a2) := by
  unfold State.thermalSample
  extract_lets l0 l1 l2 l3 l4 l5 l6 l7 l8 l9 l10 l11 l12 l13 l14 l15 l16 l17
  clear_value l0 l1 l2 l3 l4 l5 l6 l7 l8 l9 l10
  have h18 : Keeps x l11 := by
    unfold l11
    exact State.setPwr_keeps k0
  clear_value l11
  have h19 : Keeps x l12 := by
    unfold l12
    exact State.setReg_keeps h18
  clear_value l12
  have h20 : Keeps x l13 := by
    unfold l13
    exact State.setReg_keeps h19
  clear_value l13
  have h21 : Keeps x l14 := by
    unfold l14
    exact State.setReg_keeps h20
  clear_value l14
  have h22 : Keeps x l15 := by
    unfold l15
    split
    · exact State.err_keeps h21
    · exact h21
  clear_value l15
  have h29 : Keeps x l16 := by
    unfold l16
    exact Keeps.ite (State.err_keeps h22) h22
  clear_value l16
  have h30 : Keeps x l17 := by
    unfold l17
    exact Keeps.ite (State.err_keeps (State.count_keeps h29)) h29
  clear_value l17
  exact Keeps.ite k0 (Keeps.ite (State.thermalTrip_keeps h30) h30)

theorem execThermalSample_keeps {x : State} {a0} {a1} {a2} (k2 : Keeps x a2) : KeepsRes x (execThermalSample a0 a1
    a2) := by
  unfold execThermalSample
  exact KeepsRes.next (State.thermalSample_keeps k2)

theorem State.stackTemp_keeps {x : State} {a0} {a1} {a2} (k0 : Keeps x a0) : Keeps x (State.stackTemp a0 a1 a2) := by
  unfold State.stackTemp
  extract_lets l0 l1 l2
  clear_value l0
  have h3 : Keeps x l1 := by
    unfold l1
    exact State.setPwr_keeps k0
  clear_value l1 l2
  exact Keeps.ite (State.setReg_keeps h3) k0

theorem execHbmTempReport_keeps {x : State} {a0} {a1} {a2} (k2 : Keeps x a2) : KeepsRes x (execHbmTempReport a0 a1
    a2) := by
  unfold execHbmTempReport
  exact KeepsRes.next (State.stackTemp_keeps k2)

theorem State.throttleBeats_keeps {x : State} {a0} (k0 : Keeps x a0) : Keeps x (State.throttleBeats a0) := by
  unfold State.throttleBeats
  refine Keeps.foldl (p := fun r => r) ?_ (fun b0 a1 h2 => ?_)
  · exact k0
  · exact Keeps.ite (State.count_keeps h2) h2

theorem State.powerBeat_keeps {x : State} {a0} {a1} (k0 : Keeps x a0) : Keeps x (State.powerBeat a0 a1) := by
  unfold State.powerBeat
  extract_lets l0 l1 l2 l3 l4 l5 l6
  have h7 : Keeps x l0 := by
    unfold l0
    exact State.measure_keeps (State.driftBegin_keeps k0)
  clear_value l0
  have h8 : Keeps x l1 := by
    unfold l1
    exact Keeps.ite h7 (State.governor_keeps h7)
  clear_value l1 l2
  have h9 : Keeps x l3 := by
    unfold l3
    refine Keeps.foldl (p := fun r => r) ?_ (fun b10 a11 h12 => ?_)
    · exact h8
    · exact State.allowOne_keeps h12
  clear_value l3
  have h13 : Keeps x l4 := by
    unfold l4
    exact Keeps.ite h9 (State.rampsDone_keeps (State.ballast_keeps h9))
  clear_value l4
  have h14 : Keeps x l5 := by
    unfold l5
    refine Keeps.ite ?_ ?_
    · exact h13
    · refine State.markWork_keeps ?_
      refine Keeps.foldl (p := fun r => r) ?_ (fun b15 a16 h17 => ?_)
      · exact h13
      · exact State.replan_keeps h17
  clear_value l5
  have h18 : Keeps x l6 := by
    unfold l6
    exact State.coolantSample_keeps (State.throttleBeats_keeps h14)
  clear_value l6
  exact State.stopRefresh_keeps (State.stopFlush_keeps (State.clocksStop_keeps h18))

end Sys2Proof.Machine
end

