-- ==== Sys2Proof/Laws/KeepsCommits.lean ====
section
/-! SUPPORT. What the operations of Machine/Commits.lean keep (`Keeps`, Laws/Keeps.lean). -/

namespace Sys2Proof.Machine

theorem Cand.bndLists_keeps {x : State} {a0} (k0 : Keeps x a0.s) : Keeps x (Cand.bndLists a0).s := by
  unfold Cand.bndLists
  extract_lets l0 l1 l2 l3 l4 l5 l6
  clear_value l0 l1 l2 l3 l4
  have h7 : Keeps x l5.s := by
    unfold l5
    exact k0
  clear_value l5
  have h8 : Keeps x l6.s := by
    unfold l6
    refine Keeps.iteP (p := (fun r => (BndRead.s r))) ?_ ?_
    · exact h7
    · split
      · rename_i v9 v10 v11 v12 v13
        have h14 : Keeps x ((v10, v11, v12)).1 := by
          rw [← v13]
          exact State.castleList_keeps h7
        exact h14
  clear_value l6
  refine Keeps.iteP (p := (fun r => (BndRead.s r))) ?_ ?_
  · exact h8
  · split
    · rename_i v15 v16 v17 v18 v19
      have h20 : Keeps x ((v16, v17, v18)).1 := by
        rw [← v19]
        exact State.readList_keeps h8
      exact h20

theorem Cand.adopt_keeps {x : State} {a0} {a1} (k0 : Keeps x a0.s) (k1 : Keeps x a1) : Keeps x (Cand.adopt a0 a1)
    := by
  unfold Cand.adopt
  refine Keeps.foldl (p := fun r => r) ?_ (fun b0 a1 h2 => ?_)
  · exact k1
  · exact State.dropShadow_keeps (State.setReg_keeps h2)

theorem Cand.adoptQueue_keeps {x : State} {a0} {a1} {a2} (k0 : Keeps x a0.s) (k2 : Keeps x a2) : Keeps x
    (Cand.adoptQueue a0 a1 a2) := by
  unfold Cand.adoptQueue
  extract_lets l0 l1 l2 l3 l4 l5 l6 l7 l8 l9 l10 l11
  clear_value l0 l1 l2 l3 l4 l5
  have h12 : Keeps x l6 := by
    unfold l6
    exact Keeps.ite (State.setQst_keeps (State.setQreg_keeps (State.setQreg_keeps k2))) k2
  clear_value l6 l7 l8
  have h13 : Keeps x l9 := by
    unfold l9
    exact Keeps.ite (Keeps.upd h12 rfl rfl rfl rfl) h12
  clear_value l9 l10
  have h14 : Keeps x l11 := by
    unfold l11
    exact Keeps.ite (State.setQst_keeps h13) (Keeps.ite (State.setQst_keeps h13) h13)
  clear_value l11
  exact Keeps.ite (State.setCqreg_keeps (State.setCqreg_keeps h14)) h14

theorem Cand.adoptPort_keeps {x : State} {a0} {a1} {a2} (k0 : Keeps x a0.s) (k2 : Keeps x a2) : Keeps x
    (Cand.adoptPort a0 a1 a2) := by
  unfold Cand.adoptPort
  extract_lets l0 l1 l2 l3 l4
  clear_value l0 l1 l2
  have h5 : Keeps x l3 := by
    unfold l3
    exact State.portRetrain_keeps k2
  clear_value l3 l4
  exact Keeps.ite (State.setPort_keeps (State.reroute_keeps k2)) (Keeps.ite (State.setPort_keeps k2) (Keeps.ite
      (State.setPort_keeps h5) k2))

theorem Cand.adoptPwr_keeps {x : State} {a0} {a1} (k0 : Keeps x a0.s) (k1 : Keeps x a1) : Keeps x (Cand.adoptPwr a0
    a1) := by
  unfold Cand.adoptPwr
  extract_lets l0 l1 l2 l3 l4
  clear_value l0 l1
  have h5 : Keeps x l2 := by
    unfold l2
    exact Keeps.ite (State.setReg_keeps k1) k1
  clear_value l2
  have h6 : Keeps x l3 := by
    unfold l3
    exact Keeps.ite h5 (State.freqChange_keeps h5)
  clear_value l3 l4
  exact Keeps.ite h6 (State.setPwr_keeps h6)

theorem Cand.adoptThresh_keeps {x : State} {a0} {a1} (k0 : Keeps x a0.s) (k1 : Keeps x a1) : Keeps x
    (Cand.adoptThresh a0 a1) := by
  unfold Cand.adoptThresh
  extract_lets l0 l1
  clear_value l0 l1
  exact Keeps.ite k1 (State.setPlc_keeps k1)

theorem State.dropMoves_keeps {x : State} {a0} {a1} (k0 : Keeps x a0) : Keeps x (State.dropMoves a0 a1) := by
  unfold State.dropMoves
  extract_lets l0 l1
  clear_value l0 l1
  refine State.setJob_keeps ?_
  refine Keeps.foldl (p := fun r => r) ?_ (fun b2 a3 h4 => ?_)
  · exact k0
  · exact State.abandonOut_keeps h4

theorem State.dropArmed_keeps {x : State} {a0} {a1} (k0 : Keeps x a0) : Keeps x (State.dropArmed a0 a1) := by
  unfold State.dropArmed
  refine Keeps.foldl (p := fun r => r) ?_ (fun b0 a1 h2 => ?_)
  · exact k0
  · exact State.dropMoves_keeps h2

theorem Cand.effects_keeps {x : State} {a0} {a1} {a2} {a3} (k0 : Keeps x a0.s) (k2 : Keeps x a2.s) (k3 : Keeps x
    a3) : Keeps x (Cand.effects a0 a1 a2 a3) := by
  unfold Cand.effects
  extract_lets l0 l1 l2 l3 l4 l5
  clear_value l0 l1 l2 l3
  have h6 : Keeps x l4 := by
    unfold l4
    exact State.dropArmed_keeps k3
  clear_value l4
  have h7 : Keeps x l5 := by
    unfold l5
    exact Keeps.ite h6 (State.installList_keeps h6)
  clear_value l5
  split
  · exact Keeps.ite (State.setReg_keeps (State.scsReset_keeps k3)) k3
  · exact Keeps.ite (State.setReg_keeps (State.setReg_keeps k3)) k3
  · exact State.ungateReady_keeps (Cand.adoptQueue_keeps k0 k3)
  · exact Cand.adoptThresh_keeps k0 k3
  · exact Keeps.ite (State.flushChange_keeps k3) k3
  · exact Keeps.ite k3 (State.setMaster_keeps k3)
  · exact Keeps.ite h7 (State.castleStart_keeps h7)
  · exact Cand.adoptPwr_keeps k0 k3
  · exact Cand.adoptPort_keeps k0 k3
  · exact k3

theorem State.commitStatus_keeps {x : State} {a0} {a1} {a2} {a3} {a4} {a5} (k0 : Keeps x a0) : Keeps x
    (State.commitStatus a0 a1 a2 a3 a4 a5) := by
  unfold State.commitStatus
  exact State.setReg_keeps k0

theorem Cand.castleRefused_keeps {x : State} {a0} {a1} {a2} (k0 : Keeps x a0.s) (k2 : Keeps x a2) : Keeps x
    (Cand.castleRefused a0 a1 a2) := by
  unfold Cand.castleRefused
  exact Keeps.ite (State.err_keeps (State.count_keeps k2)) k2

theorem State.commit_keeps {x : State} {a0} {a1} {a2} {a3} (k0 : Keeps x a0) : Keeps x (State.commit a0 a1 a2 a3)
    := by
  unfold State.commit
  split
  · exact k0
  · extract_lets l5 l6
    have h7 : Keeps x l5.s := by
      unfold l5
      exact k0
    clear_value l5
    have h8 : Keeps x l6.s := by
      unfold l6
      refine Keeps.iteP (p := (fun r => (BndRead.s r))) ?_ ?_
      · exact Cand.bndLists_keeps h7
      · exact k0
    clear_value l6
    split
    · extract_lets l12
      have h13 : Keeps x l12 := by
        unfold l12
        exact State.commitStatus_keeps (Cand.castleRefused_keeps h7 h8)
      clear_value l12
      exact Keeps.ite (State.dropArmed_keeps h13) h13
    · exact State.commitStatus_keeps (Cand.effects_keeps h7 h8 (Cand.adopt_keeps h7 h8))

theorem State.disarm_keeps {x : State} {a0} {a1} (k0 : Keeps x a0) : Keeps x (State.disarm a0 a1) := by
  unfold State.disarm
  extract_lets l0 l1
  clear_value l0
  have h2 : Keeps x l1 := by
    unfold l1
    exact Keeps.upd k0 rfl rfl rfl rfl
  clear_value l1
  split
  · exact k0
  · exact Keeps.ite (State.dropArmed_keeps h2) h2

theorem State.commitClosed_keeps {x : State} {a0} {a1} {a2} {a3} (k0 : Keeps x a0) : Keeps x (State.commitClosed a0
    a1 a2 a3) := by
  unfold State.commitClosed
  exact State.commitStatus_keeps (State.violation_keeps k0)

theorem State.commitGo_keeps {x : State} {a0} {a1} {a2} {a3} {a4} (k0 : Keeps x a0) : Keeps x (State.commitGo a0 a1
    a2 a3 a4) := by
  unfold State.commitGo
  extract_lets l0 l1
  have h2 : Keeps x l0 := by
    unfold l0
    exact State.commit_keeps k0
  clear_value l0 l1
  exact Keeps.ite k0 (Keeps.ite (Keeps.ite (State.commitClosed_keeps k0) (State.violation_keeps k0)) (Keeps.ite
      (Keeps.upd h2 rfl rfl rfl rfl) k0))

theorem execCommitGo_keeps {x : State} {a0} {a1} {a2} {a3} (k3 : Keeps x a3) : KeepsRes x (execCommitGo a0 a1 a2
    a3) := by
  unfold execCommitGo
  exact KeepsRes.next (State.commitGo_keeps k3)

theorem State.armMoves_keeps {x : State} {a0} {a1} {a2} (k0 : Keeps x a0) : Keeps x (State.armMoves a0 a1 a2) := by
  unfold State.armMoves
  extract_lets l0 l1 l2 l3
  clear_value l0
  have h4 : Keeps x l1.s := by
    unfold l1
    exact k0
  clear_value l1 l2 l3
  refine Keeps.ite ?_ ?_
  · exact k0
  · split
    · rename_i v5 v6 v7 v8 v9
      have h10 : Keeps x ((v6, v7, v8)).1 := by
        rw [← v9]
        exact State.readList_keeps k0
      extract_lets l11 l12 l13
      clear_value l11
      have h14 : Keeps x l12 := by
        unfold l12
        exact State.setPlc_keeps h10
      clear_value l12 l13
      exact Keeps.ite h10 (State.setJob_keeps (State.startMoves_keeps h14))

theorem State.arm_keeps {x : State} {a0} {a1} {a2} (k0 : Keeps x a0) : Keeps x (State.arm a0 a1 a2) := by
  unfold State.arm
  extract_lets l0 l1 l2 l3 l4 l5
  clear_value l0 l1 l2 l3
  have h6 : Keeps x l4 := by
    unfold l4
    exact Keeps.upd k0 rfl rfl rfl rfl
  clear_value l4
  have h7 : Keeps x l5 := by
    unfold l5
    exact State.commitStatus_keeps h6
  clear_value l5
  exact Keeps.ite (State.disarm_keeps k0) (Keeps.ite (State.armMoves_keeps h7) h7)

theorem State.commitBeat_keeps {x : State} {a0} {a1} {a2} {a3} {a4} {a5} (k0 : Keeps x a0) : Keeps x
    (State.commitBeat a0 a1 a2 a3 a4 a5) := by
  unfold State.commitBeat
  extract_lets l0
  have h1 : Keeps x l0 := by
    unfold l0
    exact State.setReg_keeps k0
  clear_value l0
  exact Keeps.ite k0 (Keeps.ite (State.violation_keeps k0) (Keeps.ite k0 (Keeps.ite (State.violation_keeps k0)
      (Keeps.ite (State.arm_keeps h1) h1))))

theorem execCommitArm_keeps {x : State} {a0} {a1} {a2} {a3} {a4} (k4 : Keeps x a4) : KeepsRes x (execCommitArm a0
    a1 a2 a3 a4) := by
  unfold execCommitArm
  exact KeepsRes.next (State.commitBeat_keeps k4)

theorem State.scheduled_keeps {x : State} {a0} {a1} (k0 : Keeps x a0) : Keeps x (State.scheduled a0 a1) := by
  unfold State.scheduled
  extract_lets l0
  clear_value l0
  split
  · exact Keeps.ite (State.commit_keeps (Keeps.upd k0 rfl rfl rfl rfl)) k0
  · exact k0

theorem execScheduledCommit_keeps {x : State} {a0} {a1} (k1 : Keeps x a1) : KeepsRes x (execScheduledCommit a0 a1)
    := by
  unfold execScheduledCommit
  exact KeepsRes.next (State.scheduled_keeps k1)

theorem State.cancel_keeps {x : State} {a0} {a1} {a2} (k0 : Keeps x a0) : Keeps x (State.cancel a0 a1 a2) := by
  unfold State.cancel
  split
  · exact Keeps.ite (State.disarm_keeps k0) k0
  · exact k0

theorem State.discard_keeps {x : State} {a0} {a1} {a2} (k0 : Keeps x a0) : Keeps x (State.discard a0 a1 a2) := by
  unfold State.discard
  extract_lets l0 l1 l2
  clear_value l0 l1
  have h3 : Keeps x l2 := by
    unfold l2
    exact Keeps.upd k0 rfl rfl rfl rfl
  clear_value l2
  exact State.cancel_keeps h3

theorem State.control_keeps {x : State} {a0} {a1} {a2} {a3} (k0 : Keeps x a0) : Keeps x (State.control a0 a1 a2 a3)
    := by
  unfold State.control
  extract_lets l0
  have h1 : Keeps x l0 := by
    unfold l0
    exact Keeps.ite (State.discard_keeps k0) k0
  clear_value l0
  exact Keeps.ite (State.cancel_keeps h1) h1

theorem execCancel_keeps {x : State} {a0} {a1} {a2} (k2 : Keeps x a2) : KeepsRes x (execCancel a0 a1 a2) := by
  unfold execCancel
  refine KeepsRes.next ?_
  refine State.guardWrite_keeps ?_ ?_
  · exact k2
  · intro a0 a1
    exact State.control_keeps a1

theorem execDiscard_keeps {x : State} {a0} {a1} {a2} (k2 : Keeps x a2) : KeepsRes x (execDiscard a0 a1 a2) := by
  unfold execDiscard
  refine KeepsRes.next ?_
  refine State.guardWrite_keeps ?_ ?_
  · exact k2
  · intro a0 a1
    exact State.control_keeps a1

end Sys2Proof.Machine
end

