-- ==== Sys2Proof/Laws/KeepsImages.lean ====
section
/-! SUPPORT. What the operations of Machine/Images.lean keep (`Keeps`, Laws/Keeps.lean). -/

namespace Sys2Proof.Machine

theorem State.bootWrite_keeps {x : State} {a0} {a1} (k0 : Keeps x a0) : Keeps x (State.bootWrite a0 a1) := by
  unfold State.bootWrite
  split
  · extract_lets l4 l5 l6
    clear_value l4 l5
    exact Keeps.ite (Keeps.upd k0 rfl rfl rfl rfl) (Keeps.upd k0 rfl rfl rfl rfl)

theorem State.setSlot_keeps {x : State} {a0} {a1} {a2} (k0 : Keeps x a0) : Keeps x (State.setSlot a0 a1 a2) := by
  unfold State.setSlot
  extract_lets l0 l1
  clear_value l0
  exact Keeps.ite (Keeps.upd k0 rfl rfl rfl rfl) (Keeps.upd k0 rfl rfl rfl rfl)

theorem State.measureSlot_keeps {x : State} {a0} {a1} (k0 : Keeps x a0) : Keeps x (State.measureSlot a0 a1) := by
  unfold State.measureSlot
  extract_lets l0 l1 l2 l3
  clear_value l0 l1 l2 l3
  exact Keeps.upd k0 rfl rfl rfl rfl

theorem State.showSlots_keeps {x : State} {a0} (k0 : Keeps x a0) : Keeps x (State.showSlots a0) := by
  unfold State.showSlots
  extract_lets l0 l1 l2 l3 l4 l5
  clear_value l0 l1 l2
  have h6 : Keeps x l3 := by
    unfold l3
    exact State.setReg_keeps k0
  clear_value l3
  have h7 : Keeps x l4 := by
    unfold l4
    exact State.setReg_keeps h6
  clear_value l4
  have h8 : Keeps x l5 := by
    unfold l5
    exact State.setReg_keeps h7
  clear_value l5
  exact State.setReg_keeps h8

end Sys2Proof.Machine
end

