-- ==== Sys2Proof/Laws/KeepsBoot.lean ====
section
/-! SUPPORT. What the operations of Machine/Boot.lean keep (`Keeps`, Laws/Keeps.lean). -/

namespace Sys2Proof.Machine

theorem State.setBoot_keeps {x : State} {a0} {a1} (k0 : Keeps x a0) : Keeps x (State.setBoot a0 a1) := by
  unfold State.setBoot
  exact Keeps.upd k0 rfl rfl rfl rfl

theorem State.enterReset_keeps {x s : State} (h : Keeps x s) : Keeps x s.enterReset := by
  unfold State.enterReset
  split
  rename_i nonce w e
  have h0 : Keeps x ((nonce, w) : Nat × State).2 := by
    rw [← e]
    exact State.draw_keeps h
  extract_lets b t u
  have h1 : Keeps x t := Keeps.cells h0 (fun _ => rfl) rfl rfl rfl rfl
  clear_value t
  have h2 : Keeps x u := State.setReg_keeps (State.setReg_keeps h1)
  clear_value u
  exact Keeps.ite h2 (State.emit_keeps h2)

theorem State.tryStart_keeps {x : State} {a0} (k0 : Keeps x a0) : Keeps x (State.tryStart a0) := by
  unfold State.tryStart
  extract_lets l0
  clear_value l0
  exact Keeps.ite (State.setMgt_keeps (State.setBoot_keeps k0)) k0

theorem State.latchCause_keeps {x : State} {a0} {a1} (k0 : Keeps x a0) : Keeps x (State.latchCause a0 a1) := by
  unfold State.latchCause
  extract_lets l0
  exact Keeps.upd k0 rfl rfl rfl rfl

theorem State.resetLow_keeps {x : State} {a0} (k0 : Keeps x a0) : Keeps x (State.resetLow a0) := by
  unfold State.resetLow
  extract_lets l0 l1
  have h2 : Keeps x l0 := by
    unfold l0
    exact State.latchCause_keeps k0
  clear_value l0 l1
  exact State.enterReset_keeps (State.setBoot_keeps h2)

theorem execModResetAssert_keeps {x : State} {a0} (k0 : Keeps x a0) : KeepsRes x (execModResetAssert a0) := by
  unfold execModResetAssert
  exact KeepsRes.next (State.resetLow_keeps k0)

theorem State.resetHigh_keeps {x : State} {a0} (k0 : Keeps x a0) : Keeps x (State.resetHigh a0) := by
  unfold State.resetHigh
  extract_lets l0
  clear_value l0
  exact Keeps.ite k0 (State.tryStart_keeps (State.setBoot_keeps k0))

theorem execModResetRelease_keeps {x : State} {a0} (k0 : Keeps x a0) : KeepsRes x (execModResetRelease a0) := by
  unfold execModResetRelease
  exact KeepsRes.next (State.resetHigh_keeps k0)

theorem State.pwrGoodLow_keeps {x : State} {a0} (k0 : Keeps x a0) : Keeps x (State.pwrGoodLow a0) := by
  unfold State.pwrGoodLow
  extract_lets l0 l1
  have h2 : Keeps x l0 := by
    unfold l0
    exact State.latchCause_keeps k0
  clear_value l0 l1
  exact State.enterReset_keeps (State.setBoot_keeps h2)

theorem execPwrGoodFall_keeps {x : State} {a0} (k0 : Keeps x a0) : KeepsRes x (execPwrGoodFall a0) := by
  unfold execPwrGoodFall
  exact KeepsRes.next (State.pwrGoodLow_keeps k0)

theorem State.openInput_keeps {x : State} {a0} {a1} (k0 : Keeps x a0) : Keeps x (State.openInput a0 a1) := by
  unfold State.openInput
  extract_lets l0 l1 l2
  have h3 : Keeps x l1 := by
    unfold l1
    exact Keeps.upd k0 rfl rfl rfl rfl
  clear_value l1 l2
  exact State.enterReset_keeps (State.setBoot_keeps h3)

theorem execUnderVoltageTrip_keeps {x : State} {a0} {a1} (k1 : Keeps x a1) : KeepsRes x (execUnderVoltageTrip a0
    a1) := by
  unfold execUnderVoltageTrip
  exact KeepsRes.next (Keeps.ite (State.openInput_keeps k1) k1)

theorem execOverVoltageTrip_keeps {x : State} {a0} {a1} (k1 : Keeps x a1) : KeepsRes x (execOverVoltageTrip a0 a1)
    := by
  unfold execOverVoltageTrip
  extract_lets l0
  clear_value l0
  exact KeepsRes.ite KeepsRes.fault (KeepsRes.next (Keeps.ite (State.openInput_keeps (State.setBoot_keeps k1)) k1))

theorem execReversePolarity_keeps {x : State} {a0} (k0 : Keeps x a0) : KeepsRes x (execReversePolarity a0) := by
  unfold execReversePolarity
  exact KeepsRes.next (State.openInput_keeps k0)

theorem State.inputBack_keeps {x : State} {a0} {a1} (k0 : Keeps x a0) : Keeps x (State.inputBack a0 a1) := by
  unfold State.inputBack
  extract_lets l0
  clear_value l0
  exact Keeps.ite k0 (State.tryStart_keeps (State.setBoot_keeps k0))

theorem execStartThreshold_keeps {x : State} {a0} {a1} (k1 : Keeps x a1) : KeepsRes x (execStartThreshold a0 a1) := by
  unfold execStartThreshold
  exact KeepsRes.next (State.inputBack_keeps k1)

theorem execUvWarn_keeps {x : State} {a0} {a1} (k1 : Keeps x a1) : KeepsRes x (execUvWarn a0 a1) := by
  unfold execUvWarn
  exact KeepsRes.next (Keeps.ite (State.warnInput_keeps k1) k1)

theorem execOvWarn_keeps {x : State} {a0} {a1} (k1 : Keeps x a1) : KeepsRes x (execOvWarn a0 a1) := by
  unfold execOvWarn
  exact KeepsRes.next (Keeps.ite (State.warnInput_keeps k1) k1)

theorem State.moduleReset_keeps {x : State} {a0} (k0 : Keeps x a0) : Keeps x (State.moduleReset a0) := by
  unfold State.moduleReset
  extract_lets l0
  clear_value l0
  exact State.setReg_keeps (State.tryStart_keeps (State.enterReset_keeps k0))

theorem execMgtModuleReset_keeps {x : State} {a0} {a1} (k1 : Keeps x a1) : KeepsRes x (execMgtModuleReset a0 a1) := by
  unfold execMgtModuleReset
  refine KeepsRes.next ?_
  refine State.guardWrite_keeps ?_ ?_
  · exact k1
  · intro a0 a1
    exact State.moduleReset_keeps a1

theorem State.wipeDie_keeps {x : State} {a0} {a1} (k0 : Keeps x a0) : Keeps x (State.wipeDie a0 a1) := by
  unfold State.wipeDie
  extract_lets l0 l1 l2 l3 l4
  clear_value l0
  have h5 : Keeps x l1 := by
    unfold l1
    exact State.wipeRegs_keeps k0
  clear_value l1
  have h6 : Keeps x l2 := by
    unfold l2
    refine Keeps.foldl (p := fun r => r) ?_ (fun b7 a8 h9 => ?_)
    · exact h5
    · exact State.setReg_keeps h9
  clear_value l2
  have h10 : Keeps x l4 := by
    unfold l4
    exact Keeps.upd h6 rfl rfl rfl rfl
  clear_value l4
  refine Keeps.foldl (p := fun r => r) ?_ (fun b11 a12 h13 => ?_)
  · exact h10
  · exact State.setReg_keeps (State.setReg_keeps h13)

theorem State.dieReset_keeps {x : State} {a0} {a1} (k0 : Keeps x a0) : Keeps x (State.dieReset a0 a1) := by
  unfold State.dieReset
  extract_lets l0 l1 l2 l3 l4 l5 l6 l7 l8 l9 l10 l11 l12
  clear_value l0 l1
  have h13 : Keeps x l2 := by
    unfold l2
    refine Keeps.foldl (p := fun r => r) ?_ (fun b14 a15 h16 => ?_)
    · exact k0
    · exact Keeps.ite (State.setStack_keeps (State.flushStack_keeps h16)) (State.flushStack_keeps h16)
  clear_value l2 l3 l4
  have h17 : Keeps x l5 := by
    unfold l5
    refine Keeps.foldl (p := fun r => r) ?_ (fun b18 a19 h20 => ?_)
    · exact h13
    · exact State.dropWaits_keeps (State.unwait_keeps h20)
  clear_value l5
  have h21 : Keeps x l6 := by
    unfold l6
    exact Keeps.upd h17 rfl rfl rfl rfl
  clear_value l6
  have h22 : Keeps x l7 := by
    unfold l7
    refine Keeps.foldl (p := fun r => r) ?_ (fun b23 a24 h25 => ?_)
    · exact h21
    · exact State.scsReset_keeps (State.loseRange_keeps h25)
  clear_value l7
  have h26 : Keeps x l8 := by
    unfold l8
    exact Keeps.upd h22 rfl rfl rfl rfl
  clear_value l8
  have h27 : Keeps x l9 := by
    unfold l9
    refine State.wipeDie_keeps ?_
    refine Keeps.foldl (p := fun r => r) ?_ (fun b28 a29 h30 => ?_)
    · exact h26
    · exact State.uninit_keeps h30
  clear_value l9 l10
  have h31 : Keeps x l11 := by
    unfold l11
    exact Keeps.upd h27 rfl rfl rfl rfl
  clear_value l11
  have h32 : Keeps x l12 := by
    unfold l12
    refine Keeps.foldl (p := fun r => r) ?_ (fun b33 a34 h35 => ?_)
    · exact h31
    · exact State.staleOne_keeps (State.setSqp_keeps h35)
  clear_value l12
  refine Keeps.ite ?_ ?_
  · exact k0
  · refine Keeps.foldl (p := fun r => r) ?_ (fun b36 a37 h38 => ?_)
    · exact h32
    · extract_lets l39
      exact Keeps.upd h38 rfl rfl rfl rfl

theorem execMgtDieReset_keeps {x : State} {a0} {a1} {a2} (k2 : Keeps x a2) : KeepsRes x (execMgtDieReset a0 a1 a2)
    := by
  unfold execMgtDieReset
  refine KeepsRes.next ?_
  refine State.guardWrite_keeps ?_ ?_
  · exact k2
  · intro a0 a1
    exact State.dieReset_keeps a1

theorem State.mgtResetWrite_keeps {x : State} {a0} {a1} (k0 : Keeps x a0) : Keeps x (State.mgtResetWrite a0 a1) := by
  unfold State.mgtResetWrite
  split
  · exact State.moduleReset_keeps k0
  · exact State.dieReset_keeps k0
  · exact k0

theorem State.enterRecovery_keeps {x : State} {a0} (k0 : Keeps x a0) : Keeps x (State.enterRecovery a0) := by
  unfold State.enterRecovery
  extract_lets l0 l1 l2
  have h3 : Keeps x l0 := by
    unfold l0
    exact State.err_keeps (State.setMgt_keeps k0)
  clear_value l0 l1
  have h4 : Keeps x l2 := by
    unfold l2
    exact State.setReg_keeps h3
  clear_value l2
  refine Keeps.foldl (p := fun r => r) ?_ (fun b5 a6 h7 => ?_)
  · exact h4
  · extract_lets l8
    clear_value l8
    exact State.setPort_keeps (State.setReg_keeps h7)

theorem State.romFail_keeps {x : State} {a0} (k0 : Keeps x a0) : Keeps x (State.romFail a0) := by
  unfold State.romFail
  exact State.enterRecovery_keeps (State.showSlots_keeps (State.bootWrite_keeps (State.measureSlot_keeps
      (State.measureSlot_keeps k0))))

theorem State.stageFail_keeps {x : State} {a0} {a1} (k0 : Keeps x a0) : Keeps x (State.stageFail a0 a1) := by
  unfold State.stageFail
  extract_lets l0 l1 l2
  clear_value l0 l1
  have h3 : Keeps x l2 := by
    unfold l2
    exact Keeps.upd k0 rfl rfl rfl rfl
  clear_value l2
  exact Keeps.ite (State.romFail_keeps k0) (State.emit_keeps (State.err_keeps (State.setMgt_keeps h3)))

theorem State.stageMs_keeps {x : State} {a0} {a1} (k0 : Keeps x a0) : Keeps x (State.stageMs a0 a1) := by
  unfold State.stageMs
  exact State.setReg_keeps k0

theorem State.budgetOut_keeps {x : State} {a0} {a1} (k0 : Keeps x a0) : Keeps x (State.budgetOut a0 a1) := by
  unfold State.budgetOut
  exact Keeps.ite (State.stageFail_keeps (State.stageMs_keeps k0)) k0

theorem execStageBudgetExpire_keeps {x : State} {a0} {a1} (k1 : Keeps x a1) : KeepsRes x (execStageBudgetExpire a0
    a1) := by
  unfold execStageBudgetExpire
  exact KeepsRes.next (State.budgetOut_keeps k1)

theorem State.stageFault_keeps {x : State} {a0} {a1} (k0 : Keeps x a0) : Keeps x (State.stageFault a0 a1) := by
  unfold State.stageFault
  exact Keeps.ite (State.emit_keeps (State.stageFail_keeps k0)) k0

theorem execStageFailed_keeps {x : State} {a0} {a1} (k1 : Keeps x a1) : KeepsRes x (execStageFailed a0 a1) := by
  unfold execStageFailed
  exact KeepsRes.next (State.stageFault_keeps k1)

theorem State.announce_keeps {x : State} {a0} (k0 : Keeps x a0) : Keeps x (State.announce a0) := by
  unfold State.announce
  refine Keeps.ite ?_ ?_
  · refine Keeps.foldl (p := fun r => r) ?_ (fun b0 a1 h2 => ?_)
    · exact k0
    · exact Keeps.ite (State.emit_keeps h2) h2
  · exact k0

theorem execRecoveryAnnounce_keeps {x : State} {a0} (k0 : Keeps x a0) : KeepsRes x (execRecoveryAnnounce a0) := by
  unfold execRecoveryAnnounce
  exact KeepsRes.next (State.announce_keeps k0)

theorem State.recoveryImage_keeps {x : State} {a0} {a1} (k0 : Keeps x a0) : Keeps x (State.recoveryImage a0 a1) := by
  unfold State.recoveryImage
  extract_lets l0 l1 l2
  clear_value l0 l1
  have h3 : Keeps x l2 := by
    unfold l2
    exact Keeps.ite (State.setBoot_keeps k0) k0
  clear_value l2
  refine Keeps.ite ?_ ?_
  · exact h3
  · refine Keeps.ite ?_ ?_
    · exact State.emit_keeps h3
    · refine Keeps.ite ?_ ?_
      · exact State.tryStart_keeps (State.enterReset_keeps (State.bootWrite_keeps (State.setSlot_keeps h3)))
      · exact State.emit_keeps (State.showSlots_keeps (State.measureSlot_keeps (State.setSlot_keeps h3)))

theorem execRecoveryImageDone_keeps {x : State} {a0} {a1} (k1 : Keeps x a1) : KeepsRes x (execRecoveryImageDone a0
    a1) := by
  unfold execRecoveryImageDone
  exact KeepsRes.next (State.recoveryImage_keeps k1)

theorem State.trainPorts_keeps {x : State} {a0} (k0 : Keeps x a0) : Keeps x (State.trainPorts a0) := by
  unfold State.trainPorts
  extract_lets l0 l1
  clear_value l0
  have h2 : Keeps x l1 := by
    unfold l1
    exact State.setReg_keeps k0
  clear_value l1
  refine Keeps.foldl (p := fun r => r) ?_ (fun b3 a4 h5 => ?_)
  · exact h2
  · extract_lets l6
    clear_value l6
    exact State.setPort_keeps (State.setReg_keeps h5)

theorem State.recordSubmit_keeps {x : State} {a0} {a1} (k0 : Keeps x a0) : Keeps x (State.recordSubmit a0 a1) := by
  unfold State.recordSubmit
  extract_lets l0 l1
  clear_value l0
  have h2 : Keeps x l1 := by
    unfold l1
    exact State.setBoot_keeps k0
  clear_value l1
  exact Keeps.ite k0 (Keeps.ite (State.trainPorts_keeps h2) h2)

theorem execRecordSubmit_keeps {x : State} {a0} {a1} (k1 : Keeps x a1) : KeepsRes x (execRecordSubmit a0 a1) := by
  unfold execRecordSubmit
  exact KeepsRes.next (State.recordSubmit_keeps k1)

theorem execEntdaa_keeps {x : State} {a0} {a1} (k1 : Keeps x a1) : KeepsRes x (execEntdaa a0 a1) := by
  unfold execEntdaa
  exact KeepsRes.next (Keeps.ite k1 (State.setReg_keeps k1))

theorem State.fwWrite_keeps {x : State} {a0} {a1} {a2} {a3} {a4} (k0 : Keeps x a0) : Keeps x (State.fwWrite a0 a1
    a2 a3 a4) := by
  unfold State.fwWrite
  split
  · split
    · exact State.setShadow_keeps k0
    · exact State.setReg_keeps k0
    · exact k0
  · exact k0

theorem State.fwCommit_keeps {x : State} {a0} {a1} (k0 : Keeps x a0) : Keeps x (State.fwCommit a0 a1).1 := by
  unfold State.fwCommit
  refine Keeps.foldl (p := (fun r => (Prod.fst r))) ?_ (fun b0 a1 h2 => ?_)
  · exact k0
  · extract_lets l3
    have h4 : Keeps x l3 := by
      unfold l3
      exact State.commit_keeps h2
    clear_value l3
    refine Keeps.iteP (p := (fun r => (Prod.fst r))) ?_ ?_
    · exact h4
    · exact h2

theorem State.firmware_keeps {x : State} {a0} {a1} (k0 : Keeps x a0) : Keeps x (State.firmware a0 a1).1 := by
  unfold State.firmware
  extract_lets l0
  have h1 : Keeps x l0 := by
    unfold l0
    refine Keeps.foldl (p := fun r => r) ?_ (fun b2 a3 h4 => ?_)
    · exact k0
    · exact State.fwWrite_keeps h4
  clear_value l0
  exact State.fwCommit_keeps h1

theorem State.stageRom_keeps {x : State} {a0} (k0 : Keeps x a0) : Keeps x (State.stageRom a0) := by
  unfold State.stageRom
  extract_lets l0 l1 l2
  clear_value l0 l1
  have h3 : Keeps x l2 := by
    unfold l2
    exact State.measureSlot_keeps (State.measureSlot_keeps k0)
  clear_value l2
  split
  · exact State.romFail_keeps k0
  · extract_lets l7 l8 l9 l10
    have h11 : Keeps x l7 := by
      unfold l7
      exact Keeps.ite h3 (State.err_keeps (State.count_keeps h3))
    clear_value l7
    have h12 : Keeps x l8 := by
      unfold l8
      exact State.bootWrite_keeps h11
    clear_value l8 l9
    have h13 : Keeps x l10 := by
      unfold l10
      exact State.showSlots_keeps (State.setBoot_keeps h12)
    clear_value l10
    exact Keeps.ite (State.setMgt_keeps h13) (State.emit_keeps (State.setMgt_keeps h13))

theorem State.stageRails_keeps {x : State} {a0} (k0 : Keeps x a0) : Keeps x (State.stageRails a0) := by
  unfold State.stageRails
  extract_lets l0 l1 l2 l3
  clear_value l0 l1 l2
  have h4 : Keeps x l3 := by
    unfold l3
    exact Keeps.upd k0 rfl rfl rfl rfl
  clear_value l3
  exact State.setMgt_keeps h4

theorem State.stageFirmware_keeps {x : State} {a0} {a1} (k0 : Keeps x a0) : Keeps x (State.stageFirmware a0 a1) := by
  unfold State.stageFirmware
  extract_lets l0 l1
  clear_value l0
  have h2 : Keeps x l1 := by
    unfold l1
    exact State.setPwr_keeps k0
  clear_value l1
  refine State.setMgt_keeps ?_
  refine Keeps.foldl (p := fun r => r) ?_ (fun b3 a4 h5 => ?_)
  · exact h2
  · exact State.setStack_keeps h5

theorem State.stageHbm_keeps {x : State} {a0} {a1} (k0 : Keeps x a0) : Keeps x (State.stageHbm a0 a1) := by
  unfold State.stageHbm
  extract_lets l0 l1 l2 l3 l4 l5
  have h6 : Keeps x l0 := by
    unfold l0
    refine Keeps.foldl (p := fun r => r) ?_ (fun b7 a8 h9 => ?_)
    · exact k0
    · exact State.setStack_keeps h9
  clear_value l0 l1
  have h10 : Keeps x l3 := by
    unfold l3
    exact Keeps.upd h6 rfl rfl rfl rfl
  clear_value l3
  have h11 : Keeps x l4 := by
    unfold l4
    refine Keeps.foldl (p := fun r => r) ?_ (fun b12 a13 h14 => ?_)
    · exact h10
    · exact State.setReg_keeps h14
  clear_value l4
  have h15 : Keeps x l5 := by
    unfold l5
    refine Keeps.foldl (p := fun r => r) ?_ (fun b16 a17 h18 => ?_)
    · exact h11
    · exact State.err_keeps h18
  clear_value l5
  exact State.setMgt_keeps h15

theorem State.stageUcie_keeps {x : State} {a0} (k0 : Keeps x a0) : Keeps x (State.stageUcie a0) := by
  unfold State.stageUcie
  extract_lets l0
  have h1 : Keeps x l0 := by
    unfold l0
    exact State.setMgt_keeps k0
  clear_value l0
  exact Keeps.ite (State.trainPorts_keeps h1) h1

theorem State.recordWrites_keeps {x : State} {a0} (k0 : Keeps x a0) : Keeps x (State.recordWrites a0) := by
  unfold State.recordWrites
  extract_lets l0 l1 l2 l3 l4 l5
  have h6 : Keeps x l0 := by
    unfold l0
    exact State.setShadow_keeps k0
  clear_value l0
  have h7 : Keeps x l1 := by
    unfold l1
    exact State.setShadow_keeps (State.setShadow_keeps h6)
  clear_value l1
  have h8 : Keeps x l2 := by
    unfold l2
    refine Keeps.foldl (p := fun r => r) ?_ (fun b9 a10 h11 => ?_)
    · exact h7
    · exact State.setShadow_keeps h11
  clear_value l2
  have h12 : Keeps x l3 := by
    unfold l3
    refine Keeps.foldl (p := fun r => r) ?_ (fun b13 a14 h15 => ?_)
    · exact h8
    · exact State.setShadow_keeps h15
  clear_value l3 l4
  have h16 : Keeps x l5 := by
    unfold l5
    exact State.setReg_keeps h12
  clear_value l5
  refine Keeps.foldl (p := fun r => r) ?_ (fun b17 a18 h19 => ?_)
  · exact h16
  · extract_lets l20
    clear_value l20
    exact State.setReg_keeps h19

theorem State.pickClocks_keeps {x : State} {a0} (k0 : Keeps x a0) : Keeps x (State.pickClocks a0) := by
  unfold State.pickClocks
  extract_lets l0 l1
  clear_value l0 l1
  exact Keeps.upd k0 rfl rfl rfl rfl

theorem State.stageRecord_keeps {x : State} {a0} {a1} (k0 : Keeps x a0) : Keeps x (State.stageRecord a0 a1) := by
  unfold State.stageRecord
  extract_lets l0 l1
  clear_value l0
  have h2 : Keeps x l1 := by
    unfold l1
    refine Keeps.foldl (p := fun r => r) ?_ (fun b3 a4 h5 => ?_)
    · exact State.recordWrites_keeps k0
    · exact State.fwWrite_keeps h5
  clear_value l1
  refine Keeps.ite ?_ ?_
  · exact k0
  · refine Keeps.ite ?_ ?_
    · exact State.stageFail_keeps (State.emit_keeps (State.setBoot_keeps k0))
    · split
      · rename_i v6 v7 v8 v9
        have h10 : Keeps x ((v7, v8)).1 := by
          rw [← v9]
          exact State.fwCommit_keeps h2
        extract_lets l11 l12 l13
        clear_value l11
        have h14 : Keeps x l12 := by
          unfold l12
          exact State.pickClocks_keeps (State.emit_keeps (State.setBoot_keeps h10))
        clear_value l12
        have h15 : Keeps x l13 := by
          unfold l13
          exact State.setMgt_keeps h14
        clear_value l13
        exact Keeps.ite (Keeps.ite (State.firmware_keeps h15) h15) (State.stageFail_keeps (State.emit_keeps
            (State.setBoot_keeps h10)))

theorem State.stageOpen_keeps {x : State} {a0} {a1} (k0 : Keeps x a0) : Keeps x (State.stageOpen a0 a1) := by
  unfold State.stageOpen
  extract_lets l0 l1 l2 l3 l4 l5 l6
  clear_value l0 l1
  have h7 : Keeps x l2 := by
    unfold l2
    exact State.setBoot_keeps k0
  clear_value l2
  have h8 : Keeps x l3 := by
    unfold l3
    refine Keeps.foldl (p := fun r => r) ?_ (fun b9 a10 h11 => ?_)
    · exact h7
    · exact State.setReg_keeps h11
  clear_value l3
  have h12 : Keeps x l4 := by
    unfold l4
    exact State.firmware_keeps h8
  clear_value l4
  have h13 : Keeps x l5 := by
    unfold l5
    exact State.firmware_keeps h12
  clear_value l5 l6
  exact Keeps.ite (State.twinStart_keeps (State.setMgt_keeps (State.setBoot_keeps h13))) h13

theorem State.stageDone_keeps {x : State} {a0} {a1} (k0 : Keeps x a0) : Keeps x (State.stageDone a0 a1) := by
  unfold State.stageDone
  extract_lets l0 l1
  clear_value l0
  have h2 : Keeps x l1 := by
    unfold l1
    exact State.stageMs_keeps k0
  clear_value l1
  refine Keeps.ite ?_ ?_
  · exact k0
  · refine Keeps.ite ?_ ?_
    · exact State.budgetOut_keeps k0
    · split
      · exact State.stageRom_keeps h2
      · exact State.stageRails_keeps h2
      · exact State.stageFirmware_keeps h2
      · exact State.stageHbm_keeps h2
      · exact State.stageUcie_keeps h2
      · exact Keeps.ite k0 (State.setMgt_keeps h2)
      · exact Keeps.ite (State.stageRecord_keeps h2) k0
      · exact Keeps.ite (State.setMgt_keeps h2) k0
      · exact Keeps.ite (State.stageOpen_keeps h2) k0

theorem execBootStageDone_keeps {x : State} {a0} {a1} (k1 : Keeps x a1) : KeepsRes x (execBootStageDone a0 a1) := by
  unfold execBootStageDone
  exact KeepsRes.next (State.stageDone_keeps k1)

theorem State.tapLoad_keeps {x : State} {a0} {a1} {a2} {a3} (k0 : Keeps x a0) : Keeps x (State.tapLoad a0 a1 a2 a3)
    := by
  unfold State.tapLoad
  extract_lets l0 l1
  clear_value l0 l1
  exact Keeps.ite k0 (State.setBoot_keeps k0)

theorem execBypass_keeps {x : State} {a0} {a1} (k1 : Keeps x a1) : KeepsRes x (execBypass a0 a1) := by
  unfold execBypass
  exact KeepsRes.next (State.tapLoad_keeps k1)

theorem execIdcode_keeps {x : State} {a0} {a1} (k1 : Keeps x a1) : KeepsRes x (execIdcode a0 a1) := by
  unfold execIdcode
  exact KeepsRes.next (Keeps.ite k1 (State.emit_keeps (State.tapLoad_keeps k1)))

theorem execSamplePreload_keeps {x : State} {a0} {a1} (k1 : Keeps x a1) : KeepsRes x (execSamplePreload a0 a1) := by
  unfold execSamplePreload
  exact KeepsRes.next (State.tapLoad_keeps k1)

theorem execExtest_keeps {x : State} {a0} {a1} (k1 : Keeps x a1) : KeepsRes x (execExtest a0 a1) := by
  unfold execExtest
  exact KeepsRes.next (State.tapLoad_keeps k1)

theorem execClamp_keeps {x : State} {a0} {a1} (k1 : Keeps x a1) : KeepsRes x (execClamp a0 a1) := by
  unfold execClamp
  exact KeepsRes.next (State.tapLoad_keeps k1)

theorem execHighz_keeps {x : State} {a0} {a1} (k1 : Keeps x a1) : KeepsRes x (execHighz a0 a1) := by
  unfold execHighz
  exact KeepsRes.next (State.tapLoad_keeps k1)

theorem execTrst_keeps {x : State} {a0} (k0 : Keeps x a0) : KeepsRes x (execTrst a0) := by
  unfold execTrst
  extract_lets l0
  clear_value l0
  exact KeepsRes.next (State.setBoot_keeps k0)

theorem State.setHx_keeps {x : State} {a0} {a1} {a2} {a3} {a4} (k0 : Keeps x a0) : Keeps x (State.setHx a0 a1 a2 a3
    a4) := by
  unfold State.setHx
  exact State.setReg_keeps k0

theorem State.hxDown_keeps {x : State} {a0} {a1} {a2} (k0 : Keeps x a0) : Keeps x (State.hxDown a0 a1 a2) := by
  unfold State.hxDown
  exact State.err_keeps (State.count_keeps (State.setHx_keeps k0))

theorem execHostLinkUp_keeps {x : State} {a0} {a1} {a2} {a3} (k3 : Keeps x a3) : KeepsRes x (execHostLinkUp a0 a1
    a2 a3) := by
  unfold execHostLinkUp
  extract_lets l0
  clear_value l0
  exact KeepsRes.next (Keeps.ite (State.setHx_keeps (Keeps.upd k3 rfl rfl rfl rfl)) k3)

theorem execHostLinkDown_keeps {x : State} {a0} {a1} (k1 : Keeps x a1) : KeepsRes x (execHostLinkDown a0 a1) := by
  unfold execHostLinkDown
  exact KeepsRes.next (Keeps.ite (State.hxDown_keeps k1) k1)

theorem execRefclkLoss_keeps {x : State} {a0} {a1} (k1 : Keeps x a1) : KeepsRes x (execRefclkLoss a0 a1) := by
  unfold execRefclkLoss
  extract_lets l0 l1 l2 l3
  clear_value l0
  have h4 : Keeps x l1 := by
    unfold l1
    exact State.setBoot_keeps k1
  clear_value l1 l2
  have h5 : Keeps x l3 := by
    unfold l3
    exact Keeps.upd h4 rfl rfl rfl rfl
  clear_value l3
  exact KeepsRes.next (Keeps.ite (State.hxDown_keeps h5) h4)

theorem execCxlLinkUp_keeps {x : State} {a0} {a1} (k1 : Keeps x a1) : KeepsRes x (execCxlLinkUp a0 a1) := by
  unfold execCxlLinkUp
  refine KeepsRes.next ?_
  refine Keeps.ite ?_ ?_
  · split
    · rename_i v0 v1 v2 v3
      have h4 : Keeps x ((v1, v2)).2 := by
        rw [← v3]
        exact State.draw_keeps k1
      split
      · rename_i v5 v6 v7 v8
        have h9 : Keeps x ((v6, v7)).2 := by
          rw [← v8]
          exact State.draw_keeps h4
        extract_lets l10
        clear_value l10
        exact State.setHx_keeps (Keeps.upd h9 rfl rfl rfl rfl)
  · exact k1

theorem execCxlLinkDown_keeps {x : State} {a0} {a1} (k1 : Keeps x a1) : KeepsRes x (execCxlLinkDown a0 a1) := by
  unfold execCxlLinkDown
  extract_lets l0 l1
  clear_value l0
  have h2 : Keeps x l1 := by
    unfold l1
    exact Keeps.upd k1 rfl rfl rfl rfl
  clear_value l1
  exact KeepsRes.next (Keeps.ite (State.err_keeps (State.count_keeps (State.hxDown_keeps h2))) k1)

theorem execConventionalReset_keeps {x : State} {a0} {a1} (k1 : Keeps x a1) : KeepsRes x (execConventionalReset a0
    a1) := by
  unfold execConventionalReset
  extract_lets l0
  clear_value l0
  exact KeepsRes.next (Keeps.ite (Keeps.upd k1 rfl rfl rfl rfl) k1)

theorem execMsixVectorUnmask_keeps {x : State} {a0} {a1} (k1 : Keeps x a1) : KeepsRes x (execMsixVectorUnmask a0
    a1) := by
  unfold execMsixVectorUnmask
  extract_lets l0
  clear_value l0
  exact KeepsRes.next (Keeps.ite k1 (State.setMsix_keeps k1))

theorem execOpticalInsert_keeps {x : State} {a0} {a1} {a2} (k2 : Keeps x a2) : KeepsRes x (execOpticalInsert a0 a1
    a2) := by
  unfold execOpticalInsert
  extract_lets l0
  clear_value l0
  exact KeepsRes.next (Keeps.ite (State.emit_keeps (State.setBoot_keeps k2)) k2)

theorem execOpticalRemove_keeps {x : State} {a0} {a1} (k1 : Keeps x a1) : KeepsRes x (execOpticalRemove a0 a1) := by
  unfold execOpticalRemove
  extract_lets l0 l1 l2
  clear_value l0
  have h3 : Keeps x l1 := by
    unfold l1
    exact State.emit_keeps (State.setBoot_keeps k1)
  clear_value l1 l2
  exact KeepsRes.next (Keeps.ite (Keeps.ite (State.portRetrain_keeps (State.setPort_keeps h3)) h3) k1)

end Sys2Proof.Machine
end

