-- ==== Sys2Proof/Laws/KeepsFirmware.lean ====
section
/-! SUPPORT. What the operations of Machine/Firmware.lean keep (`Keeps`, Laws/Keeps.lean). -/

namespace Sys2Proof.Machine

theorem State.setFwu_keeps {x : State} {a0} {a1} (k0 : Keeps x a0) : Keeps x (State.setFwu a0 a1) := by
  unfold State.setFwu
  extract_lets l0
  clear_value l0
  exact State.setBoot_keeps k0

theorem State.setFwuState_keeps {x : State} {a0} {a1} (k0 : Keeps x a0) : Keeps x (State.setFwuState a0 a1) := by
  unfold State.setFwuState
  exact State.setReg_keeps k0

theorem State.setOutcome_keeps {x : State} {a0} {a1} {a2} (k0 : Keeps x a0) : Keeps x (State.setOutcome a0 a1 a2)
    := by
  unfold State.setOutcome
  exact State.setReg_keeps k0

theorem State.openRead_keeps {x : State} {a0} {a1} {a2} (k0 : Keeps x a0) : Keeps x (State.openRead a0 a1 a2).1 := by
  unfold State.openRead
  extract_lets l0
  have h1 : Keeps x l0.st := by
    unfold l0
    exact State.memRead_keeps k0
  clear_value l0
  exact h1

theorem State.reportOutcome_keeps {x : State} {a0} {a1} {a2} {a3} (k0 : Keeps x a0) : Keeps x (State.reportOutcome
    a0 a1 a2 a3) := by
  unfold State.reportOutcome
  extract_lets l0 l1
  clear_value l0
  have h2 : Keeps x l1 := by
    unfold l1
    exact Keeps.ite (State.memWrite_keeps k0) k0
  clear_value l1
  exact State.setReg_keeps h2

theorem State.flagOutcome_keeps {x : State} {a0} {a1} (k0 : Keeps x a0) : Keeps x (State.flagOutcome a0 a1) := by
  unfold State.flagOutcome
  extract_lets l0 l1
  have h2 : Keeps x l0 := by
    unfold l0
    exact Keeps.ite (State.err_keeps (State.count_keeps k0)) k0
  clear_value l0
  have h3 : Keeps x l1 := by
    unfold l1
    exact Keeps.ite (State.count_keeps h2) h2
  clear_value l1
  exact Keeps.ite (State.err_keeps h3) h3

theorem State.setBusy_keeps {x : State} {a0} (k0 : Keeps x a0) : Keeps x (State.setBusy a0) := by
  unfold State.setBusy
  exact State.setOutcome_keeps k0

theorem State.sendOutcome_keeps {x : State} {a0} {a1} {a2} {a3} (k0 : Keeps x a0) : Keeps x (State.sendOutcome a0
    a1 a2 a3) := by
  unfold State.sendOutcome
  exact Keeps.ite (State.reportOutcome_keeps k0) (State.send_keeps k0)

theorem State.fwuEnd_keeps {x : State} {a0} {a1} {a2} (k0 : Keeps x a0) : Keeps x (State.fwuEnd a0 a1 a2) := by
  unfold State.fwuEnd
  extract_lets l0
  clear_value l0
  exact State.sendOutcome_keeps (State.flagOutcome_keeps (State.setOutcome_keeps k0))

theorem State.fwuStart_keeps {x : State} {a0} (k0 : Keeps x a0) : Keeps x (State.fwuStart a0) := by
  unfold State.fwuStart
  extract_lets l0 l1 l2 l3 l4
  clear_value l0 l1
  have h5 : Keeps x l2 := by
    unfold l2
    exact State.setReg_keeps k0
  clear_value l2 l3 l4
  refine Keeps.ite ?_ ?_
  · exact k0
  · refine Keeps.ite ?_ ?_
    · split
      · rename_i v6 v7 v8 v9
        have h10 : Keeps x ((v7, v8)).1 := by
          rw [← v9]
          exact State.openRead_keeps k0
        exact State.reportOutcome_keeps (State.setBusy_keeps h10)
    · refine Keeps.ite ?_ ?_
      · exact State.fwuEnd_keeps (State.setFwu_keeps h5)
      · split
        · rename_i v11 v12 v13 v14
          have h15 : Keeps x ((v12, v13)).1 := by
            rw [← v14]
            exact State.openRead_keeps h5
          exact State.setFwuState_keeps (State.setFwu_keeps h15)

theorem execFwuStart_keeps {x : State} {a0} {a1} (k1 : Keeps x a1) : KeepsRes x (execFwuStart a0 a1) := by
  unfold execFwuStart
  refine KeepsRes.next ?_
  refine State.guardWrite_keeps ?_ ?_
  · exact k1
  · intro a0 a1
    exact State.fwuStart_keeps a1

theorem State.fwuComplete_keeps {x : State} {a0} (k0 : Keeps x a0) : Keeps x (State.fwuComplete a0) := by
  unfold State.fwuComplete
  exact Keeps.ite (State.setFwuState_keeps (State.count_keeps k0)) k0

theorem execFwuImageComplete_keeps {x : State} {a0} (k0 : Keeps x a0) : KeepsRes x (execFwuImageComplete a0) := by
  unfold execFwuImageComplete
  exact KeepsRes.next (State.fwuComplete_keeps k0)

theorem State.onFwImage_keeps {x : State} {a0} {a1} (k0 : Keeps x a0) : Keeps x (State.onFwImage a0 a1) := by
  unfold State.onFwImage
  split
  · extract_lets l4 l5
    clear_value l4 l5
    refine Keeps.ite ?_ ?_
    · exact Keeps.ite k0 (State.setFwu_keeps k0)
    · refine Keeps.ite ?_ ?_
      · exact k0
      · refine Keeps.ite ?_ ?_
        · exact State.setFwu_keeps k0
        · exact Keeps.ite (Keeps.ite (State.sendOutcome_keeps (State.setBusy_keeps k0)) k0)
              (State.setFwuState_keeps (State.setFwu_keeps k0))
  · exact k0

theorem State.onFwuOutcome_keeps {x : State} {a0} {a1} (k0 : Keeps x a0) : Keeps x (State.onFwuOutcome a0 a1) := by
  unfold State.onFwuOutcome
  split
  · exact State.reportOutcome_keeps k0
  · exact State.emit_keeps k0
  · exact k0

theorem State.sendImage_keeps {x : State} {a0} {a1} {a2} {a3} (k0 : Keeps x a0) : Keeps x (State.sendImage a0 a1 a2
    a3) := by
  unfold State.sendImage
  extract_lets l0
  clear_value l0
  refine Keeps.foldl (p := fun r => r) ?_ (fun b1 a2 h3 => ?_)
  · exact k0
  · exact State.sendPkt_keeps h3

theorem State.forwardImage_keeps {x : State} {a0} (k0 : Keeps x a0) : Keeps x (State.forwardImage a0) := by
  unfold State.forwardImage
  extract_lets l0 l1
  clear_value l0 l1
  refine State.count_keeps ?_
  refine Keeps.foldl (p := fun r => r) ?_ (fun b2 a3 h4 => ?_)
  · exact k0
  · exact State.sendImage_keeps h4

theorem State.fwuVerified_keeps {x : State} {a0} (k0 : Keeps x a0) : Keeps x (State.fwuVerified a0) := by
  unfold State.fwuVerified
  extract_lets l0 l1 l2 l3
  clear_value l0
  have h4 : Keeps x l1 := by
    unfold l1
    exact State.forwardImage_keeps k0
  clear_value l1 l2 l3
  refine Keeps.ite ?_ ?_
  · exact k0
  · split
    · refine Keeps.ite ?_ ?_
      · exact State.fwuEnd_keeps k0
      · split
        · exact State.setFwuState_keeps (State.setFwu_keeps (State.showSlots_keeps (State.measureSlot_keeps
              (State.setSlot_keeps h4))))
        · exact State.fwuEnd_keeps h4
    · exact State.fwuEnd_keeps k0

theorem execFwuVerifyDone_keeps {x : State} {a0} (k0 : Keeps x a0) : KeepsRes x (execFwuVerifyDone a0) := by
  unfold execFwuVerifyDone
  exact KeepsRes.next (State.fwuVerified_keeps k0)

theorem State.fwuRecheck_keeps {x : State} {a0} (k0 : Keeps x a0) : Keeps x (State.fwuRecheck a0) := by
  unfold State.fwuRecheck
  refine Keeps.ite ?_ ?_
  · exact k0
  · split
    · exact k0
    · exact State.fwuEnd_keeps k0

theorem State.fwuWritten_keeps {x : State} {a0} {a1} (k0 : Keeps x a0) : Keeps x (State.fwuWritten a0 a1) := by
  unfold State.fwuWritten
  extract_lets l0 l1 l2 l3 l4
  clear_value l0 l1
  have h5 : Keeps x l2 := by
    unfold l2
    exact State.setSlot_keeps k0
  clear_value l2
  have h6 : Keeps x l3 := by
    unfold l3
    exact State.measureSlot_keeps (State.bootWrite_keeps h5)
  clear_value l3 l4
  refine Keeps.ite ?_ ?_
  · exact k0
  · split
    · refine Keeps.ite ?_ ?_
      · exact Keeps.ite (State.fwuEnd_keeps (State.setFwu_keeps (State.showSlots_keeps h6))) (State.fwuEnd_keeps
            (State.showSlots_keeps (State.measureSlot_keeps h5)))
      · exact State.fwuEnd_keeps k0
    · exact State.fwuEnd_keeps k0

theorem execFwuWriteDone_keeps {x : State} {a0} {a1} (k1 : Keeps x a1) : KeepsRes x (execFwuWriteDone a0 a1) := by
  unfold execFwuWriteDone
  exact KeepsRes.next (State.fwuWritten_keeps k1)

theorem execHoldupChange_keeps {x : State} {a0} {a1} (k1 : Keeps x a1) : KeepsRes x (execHoldupChange a0 a1) := by
  unfold execHoldupChange
  extract_lets l0
  clear_value l0
  exact KeepsRes.next (Keeps.ite (State.fwuRecheck_keeps (State.setBoot_keeps k1)) k1)

theorem State.enroll_keeps {x s : State} (h : Keeps x s) : Keeps x s.enroll := by
  unfold State.enroll
  refine Keeps.ite h ?_
  split
  · exact State.err_keeps h
  · rename_i hn
    split
    rename_i t k e
    have h1 : Keeps x ((t, k)).1 := by
      rw [← e]
      exact State.openRead_keeps h
    refine ⟨h1.pending, h1.variant, h1.serial, h1.svn, fun d hd => ?_, h1.free, h1.mem⟩
    exact absurd (by rw [h.owner d hd]; rfl) hn

theorem execEnroll_keeps {x : State} {a0} {a1} (k1 : Keeps x a1) : KeepsRes x (execEnroll a0 a1) := by
  unfold execEnroll
  refine KeepsRes.next ?_
  refine State.guardWrite_keeps ?_ ?_
  · exact k1
  · intro a0 a1
    exact State.enroll_keeps a1

theorem State.lockCmd_keeps {x : State} {a0} (k0 : Keeps x a0) : Keeps x (State.lockCmd a0) := by
  unfold State.lockCmd
  refine Keeps.ite ?_ ?_
  · exact k0
  · split
    · rename_i v0 v1 v2 v3
      have h4 : Keeps x ((v1, v2)).1 := by
        rw [← v3]
        exact State.openRead_keeps k0
      extract_lets l5
      have h6 : Keeps x l5 := by
        unfold l5
        exact Keeps.ite (State.showSlots_keeps (State.bootWrite_keeps h4)) (State.err_keeps h4)
      clear_value l5
      split
      · rename_i v7 v8 v9 v10
        have h11 : Keeps x ((v8, v9)).2 := by
          rw [← v10]
          exact State.draw_keeps h6
        exact State.fwuRecheck_keeps (State.setReg_keeps h11)

theorem execLock_keeps {x : State} {a0} {a1} (k1 : Keeps x a1) : KeepsRes x (execLock a0 a1) := by
  unfold execLock
  refine KeepsRes.next ?_
  refine State.guardWrite_keeps ?_ ?_
  · exact k1
  · intro a0 a1
    exact State.lockCmd_keeps a1

theorem State.serveRecovery_keeps {x : State} {a0} {a1} (k0 : Keeps x a0) : Keeps x (State.serveRecovery a0 a1) := by
  unfold State.serveRecovery
  split
  · exact Keeps.ite (State.sendImage_keeps k0) k0
  · exact k0

theorem execServeRecovery_keeps {x : State} {a0} {a1} {a2} (k2 : Keeps x a2) : KeepsRes x (execServeRecovery a0 a1
    a2) := by
  unfold execServeRecovery
  refine KeepsRes.next ?_
  refine State.guardWrite_keeps ?_ ?_
  · exact k2
  · intro a0 a1
    exact State.serveRecovery_keeps a1

theorem State.raiseSvn_keeps {x s : State} (h : Keeps x s) : Keeps x s.raiseSvn := by
  unfold State.raiseSvn
  split
  · refine Keeps.ite ?_ h
    refine State.showSlots_keeps ?_
    exact ⟨h.pending, h.variant, h.serial, Nat.le_trans h.svn (Nat.le_max_left _ _), h.owner, h.free, h.mem⟩
  · exact h

theorem execRaiseSvn_keeps {x : State} {a0} {a1} (k1 : Keeps x a1) : KeepsRes x (execRaiseSvn a0 a1) := by
  unfold execRaiseSvn
  refine KeepsRes.next ?_
  refine State.guardWrite_keeps ?_ ?_
  · exact k1
  · intro a0 a1
    exact State.raiseSvn_keeps a1

theorem State.fwuWrite_keeps {x : State} {a0} {a1} {a2} (k0 : Keeps x a0) : Keeps x (State.fwuWrite a0 a1 a2) := by
  unfold State.fwuWrite
  split
  · exact State.fwuStart_keeps k0
  · exact State.lockCmd_keeps k0
  · exact State.enroll_keeps k0
  · exact State.serveRecovery_keeps k0
  · exact Keeps.ite (State.raiseSvn_keeps k0) (State.violation_keeps k0)
  · exact k0

theorem State.attStart_keeps {x : State} {a0} {a1} (k0 : Keeps x a0) : Keeps x (State.attStart a0 a1) := by
  unfold State.attStart
  extract_lets l0 l1
  clear_value l0 l1
  exact Keeps.ite (State.err_keeps (State.setReg_keeps k0)) (State.setReg_keeps (State.setBoot_keeps k0))

theorem execAttReport_keeps {x : State} {a0} {a1} (k1 : Keeps x a1) : KeepsRes x (execAttReport a0 a1) := by
  unfold execAttReport
  refine KeepsRes.next ?_
  refine State.guardWrite_keeps ?_ ?_
  · exact k1
  · intro a0 a1
    exact State.attStart_keeps a1

theorem execAttChain_keeps {x : State} {a0} {a1} (k1 : Keeps x a1) : KeepsRes x (execAttChain a0 a1) := by
  unfold execAttChain
  refine KeepsRes.next ?_
  refine State.guardWrite_keeps ?_ ?_
  · exact k1
  · intro a0 a1
    exact State.attStart_keeps a1

theorem State.attWrite_keeps {x : State} {a0} {a1} (k0 : Keeps x a0) : Keeps x (State.attWrite a0 a1) := by
  unfold State.attWrite
  split
  · exact State.attStart_keeps k0
  · exact State.attStart_keeps k0
  · exact k0

theorem State.attFinish_keeps {x : State} {a0} (k0 : Keeps x a0) : Keeps x (State.attFinish a0) := by
  unfold State.attFinish
  extract_lets l0 l1 l2 l3 l4 l5
  clear_value l0 l1 l2
  have h6 : Keeps x l3 := by
    unfold l3
    exact State.memWrite_keeps k0
  clear_value l3 l4
  have h7 : Keeps x l5 := by
    unfold l5
    exact State.setBoot_keeps h6
  clear_value l5
  exact Keeps.ite k0 (State.count_keeps (State.setReg_keeps h7))

theorem execAttDone_keeps {x : State} {a0} (k0 : Keeps x a0) : KeepsRes x (execAttDone a0) := by
  unfold execAttDone
  exact KeepsRes.next (State.attFinish_keeps k0)

theorem State.regionCommit_keeps {x : State} {a0} {a1} {a2} {a3} (k0 : Keeps x a0) : Keeps x (State.regionCommit a0
    a1 a2 a3).1 := by
  unfold State.regionCommit
  extract_lets l0 l1 l2 l3
  have h4 : Keeps x l0 := by
    unfold l0
    refine Keeps.foldl (p := fun r => r) ?_ (fun b5 a6 h7 => ?_)
    · exact k0
    · exact State.setShadow_keeps h7
  clear_value l0
  have h8 : Keeps x l1.s := by
    unfold l1
    exact h4
  clear_value l1
  have h9 : Keeps x l2 := by
    unfold l2
    exact State.arm_keeps (State.setReg_keeps h4)
  clear_value l2 l3
  refine Keeps.iteP (p := (fun r => (Prod.fst r))) ?_ ?_
  · exact k0
  · refine Keeps.iteP (p := (fun r => (Prod.fst r))) ?_ ?_
    · exact State.commit_keeps h4
    · exact State.setBoot_keeps h9

theorem State.mboxDone_keeps {x : State} {a0} (k0 : Keeps x a0) : Keeps x (State.mboxDone a0) := by
  unfold State.mboxDone
  extract_lets l0 l1 l2
  clear_value l0 l1
  have h3 : Keeps x l2 := by
    unfold l2
    exact State.setBoot_keeps k0
  clear_value l2
  exact Keeps.ite k0 (State.setReg_keeps (Keeps.ite h3 (State.discard_keeps h3)))

theorem State.regionSet_keeps {x : State} {a0} (k0 : Keeps x a0) : Keeps x (State.regionSet a0).1 := by
  unfold State.regionSet
  extract_lets l0 l1 l2
  clear_value l0 l1 l2
  refine Keeps.iteP (p := (fun r => (Prod.fst r))) ?_ ?_
  · exact k0
  · refine Keeps.iteP (p := (fun r => (Prod.fst r))) ?_ ?_
    · exact k0
    · exact State.regionCommit_keeps k0

theorem State.regionClear_keeps {x : State} {a0} (k0 : Keeps x a0) : Keeps x (State.regionClear a0).1 := by
  unfold State.regionClear
  extract_lets l0 l1 l2
  clear_value l0 l1 l2
  refine Keeps.iteP (p := (fun r => (Prod.fst r))) ?_ ?_
  · exact k0
  · exact State.regionCommit_keeps k0

theorem State.setWorld_keeps {x : State} {a0} {a1} {a2} (k0 : Keeps x a0) : Keeps x (State.setWorld a0 a1 a2) := by
  unfold State.setWorld
  exact Keeps.ite k0 (State.setReg_keeps k0)

theorem State.worldSet_keeps {x : State} {a0} (k0 : Keeps x a0) : Keeps x (State.worldSet a0).1 := by
  unfold State.worldSet
  extract_lets l0
  clear_value l0
  refine Keeps.iteP (p := (fun r => (Prod.fst r))) ?_ ?_
  · exact k0
  · exact State.setWorld_keeps k0

theorem State.mboxSubmit_keeps {x : State} {a0} (k0 : Keeps x a0) : Keeps x (State.mboxSubmit a0) := by
  unfold State.mboxSubmit
  refine Keeps.ite ?_ ?_
  · exact k0
  · split
    · rename_i v0 v1 v2 v3
      have h4 : Keeps x ((v1, v2)).1 := by
        rw [← v3]
        split
        · exact State.regionSet_keeps k0
        · exact State.regionClear_keeps k0
        · exact State.worldSet_keeps k0
        · exact k0
      exact Keeps.ite h4 (State.setReg_keeps h4)

theorem State.mboxOp_keeps {x : State} {a0} {a1} {a2} (k0 : Keeps x a0) : Keeps x (State.mboxOp a0 a1 a2) := by
  unfold State.mboxOp
  refine Keeps.ite ?_ ?_
  · refine State.guardWrite_keeps ?_ ?_
    · exact k0
    · intro a0 a1
      exact State.mboxSubmit_keeps a1
  · exact k0

theorem execRegionSet_keeps {x : State} {a0} {a1} (k1 : Keeps x a1) : KeepsRes x (execRegionSet a0 a1) := by
  unfold execRegionSet
  exact KeepsRes.next (State.mboxOp_keeps k1)

theorem execRegionClear_keeps {x : State} {a0} {a1} (k1 : Keeps x a1) : KeepsRes x (execRegionClear a0 a1) := by
  unfold execRegionClear
  exact KeepsRes.next (State.mboxOp_keeps k1)

theorem execWorldSet_keeps {x : State} {a0} {a1} (k1 : Keeps x a1) : KeepsRes x (execWorldSet a0 a1) := by
  unfold execWorldSet
  exact KeepsRes.next (State.mboxOp_keeps k1)

end Sys2Proof.Machine
end

