-- ==== Sys2Proof/Laws/KeepsRegisters.lean ====
section
/-! SUPPORT. What the operations of Machine/Registers.lean keep (`Keeps`, Laws/Keeps.lean). -/

namespace Sys2Proof.Machine

theorem State.touchPage_keeps {x : State} {a0} {a1} (k0 : Keeps x a0) : Keeps x (State.touchPage a0 a1) := by
  unfold State.touchPage
  exact Keeps.ite (State.ungate_keeps k0) k0

theorem State.readReg_keeps {x : State} {a0} {a1} {a2} {a3} (k0 : Keeps x a0) : Keeps x (State.readReg a0 a1 a2
    a3).2 := by
  unfold State.readReg
  split
  · split
    · rename_i v3 v4 v5 v6
      have h7 : Keeps x ((v4, v5)).2 := by
        rw [← v6]
        exact State.draw_keeps k0
      exact h7
  · exact k0

theorem State.readAt_keeps {x : State} {a0} {a1} {a2} {a3} {a4} (k0 : Keeps x a0) : Keeps x (State.readAt a0 a1 a2
    a3 a4).2 := by
  unfold State.readAt
  split
  · refine Keeps.iteP (p := (fun r => (Prod.snd r))) ?_ ?_
    · exact k0
    · refine Keeps.iteP (p := (fun r => (Prod.snd r))) ?_ ?_
      · exact State.violation_keeps k0
      · split
        · rename_i v6 v7 v8 v9
          have h10 : Keeps x ((v7, v8)).2 := by
            rw [← v9]
            exact State.readReg_keeps k0
          extract_lets l11 l12 l13
          have h14 : Keeps x l11 := by
            unfold l11
            exact State.touchPage_keeps h10
          clear_value l11 l12 l13
          refine Keeps.iteP (p := (fun r => (Prod.snd r))) ?_ ?_
          · exact Keeps.ite (Keeps.upd h14 rfl rfl rfl rfl) h14
          · refine Keeps.iteP (p := (fun r => (Prod.snd r))) ?_ ?_
            · exact h14
            · exact h14
  · exact Keeps.ite (State.touchPage_keeps k0) k0
  · exact k0

theorem State.readPair_keeps {x : State} {a0} {a1} {a2} {a3} {a4} (k0 : Keeps x a0) : Keeps x (State.readPair a0 a1
    a2 a3 a4).2 := by
  unfold State.readPair
  split
  · refine Keeps.iteP (p := (fun r => (Prod.snd r))) ?_ ?_
    · refine Keeps.iteP (p := (fun r => (Prod.snd r))) ?_ ?_
      · exact k0
      · refine Keeps.iteP (p := (fun r => (Prod.snd r))) ?_ ?_
        · exact State.violation_keeps k0
        · split
          · rename_i v6 v7 v8 v9
            have h10 : Keeps x ((v7, v8)).2 := by
              rw [← v9]
              exact State.readReg_keeps k0
            exact State.touchPage_keeps h10
    · split
      · rename_i v11 v12 v13 v14
        have h15 : Keeps x ((v12, v13)).2 := by
          rw [← v14]
          exact State.readAt_keeps k0
        extract_lets l16
        clear_value l16
        split
        · rename_i v17 v18 v19 v20
          have h21 : Keeps x ((v18, v19)).2 := by
            rw [← v20]
            refine Keeps.iteP (p := (fun r => (Prod.snd r))) ?_ ?_
            · exact h15
            · exact State.readAt_keeps h15
          exact h21
  · split
    · rename_i v25 v26 v27 v28
      have h29 : Keeps x ((v26, v27)).2 := by
        rw [← v28]
        exact State.readAt_keeps k0
      exact h29

theorem State.regRead_keeps {x : State} {a0} {a1} {a2} {a3} {a4} (k0 : Keeps x a0) : Keeps x (State.regRead a0 a1
    a2 a3 a4).2 := by
  unfold State.regRead
  split
  · exact k0
  · refine Keeps.iteP (p := (fun r => (Prod.snd r))) ?_ ?_
    · exact k0
    · split
      · refine Keeps.iteP (p := (fun r => (Prod.snd r))) ?_ ?_
        · exact k0
        · exact k0
      · refine Keeps.iteP (p := (fun r => (Prod.snd r))) ?_ ?_
        · exact State.readPair_keeps k0
        · exact State.readAt_keeps k0

theorem execCounterLatchRead_keeps {x : State} {a0} {a1} {a2} {a3} (k3 : Keeps x a3) : KeepsRes x
    (execCounterLatchRead a0 a1 a2 a3) := by
  unfold execCounterLatchRead
  refine KeepsRes.next ?_
  refine Keeps.ite ?_ ?_
  · exact State.hostHold_keeps k3
  · split
    · rename_i v0 v1 v2 v3
      have h4 : Keeps x ((v1, v2)).2 := by
        rw [← v3]
        exact State.regRead_keeps k3
      exact Keeps.upd h4 rfl rfl rfl rfl

theorem State.errClear_keeps {x : State} {a0} {a1} {a2} (k0 : Keeps x a0) : Keeps x (State.errClear a0 a1 a2) := by
  unfold State.errClear
  extract_lets l0 l1 l2
  clear_value l0 l1
  have h3 : Keeps x l2 := by
    unfold l2
    exact State.setReg_keeps k0
  clear_value l2
  exact Keeps.ite (State.setReg_keeps h3) h3

theorem State.cntClear_keeps {x : State} {a0} {a1} {a2} (k0 : Keeps x a0) : Keeps x (State.cntClear a0 a1 a2) := by
  unfold State.cntClear
  extract_lets l0
  have h1 : Keeps x l0 := by
    unfold l0
    refine Keeps.foldl (p := fun r => r) ?_ (fun b2 a3 h4 => ?_)
    · exact k0
    · exact Keeps.ite (State.setReg_keeps h4) h4
  clear_value l0
  split
  · exact State.setReg_keeps h1
  · exact State.setReg_keeps h1
  · exact h1

theorem State.ueLogClear_keeps {x : State} {a0} {a1} (k0 : Keeps x a0) : Keeps x (State.ueLogClear a0 a1) := by
  unfold State.ueLogClear
  refine Keeps.foldl (p := fun r => r) ?_ (fun b0 a1 h2 => ?_)
  · exact k0
  · exact State.setReg_keeps h2

theorem State.ctrlWrite_keeps {x : State} {a0} {a1} {a2} {a3} {a4} (k0 : Keeps x a0) : Keeps x (State.ctrlWrite a0
    a1 a2 a3 a4) := by
  unfold State.ctrlWrite
  extract_lets l0 l1
  have h2 : Keeps x l0 := by
    unfold l0
    exact Keeps.ite (State.cntClear_keeps k0) k0
  clear_value l0
  have h3 : Keeps x l1 := by
    unfold l1
    exact State.setReg_keeps h2
  clear_value l1
  exact Keeps.ite (State.ueLogClear_keeps h3) h3

theorem State.dropWindow_keeps {x : State} {a0} {a1} {a2} {a3} (k0 : Keeps x a0) : Keeps x (State.dropWindow a0 a1
    a2 a3) := by
  unfold State.dropWindow
  extract_lets l0 l1
  clear_value l0 l1
  exact Keeps.upd k0 rfl rfl rfl rfl

theorem State.selectWrite_keeps {x : State} {a0} {a1} {a2} {a3} {a4} (k0 : Keeps x a0) : Keeps x (State.selectWrite
    a0 a1 a2 a3 a4) := by
  unfold State.selectWrite
  exact State.setReg_keeps (State.dropWindow_keeps k0)

theorem State.qHeadWrite_keeps {x : State} {a0} {a1} {a2} (k0 : Keeps x a0) : Keeps x (State.qHeadWrite a0 a1 a2)
    := by
  unfold State.qHeadWrite
  extract_lets l0
  clear_value l0
  exact Keeps.ite (State.setQst_keeps (State.setQreg_keeps k0)) (State.err_keeps k0)

theorem State.resumeQueue_keeps {x : State} {a0} {a1} (k0 : Keeps x a0) : Keeps x (State.resumeQueue a0 a1) := by
  unfold State.resumeQueue
  extract_lets l0
  clear_value l0
  exact State.ungateReady_keeps (State.setQst_keeps k0)

theorem State.cqTailWrite_keeps {x : State} {a0} {a1} {a2} {a3} (k0 : Keeps x a0) : Keeps x (State.cqTailWrite a0
    a1 a2 a3) := by
  unfold State.cqTailWrite
  exact Keeps.ite (State.setCqreg_keeps k0) k0

theorem State.rlogTailWrite_keeps {x : State} {a0} {a1} {a2} (k0 : Keeps x a0) : Keeps x (State.rlogTailWrite a0 a1
    a2) := by
  unfold State.rlogTailWrite
  exact Keeps.ite (State.setReg_keeps k0) k0

theorem State.blockWrite_keeps {x : State} {a0} {a1} {a2} {a3} {a4} {a5} (k0 : Keeps x a0) : OptAll (fun r => Keeps
    x r) (State.blockWrite a0 a1 a2 a3 a4 a5) := by
  unfold State.blockWrite
  extract_lets l0
  clear_value l0
  refine OptAll.ite ?_ ?_
  · exact OptAll.some (State.ctrlWrite_keeps k0)
  · refine OptAll.ite ?_ ?_
    · exact OptAll.some (State.selectWrite_keeps k0)
    · split
      · refine OptAll.ite ?_ ?_
        · exact OptAll.some (State.qHeadWrite_keeps k0)
        · exact OptAll.ite (OptAll.some (Keeps.ite (State.resumeQueue_keeps k0) k0)) (OptAll.ite (OptAll.some
              (State.cqTailWrite_keeps k0)) OptAll.none)
      · exact OptAll.ite (OptAll.some (State.rlogTailWrite_keeps k0)) OptAll.none
      · exact OptAll.ite (OptAll.ite (OptAll.some k0) OptAll.none) (OptAll.ite (OptAll.some (State.lostWrite_keeps
            k0)) OptAll.none)
      · exact OptAll.ite (OptAll.some (State.twinWrite_keeps k0)) (OptAll.ite (OptAll.some (State.resyncWrite_keeps
            k0)) OptAll.none)
      · exact OptAll.ite (OptAll.some (State.calWrite_keeps k0)) (OptAll.ite (OptAll.some (State.sleepWake_keeps
            k0)) OptAll.none)
      · exact OptAll.ite (OptAll.some (State.attWrite_keeps k0)) OptAll.none
      · exact OptAll.ite (OptAll.some (State.fwuWrite_keeps k0)) OptAll.none
      · refine OptAll.ite ?_ ?_
        · exact OptAll.some (State.mgtResetWrite_keeps k0)
        · exact OptAll.ite (OptAll.some (Keeps.ite (State.mboxSubmit_keeps k0) k0)) (OptAll.ite (OptAll.some k0)
              OptAll.none)
      · exact OptAll.ite (OptAll.some k0) OptAll.none
      · exact OptAll.none

theorem State.plainStore_keeps {x : State} {a0} {a1} {a2} {a3} (k0 : Keeps x a0) : Keeps x (State.plainStore a0 a1
    a2 a3) := by
  unfold State.plainStore
  extract_lets l0
  clear_value l0
  split
  · exact State.setReg_keeps k0
  · exact State.setReg_keeps k0
  · exact State.setShadow_keeps k0
  · exact k0

theorem State.headerWrite_keeps {x : State} {a0} {a1} {a2} {a3} {a4} (k0 : Keeps x a0) : OptAll (fun r => Keeps x
    r) (State.headerWrite a0 a1 a2 a3 a4) := by
  unfold State.headerWrite
  refine OptAll.ite ?_ ?_
  · exact OptAll.some (Keeps.ite (State.control_keeps k0) k0)
  · exact OptAll.ite (OptAll.some (State.errClear_keeps k0)) (OptAll.ite (OptAll.some (State.setWorld_keeps k0))
        OptAll.none)

theorem State.storeReg_keeps {x : State} {a0} {a1} {a2} {a3} {a4} {a5} {a6} {a7} (k0 : Keeps x a0) : Keeps x
    (State.storeReg a0 a1 a2 a3 a4 a5 a6 a7) := by
  unfold State.storeReg
  extract_lets l0 l1
  have h2 : Keeps x l0 := by
    unfold l0
    exact State.touchPage_keeps k0
  clear_value l0
  have h3 : OptAll (fun r => Keeps x r) l1 := by
    unfold l1
    exact OptAll.ite (State.headerWrite_keeps h2) (State.blockWrite_keeps h2)
  clear_value l1
  refine OptAll.getD (P := fun r => Keeps x r) ?_ ?_
  · exact h3
  · exact State.plainStore_keeps h2

theorem State.commitWrite_keeps {x : State} {a0} {a1} {a2} {a3} {a4} {a5} (k0 : Keeps x a0) : OptAll (fun r =>
    Keeps x r) (State.commitWrite a0 a1 a2 a3 a4 a5) := by
  unfold State.commitWrite
  refine OptAll.ite ?_ ?_
  · exact OptAll.some (State.commitGo_keeps k0)
  · exact OptAll.ite (OptAll.some (State.commitBeat_keeps k0)) (OptAll.ite (OptAll.some (State.commitBeat_keeps
        k0)) OptAll.none)

theorem State.writeAt_keeps {x : State} {a0} {a1} {a2} {a3} {a4} {a5} (k0 : Keeps x a0) : Keeps x (State.writeAt a0
    a1 a2 a3 a4 a5) := by
  unfold State.writeAt
  split
  · refine Keeps.ite ?_ ?_
    · exact k0
    · split
      · rename_i v6 v7 v8
        have h9 : OptAll (fun r => Keeps x r) (some v7) := by
          rw [← v8]
          exact State.commitWrite_keeps k0
        exact State.touchPage_keeps (OptAll.get h9 :)
      · exact Keeps.ite (State.violation_keeps k0) (State.storeReg_keeps k0)
  · exact Keeps.ite (State.touchPage_keeps k0) k0
  · exact k0

theorem State.writePair_keeps {x : State} {a0} {a1} {a2} {a3} {a4} {a5} (k0 : Keeps x a0) : Keeps x
    (State.writePair a0 a1 a2 a3 a4 a5) := by
  unfold State.writePair
  split
  · extract_lets l6 l7 l8
    clear_value l6 l7
    have h9 : Keeps x l8 := by
      unfold l8
      exact State.writeAt_keeps k0
    clear_value l8
    refine Keeps.ite ?_ ?_
    · exact Keeps.ite k0 (Keeps.ite (State.touchPage_keeps (State.commitBeat_keeps k0)) (Keeps.ite
          (State.violation_keeps k0) (State.storeReg_keeps k0)))
    · exact Keeps.ite h9 (State.writeAt_keeps h9)
  · exact State.writeAt_keeps k0

theorem State.ring_keeps {x : State} {a0} {a1} {a2} (k0 : Keeps x a0) : Keeps x (State.ring a0 a1 a2) := by
  unfold State.ring
  exact State.doorbell_keeps (State.ungate_keeps k0)

theorem State.ringBad_keeps {x : State} {a0} {a1} (k0 : Keeps x a0) : Keeps x (State.ringBad a0 a1) := by
  unfold State.ringBad
  exact State.err_keeps (State.count_keeps k0)

theorem State.doorbellWrite_keeps {x : State} {a0} {a1} {a2} {a3} (k0 : Keeps x a0) : Keeps x (State.doorbellWrite
    a0 a1 a2 a3) := by
  unfold State.doorbellWrite
  exact Keeps.ite k0 (Keeps.ite (State.ring_keeps k0) (Keeps.ite (State.ring_keeps (State.ring_keeps k0))
      (State.ringBad_keeps k0)))

theorem State.regWrite_keeps {x : State} {a0} {a1} {a2} {a3} {a4} {a5} (k0 : Keeps x a0) : Keeps x (State.regWrite
    a0 a1 a2 a3 a4 a5) := by
  unfold State.regWrite
  split
  · exact k0
  · split
    · exact Keeps.ite (State.doorbellWrite_keeps k0) (Keeps.ite (State.ringBad_keeps k0) k0)
    · exact Keeps.ite k0 (Keeps.ite (State.writeAt_keeps k0) (Keeps.ite (State.writePair_keeps k0) k0))

theorem execRegisterWrite_keeps {x : State} {a0} {a1} {a2} {a3} {a4} (k4 : Keeps x a4) : KeepsRes x
    (execRegisterWrite a0 a1 a2 a3 a4) := by
  unfold execRegisterWrite
  exact KeepsRes.next (Keeps.ite (State.hostHold_keeps k4) (State.regWrite_keeps k4))

theorem execErrStatusClear_keeps {x : State} {a0} {a1} {a2} {a3} (k3 : Keeps x a3) : KeepsRes x (execErrStatusClear
    a0 a1 a2 a3) := by
  unfold execErrStatusClear
  exact KeepsRes.next (State.writeAt_keeps k3)

theorem execCntClear_keeps {x : State} {a0} {a1} {a2} {a3} (k3 : Keeps x a3) : KeepsRes x (execCntClear a0 a1 a2
    a3) := by
  unfold execCntClear
  refine KeepsRes.next ?_
  split
  · exact State.writeAt_keeps k3
  · exact k3

theorem execDoorbellWrite_keeps {x : State} {a0} {a1} {a2} {a3} (k3 : Keeps x a3) : KeepsRes x (execDoorbellWrite
    a0 a1 a2 a3) := by
  unfold execDoorbellWrite
  exact KeepsRes.next (Keeps.ite k3 (Keeps.ite (State.hostHold_keeps k3) (State.doorbellWrite_keeps k3)))

theorem execQHeadWrite_keeps {x : State} {a0} {a1} {a2} {a3} (k3 : Keeps x a3) : KeepsRes x (execQHeadWrite a0 a1
    a2 a3) := by
  unfold execQHeadWrite
  exact KeepsRes.next (State.writeAt_keeps k3)

theorem execResume_keeps {x : State} {a0} {a1} {a2} {a3} (k3 : Keeps x a3) : KeepsRes x (execResume a0 a1 a2 a3) := by
  unfold execResume
  exact KeepsRes.next (State.writeAt_keeps k3)

theorem execQselWrite_keeps {x : State} {a0} {a1} {a2} {a3} (k3 : Keeps x a3) : KeepsRes x (execQselWrite a0 a1 a2
    a3) := by
  unfold execQselWrite
  exact KeepsRes.next (State.writeAt_keeps k3)

theorem execCqselWrite_keeps {x : State} {a0} {a1} {a2} {a3} (k3 : Keeps x a3) : KeepsRes x (execCqselWrite a0 a1
    a2 a3) := by
  unfold execCqselWrite
  exact KeepsRes.next (State.writeAt_keeps k3)

theorem execCqTailWrite_keeps {x : State} {a0} {a1} {a2} {a3} (k3 : Keeps x a3) : KeepsRes x (execCqTailWrite a0 a1
    a2 a3) := by
  unfold execCqTailWrite
  exact KeepsRes.next (State.writeAt_keeps k3)

theorem execRlogTailWrite_keeps {x : State} {a0} {a1} {a2} {a3} (k3 : Keeps x a3) : KeepsRes x (execRlogTailWrite
    a0 a1 a2 a3) := by
  unfold execRlogTailWrite
  exact KeepsRes.next (State.writeAt_keeps k3)

theorem execPlcJobSelWrite_keeps {x : State} {a0} {a1} {a2} (k2 : Keeps x a2) : KeepsRes x (execPlcJobSelWrite a0
    a1 a2) := by
  unfold execPlcJobSelWrite
  exact KeepsRes.next (State.writeAt_keeps k2)

theorem execBndJobSelWrite_keeps {x : State} {a0} {a1} {a2} (k2 : Keeps x a2) : KeepsRes x (execBndJobSelWrite a0
    a1 a2) := by
  unfold execBndJobSelWrite
  exact KeepsRes.next (State.writeAt_keeps k2)

theorem execCtxSelWrite_keeps {x : State} {a0} {a1} {a2} {a3} (k3 : Keeps x a3) : KeepsRes x (execCtxSelWrite a0 a1
    a2 a3) := by
  unfold execCtxSelWrite
  exact KeepsRes.next (State.writeAt_keeps k3)

theorem execDecSelWrite_keeps {x : State} {a0} {a1} {a2} (k2 : Keeps x a2) : KeepsRes x (execDecSelWrite a0 a1 a2)
    := by
  unfold execDecSelWrite
  exact KeepsRes.next (State.writeAt_keeps k2)

theorem execUeLogClear_keeps {x : State} {a0} {a1} {a2} {a3} (k3 : Keeps x a3) : KeepsRes x (execUeLogClear a0 a1
    a2 a3) := by
  unfold execUeLogClear
  exact KeepsRes.next (State.writeAt_keeps k3)

theorem State.scsWindowWrite_keeps {x : State} {a0} {a1} (k0 : Keeps x a0) : Keeps x (State.scsWindowWrite a0 a1)
    := by
  unfold State.scsWindowWrite
  split
  · exact State.err_keeps k0
  · exact k0

theorem execScsWindowWrite_keeps {x : State} {a0} {a1} (k1 : Keeps x a1) : KeepsRes x (execScsWindowWrite a0 a1) := by
  unfold execScsWindowWrite
  exact KeepsRes.next (State.scsWindowWrite_keeps k1)

end Sys2Proof.Machine
end

