-- ==== Sys2Proof/Laws/KeepsSettle.lean ====
section
/-! SUPPORT. What the operations of Machine/Settle.lean keep (`Keeps`, Laws/Keeps.lean). -/

namespace Sys2Proof.Machine

theorem State.settleOne_keeps {x : State} {a0} {a1} (k0 : Keeps x a0) : Keeps x (State.settleOne a0 a1) := by
  unfold State.settleOne
  split
  · exact k0
  · refine Keeps.ite ?_ ?_
    · exact k0
    · split
      · exact Keeps.ite k0 (State.finish_keeps k0)
      · exact Keeps.ite (State.readoutNow_keeps k0) (Keeps.ite (State.clearNow_keeps k0) (State.ratioNow_keeps k0))
      · exact State.settleMore_keeps k0
      · exact State.releaseMore_keeps k0
      · exact State.scatterPump_keeps k0
      · exact State.storePump_keeps k0
      · exact State.collContribute_keeps k0
      · exact k0

theorem State.settle_keeps {x : State} {a0} (k0 : Keeps x a0) : Keeps x (State.settle a0) := by
  unfold State.settle
  refine State.releaseAll_keeps ?_
  refine State.pumpBatches_keeps ?_
  refine Keeps.foldl (p := fun r => r) ?_ (fun b0 a1 h2 => ?_)
  · exact k0
  · exact State.settleOne_keeps h2

theorem State.scsArrive_keeps {x : State} {a0} {a1} {a2} {a3} {a4} {a5} (k0 : Keeps x a0) : Keeps x
    (State.scsArrive a0 a1 a2 a3 a4 a5) := by
  unfold State.scsArrive
  extract_lets l0
  clear_value l0
  exact Keeps.ite (State.scsAdd_keeps k0) k0

theorem execScsAddend_keeps {x : State} {a0} {a1} {a2} {a3} {a4} {a5} (k5 : Keeps x a5) : KeepsRes x (execScsAddend
    a0 a1 a2 a3 a4 a5) := by
  unfold execScsAddend
  exact KeepsRes.next (State.scsArrive_keeps k5)

theorem execScsQueueAbsorb_keeps {x : State} {a0} {a1} {a2} (k2 : Keeps x a2) : KeepsRes x (execScsQueueAbsorb a0
    a1 a2) := by
  unfold execScsQueueAbsorb
  exact KeepsRes.next (Keeps.ite (State.settle_keeps (State.scsQueueStep_keeps k2)) k2)

theorem State.promotionResume_keeps {x : State} {a0} {a1} {a2} {a3} (k0 : Keeps x a0) : Keeps x
    (State.promotionResume a0 a1 a2 a3) := by
  unfold State.promotionResume
  exact Keeps.ite (State.settle_keeps (State.scsPromoteStep_keeps (State.count64_keeps k0))) k0

theorem execPromotionResume_keeps {x : State} {a0} {a1} {a2} {a3} (k3 : Keeps x a3) : KeepsRes x
    (execPromotionResume a0 a1 a2 a3) := by
  unfold execPromotionResume
  exact KeepsRes.next (State.promotionResume_keeps k3)

end Sys2Proof.Machine
end

