-- ==== Sys2Proof/Laws/KeepsPackets.lean ====
section
/-! SUPPORT. What the operations of Machine/Packets.lean keep (`Keeps`, Laws/Keeps.lean). -/

namespace Sys2Proof.Machine

theorem State.hostSend_keeps {x : State} {a0} {a1} {a2} {a3} {a4} {a5} (k0 : Keeps x a0) : Keeps x (State.hostSend
    a0 a1 a2 a3 a4 a5) := by
  unfold State.hostSend
  extract_lets l0 l1 l2 l3
  clear_value l0 l1
  have h4 : Keeps x l2 := by
    unfold l2
    exact Keeps.upd k0 rfl rfl rfl rfl
  clear_value l2 l3
  exact Keeps.ite (State.send_keeps (Keeps.upd h4 rfl rfl rfl rfl)) (State.send_keeps (Keeps.upd h4 rfl rfl rfl rfl))

theorem State.hostMem_keeps {x : State} {a0} {a1} {a2} {a3} {a4} (k0 : Keeps x a0) : Keeps x (State.hostMem a0 a1
    a2 a3 a4) := by
  unfold State.hostMem
  split
  · exact State.hostMiss_keeps k0
  · extract_lets l5 l6
    clear_value l5
    have h7 : Keeps x l6.st := by
      unfold l6
      exact State.memRead_keeps k0
    clear_value l6
    exact Keeps.ite (Keeps.ite (State.memWrite_keeps k0) (State.hostAnswer_keeps h7)) (Keeps.ite
        (State.hostLost_keeps k0) (State.hostSend_keeps k0))

theorem State.hostRegs_keeps {x : State} {a0} {a1} {a2} {a3} {a4} (k0 : Keeps x a0) : Keeps x (State.hostRegs a0 a1
    a2 a3 a4) := by
  unfold State.hostRegs
  extract_lets l0 l1 l2
  clear_value l0 l1 l2
  refine Keeps.ite ?_ ?_
  · exact Keeps.ite k0 (State.hostAnswer_keeps k0)
  · refine Keeps.ite ?_ ?_
    · refine Keeps.ite ?_ ?_
      · exact State.regWrite_keeps k0
      · split
        · rename_i v3 v4 v5 v6
          have h7 : Keeps x ((v4, v5)).2 := by
            rw [← v6]
            exact State.regRead_keeps k0
          exact State.hostAnswer_keeps h7
    · exact Keeps.ite (State.hostLost_keeps k0) (State.hostSend_keeps k0)

theorem State.msixPut_keeps {x : State} {a0} {a1} {a2} (k0 : Keeps x a0) : Keeps x (State.msixPut a0 a1 a2) := by
  unfold State.msixPut
  extract_lets l0 l1 l2 l3
  clear_value l0 l1 l2 l3
  exact Keeps.ite (State.setMsix_keeps k0) k0

theorem State.hostMsix_keeps {x : State} {a0} {a1} {a2} {a3} {a4} (k0 : Keeps x a0) : Keeps x (State.hostMsix a0 a1
    a2 a3 a4) := by
  unfold State.hostMsix
  refine Keeps.ite ?_ ?_
  · refine Keeps.foldl (p := fun r => r) ?_ (fun b0 a1 h2 => ?_)
    · exact k0
    · exact State.msixPut_keeps h2
  · exact State.hostAnswer_keeps k0

theorem State.hostDo_keeps {x : State} {a0} {a1} (k0 : Keeps x a0) : Keeps x (State.hostDo a0 a1) := by
  unfold State.hostDo
  extract_lets l0
  clear_value l0
  split
  · split
    · exact State.hostRegs_keeps k0
    · exact State.hostMsix_keeps k0
    · exact State.hostMem_keeps k0
  · refine Keeps.ite ?_ ?_
    · exact State.regWrite_keeps k0
    · split
      · rename_i v13 v14 v15 v16
        have h17 : Keeps x ((v14, v15)).2 := by
          rw [← v16]
          exact State.regRead_keeps k0
        exact Keeps.upd h17 rfl rfl rfl rfl

theorem State.hostDrain_keeps {x : State} {a0} {a1} (k0 : Keeps x a0) : Keeps x (State.hostDrain a0 a1) := by
  induction a1 generalizing a0
  · unfold State.hostDrain
    exact k0
  · rename_i v0 v1
    unfold State.hostDrain
    split
    · exact k0
    · extract_lets l8
      clear_value l8
      exact Keeps.ite k0 (v1 (State.hostDo_keeps (Keeps.upd k0 rfl rfl rfl rfl)))

theorem State.hostAccess_keeps {x : State} {a0} {a1} {a2} (k0 : Keeps x a0) : Keeps x (State.hostAccess a0 a1 a2)
    := by
  unfold State.hostAccess
  extract_lets l0
  have h1 : Keeps x l0 := by
    unfold l0
    exact State.count64_keeps k0
  clear_value l0
  exact Keeps.ite (Keeps.ite (State.hostDo_keeps h1) (State.hostHold_keeps h1)) k0

theorem execHostApertureAccess_keeps {x : State} {a0} {a1} {a2} {a3} {a4} (k4 : Keeps x a4) : KeepsRes x
    (execHostApertureAccess a0 a1 a2 a3 a4) := by
  unfold execHostApertureAccess
  exact KeepsRes.next (State.hostAccess_keeps k4)

theorem State.boardRead_keeps {x : State} {a0} {a1} (k0 : Keeps x a0) : Keeps x (State.boardRead a0 a1) := by
  unfold State.boardRead
  split
  · refine Keeps.ite ?_ ?_
    · split
      · rename_i v5 v6 v7 v8
        have h9 : Keeps x ((v6, v7)).2 := by
          rw [← v8]
          exact State.regRead_keeps k0
        exact State.reply_keeps h9
    · exact State.onBoardRd_keeps k0
  · exact State.onBoardRd_keeps k0

theorem State.boardWrite_keeps {x : State} {a0} {a1} (k0 : Keeps x a0) : Keeps x (State.boardWrite a0 a1) := by
  unfold State.boardWrite
  split
  · exact Keeps.ite (State.reply_keeps (State.regWrite_keeps k0)) (State.onBoardWr_keeps k0)
  · exact State.onBoardWr_keeps k0

theorem State.hostDone_keeps {x : State} {a0} {a1} (k0 : Keeps x a0) : Keeps x (State.hostDone a0 a1) := by
  unfold State.hostDone
  extract_lets l0
  clear_value l0
  exact Keeps.upd k0 rfl rfl rfl rfl

theorem State.boardAnswer_keeps {x : State} {a0} {a1} (k0 : Keeps x a0) : Keeps x (State.boardAnswer a0 a1) := by
  unfold State.boardAnswer
  split
  · extract_lets l6 l7 l8
    clear_value l6
    have h9 : Keeps x l7 := by
      unfold l7
      exact State.hostDone_keeps k0
    clear_value l7
    have h10 : Keeps x l8 := by
      unfold l8
      exact Keeps.ite (State.hostAnswer_keeps h9) h9
    clear_value l8
    exact Keeps.ite (State.onBoardRsp_keeps k0) (State.hostDrain_keeps h10)
  · exact k0

theorem State.hostNack_keeps {x : State} {a0} {a1} {a2} (k0 : Keeps x a0) : Keeps x (State.hostNack a0 a1 a2) := by
  unfold State.hostNack
  extract_lets l0 l1 l2 l3
  clear_value l0 l1
  have h4 : Keeps x l2 := by
    unfold l2
    exact State.hostDone_keeps k0
  clear_value l2
  have h5 : Keeps x l3 := by
    unfold l3
    split
    · exact h4
    · exact Keeps.ite (State.hostLost_keeps h4) (Keeps.ite (State.hostAnswer_keeps (State.aerLog_keeps h4)) h4)
  clear_value l3
  exact State.hostDrain_keeps h5

theorem State.shadowNack_keeps {x : State} {a0} {a1} {a2} (k0 : Keeps x a0) : Keeps x (State.shadowNack a0 a1 a2)
    := by
  unfold State.shadowNack
  extract_lets l0 l1
  clear_value l0
  have h2 : Keeps x l1 := by
    unfold l1
    exact Keeps.upd k0 rfl rfl rfl rfl
  clear_value l1
  refine Keeps.ite ?_ ?_
  · exact State.storeDone_keeps (State.count_keeps h2)
  · split
    · exact Keeps.ite h2 (State.stopCmd_keeps h2)
    · exact h2

theorem State.onNack_keeps {x : State} {a0} {a1} (k0 : Keeps x a0) : Keeps x (State.onNack a0 a1) := by
  unfold State.onNack
  split
  · refine Keeps.ite ?_ ?_
    · exact State.dropFnode_keeps (State.fbarsEnd_keeps k0)
    · refine Keeps.ite ?_ ?_
      · exact k0
      · refine Keeps.ite ?_ ?_
        · exact State.hostNack_keeps k0
        · refine Keeps.ite ?_ ?_
          · exact State.shadowNack_keeps k0
          · split
            · exact Keeps.ite k0 (State.stopCmd_keeps k0)
            · exact k0
  · exact k0

theorem State.dispatch_keeps {x : State} {a0} {a1} (k0 : Keeps x a0) : Keeps x (State.dispatch a0 a1) := by
  unfold State.dispatch
  split
  · exact State.onReadReq_keeps k0
  · exact State.onReadRsp_keeps k0
  · exact State.onSampleReq_keeps k0
  · exact State.onSampleRsp_keeps k0
  · exact State.onScatter_keeps k0
  · exact State.onStore_keeps k0
  · exact State.settle_keeps (State.onWriteAck_keeps k0)
  · exact State.onRedUp_keeps k0
  · exact State.onRedDown_keeps k0
  · exact State.onBarArrive_keeps k0
  · exact State.onBarRelease_keeps k0
  · exact State.onBarRelease_keeps k0
  · exact State.onFsignal_keeps k0
  · exact State.onFsignalAck_keeps k0
  · exact State.boardRead_keeps k0
  · exact State.boardWrite_keeps k0
  · exact State.boardAnswer_keeps k0
  · exact State.raiseMsix_keeps k0
  · exact State.onPendingNotice_keeps k0
  · exact State.settle_keeps (State.onPendingNoticeAck_keeps k0)
  · exact State.onRefresh_keeps k0
  · exact State.onRefreshAck_keeps k0
  · exact State.onReplicaRequest_keeps k0
  · exact State.onReplicaGrant_keeps k0
  · exact k0
  · exact State.onDropOrder_keeps k0
  · exact State.onMigCopy_keeps k0
  · exact State.onMigCopyAck_keeps k0
  · exact State.onMigrationChange_keeps k0
  · exact State.onFlipNotice_keeps k0
  · exact State.onAliasRequest_keeps k0
  · exact State.onAliasReport_keeps k0
  · exact State.onEpochNotice_keeps k0
  · exact State.onShadowWrite_keeps k0
  · exact State.onShadowAck_keeps k0
  · exact State.onFwImage_keeps k0
  · exact State.onFwuOutcome_keeps k0
  · exact State.onFwuOutcome_keeps k0
  · exact State.onE2eAck_keeps k0
  · exact k0
  · exact State.onNack_keeps k0

theorem State.deliver_keeps {x : State} {a0} {a1} (k0 : Keeps x a0) : Keeps x (State.deliver a0 a1) := by
  unfold State.deliver
  split
  · extract_lets l4
    have h5 : Keeps x l4 := by
      unfold l4
      exact State.castleGot_keeps k0
    clear_value l4
    exact Keeps.ite h5 (State.dispatch_keeps h5)
  · exact Keeps.ite (State.nackPkt_keeps k0) (State.dispatch_keeps k0)

theorem State.receive_keeps {x : State} {a0} {a1} (k0 : Keeps x a0) : Keeps x (State.receive a0 a1) := by
  unfold State.receive
  refine Keeps.ite ?_ ?_
  · refine State.arrive_keeps ?_ ?_
    · exact k0
    · intro a0 a1 a2
      exact State.deliver_keeps a2
  · exact k0

theorem State.receiveAs_keeps {x : State} {a0} {a1} {a2} {a3} (k0 : Keeps x a0) : Keeps x (State.receiveAs a0 a1 a2
    a3) := by
  unfold State.receiveAs
  exact Keeps.ite (State.receive_keeps k0) (State.badPacket_keeps k0)

theorem State.relay_keeps {x : State} {a0} {a1} {a2} (k0 : Keeps x a0) : Keeps x (State.relay a0 a1 a2) := by
  unfold State.relay
  exact Keeps.ite k0 (Keeps.ite (State.receive_keeps k0) (State.passOn_keeps k0))

theorem execPacketForward_keeps {x : State} {a0} {a1} {a2} (k2 : Keeps x a2) : KeepsRes x (execPacketForward a0 a1
    a2) := by
  unfold execPacketForward
  refine KeepsRes.next ?_
  split
  · exact State.relay_keeps k2
  · refine Keeps.foldl (p := fun r => r) ?_ (fun b3 a4 h5 => ?_)
    · exact State.drainWaiting_keeps k2
    · exact State.pump_keeps h5

theorem execReadReq_keeps {x : State} {a0} {a1} (k1 : Keeps x a1) : KeepsRes x (execReadReq a0 a1) := by
  unfold execReadReq
  exact KeepsRes.next (State.receiveAs_keeps k1)

theorem execReadRsp_keeps {x : State} {a0} {a1} (k1 : Keeps x a1) : KeepsRes x (execReadRsp a0 a1) := by
  unfold execReadRsp
  exact KeepsRes.next (State.receiveAs_keeps k1)

theorem execReplicaRequest_keeps {x : State} {a0} {a1} (k1 : Keeps x a1) : KeepsRes x (execReplicaRequest a0 a1) := by
  unfold execReplicaRequest
  exact KeepsRes.next (State.receiveAs_keeps k1)

theorem execReplicaGrant_keeps {x : State} {a0} {a1} (k1 : Keeps x a1) : KeepsRes x (execReplicaGrant a0 a1) := by
  unfold execReplicaGrant
  exact KeepsRes.next (State.receiveAs_keeps k1)

theorem execSampleReq_keeps {x : State} {a0} {a1} (k1 : Keeps x a1) : KeepsRes x (execSampleReq a0 a1) := by
  unfold execSampleReq
  exact KeepsRes.next (State.receiveAs_keeps k1)

theorem execSampleRsp_keeps {x : State} {a0} {a1} (k1 : Keeps x a1) : KeepsRes x (execSampleRsp a0 a1) := by
  unfold execSampleRsp
  exact KeepsRes.next (State.receiveAs_keeps k1)

theorem execScatter_keeps {x : State} {a0} {a1} (k1 : Keeps x a1) : KeepsRes x (execScatter a0 a1) := by
  unfold execScatter
  exact KeepsRes.next (State.receiveAs_keeps k1)

theorem execPendingNotice_keeps {x : State} {a0} {a1} (k1 : Keeps x a1) : KeepsRes x (execPendingNotice a0 a1) := by
  unfold execPendingNotice
  exact KeepsRes.next (State.receiveAs_keeps k1)

theorem execRefresh_keeps {x : State} {a0} {a1} (k1 : Keeps x a1) : KeepsRes x (execRefresh a0 a1) := by
  unfold execRefresh
  exact KeepsRes.next (State.receiveAs_keeps k1)

theorem execWriteAck_keeps {x : State} {a0} {a1} (k1 : Keeps x a1) : KeepsRes x (execWriteAck a0 a1) := by
  unfold execWriteAck
  exact KeepsRes.next (State.receiveAs_keeps k1)

theorem execStore_keeps {x : State} {a0} {a1} (k1 : Keeps x a1) : KeepsRes x (execStore a0 a1) := by
  unfold execStore
  exact KeepsRes.next (State.receiveAs_keeps k1)

theorem execRedUp_keeps {x : State} {a0} {a1} (k1 : Keeps x a1) : KeepsRes x (execRedUp a0 a1) := by
  unfold execRedUp
  exact KeepsRes.next (State.receiveAs_keeps k1)

theorem execRedDown_keeps {x : State} {a0} {a1} (k1 : Keeps x a1) : KeepsRes x (execRedDown a0 a1) := by
  unfold execRedDown
  exact KeepsRes.next (State.receiveAs_keeps k1)

theorem execBarArrive_keeps {x : State} {a0} {a1} (k1 : Keeps x a1) : KeepsRes x (execBarArrive a0 a1) := by
  unfold execBarArrive
  exact KeepsRes.next (State.receiveAs_keeps k1)

theorem execBarRelease_keeps {x : State} {a0} {a1} (k1 : Keeps x a1) : KeepsRes x (execBarRelease a0 a1) := by
  unfold execBarRelease
  exact KeepsRes.next (State.receiveAs_keeps k1)

theorem execFsignal_keeps {x : State} {a0} {a1} (k1 : Keeps x a1) : KeepsRes x (execFsignal a0 a1) := by
  unfold execFsignal
  exact KeepsRes.next (State.receiveAs_keeps k1)

theorem execFsignalAck_keeps {x : State} {a0} {a1} (k1 : Keeps x a1) : KeepsRes x (execFsignalAck a0 a1) := by
  unfold execFsignalAck
  exact KeepsRes.next (State.receiveAs_keeps k1)

theorem execBoardRd_keeps {x : State} {a0} {a1} (k1 : Keeps x a1) : KeepsRes x (execBoardRd a0 a1) := by
  unfold execBoardRd
  exact KeepsRes.next (State.receiveAs_keeps k1)

theorem execBoardWr_keeps {x : State} {a0} {a1} (k1 : Keeps x a1) : KeepsRes x (execBoardWr a0 a1) := by
  unfold execBoardWr
  exact KeepsRes.next (State.receiveAs_keeps k1)

theorem execBoardRsp_keeps {x : State} {a0} {a1} (k1 : Keeps x a1) : KeepsRes x (execBoardRsp a0 a1) := by
  unfold execBoardRsp
  exact KeepsRes.next (State.receiveAs_keeps k1)

theorem execIntr_keeps {x : State} {a0} {a1} (k1 : Keeps x a1) : KeepsRes x (execIntr a0 a1) := by
  unfold execIntr
  exact KeepsRes.next (State.receiveAs_keeps k1)

theorem execMigrationChange_keeps {x : State} {a0} {a1} (k1 : Keeps x a1) : KeepsRes x (execMigrationChange a0 a1)
    := by
  unfold execMigrationChange
  exact KeepsRes.next (State.receiveAs_keeps k1)

theorem execFlipNotice_keeps {x : State} {a0} {a1} (k1 : Keeps x a1) : KeepsRes x (execFlipNotice a0 a1) := by
  unfold execFlipNotice
  exact KeepsRes.next (State.receiveAs_keeps k1)

theorem execEpochNotice_keeps {x : State} {a0} {a1} (k1 : Keeps x a1) : KeepsRes x (execEpochNotice a0 a1) := by
  unfold execEpochNotice
  exact KeepsRes.next (State.receiveAs_keeps k1)

theorem execFwImage_keeps {x : State} {a0} {a1} (k1 : Keeps x a1) : KeepsRes x (execFwImage a0 a1) := by
  unfold execFwImage
  exact KeepsRes.next (State.receiveAs_keeps k1)

theorem execFwuOutcome_keeps {x : State} {a0} {a1} (k1 : Keeps x a1) : KeepsRes x (execFwuOutcome a0 a1) := by
  unfold execFwuOutcome
  exact KeepsRes.next (State.receiveAs_keeps k1)

theorem execE2eAck_keeps {x : State} {a0} {a1} (k1 : Keeps x a1) : KeepsRes x (execE2eAck a0 a1) := by
  unfold execE2eAck
  exact KeepsRes.next (State.receiveAs_keeps k1)

theorem execNack_keeps {x : State} {a0} {a1} (k1 : Keeps x a1) : KeepsRes x (execNack a0 a1) := by
  unfold execNack
  exact KeepsRes.next (State.receiveAs_keeps k1)

theorem execShadowWrite_keeps {x : State} {a0} {a1} (k1 : Keeps x a1) : KeepsRes x (execShadowWrite a0 a1) := by
  unfold execShadowWrite
  exact KeepsRes.next (State.receiveAs_keeps k1)

theorem execPendingNoticeAck_keeps {x : State} {a0} {a1} (k1 : Keeps x a1) : KeepsRes x (execPendingNoticeAck a0
    a1) := by
  unfold execPendingNoticeAck
  exact KeepsRes.next (State.receiveAs_keeps k1)

theorem execRefreshAck_keeps {x : State} {a0} {a1} (k1 : Keeps x a1) : KeepsRes x (execRefreshAck a0 a1) := by
  unfold execRefreshAck
  exact KeepsRes.next (State.receiveAs_keeps k1)

theorem execMigrationCopyAck_keeps {x : State} {a0} {a1} (k1 : Keeps x a1) : KeepsRes x (execMigrationCopyAck a0
    a1) := by
  unfold execMigrationCopyAck
  exact KeepsRes.next (State.receiveAs_keeps k1)

theorem execReplicaDrop_keeps {x : State} {a0} {a1} (k1 : Keeps x a1) : KeepsRes x (execReplicaDrop a0 a1) := by
  unfold execReplicaDrop
  exact KeepsRes.next (State.receiveAs_keeps k1)

theorem execAliasBuildRequest_keeps {x : State} {a0} {a1} (k1 : Keeps x a1) : KeepsRes x (execAliasBuildRequest a0
    a1) := by
  unfold execAliasBuildRequest
  exact KeepsRes.next (State.receiveAs_keeps k1)

theorem execAliasBuildReport_keeps {x : State} {a0} {a1} (k1 : Keeps x a1) : KeepsRes x (execAliasBuildReport a0
    a1) := by
  unfold execAliasBuildReport
  exact KeepsRes.next (State.receiveAs_keeps k1)

theorem execShadowWriteAck_keeps {x : State} {a0} {a1} (k1 : Keeps x a1) : KeepsRes x (execShadowWriteAck a0 a1) := by
  unfold execShadowWriteAck
  exact KeepsRes.next (State.receiveAs_keeps k1)

end Sys2Proof.Machine
end

