-- ==== Sys2Proof/Laws/KeepsInterface.lean ====
section
/-! SUPPORT. What the operations of Machine/Interface.lean keep (`Keeps`, Laws/Keeps.lean). -/

namespace Sys2Proof.Machine

theorem State.i3cWrite_keeps {x : State} {a0} {a1} {a2} (k0 : Keeps x a0) : Keeps x (State.i3cWrite a0 a1 a2) := by
  unfold State.i3cWrite
  extract_lets l0 l1
  clear_value l1
  exact Keeps.ite (Keeps.upd k0 rfl rfl rfl rfl) (Keeps.ite (Keeps.ite k0 (State.setBoot_keeps k0)) (Keeps.ite
      (State.recordSubmit_keeps k0) k0))

theorem State.i3cTransfer_keeps {x : State} {a0} {a1} (k0 : Keeps x a0) : Keeps x (State.i3cTransfer a0 a1) := by
  unfold State.i3cTransfer
  refine Keeps.ite ?_ ?_
  · exact k0
  · refine Keeps.ite ?_ ?_
    · refine Keeps.foldl (p := fun r => r) ?_ (fun b0 a1 h2 => ?_)
      · exact k0
      · exact State.i3cWrite_keeps h2
    · exact State.emit_keeps k0

theorem State.boardIn_keeps {x : State} {a0} {a1} (k0 : Keeps x a0) : Keeps x (State.boardIn a0 a1) := by
  unfold State.boardIn
  extract_lets l0 l1 l2 l3
  clear_value l0
  have h4 : Keeps x l1 := by
    unfold l1
    exact Keeps.ite k0 (Keeps.ite (State.tryStart_keeps (State.setBoot_keeps k0)) (State.pwrGoodLow_keeps k0))
  clear_value l1 l2
  have h5 : Keeps x l3 := by
    unfold l3
    exact Keeps.ite (State.setBoot_keeps h4) h4
  clear_value l3
  refine Keeps.foldl (p := fun r => r) ?_ (fun b6 a7 h8 => ?_)
  · exact h5
  · exact State.i3cTransfer_keeps h8

end Sys2Proof.Machine
end

