-- ==== Sys2Proof/Laws/KeepsBeats.lean ====
section
/-! SUPPORT. What the operations of Machine/Beats.lean keep (`Keeps`, Laws/Keeps.lean). -/

namespace Sys2Proof.Machine

theorem State.fetchDesc_keeps {x : State} {a0} {a1} (k0 : Keeps x a0) : Keeps x (State.fetchDesc a0 a1) := by
  unfold State.fetchDesc
  extract_lets l0 l1 l2
  have h3 : Keeps x l0.st := by
    unfold l0
    exact State.memRead_keeps k0
  clear_value l0
  have h4 : Keeps x l1 := by
    unfold l1
    exact h3
  clear_value l1 l2
  exact Keeps.ite (Keeps.ite (State.setQst_keeps h4) (State.err_keeps (State.haltQueue_keeps h4))) k0

theorem execDescriptorFetch_keeps {x : State} {a0} {a1} (k1 : Keeps x a1) : KeepsRes x (execDescriptorFetch a0 a1)
    := by
  unfold execDescriptorFetch
  exact KeepsRes.next (State.fetchDesc_keeps k1)

theorem State.ageQueue_keeps {x : State} {a0} {a1} (k0 : Keeps x a0) : Keeps x (State.ageQueue a0 a1) := by
  unfold State.ageQueue
  extract_lets l0
  clear_value l0
  exact Keeps.ite (State.setQst_keeps k0) k0

theorem execPrioAging_keeps {x : State} {a0} {a1} (k1 : Keeps x a1) : KeepsRes x (execPrioAging a0 a1) := by
  unfold execPrioAging
  exact KeepsRes.next (State.ageQueue_keeps k1)

theorem State.completeCmd_keeps {x : State} {a0} {a1} (k0 : Keeps x a0) : Keeps x (State.completeCmd a0 a1) := by
  unfold State.completeCmd
  refine Keeps.ite ?_ ?_
  · exact k0
  · split
    · exact Keeps.ite k0 (Keeps.ite (State.releaseAll_keeps (State.complete_keeps k0)) (State.complete_keeps k0))
    · exact k0

theorem execCommandComplete_keeps {x : State} {a0} {a1} (k1 : Keeps x a1) : KeepsRes x (execCommandComplete a0 a1)
    := by
  unfold execCommandComplete
  exact KeepsRes.next (State.completeCmd_keeps k1)

theorem State.expireCmd_keeps {x : State} {a0} {a1} (k0 : Keeps x a0) : Keeps x (State.expireCmd a0 a1) := by
  unfold State.expireCmd
  split
  · exact k0
  · exact Keeps.ite k0 (State.completeCmd_keeps (State.stopCmd_keeps k0))

theorem State.expireHeads_keeps {x : State} {a0} {a1} {a2} (k0 : Keeps x a0) : Keeps x (State.expireHeads a0 a1 a2)
    := by
  induction a2 generalizing a0 a1
  · unfold State.expireHeads
    exact k0
  · rename_i v0 v1
    unfold State.expireHeads
    split
    · exact k0
    · refine Keeps.ite ?_ ?_
      · split
        · rename_i v8 v9 v10 v11
          have h12 : Keeps x ((v9, v10)).1 := by
            rw [← v11]
            exact State.takeHead_keeps k0
          extract_lets l13 l14
          clear_value l13
          have h15 : Keeps x l14 := by
            unfold l14
            exact State.addCmd_keeps (State.refusal_keeps h12)
          clear_value l14
          exact v1 (State.completeCmd_keeps h15)
      · exact k0

theorem State.expireQueue_keeps {x : State} {a0} {a1} (k0 : Keeps x a0) : Keeps x (State.expireQueue a0 a1) := by
  unfold State.expireQueue
  extract_lets l0 l1
  clear_value l0
  have h2 : Keeps x l1 := by
    unfold l1
    refine Keeps.foldl (p := fun r => r) ?_ (fun b3 a4 h5 => ?_)
    · exact k0
    · exact State.expireCmd_keeps h5
  clear_value l1
  exact State.expireHeads_keeps h2

theorem State.deadlineExpire_keeps {x : State} {a0} {a1} (k0 : Keeps x a0) : Keeps x (State.deadlineExpire a0 a1)
    := by
  unfold State.deadlineExpire
  exact Keeps.ite k0 (State.expireQueue_keeps k0)

theorem execDeadlineExpire_keeps {x : State} {a0} {a1} (k1 : Keeps x a1) : KeepsRes x (execDeadlineExpire a0 a1) := by
  unfold execDeadlineExpire
  exact KeepsRes.next (State.deadlineExpire_keeps k1)

theorem State.beatCommits_keeps {x : State} {a0} (k0 : Keeps x a0) : Keeps x (State.beatCommits a0) := by
  unfold State.beatCommits
  refine Keeps.foldl (p := fun r => r) ?_ (fun b0 a1 h2 => ?_)
  · exact k0
  · exact State.scheduled_keeps h2

theorem State.beatPlacement_keeps {x : State} {a0} (k0 : Keeps x a0) : Keeps x (State.beatPlacement a0) := by
  unfold State.beatPlacement
  extract_lets l0 l1
  have h2 : Keeps x l0 := by
    unfold l0
    exact State.handback_keeps (State.flipsDue_keeps k0)
  clear_value l0
  have h3 : Keeps x l1 := by
    unfold l1
    refine Keeps.foldl (p := fun r => r) ?_ (fun b4 a5 h6 => ?_)
    · exact h2
    · exact State.migTransfer_keeps h6
  clear_value l1
  refine Keeps.foldl (p := fun r => r) ?_ (fun b7 a8 h9 => ?_)
  · exact h3
  · exact State.plcBoundary_keeps h9

theorem State.beatDeadlines_keeps {x : State} {a0} (k0 : Keeps x a0) : Keeps x (State.beatDeadlines a0) := by
  unfold State.beatDeadlines
  extract_lets l0
  have h1 : Keeps x l0 := by
    unfold l0
    refine Keeps.foldl (p := fun r => r) ?_ (fun b2 a3 h4 => ?_)
    · exact k0
    · exact State.expireQueue_keeps h4
  clear_value l0
  refine Keeps.foldl (p := fun r => r) ?_ (fun b5 a6 h7 => ?_)
  · exact h1
  · exact State.redGrace_keeps (State.redDeadline_keeps h7)

theorem State.beatTimers_keeps {x : State} {a0} (k0 : Keeps x a0) : Keeps x (State.beatTimers a0) := by
  unfold State.beatTimers
  extract_lets l0 l1 l2 l3
  have h4 : Keeps x l0 := by
    unfold l0
    exact State.castleComplete_keeps (State.castleBind_keeps k0)
  clear_value l0
  have h5 : Keeps x l1 := by
    unfold l1
    refine Keeps.foldl (p := fun r => r) ?_ (fun b6 a7 h8 => ?_)
    · exact h4
    · exact State.retire_keeps (State.flipNoticeSend_keeps h8)
  clear_value l1
  have h9 : Keeps x l2 := by
    unfold l2
    refine Keeps.foldl (p := fun r => r) ?_ (fun b10 a11 h12 => ?_)
    · exact State.sketchDecay_keeps h5
    · exact State.wcbBeatFlush_keeps h12
  clear_value l2
  have h13 : Keeps x l3 := by
    unfold l3
    refine Keeps.foldl (p := fun r => r) ?_ (fun b14 a15 h16 => ?_)
    · exact h9
    · exact State.wakeComplete_keeps (State.wakeDue_keeps h16)
  clear_value l3
  exact State.ownTraffic_keeps (State.tempoHoldover_keeps (State.markSend_keeps (State.twinWaitEnd_keeps
      (State.heartbeatTimeout_keeps (State.heartbeatSend_keeps (State.twinFall_keeps h13))))))

theorem State.beatStep_keeps {x : State} {a0} {a1} (k0 : Keeps x a0) : Keeps x (State.beatStep a0 a1) := by
  unfold State.beatStep
  extract_lets l0 l1
  have h2 : Keeps x l0 := by
    unfold l0
    exact Keeps.upd k0 rfl rfl rfl rfl
  clear_value l0
  have h3 : Keeps x l1 := by
    unfold l1
    exact State.ungateReady_keeps (State.settle_keeps (State.beatTimers_keeps (State.powerBeat_keeps
        (State.beatDeadlines_keeps (State.beatPlacement_keeps (State.mboxDone_keeps (State.beatCommits_keeps h2)))))))
  clear_value l1
  exact Keeps.ite k0 (Keeps.ite (State.powerBeat_keeps h2) (State.hostDrain_keeps h3))

theorem execBeat_keeps {x : State} {a0} {a1} (k1 : Keeps x a1) : KeepsRes x (execBeat a0 a1) := by
  unfold execBeat
  exact KeepsRes.next (State.beatStep_keeps (State.boardIn_keeps k1))

end Sys2Proof.Machine
end

