-- ==== Sys2Proof/Tests/Slice0.lean ====
section
/-! SUPPORT. The model's own tests. The words of every descriptor and packet are written out from the tables of spec/;
every expected value is read from a rule, named beside it. Theorems named wit_ show that the hypotheses of a statement
are met by a state and operands. -/

open Sys2Proof Sys2Proof.Machine

namespace Sys2Proof.Tests

-- one theorem at a time: many kernel evaluations at once each hold a thread
set_option Elab.async false

/-! ## States and operands -/

/-- A descriptor: word 0 with JOB 5 in [27:16] and OPCODE in [7:0] (Table 10.1), every other header word zero, then the
body words given, the rest of them zero. -/
def mkD (op : Nat) (body : List Nat) : Desc :=
  (([5 * 2 ^ 16 + op, 0, 0, 0, 0, 0, 0, 0] ++ body ++ List.replicate (8 - body.length) 0).map (BitVec.ofNat 32))

/-- A module in READY: MGT_STATE [31:28] = 2 (Table 17.1). -/
def up : State := State.reset.setReg mgtPg MGT.MGT_STATE (2 * 2 ^ 28)

/-- Queue 0 of die 0 enabled with SIZE_LOG2 6 (Q_CONFIG, Table 10.9); job 5 bound to square 0, queue 0, local objects
0 to 2, fabric object 0 and reduction context 0 (Table 15.1), its members 0 and 1; object 0 ACTIVE with VALUE 1, 1 and 2
ACTIVE for TAKE with VALUE 0 and 2; an embedding table 3 of 16-element BF16 rows with two moments and an adjacency table
7 with weights, 8 rows each (Table 8.1); the directory present. -/
def base : State :=
  { ((up.setReg (qmgPg 0) QMG.Q_CONFIG (2 ^ 31 + 6 * 2 ^ 17)).setReg plcPg PLC.DIR_BASE1 1) with
    bnd := { bound := [(0, 5), (2 ^ 24, 5), (3 * 2 ^ 24, 5), (3 * 2 ^ 24 + 1, 5), (3 * 2 ^ 24 + 2, 5), (4 * 2 ^ 24, 5),
                       (5 * 2 ^ 24, 5)],
             jobs := [(5, { members := [0, 1], ver := 1 })] }
    arb := { objs := [(0, { value := 1, state := .active }), (1, { take := true, state := .active }),
                      (2, { value := 2, take := true, state := .active }), (6 * 4096, { state := .active })] }
    plc := { tables := [(5 * 4096 + 3, [3 * 2 ^ 20 + 4 * 2 ^ 16 + 2 * 2 ^ 14, 16, 0, 0, 8, 0, 0, 0]),
                        (5 * 4096 + 7, [7 * 2 ^ 20 + 2 ^ 19 + 2 * 2 ^ 12, 0, 0, 0, 8, 0, 0, 0])] } }

/-- A group mask of square 0 at 64 (R259), a layer record with GROUP_M 1 at 12,288 (Table 9.2), an open generation of
job 5 for step 4. -/
def filled : State :=
  { ((base.sqWrite 0 64 [1]).sqWrite 0 (12288 + 12) [1]) with twinSt := { own := [{ job := 5, step := 4, full := false }] } }

/-- The same with a descriptor read and at the head of queue 0. -/
def busy (d : Desc) : State := { filled with queues := [(0, { fetched := [d] })] }

/-- Whether a descriptor starts at the head of queue 0 with every check passed. -/
def starts (d : Desc) (check : Check) : Bool := (busy d).begins 0 d check

/-! ## Witnesses: the commands of a queue -/

/-- NOP and FENCE, without and with a dirty line. -/
theorem wit_nopFence :
    starts (mkD 0 []) bodyReserved = true ∧ (mkD 0 []).opcode = 0 ∧ (mkD 1 []).opcode ≠ 0 ∧
    starts (mkD 1 []) bodyReserved = true ∧ (busy (mkD 1 [])).mem.wcb = [] ∧
    ({ busy (mkD 1 []) with mem := { wcb := [{ line := 64, data := [], bad := [] }] } } : State).begins 0 (mkD 1 [])
      bodyReserved = true := by decide +kernel

/-- ARB_INIT of object 0; ARB_SIGNAL of a GE and of a TAKE object. -/
theorem wit_arbInitSignal :
    starts (mkD 8 [0, 7, 2, 2 ^ 30]) arbInitCheck = true ∧ starts (mkD 9 [0, 7]) arbSignalCheck = true ∧
    ((busy (mkD 9 [0, 7])).obj 0).take = false ∧ starts (mkD 9 [1, 7]) arbSignalCheck = true ∧
    ((busy (mkD 9 [1, 7])).obj 1).take = true := by decide +kernel

/-- ARB_WAIT_GE at and above the VALUE; ARB_TAKE of an object with a unit and of one without. -/
theorem wit_arbWaits :
    starts (mkD 0xA [0, 1]) arbWaitGeCheck = true ∧ ((busy (mkD 0xA [0, 1])).obj 0).value = 1 ∧
    starts (mkD 0xA [0, 2]) arbWaitGeCheck = true ∧
    starts (mkD 0xB [2]) arbTakeCheck = true ∧ ((busy (mkD 0xB [2])).obj 2).value = 2 ∧
    starts (mkD 0xB [1]) arbTakeCheck = true ∧ ((busy (mkD 0xB [1])).obj 1).value = 0 := by decide +kernel

/-- ARB_BARRIER, ARB_FBARRIER over the member list, ARB_FSIGNAL to member 1. -/
theorem wit_arbGroups :
    starts (mkD 0xC [0, 0, 64]) arbBarrierCheck = true ∧ starts (mkD 0xD [2 ^ 31, 0, 0, 2 ^ 31]) arbFbarrierCheck = true ∧
    starts (mkD 0xE [2 ^ 31, 3, 1]) arbFsignalCheck = true ∧
    ((busy (mkD 0xE [2 ^ 31, 3, 1])).job 5).members[1]? = some 1 := by decide +kernel

/-- An ARB_FBARRIER over the member list: its set in force, one of a pair lost with its twin, and its end already come. -/
theorem wit_arbFbarrier :
    let d := mkD 0xD [2 ^ 31, 0, 0, 2 ^ 31]
    let s := busy d
    let u : State := { s with fab := { lost := [(0, none), (1, none)] } }
    let v : State := { s with arb := { s.arb with stopped := [(5, 0, .linkLost)] } }
    (s.arb.stopped.find? fun x => x.1 == d.job && x.2.1 == d.f 0 11 0) = none ∧
    (s.setMembers d.job (s.job d.job).ver (fbarSet s d).1 (fbarSet s d).2).any s.pairGone = false ∧
    u.begins 0 d arbFbarrierCheck = true ∧
    (u.setMembers d.job (u.job d.job).ver (fbarSet u d).1 (fbarSet u d).2).any u.pairGone = true ∧
    v.begins 0 d arbFbarrierCheck = true ∧
    (v.arb.stopped.find? fun x => x.1 == d.job && x.2.1 == d.f 0 11 0) = some (5, 0, .linkLost) := by decide +kernel

/-- A check that reads no memory, of a command that starts. -/
theorem wit_startedCommand : (∀ u x, (bodyReserved.rest u x).1 = u) ∧ starts (mkD 0 []) bodyReserved = true :=
  ⟨fun _ _ => rfl, by decide +kernel⟩

/-- An arrival of object 0 that waits for a tracker, beside the instances given. -/
def trackers (l : List Barrier) : State :=
  { base with arb := { trackerWait := [(0, 1)], barriers := l }
              cmds := [{ id := 0, q := 0, msq := 0, desc := mkD 0xC [0, 0, 64] }] }
def inst (obj mask : Nat) : Barrier := { obj := obj, mask := mask, arrived := [], later := [] }
theorem wit_trackerGrant :
    ((trackers []).cmd? 0).any (fun c => c.arbKey == 0) = true ∧ (trackers []).arb.trackerWait.contains (0, 1) = true ∧
    (trackers []).arb.barriers.length < 256 ∧
    256 ≤ (trackers (List.replicate 256 (inst 9 1))).arb.barriers.length ∧
    ((trackers (List.replicate 256 (inst 9 1))).arb.barriers.find? fun b => b.obj == 0) = none ∧
    ((trackers [inst 0 1]).arb.barriers.find? fun b => b.obj == 0) = some (inst 0 1) ∧ (inst 0 1).mask = 1 ∧
    ((trackers [inst 0 3]).arb.barriers.find? fun b => b.obj == 0) = some (inst 0 3) ∧ (inst 0 3).mask ≠ 1 := by
  decide +kernel

/-- A barrier of squares 0 and 3 at which both have arrived. -/
theorem wit_barrierReleases :
    let b : Barrier := { obj := 0, mask := 9, arrived := [(0, 4), (3, 5)], later := [] }
    let s : State := { base with arb := { objs := [(0, { state := .active })], barriers := [b] } }
    (s.arb.barriers.find? fun b => b.obj == 0) = some b ∧
    (∀ n, n < 384 → b.mask.testBit n = true → ∃ a, a ∈ b.arrived ∧ a.1 = n) ∧ (s.obj 0).take = false := by decide +kernel

/-- MATMUL, normal and coarse; SCS_READOUT and SCS_CLEAR, no update of a slot named being queued. -/
theorem wit_matrix :
    starts (mkD 0x20 [2 ^ 22, 2 ^ 12, 2 ^ 22, 0, 16, 0, 0]) matmulCheck = true ∧
    starts (mkD 0x20 [2 ^ 22, 2 ^ 12 + 2 ^ 29, 2 ^ 22, 0, 16, 0, 0, 8192]) matmulCheck = true ∧
    mmCoarse (mkD 0x20 [2 ^ 22, 2 ^ 12 + 2 ^ 29, 2 ^ 22, 0, 16, 0, 0, 8192]) = true ∧
    starts (mkD 0x28 [16, 2 ^ 16 + 16, 4096]) readoutCheck = true ∧ starts (mkD 0x29 [3 * 2 ^ 16, 5]) clearCheck = true ∧
    (let s := busy (mkD 0x28 [16, 2 ^ 16 + 16, 4096])
     s.scsHeld { s.newCmd 0 (mkD 0x28 [16, 2 ^ 16 + 16, 4096]) with ctx := .scsRead [] } = false) := by decide +kernel

/-- A clear of five slots from 3, its last slot with an update queued and without. -/
def clearing : Cmd := { id := 1, q := 0, msq := 0, desc := mkD 0x29 [3 * 2 ^ 16, 5], ctx := .scsRead [] }
theorem wit_clearSlots :
    7 ∈ scsSlots clearing.desc ∧ clearing.got = [] ∧ base.slotQueued clearing.msq 7 = false ∧ base.scsHeld clearing = false ∧
    ({ base with scs := [(0, { queue := [{ slot := 7, add := {} }] })] } : State).slotQueued clearing.msq 7 = true := by
  decide +kernel

/-- The vector unit's commands and GMB_LAYER. -/
theorem wit_vector :
    starts (mkD 0x30 [0, 0, 4096, 0, 0, 2 ^ 16 + 16, 2 ^ 16 + 1]) streamCheck = true ∧
    starts (mkD 0x32 [6 * 2 ^ 25, 4 * 2 ^ 29, 4096, 0, 0, 2 ^ 16 + 16, 2 ^ 16 + 1]) streamCheck = true ∧
    starts (mkD 0x33 [6 * 2 ^ 25, 0, 4096, 0, 0, 2 ^ 16 + 16, 2 ^ 16 + 1]) streamCheck = true ∧
    starts (mkD 0x31 [0, 0, 4096, 0, 8192, 2 ^ 16 + 16, 2 ^ 16 + 1, 1]) aggCheck = true ∧
    starts (mkD 0x34 [7 * 2 ^ 22, 4096, 0, 0, 0, 8192, 16]) updateCheck = true ∧
    starts (mkD 0x35 [4 * 2 ^ 16]) ratioCheck = true ∧
    (let s := busy (mkD 0x35 [4 * 2 ^ 16])
     s.scsHeld { s.newCmd 0 (mkD 0x35 [4 * 2 ^ 16]) with ctx := .scsRead [] } = false) ∧
    starts (mkD 0x70 [0, 4096, 2 ^ 16 + 1, 16 * 2 ^ 12, 0, 8192, 0, 12288]) layerCheck = true := by decide +kernel

/-- DMA_FILL and DMA_COPY of 64 bytes within the module, with a destination in a module declared lost, and with a source
in the module of slot 1, 2^46 above this one's addresses (R22), declared lost. -/
theorem wit_dma :
    let f := mkD 0x11 [0, 0, 4096, 0, 64, 9]
    let c := mkD 0x10 [0, 0, 4096, 0, 64]
    starts f dmaCheck = true ∧ dmaIsFill f = true ∧ (busy f).isLost (busy f).modId = false ∧
    (busy f).boardMod (dmaDst f) = (busy f).modId ∧ dmaLen f = 64 ∧
    starts c dmaCheck = true ∧ dmaIsFill c = false ∧ (busy c).boardMod (dmaDst c) = (busy c).modId ∧
    (busy c).boardMod (dmaSrc c) = (busy c).modId ∧ dmaLen c = 64 ∧
    (let s : State := { busy f with fab := { lost := [(0, none)] } }
     s.begins 0 f dmaCheck = true ∧ s.isLost (s.boardMod (dmaDst f)) = true) ∧
    (let g := mkD 0x10 [0, 2 ^ 14, 4096, 0, 64]
     let s : State := { busy g with fab := { lost := [(1, none)] } }
     s.begins 0 g dmaCheck = true ∧ dmaIsFill g = false ∧ s.isLost (s.boardMod (dmaSrc g)) = true ∧
     s.boardMod (dmaDst g) = s.modId) := by decide +kernel

/-- RAMP and PWR_SLEEP, its WAKE_BEAT none and past. -/
theorem wit_power :
    starts (mkD 0x18 [100]) rampCheck = true ∧ starts (mkD 0x19 [2 ^ 31]) sleepCheck = true ∧
    (let s : State := { busy (mkD 0x19 [2 ^ 31, 50]) with beat := 50 }
     s.begins 0 (mkD 0x19 [2 ^ 31, 50]) sleepCheck = true) := by decide +kernel

/-- The Knight's and the Rook's commands. -/
theorem wit_knightRook :
    starts (mkD 0x40 [2 ^ 26 + 7 * 2 ^ 14 + 2 ^ 11, 2 ^ 12, 2 ^ 16, 0, 0, 4096, 8192, 16384]) sampleCheck = true ∧
    starts (mkD 0x41 [7 * 2 ^ 14, 0, 0, 8]) aliasCheck = true ∧
    starts (mkD 0x50 [3 * 2 ^ 16, 0, 4096, 2 ^ 16, 2 ^ 12]) rgCheck = true ∧
    starts (mkD 0x52 [3 * 2 ^ 16, 0, 4096, 2 ^ 16, 2 ^ 12]) rgCheck = true ∧
    starts (mkD 0x51 [2 ^ 31 + 3 * 2 ^ 14 + 6 * 2 ^ 10, 0, 2 ^ 12, 4096, 2 * 2 ^ 16]) scatterCheck = true ∧
    starts (mkD 0x53 []) reservedCheck = true ∧ starts (mkD 0x54 []) releaseCheck = true ∧
    starts (mkD 0x55 []) reservedCheck = true ∧
    starts (mkD 0x61 [3 * 2 ^ 20, 0, 4096, 0, 2 ^ 12]) loadCheck = true := by decide +kernel

/-- The placement commands. -/
theorem wit_tables :
    starts (mkD 0x60 [9 * 2 ^ 20 + 4 * 2 ^ 16 + 2 * 2 ^ 14, 16, 0, 0, 8]) tableCheck = true ∧
    starts (mkD 0x63 [4, 100]) stepCheck = true ∧ starts (mkD 0x62 [3 * 2 ^ 20]) dropCheck = true ∧
    starts (mkD 0x64 [4]) keepCheck = true ∧ starts (mkD 0x65 [4]) rollbackCheck = true := by decide +kernel

/-- The collective and the binding commands. -/
theorem wit_collBinding :
    starts (mkD 0x80 [0, 1, 0, 32, 0]) collCheck = true ∧ starts (mkD 0x81 [2 ^ 27, 1]) collCheck = true ∧
    starts (mkD 0x91 [2 ^ 31 + 3 * 2 ^ 18, 1]) shadowCheck = true ∧ starts (mkD 0x92 [4]) sealCheck = true ∧
    starts (mkD 0x90 [0]) resyncCheck = true := by decide +kernel

/-! ## Witnesses: queues, beats, commits, registers -/

/-- A descriptor available in queue 0, its ring in square memory, readable; and the same, poisoned. -/
def fetchable (base_ : Nat) : State := (base.setQreg 0 QMG.Q_TAIL 1).setQreg 0 QMG.Q_BASE base_
def poisoned : State := { fetchable 0x3E0000000000 with mem := { ecc := [(0x3E000000000, poisonSyn)] } }

theorem wit_queueService :
    (fetchable 0x3E0000000000).canFetch 0 = true ∧
    ((fetchable 0x3E0000000000).memRead ((fetchable 0x3E0000000000).fetchReq 0) ((fetchable 0x3E0000000000).descAddr 0)
      64).ue = [] ∧
    poisoned.canFetch 0 = true ∧ (poisoned.memRead (poisoned.fetchReq 0) (poisoned.descAddr 0) 64).ue ≠ [] ∧
    (busy (mkD 0 [])).qReady 0 = true := by decide +kernel

/-- A command whose effects are in place; the same in COOLANT_STOP. -/
def oneDone : State := { base with cmds := [{ id := 4, q := 0, msq := 0, desc := mkD 0 [], done := true }] }
def stopped (s : State) : State := s.setReg mgtPg MGT.MGT_STATE (5 * 2 ^ 28)

theorem wit_complete :
    oneDone.halted = false ∧ (oneDone.cmd? 4).any (·.done) = true ∧ (mkD 0x55 []).opcode = 0x55 ∧
    (oneDone.cmd? 4).all (fun c => !c.desc.cqEn && !c.desc.sigEn && decide (c.status.code < 0x10)) = true ∧
    (stopped oneDone).halted = true := by decide +kernel

/-- The board's levels and sensors of one beat, nothing having changed. -/
def aBeat : BeatIn :=
  { coolantOk := true, pwrGood := true, refclk := false, measuredW := 0, current10mA := 0, mV := 54000, traffic := 0, events := [], i3c := [] }
theorem wit_deadline_beat :
    base.halted = false ∧ base.commitDue = false ∧ (base.boardIn aBeat).mgtState = 2 ∧ (base.boardIn aBeat).halted = false ∧
    ((stopped base).boardIn aBeat).halted = true ∧ ((stopped base).boardIn aBeat).mgtState ≠ 0 ∧
    ((State.reset.setReg mgtPg MGT.MGT_STATE 0).boardIn aBeat).mgtState = 0 ∧
    aBeat.pwrGood = base.boot.pwrGood ∧ aBeat.refclk = false ∧ aBeat.i3c = [] := by decide +kernel

/-- A page of a compute die that commits, armed for a beat that has come; a castling before and after its bindings. -/
def armedS : State := { base with beat := 9, regs := { base.regs with armed := [{ page := wcbPg 0, beat := 9, secure := true }] } }
def castling (bound : Bool) : State := { base with beat := 9, bnd := { base.bnd with castle := some { beat := 7, entries := [], bound := bound } } }

theorem wit_commits :
    (armedS.armed (wcbPg 0)).any (fun a => decide (a.beat ≤ armedS.beat)) = true ∧
    base.canCommit (wcbPg 0) = true ∧ base.pageOpen (wcbPg 0) true true = true ∧ base.pageClosed (wcbPg 0) true = false ∧
    (1#32).toNat.testBit 0 = true ∧ (castling true).bnd.castle.any (fun c => c.bound && decide (c.beat + 2 ≤ 9)) = true ∧
    (castling false).bnd.castle.any (fun c => !c.bound && decide (c.beat + 1 ≤ 9)) = true ∧
    wcbPg 0 ≠ bndPg ∧ base.beat < (1#64).toNat ∧ base.allows (wcbPg 0) false true = true := by decide +kernel

/-- Whether a write of an offset reaches its register, the page and the row as `f` asks. -/
def reaches (s : State) (page off : Nat) (secure : Bool) (f : PageInfo → RegRow → Bool) : Bool :=
  match pageInfo s.variant page, pageRow s.variant page off with
  | some i, some r => s.pageOpen page true secure && !(s.rowClosed page r secure) && f i r
  | _, _ => false

theorem reaches_some {s : State} {page off : Nat} {secure : Bool} {f : PageInfo → RegRow → Bool}
    (h : reaches s page off secure f = true) : ∃ i r, s.Reaches page off secure i r ∧ f i r = true := by
  unfold reaches at h
  split at h
  · simp only [Bool.and_eq_true, Bool.not_eq_eq_eq_not, Bool.not_true] at h
    exact ⟨_, _, ⟨by assumption, by assumption, h.1.1, h.1.2⟩, h.2⟩
  · exact absurd h (by decide)

theorem wit_errStatus : ∃ i r, up.Reaches (wcbPg 0) HDR.ERR_STATUS true i r ∧ true = true :=
  reaches_some (f := fun _ _ => true) (by decide +kernel)

theorem wit_cntClear : ∃ i r, up.Reaches (wcbPg 0) 0x104 true i r ∧ decide (ctrlOff i.pt = some 0x104) = true :=
  reaches_some (f := fun i _ => decide (ctrlOff i.pt = some 0x104)) (by decide +kernel)

theorem wit_ueLog : ∃ i r, up.Reaches (hbmPg 0) HBM.HBM_CTRL true i r ∧ decide (i.pt = .hbm) = true :=
  reaches_some (f := fun i _ => decide (i.pt = .hbm)) (by decide +kernel)

/-- DMA_BYTES, a 64-bit counter (Table 12.8). -/
theorem wit_counterLatch :
    regPlace (pageAddr (wcbPg 0) WCB.DMA_BYTES) = some (wcbPg 0, WCB.DMA_BYTES) ∧
    regPlace (pageAddr (wcbPg 0) (WCB.DMA_BYTES + 4)) = some (wcbPg 0, WCB.DMA_BYTES + 4) ∧
    doorbellAt up.variant (wcbPg 0) WCB.DMA_BYTES = none ∧ doorbellAt up.variant (wcbPg 0) (WCB.DMA_BYTES + 4) = none ∧
    WCB.DMA_BYTES % 4 = 0 ∧ pageRow up.variant (wcbPg 0) WCB.DMA_BYTES = pageRow up.variant (wcbPg 0) (WCB.DMA_BYTES + 4) ∧
    up.pageOpen (wcbPg 0) false true = true ∧
    reaches up (wcbPg 0) WCB.DMA_BYTES true (fun i r => latches i r && decide (r.off = WCB.DMA_BYTES)) = true := by
  decide +kernel

/-- The doorbells of queue 0, enabled and full or not, and of queue 2, which is not enabled. -/
theorem wit_doorbell :
    qDie 0 < base.variant.computeDies ∧ base.pageOpen (qmgPg 0) true false = true ∧ base.qAvail 0 ≤ 2 ^ base.qLog2 0 ∧
    base.qEnabled 0 = true ∧ (64 + 2 ^ 32 - base.qTail 0 % 2 ^ 32) % 2 ^ 32 + base.qAvail 0 ≤ 2 ^ base.qLog2 0 ∧
    2 ^ base.qLog2 0 < (65 + 2 ^ 32 - base.qTail 0 % 2 ^ 32) % 2 ^ 32 + base.qAvail 0 ∧
    base.hostHolds = false ∧ ({ base with host := { posted := [(0, 1, 64)] } } : State).hostHolds = true ∧
    base.qEnabled 2 = false ∧ base.qAvail 2 ≤ 2 ^ base.qLog2 2 ∧ base.pageOpen (qmgPg 0) false false = true := by decide +kernel

/-- The ring registers of queue 0 of die 0, and of the ratio log of square 0. -/
theorem wit_rings :
    reaches base (qmgPg 0) QMG.Q_HEAD true (fun i _ => decide (i = ⟨.qmg, 0, 0⟩)) = true ∧
    base.reg (qmgPg 0) QMG.QSEL = 0 ∧ base.qEnabled 0 = true ∧ up.qEnabled 0 = false ∧
    (up.qTail 0 + 2 ^ 32 - (0#32).toNat) % 2 ^ 32 ≤ 2 ^ up.qLog2 0 ∧
    2 ^ up.qLog2 0 < (up.qTail 0 + 2 ^ 32 - (1#32).toNat) % 2 ^ 32 ∧
    reaches up (qmgPg 0) QMG.Q_HEAD true (fun i _ => decide (i = ⟨.qmg, 0, 0⟩)) = true ∧
    reaches base (qmgPg 0) QMG.Q_CMD true (fun i _ => decide (i = ⟨.qmg, 0, 0⟩)) = true ∧
    reaches base (qmgPg 0) QMG.CQ_TAIL true (fun i _ => decide (i = ⟨.qmg, 0, 0⟩)) = true ∧
    reaches base (vxuPg 0) VXU.RLOG_TAIL true (fun i _ => decide (i = ⟨.vxu, 0, 0⟩)) = true := by decide +kernel

theorem wit_selects :
    reaches up (qmgPg 5) QMG.QSEL true (fun i _ => decide (i = ⟨.qmg, 5, 0⟩)) = true ∧
    reaches up (qmgPg 5) QMG.CQSEL true (fun i _ => decide (i = ⟨.qmg, 5, 0⟩)) = true ∧
    reaches up plcPg PLC.JOB_SEL true (fun i _ => decide (i = ⟨.plc, 6, 0⟩)) = true ∧
    reaches up bndPg BND.JOB_SEL true (fun i _ => decide (i = ⟨.bnd, 6, 0⟩)) = true ∧
    reaches up (redPg 1) RED.CTX_SEL true (fun i _ => decide (i = ⟨.red, 7, 0⟩)) = true ∧
    reaches up farPg FAR.DEC_SEL true (fun i _ => decide (i = ⟨.far, 6, 0⟩)) = true := by decide +kernel

/-- An unmapped page; a write that the world forbids; a RO, a RW and a CM register without an effect of their own. -/
theorem wit_registerWrite :
    regPlace 0x3F0000003104 = some (3, 0x104) ∧ pageInfo up.variant 0x3FFF = none ∧
    regPlace (pageAddr 0x3FFF 0x104) = some (0x3FFF, 0x104) ∧
    up.rowClosed pwrPg { off := PWR.CAL_CMD, sw := true } false = true ∧ up.pageOpen pwrPg true false = true ∧
    (pageRow up.variant pwrPg PWR.CAL_CMD).all (·.sw) = true ∧
    reaches up (sqPg 0 + 1) 0x100 true (fun i r => decide (r.acc = .ro ∧ r.off = 0x100 ∧ r.wide = false) &&
      ((up.touchPage i).blockWrite i (sqPg 0 + 1) 0x100 7 true).isNone) = true := by decide +kernel

/-! ## Witnesses: loss, twin, firmware, start-up -/

/-- LOST_SUB names module 5, which is not lost; and module 7, the lost module itself. -/
theorem wit_loss :
    up.allows fabPg true true = true ∧
    (up.setReg fabPg FAB.LOST_SUB 5).reg fabPg FAB.LOST_SUB % 2 ^ 15 ≠ 7 % 2 ^ 15 ∧
    (up.setReg fabPg FAB.LOST_SUB 5).isLost ((up.setReg fabPg FAB.LOST_SUB 5).reg fabPg FAB.LOST_SUB % 2 ^ 15) = false ∧
    (up.setReg fabPg FAB.LOST_SUB 7).reg fabPg FAB.LOST_SUB % 2 ^ 15 = 7 % 2 ^ 15 := by decide +kernel

/-- Units at the ends of their ranges; RESYNC_CMD of a present unit, of an absent stack, and with a reserved bit. -/
theorem wit_units :
    11 < up.variant.stacks ∧ up.squarePresent 383 = true ∧ up.allows bndPg false true = true ∧
    resyncUnit ((383#32).toNat / 2 ^ 31) ((383#32).toNat % 512) = 383 ∧ (383#32).toNat / 512 % 2 ^ 22 = 0 ∧
    up.resyncBad 383 = false ∧ up.resyncBad (resyncUnit 1 12) = true ∧ (512#32).toNat / 512 % 2 ^ 22 ≠ 0 := by decide +kernel

/-- Heartbeats: none sent yet, and due again; PAIRED with three missed; a wait of stage 8 that has ended. -/
def twinS (x : TwinState) : State := { up with beat := 5000, twinSt := x }
theorem wit_heartbeat :
    (twinS {}).twinSt.sentHb = none ∧ 10 + (twinS {}).hbPeriod ≤ 5000 ∧
    (twinS { waitTo := some 9 }).twinSt.waitTo ≠ none ∧
    ((twinS {}).setTwin 2).twin = 2 ∧ ((twinS {}).setTwin 2).isLost ((twinS {}).setTwin 2).twinId = false ∧
    (twinS {}).ready = true ∧ (twinS {}).twin = 0 ∧ 0 < (twinS {}).hbPeriod ∧
    (twinS {}).hbMiss ≤ ((twinS {}).beat - (twinS {}).twinSt.lastHb) / (twinS {}).hbPeriod ∧
    0 < ((twinS {}).beat - (twinS {}).twinSt.lastHb) / (twinS {}).hbPeriod ∧
    5000 < 4999 + (twinS {}).hbPeriod ∧ ((twinS {}).setTwin 1).twin = 1 ∧ ((twinS {}).setTwin 1).twinSt.waitTo = none ∧
    ((twinS {}).setTwin 3).twin = 3 ∧ ((twinS {}).setTwin 4).twin = 4 ∧ ((twinS {}).setTwin 5).twin = 5 ∧
    (5000 - (twinS { lastHb := 4900 }).twinSt.lastHb) / (twinS {}).hbPeriod < (twinS {}).hbMiss ∧
    0 < (5000 - (twinS { lastHb := 4900 }).twinSt.lastHb) / (twinS {}).hbPeriod ∧
    (5000 - (twinS { lastHb := 4990 }).twinSt.lastHb) / (twinS {}).hbPeriod ≤ 0 ∧
    (State.reset.setReg mgtPg MGT.MGT_STATE 0).mgtState = 0 ∧ (twinS {}).mgtState ≠ 0 ∧
    (twinS { fell := true }).twinSt.fell = true ∧ (twinS { fell := true }).twin = 0 ∧
    (twinS { fell := true }).ready = true ∧ (twinS {}).twinSt.fell = false := by decide +kernel

/-- The twin lost with this module as its substitute; ASSUMED; REFILLING with its beat come; a fold. -/
def twinLost : State := { up with fab := { lost := [(1, some 0)] } }
def assumedS : State := up.setTwin 3
def refilling : State := { (up.setTwin 4).setReg bndPg BND.HANDBACK_BEAT 100 with beat := 100 }
theorem wit_twin :
    up.allows bndPg true true = true ∧ SMap.find twinLost.twinId twinLost.fab.lost = some (some twinLost.modId) ∧
    twinLost.carries = false ∧ assumedS.twin = 3 ∧ assumedS.carries = true ∧ up.twin ≠ 3 ∧
    refilling.twin = 4 ∧ refilling.reg bndPg BND.HANDBACK_BEAT = 100 ∧ refilling.beat = 100 ∧
    ({ gens := [{ job := 5, step := 1, full := true, isSealed := true }] } : TwinState).folding 5 = true := by decide +kernel

/-- Region 16 enabled, non-secure and shared, over the first 6 GiB (R289). -/
def openRegion : State :=
  ((up.setReg secPg SEC.REGION_ENTRY2 100000 16).setReg secPg SEC.REGION_ENTRY3 (7 * 2 ^ 29) 16).setReg fwuPg FWU.FWU_LEN 36864

theorem wit_fwuStart :
    openRegion.allows fwuPg false true = true ∧ openRegion.allows fwuPg true true = true ∧ openRegion.firmwareRuns = true ∧
    openRegion.fwuBusy = false ∧
    openRegion.reg fwuPg FWU.FWU_LEN = 36864 ∧
    (openRegion.setReg fwuPg FWU.REPORT_COUNT 0).inOpenRegion (openRegion.reg fwuPg FWU.FWU_SRC) 36864 = true ∧
    up.reg fwuPg FWU.FWU_LEN < 36864 ∧ (up.setFwuState 1).fwuBusy = true ∧ (up.setFwuState 1).fwuState = 1 ∧
    (up.setReg fwuPg FWU.FWU_LEN 67108865).reg fwuPg FWU.FWU_LEN = 67108865 ∧
    up.keep.ownerDigest = none ∧ { up.keep with ownerDigest := some [] }.ownerDigest ≠ none ∧
    { up.boot with running := some 0 }.running = some 0 := by decide +kernel

/-- Verification of an image that is no image; a write in progress. No image that verifies can be shown: what verifies
rests on the digest and the signature, which the manual names and does not define (Config). -/
theorem wit_fwuVerify :
    (up.setFwuState 2).fwuState = 2 ∧ imageStatus up.variant up.keep.svn [] ≠ 0 ∧ headerStatus up.variant up.keep.svn [] ≠ 0 ∧
    (up.setFwuState 3).fwuState = 3 ∧ (up.setFwuState 3).writeStopped = 0 ∧
    ((up.setFwuState 3).setFwu { (up.setFwuState 3).boot.fwu with stop := 4 }).writeStopped = 4 ∧
    (up.setFwuState 3).writeRefused = 0 ∧ up.mgtState ≠ 0 ∧ up.fwuState ≠ 3 := by
  decide +kernel

theorem wit_attestation :
    openRegion.allows secPg false true = true ∧ openRegion.boot.att = 0 ∧ openRegion.reg secPg SEC.ATT_ADDR % 64 = 0 ∧
    openRegion.inOpenRegion (openRegion.reg secPg SEC.ATT_ADDR) (attBytes 1) = true ∧
    (up.setReg secPg SEC.ATT_ADDR 63).reg secPg SEC.ATT_ADDR % 64 ≠ 0 ∧ { up.boot with att := 2 }.att ≠ 0 := by decide +kernel

/-- A certificate chain of at most 6 GiB lies in the region: its length is not given by the manual (Config). -/
theorem wit_attChain (h : attBytes 2 ≤ 6 * 2 ^ 30) :
    openRegion.inOpenRegion (openRegion.reg secPg SEC.ATT_ADDR) (attBytes 2) = true := by
  have h1 : openRegion.enabledRegions = [16] := by decide +kernel
  have h2 : openRegion.reg secPg SEC.ATT_ADDR = 0 := by decide +kernel
  have h3 : (openRegion.regionEntry 16).testBit 126 = true := by decide +kernel
  have h4 : bits (openRegion.regionEntry 16) 29 0 = 0 := by decide +kernel
  have h5 : bits (openRegion.regionEntry 16) 93 64 = 100000 := by decide +kernel
  simp only [State.inOpenRegion, h1, h2, List.any_cons, List.any_nil, regionCovers, h3, h4, h5, Bool.and_eq_true,
    Bool.or_false, decide_eq_true_eq]
  refine ⟨⟨trivial, ?_⟩, ?_⟩ <;> omega

/-- A mailbox request: WORLD_SET of page 0 of die 0's first square (Table 17.7). -/
theorem wit_mailbox :
    up.allows mgtPg false true = true ∧ up.firmwareRuns = true ∧
    (up.setReg mgtPg MGT.MBOX0 1).mbox 0 % 256 = 1 ∧ (up.setReg mgtPg MGT.MBOX0 2).mbox 0 % 256 = 2 ∧
    (up.setReg mgtPg MGT.MBOX0 3).mbox 0 % 256 = 3 ∧ (up.setReg mgtPg MGT.MBOX0 3).mbox 1 % 2 ^ 29 / 4096 = 0 ∧
    pageInfo up.variant 0 ≠ none ∧ up.boot.failed.contains 0 = false ∧ up.boot.mboxRun = false ∧
    { up.boot with mboxRun := true }.mboxRun = true := by decide +kernel

/-- The start-up's states: the reset state stands in stage 0, the others with STAGE in MGT_STATE [27:24] (Table 17.1). -/
def inStage (n : Nat) : State := { State.reset.setReg mgtPg MGT.MGT_STATE (2 ^ 28 + n * 2 ^ 24) with boot := { coolant := true } }
theorem wit_startUp :
    (∀ n, n < 9 → (inStage n).budgetRuns = true ∧ (inStage n).mgtStage = n ∧ 0 < stageBudget n) ∧
    (∀ p, p < 24 → ((inStage 5).port p).st ≠ .training) ∧
    ((inStage 7).setReg tmpPg TMP.TMP_STATE (2 * 2 ^ 28)).tempoSt = 2 ∧
    (inStage 3).mgtState = 1 ∧ up.boot.accepted = false ∧ up.mgtState ≠ 0 ∧ up.mgtState ≠ 1 := by decide +kernel

/-- RECOVERY, P0 carrying packets and P1 not. -/
def recovery : State :=
  { State.reset.setReg mgtPg MGT.MGT_STATE (4 * 2 ^ 28) with fab := { ports := [(0, { st := .active, width := 8 })] } }
theorem wit_recovery :
    recovery.mgtState = 4 ∧ (recovery.port 0).carries = true ∧ (recovery.port 1).carries = false ∧
    recovery.boot.holdupN = true ∧ recovery.boot.fwu.image.isEmpty = true ∧
    ({ image := [0] } : FwuSt).image.isEmpty = false := by decide +kernel

theorem wit_resets :
    up.allows mgtPg true true = true ∧ 5 < up.variant.computeDies ∧ up.variant.computeDies ≤ 6 ∧
    { up.boot with resetN := false }.resetN = false ∧
    ({ State.reset.setReg mgtPg MGT.MGT_STATE 0 with boot := {} } : State).mayStart = true ∧
    ({ State.reset.setReg mgtPg MGT.MGT_STATE 0 with boot := {} } : State).mgtState = 0 := by decide +kernel

theorem wit_jtag : diePresent up.variant 7 = true ∧ up.boot.switch_ = true ∧ up.mgtState ≠ 0 := by decide +kernel

/-! ## Witnesses: stops, hosts, links -/

/-- Ports 2 and 16 carry packets to modules 4 and 9, P5 trains, P7 retrains after eight lanes; cage 16 holds an accepted
module. -/
def linked : State :=
  { up with
    fab := { ports := [(2, { st := .active, width := 8, lanes := 255, partner := some (4, 2) }), (5, { st := .training }),
                       (7, { st := .retraining, before := 4 }),
                       (16, { st := .active, width := 8, lanes := 255, partner := some (9, 16) })] }
    boot := { up.boot with cages := [(16, true)] } }

/-- A module stopped at beat 60, 40 beats ago. -/
def coolStop : State := { (stopped up).setPwr { up.pwr with stopC := some 60 } with beat := 100 }
theorem wit_stops :
    up.mayStop = true ∧ (stopped up).mgtState = 5 ∧ coolStop.halted = true ∧ coolStop.pwr.stopC = some 60 ∧
    (up.setReg mgtPg MGT.MGT_STATE (6 * 2 ^ 28)).mgtState = 6 ∧
    (let s := State.reset.setReg mgtPg MGT.MGT_STATE (2 ^ 28 + 2 ^ 24 + 3 * 2 ^ 16)
     s.mgtState = 1 ∧ s.mgtStage = 1 ∧ bits (s.reg mgtPg MGT.MGT_STATE) 23 16 = 3 ∧ s.pwr.coolLow = none) ∧
    (up.setPwr { up.pwr with coolLow := some 3 }).pwr.coolLow = some 3 ∧ up.mgtState = 2 ∧
    { up.boot with coolant := false }.coolant = false := by decide +kernel

/-- Host port 0 an endpoint whose link is up, host port 1 a CXL root. -/
def hosted : State :=
  (((up.setReg (hxpPg 0) HXP.HXP_CONFIG (2 ^ 30)).setReg (hxpPg 1) HXP.HXP_CONFIG (2 ^ 31)).setHx 0 2 16 64).setHx 1 2 16 64
theorem wit_hosts :
    hosted.hxIs 0 1 = true ∧ hosted.hxState 0 = 2 ∧ hosted.hxIs 1 2 = true ∧ hosted.hxState 1 = 2 ∧
    hosted.endpointPort = some 0 ∧ hosted.host.waiting.contains 2047 = false ∧
    { hosted.host with waiting := [2047] }.waiting.contains 2047 = true ∧ hosted.fabricUp = true ∧
    hosted.host.held = [] ∧ hosted.hostWaits { port := some 0, bar := 2, off := 0, wr := false, data := [0] } = false ∧
    ({ hosted with host := { posted := [(0, 1, 64)] } } : State).hostWaits
      { port := some 0, bar := 2, off := 0, wr := false, data := [0] } = true ∧
    linked.hasCage 16 = true ∧ linked.hasCage 17 = true ∧ (linked.port 16).carries = true ∧
    (linked.port 17).carries = false := by decide +kernel

/-- Training: P5 of module 0 is wired to module 4 × 5's P5 in its rack (Table 13.6), so another partner is a miswiring. -/
def trained (partner : Nat) (lanes : Nat) : TrainResult := { lanes := lanes, partner := partner, pport := 5, delay := 9, ok := true }
def wired : Nat := ((linked.wiredPartner 5).map (·.1)).getD 0
theorem wit_training :
    portPresent linked.variant 5 = true ∧ (linked.port 5).st = .training ∧ linked.laneWidth 5 255 = 8 ∧
    linked.laneWidth 5 7 = 2 ∧ linked.cageOk 5 = true ∧ linked.partnerOk 5 wired 5 = true ∧
    linked.partnerOk 5 (wired + 1) 5 = false ∧ (linked.port 2).carries = true ∧ (linked.port 7).st = .retraining ∧
    min (linked.laneWidth 7 0) (linked.port 7).cap = 0 ∧ min (linked.laneWidth 7 255) (linked.port 7).cap = 8 ∧
    (linked.port 7).before ≤ min (linked.laneWidth 7 255) (linked.port 7).cap ∧
    min (linked.laneWidth 7 7) (linked.port 7).cap < (linked.port 7).before ∧ linked.laneWidth 7 7 ≠ 0 ∧
    ({ st := .miswired } : Port).st = .miswired := by decide +kernel

/-- A flit of 512 bytes with its CRC (R300, R301): TYPE in [103:100] and FSEQ in [127:116] of the link unit, no payload. -/
def flit (type seq : Nat) : List Byte :=
  let rest := leBytes 12 (type * 2 ^ 68 + seq * 2 ^ 84) ++ List.replicate 496 0#8
  leBytes 4 (crc32c rest) ++ rest
set_option maxRecDepth 20000 in
theorem wit_flits :
    portPresent linked.variant 2 = true ∧ (linked.port 2).carries = true ∧ flitGood (List.replicate 512 1#8) = false ∧
    flitGood (flit 5 0) = true ∧ flitType (flit 5 0) = 5 ∧ flitGood (flit 0 4095) = true ∧ flitType (flit 0 4095) = 0 ∧
    flitSeq (flit 0 4095) = 4095 ∧ (linked.port 2).rxNext = 0 ∧ flitSeq (flit 0 0) = 0 ∧ flitGood (flit 0 0) = true ∧
    flitGood (flit 4 0) = true ∧ flitType (flit 4 0) = 4 ∧
    0 + 1 < bits (linked.reg (plyPg 2) PLY.PLY_CONFIG) 15 8 ∧
    bits (linked.reg (plyPg 2) PLY.PLY_CONFIG) 15 8 ≤ ({ linked.port 2 with nakAck := 5, nakRun := 255 } : Port).nakRun + 1 := by
  decide +kernel

/-- A stream with deliveries to acknowledge and one with a copy whose time has come; a packet for module 4, at its first
hop and at its 63rd. -/
def aPkt (b : Body) (src seq : Nat) : Pkt := { hdr := { dstMod := 0, srcMod := src, vc := b.vc, seq := seq, job := 5 }, body := b }
def streams : State :=
  { linked with beat := 70000,
                fab := { linked.fab with rx := [(4 * 8, { next := 5, due := 5 })],
                                         tx := [(4 * 8, { next := 1, copies := [(0, { aPkt (.fsignal 1 0 1) 0 0 with
                                                   hdr := { dstMod := 4 } }, 3)] })] } }
theorem wit_streams :
    0 < (streams.rxStream 4 0).due ∧ (streams.txStream 4 0).tries + 1 ≠ streams.e2eTries ∧
    ((streams.txStream 4 0).copies.filter fun c => decide (c.2.2 + streams.e2eTimeout ≤ streams.beat)) ≠ [] ∧
    streams.fabricUp = true ∧ streams.portUp 2 = true ∧ 4 ≠ streams.modId ∧ streams.isLost 4 = false ∧
    streams.substitute 4 = some 4 := by decide +kernel

/-- A packet of every TYPE that reaches its unit. -/
def bodies : List Body :=
  let o : Org := ⟨4, 0, 0, 0⟩
  let k : RowKey := ⟨5, 3, 0⟩
  [.readReq o 1 [], .readRsp 1 [], .sampleReq o 1 { seed := 0, table := 7, mode := 0, hop := 1, fanout := 1, cutEn := false, thr := 0 } [],
   .sampleRsp 1 false [], .scatter o 1 0 [], .store o 1 0 [], .writeAck 1 0 0 0 0,
   .redUp { inst := 1, chunk := 0, ranks := 1, lifts := 0, copy := false, fmt := 0, norm := none, blocks := [] },
   .redDown { inst := 1, chunk := 0, kind := 0, fmt := 0, lifts := 0, norm := none, blocks := [] },
   .barArrive 0 0 2 1, .barRelease 0, .barEnd 0 0, .fsignal 1 0 1, .fsignalAck 1 0, .boardRd 0 0 16 false,
   .boardWr 0 0 [] [] false false, .boardRsp 0 0 [] [], .intr 3, .pendingNotice k, .pendingNoticeAck k, .refresh k 0 [] [],
   .refreshAck k 0, .replicaRequest k 4 true, .replicaGrant k 0 false [] [], .replicaRefuse k, .replicaDrop k, .migCopy k {} false,
   .migCopyAck k true, .migChange k 0 .transfer, .flipNotice k 4 9 4, .aliasRequest 1 0 7 0 8 0, .aliasReport 1 0 0 0 0,
   .part 0x02 1 16 0, .epochNotice 0 0, .shadowWrite 1 5 1 false .seal, .shadowAck 1 false, .fwImage 4 [], .fwuOutcome 0 0, .announce,
   .e2eAck 0 0, .nack 1 0 0]
def inFlight : State := { base with fab := linked.fab, cmds := [{ id := 1, q := 0, msq := 0, desc := mkD 0x50 [] },
                                                                 { id := 0, q := 0, msq := 0, desc := mkD 0x10 [] }] }
theorem wit_packets : (bodies.all fun b => inFlight.delivers (aPkt b 4 0)) = true := by decide +kernel

/-- A packet delivered before; a packet for a square of a die that is not there. -/
theorem wit_packetsRefused :
    streams.fabricUp = true ∧ streams.pktGood (aPkt (.readReq ⟨4, 0, 0, 0⟩ 1 []) 4 4) = true ∧ (Body.readReq ⟨4, 0, 0, 0⟩ 1 []).streamed = true ∧
    (Body.readReq ⟨4, 0, 0, 0⟩ 1 []).vc = 0 ∧ ((streams.rxStream 4 0).next % 2 ^ 24 + 2 ^ 24 - 4) % 2 ^ 24 ≤ 2 ^ 23 ∧
    streams.pktGood { hdr := { dstMod := 0, srcMod := 4, dstSq := 1, vc := (Body.readReq ⟨4, 0, 0, 0⟩ 1 []).vc }, body := .readReq ⟨4, 0, 0, 0⟩ 1 [] } = false := by
  decide +kernel

/-! ## Witnesses: tempo, timers, squares, power, placement, memory -/

/-- The tempo master at a beat of 64; a LOCKED follower without a mark for 1,024 beats. -/
def master : State := { linked.setReg tmpPg TMP.TMP_STATE (4 * 2 ^ 28) with beat := 128 }
def follower (st : Nat) : State := { linked.setReg tmpPg TMP.TMP_STATE (st * 2 ^ 28) with beat := 1024 }
def aMark (ok : Bool) : Mark := { beat := 1024, master := 4, hops := 0, txOffset := 0, crcOk := ok, offset := 3 }
theorem wit_tempo :
    master.tempoSt = 4 ∧ master.beat % 64 = 0 ∧ master.tempo.sent ≠ some 128 ∧ (follower 1).marksOn 2 = true ∧
    ((follower 4).count tmpPg TMP.MARKS_RX 1).tempoSt = 4 ∧ ((follower 1).count tmpPg TMP.MARKS_RX 1).tempoSt ≠ 4 ∧
    (let u := ((follower 1).count tmpPg TMP.MARKS_RX 1).forwardMark 2 (aMark true)
     let w : State := { u with tempo := { u.tempo with last := u.beat, ports := [(2, 4, 0, u.beat)] } }
     let v : State := { u with tempo := { u.tempo with last := u.beat, ports := [(2, 3, 0, u.beat), (2, 4, 0, u.beat)] } }
     (w.freshMarks.any fun x => x.2.1 != 4) = false ∧ bestMark w.freshMarks = some (2, 4, 0) ∧
     (v.freshMarks.any fun x => x.2.1 != 4) = true ∧ bestMark v.freshMarks = some (2, 3, 0)) ∧
    (follower 2).tempoSt = 2 ∧ (follower 2).tempo.last + 1024 ≤ (follower 2).beat := by decide +kernel

/-- An active reduction of job 5 past its DEADLINE whose chunk is incomplete, with a contribution sent and not answered. -/
def reducing : State :=
  { base with beat := 500,
              red := [(0, { st := .active, last := 1, members := [0, 1], count := 32, deadline := some 200,
                            ups := [(0, aPkt (.redUp { inst := 1, chunk := 0, ranks := 1, lifts := 0, copy := false, fmt := 3,
                                                       norm := none, blocks := [] }) 0 0, 100)] })] }
theorem wit_reductions :
    (reducing.ctx (ctxKey 0 0)).deadline = some 200 ∧ (reducing.ctx (ctxKey 0 0)).st = .active ∧
    200 + cfgGrace (reducing.ctx (ctxKey 0 0)).cfg ≤ reducing.beat ∧
    reducing.redIncomplete (reducing.ctx (ctxKey 0 0)) = true ∧
    ((reducing.ctx (ctxKey 0 0)).ups.find? fun u => u.1 == 0 && decide (u.2.2 + reducing.e2eTimeout ≤ reducing.beat)).isSome =
      true := by decide +kernel

/-- Running commands with a batch for module 1 that is not full. -/
def running (op : Nat) (x : CmdCtx) : State := { base with cmds := [{ id := 6, q := 0, msq := 0, desc := mkD op [], ctx := x }] }
def sampler : SampleCtx := { seed := 0, plog := 0, thr := 0, base := 0, off := 0, nodes := [], cuts := [],
                             open_ := [(1, [{ node := 0, dst := 3, cutoff := 0 }])] }
def gatherer : GatherCtx := { todo := [], open_ := [(1, [{ tag := 0, table := 3, node := 0, outs := [0] }])] }
def scatterer : ScatterCtx := { plog := 0, n := 1, open_ := [(512, [{ table := 3, node := 0, fmt := 4, codes := [1], scales := [] }])] }
def storer : StoreCtx := { todo := [], open_ := [(512, [{ table := 3, node := 0, plane := 0, part := 0, codes := [1], adj := [] }])] }
theorem wit_batches :
    ((running 0x40 (.sample sampler)).cmd? 6).any (fun c => c.ctx == .sample sampler) = true ∧
    (SMap.find 1 sampler.open_).isSome = true ∧
    ((running 0x50 (.gather gatherer)).cmd? 6).any (fun c => c.ctx == .gather gatherer) = true ∧
    (SMap.find 1 gatherer.open_).isSome = true ∧
    ((running 0x51 (.scatter scatterer)).cmd? 6).any (fun c => c.ctx == .scatter scatterer) = true ∧
    (scatterer.open_.filter fun b => b.1 / 512 == 1).length = 1 ∧
    ((running 0x52 (.store storer)).cmd? 6).any (fun c => c.ctx == .store storer) = true ∧
    (storer.open_.filter fun b => b.1 / 512 == 1).length = 1 ∧ (running 0x51 (.scatter scatterer)).batchRoom 6 scatterer.sent (512 % 512) = true ∧
    (running 0x51 (.scatter scatterer)).batchRoom 6 (List.replicate 64 { tok := 0, target := 1, left := 1, sq := 0 })
      (512 % 512) = false := by decide +kernel

/-- A square in each phase of sleep, and one with an update in its queue that needs no group. -/
def sleeping (x : Sleep) : State := { up with beat := 100, pwr := { up.pwr with sq := [(0, { sleep := x })] } }
def update (v : Int) : ScsUpd := { slot := 3, add := { v := v } }
def queued (v : Int) : State := { up with scs := [(0, { queue := [update v] })] }
theorem wit_squares :
    up.squarePresent 0 = true ∧ up.halted = false ∧ up.mayGate 0 = true ∧
    ((sleeping (.entering true true 9)).sqp 0).sleep = .entering true true 9 ∧ (sleeping (.entering true true 9)).squareIdle 0 = true ∧
    ((sleeping (.asleep true true 100)).sqp 0).sleep = .asleep true true 100 ∧ (sleeping (.asleep true true 100)).beat = 100 ∧
    ((sleeping (.waking true 84)).sqp 0).sleep = .waking true 84 ∧ ((sleeping (.waking false 36)).sqp 0).sleep = .waking false 36 ∧
    up.allows pwrPg false true = true ∧ 3 < up.slotLimit 0 ∧
    firstReady [] (scsBank 3) (fun u => (queued 1).updReady 0 u) ((queued 1).sheet 0).queue = some (update 1) ∧
    (queued 1).needsGroup 0 (update 1) = false ∧ (queued (2 ^ 200 + 1)).needsGroup 0 (update (2 ^ 200 + 1)) = true ∧
    firstReady [] (scsBank 3) (fun u => (queued (2 ^ 200 + 1)).updReady 0 u) ((queued (2 ^ 200 + 1)).sheet 0).queue =
      some (update (2 ^ 200 + 1)) ∧
    (queued (2 ^ 200 + 1)).waitingPromotion 0 (scsBank 3) = some (update (2 ^ 200 + 1)) ∧
    (queued (2 ^ 200 + 1)).freeGroup 0 (scsBank 3) = some 0 := by decide +kernel

/-- A row that waited for nothing more. -/
def waiting : State :=
  { base with bnd := { base.bnd with jobs := [(5, { members := [0] })] }, plc := { base.plc with waits := [{ key := ⟨5, 3, 0⟩, plane := 0, strict := true, who := .read ⟨4, 0, 0, 0⟩ 1 0 }] } }
theorem wit_rowWait :
    (waiting.plc.waits.filter fun w => w.key == ⟨5, 3, 0⟩).length = 1 ∧ (waiting.plc.waits.all waiting.waitOver) = true ∧
    (waiting.plc.waits.all waiting.waitHere) = true := by
  decide +kernel

/-- A period's end, and a beat between. -/
theorem wit_periods :
    ({ up with beat := 3000 } : State).beat % 1000 = 0 ∧ up.pwr.lastPeriod = none ∧
    ({ up with beat := 3001 } : State).beat % 1000 ≠ 0 := by decide +kernel

/-- Calibration, trims and sensors. -/
theorem wit_heat :
    up.allows pwrPg true true = true ∧ (up.setPwr { up.pwr with recal := some (1, 256) }).pwr.recal = some (1, 256) ∧
    up.squarePresent 65 = true ∧ (up.setReg pwrPg PWR.PWR_CONFIG (2 ^ 31)).ageing 1 = true ∧ up.trimOf 1 < 40 ∧
    40 ≤ (up.setPwr { up.pwr with trim := [(1, 40)] }).trimOf 1 ∧
    (up.setPwr { up.pwr with settling := [3] }).pwr.settling.contains 3 = true ∧ pageInfo up.variant (thmPg 0) ≠ none ∧
    (∀ x, x ∈ [400, 410, 900] → excluded (median2 [400, 410, 900]) x = true ∨ x < 920) := by decide +kernel

/-- Migrations of row 0 of table 3 in each of their phases, to module 1. -/
def rowK : RowKey := ⟨5, 3, 0⟩
def migrating (m : MigOut) : State :=
  { ((base.setReg plcPg PLC.PLC_CONFIG (16 * 2 ^ 16 + 64)).setReg fabPg FAB.E2E_SIZE 65536) with beat := 100, plc := { base.plc with out := [m], rows := [(rowK, {})] } }
def outBy (p : MigPhase) (aff : Bool) (flip : Option Nat) : MigOut := { key := rowK, dest := 1, phase := p, affinity := aff, flip := flip }
theorem wit_migrations :
    (migrating (outBy .chosen false none)).migOut rowK = some (outBy .chosen false none) ∧
    ((migrating (outBy .chosen false none)).row rowK).pend = false ∧ (migrating (outBy .chosen false none)).owns rowK = true ∧
    (migrating (outBy .forward true (some 116))).migOut rowK = some (outBy .forward true (some 116)) ∧
    (migrating (outBy .forward true (some 116))).flipLead = 16 ∧
    (outBy .forward true (some 116)).since + 16 ≤ 116 ∧ (migrating (outBy .forward true (some 116))).beat + 16 = 116 ∧
    (migrating (outBy .flip true (some 100))).migOut rowK = some (outBy .flip true (some 100)) ∧
    (((migrating (outBy .flip true (some 100))).sendChange rowK .transfer).migOut rowK).isSome = true ∧
    (migrating (outBy .sent true (some 30))).migOut rowK = some (outBy .sent true (some 30)) ∧
    max 30 0 + bits ((migrating (outBy .sent true (some 30))).reg plcPg PLC.PLC_CONFIG) 15 0 ≤ 100 ∧
    ({ base.setReg plcPg PLC.JOB_NEXT_BEAT 9 5 with beat := 9 } : State).boundaryDue 5 = true ∧
    ({ base with beat := 2 ^ 31 } : State).decayDue = true := by decide +kernel

/-- Dirty lines: one, one whole, a full buffer; a flush beat; a line queued for the scrubber; the patrol of a ready
stack. -/
def dirty (n : Nat) (full : Bool) : State :=
  { up with beat := 2 ^ 31, mem := { wcb := (List.range n).map fun i => { line := 0x4100 * i, data := List.replicate 64 (if full then some 1 else none), bad := [] } } }
def patrolling : State := { up.setReg (hbmPg 0) HBM.SCRUB_CONFIG (2 ^ 31) with mem := { stackSt := [(0, .ready)], scrubQ := [64] } }
theorem wit_memory :
    ((dirty 1 false).wcbFind 0).isSome = true ∧ ((dirty 1 false).wcbFind 0).all (fun e => e.data.all Option.isSome) = false ∧
    ((dirty 1 true).wcbFind 0).all (fun e => e.data.all Option.isSome) = true ∧
    (dirty 64 false).flushDue 0 = true ∧ 63 ≤ ((dirty 64 false).pcEntries 0).tail.length ∧ patrolling.mem.scrubQ.contains 64 = true ∧ 0 < up.variant.stacks ∧
    SMap.get 0 0 patrolling.mem.patrol = 0 ∧ 0 + 1 < stackLines ∧
    bit (patrolling.reg (hbmPg 0) HBM.SCRUB_CONFIG) 31 = true ∧ patrolling.stackState 0 = .ready := by decide +kernel

/-! ## Well-formedness: an ill-formed term for each check -/

/-- A packet of module 0 with the given body. -/
def mkP (b : Body) : Pkt := { hdr := {}, body := b }

theorem test_wf_accepts : (Instr.nop 0 (mkD 0 [])).wf = true ∧ (Instr.fence 196607 (mkD 1 [])).wf = true ∧
    (Instr.registerWrite (2 ^ 48 - 1) 0 8 true).wf = true ∧ (Instr.readReq (mkP (.readReq ⟨0, 0, 0, 0⟩ 1 []))).wf = true ∧
    (Instr.plcBoundary 4095).wf = true ∧ (Instr.scrubRewrite 64).wf = true := by decide +kernel
theorem test_wf_descriptor_length : (Instr.nop 0 [0, 0]).wf = false := by decide +kernel
theorem test_wf_queue : (Instr.nop 196608 (mkD 0 [])).wf = false := by decide +kernel
theorem test_wf_opcode : (Instr.fence 0 (mkD 0x20 [])).wf = false := by decide +kernel
theorem test_wf_page : (Instr.discard 131072 true).wf = false := by decide +kernel
theorem test_wf_module : (Instr.lostDeclare 32768 true).wf = false := by decide +kernel
theorem test_wf_port : (Instr.refclkLoss 24).wf = false := by decide +kernel
theorem test_wf_host_port : (Instr.hostLinkDown 2).wf = false := by decide +kernel
theorem test_wf_compute_die : (Instr.qHeadWrite 6 0 true).wf = false := by decide +kernel
theorem test_wf_die : (Instr.highz 8).wf = false := by decide +kernel
theorem test_wf_square : (Instr.rlogTailWrite 384 0 true).wf = false := by decide +kernel
theorem test_wf_stack : (Instr.stackContentsLost 12).wf = false := by decide +kernel
theorem test_wf_line : (Instr.scrubRewrite 65).wf = false ∧ (Instr.scrubRewrite (12 * 0xC00000000)).wf = false := by
  decide +kernel
theorem test_wf_flit : (Instr.dataFlitRx 0 (List.replicate 513 0)).wf = false := by decide +kernel
theorem test_wf_header : (Instr.fsignal { hdr := { dstSq := 64 }, body := .fsignal 0 0 0 }).wf = false ∧
    (Instr.fsignal { hdr := { seq := 2 ^ 24 }, body := .fsignal 0 0 0 }).wf = false := by decide +kernel
theorem test_wf_packet_type : (Instr.readReq (mkP .announce)).wf = false := by decide +kernel
theorem test_wf_row : (Instr.retire ⟨4096, 0, 0⟩).wf = false ∧ (Instr.retire ⟨0, 0, 2 ^ 40⟩).wf = false := by
  decide +kernel
theorem test_wf_width : (Instr.registerWrite 0 0 2 true).wf = false := by decide +kernel
theorem test_wf_address : (Instr.registerWrite (2 ^ 48) 0 4 true).wf = false ∧
    (Instr.scsWindowWrite (2 ^ 46)).wf = false := by decide +kernel
theorem test_wf_counter_offset : (Instr.counterLatchRead 0 2 true).wf = false := by decide +kernel
theorem test_wf_reduction_die : (Instr.ctxSelWrite 2 0 true).wf = false := by decide +kernel
theorem test_wf_reduction_context : (Instr.redResend 0 4096 0).wf = false := by decide +kernel
theorem test_wf_square_in_die : (Instr.sleepWake 64 0 true).wf = false := by decide +kernel
theorem test_wf_lane : (Instr.laneFault 0 8).wf = false ∧ (Instr.retrainDone 0 ⟨256, 0⟩).wf = false := by decide +kernel
theorem test_wf_ack : (Instr.nakRx 0 4096).wf = false := by decide +kernel
theorem test_wf_aperture : (Instr.hostApertureAccess 2 ⟨2, 0⟩ true []).wf = false := by decide +kernel
theorem test_wf_channel : (Instr.e2eResend 0 8).wf = false := by decide +kernel
theorem test_wf_slot : (Instr.scsAddend 0 65536 0 0 0).wf = false ∧ (Instr.scsAddend 0 0 8 0 0).wf = false := by
  decide +kernel
theorem test_wf_bank : (Instr.scsQueueAbsorb 0 16).wf = false := by decide +kernel
theorem test_wf_pseudo_channel : (Instr.wcbEvict 768 0).wf = false := by decide +kernel
theorem test_wf_job : (Instr.plcBoundary 4096).wf = false := by decide +kernel
theorem test_wf_vector : (Instr.msixVectorUnmask 2048).wf = false := by decide +kernel
theorem test_wf_management_address : (Instr.entdaa 128).wf = false := by decide +kernel

/-! ## The module's outside -/

/-- Pair 93 of a mezzanine stands in row 12, with ground in column 16 and the pair in columns 17 and 18 (R451). -/
theorem test_pair_place : pairPlace 93 = (12, 16, 17, 18) := by decide +kernel

/-- BCR 0x06, DCR 0x00 and a read past the last index of Table 19.8 is zero (R460). -/
theorem test_i3c_target : i3cBcr = 6 ∧ i3cDcr = 0 ∧ up.i3cRead 0x68 = 0 := by decide +kernel

/-! ## Reset and the table's words -/

theorem test_reset_queue_empty : State.reset.pending = [] := rfl

theorem test_no_table_word : decodeTableWord 512 1 = none := rfl

end Sys2Proof.Tests
end

section
/-! PROOFS. Register writes (R9, R10, R434, R435): how a write comes to the register at its offset, and what each access
code does with it. -/

namespace Sys2Proof.Machine

/-! ## What the steps of a register write leave alone -/

section
variable (s : State)

@[simp] theorem State.touchPage_regs (i : PageInfo) : (s.touchPage i).regs = s.regs := by
  unfold State.touchPage; split <;> rfl
@[simp] theorem State.touchPage_mem (i : PageInfo) : (s.touchPage i).mem = s.mem := by
  unfold State.touchPage; split <;> rfl
@[simp] theorem State.touchPage_queues (i : PageInfo) : (s.touchPage i).queues = s.queues := by
  unfold State.touchPage; split <;> rfl
@[simp] theorem State.touchPage_cmds (i : PageInfo) : (s.touchPage i).cmds = s.cmds := by
  unfold State.touchPage; split <;> rfl
@[simp] theorem State.touchPage_reg (i : PageInfo) (p o w : Nat) : (s.touchPage i).reg p o w = s.reg p o w := by
  unfold State.touchPage; split <;> rfl
@[simp] theorem State.touchPage_winOf (i : PageInfo) (p : Nat) (r : RegRow) :
    (s.touchPage i).winOf p r = s.winOf p r := by
  unfold State.winOf; rw [State.touchPage_reg]

@[simp] theorem State.setReg_shadows (p o v w : Nat) : (s.setReg p o v w).regs.shadow = s.regs.shadow := rfl
@[simp] theorem State.setShadow_live (p o v w : Nat) : (s.setShadow p o v w).regs.live = s.regs.live := rfl

/-- A shadow written reads as written. -/
theorem State.shadow_setShadow_same (p o v w : Nat) (h : v < 2 ^ 64) : (s.setShadow p o v w).shadow p o w = v := by
  unfold State.shadow State.setShadow
  simp only [SMap.find_put_same, BitVec.toNat_ofNat, Nat.mod_eq_of_lt h]

/-- A register whose reset value fits 64 bits always does. -/
theorem State.reg_lt {p o : Nat} (w : Nat) (h : regReset s.variant p o < 2 ^ 64) : s.reg p o w < 2 ^ 64 := by
  unfold State.reg
  split
  · exact BitVec.isLt _
  · exact h

end

/-! ## The way of a write to its register -/

section
variable {s : State} {page off v src : Nat} {secure : Bool} {i : PageInfo} {r : RegRow}

/-- Only COMMIT and the words of COMMIT_BEAT apply the world's rule themselves. -/
theorem State.commitWrite_eq_none (h1 : off ≠ HDR.COMMIT) (h2 : off ≠ HDR.COMMIT_BEAT) (h3 : off ≠ HDR.COMMIT_BEAT + 4) :
    s.commitWrite page off v secure src = none := by
  unfold State.commitWrite
  rw [if_neg h1, if_neg h2, if_neg h3]

theorem State.commitWrite_block (ho : 0x100 ≤ off) : s.commitWrite page off v secure src = none := by
  have h : HDR.COMMIT < 0x100 ∧ HDR.COMMIT_BEAT < 0x100 ∧ HDR.COMMIT_BEAT + 4 < 0x100 := by decide
  exact State.commitWrite_eq_none (by omega) (by omega) (by omega)

/-- A write of an unmapped page is dropped. -/
theorem State.writeAt_unmapped (h : pageInfo s.variant page = none) : s.writeAt page off v secure src = s := by
  unfold State.writeAt
  rw [h]

/-- A write that the world forbids is dropped and logged. -/
theorem State.writeAt_closed (hi : pageInfo s.variant page = some i) (hr : pageRow s.variant page off = some r)
    (hp : s.pageOpen page true secure = true) (hn : s.commitWrite page off v secure src = none)
    (hc : s.rowClosed page r secure = true) :
    s.writeAt page off v secure src = s.violation true src (pageAddr page off) := by
  unfold State.writeAt
  simp only [hi, hr, hp, hn, hc, Bool.not_true, Bool.false_eq_true, if_false, if_true]

/-- A write that reaches its register is stored. -/
theorem State.writeAt_reaches (h : s.Reaches page off secure i r) (hn : s.commitWrite page off v secure src = none) :
    s.writeAt page off v secure src =
      s.storeReg i page off v r (fun old => if r.wide then halfOf old v (off != r.off) else v % 2 ^ 32) secure := by
  obtain ⟨hi, hr, hp, hc⟩ := h
  unfold State.writeAt
  simp only [hi, hr, hp, hn, hc, Bool.not_true, Bool.false_eq_true, if_false]

/-- A 32-bit register takes all 32 bits written. -/
theorem State.writeAt_reaches_word (h : s.Reaches page off secure i r)
    (hn : s.commitWrite page off v secure src = none) (hw : r.wide = false) :
    s.writeAt page off v secure src = s.storeReg i page off v r (fun _ => v % 2 ^ 32) secure := by
  simp only [State.writeAt_reaches h hn, hw, Bool.false_eq_true, if_false]

/-- An aligned 32-bit write of the register space, not at a doorbell, is a write of the page at its address. -/
theorem State.regWrite_word {addr : Nat} (ha : regPlace addr = some (page, off))
    (hd : doorbellAt s.variant page off = none) (h4 : addr % 4 = 0) :
    s.regWrite addr v 4 secure src = s.writeAt page off (v % 2 ^ 32) secure src := by
  unfold State.regWrite
  simp only [ha, hd, h4, ne_eq, not_true_eq_false, if_false, if_true]

/-- A block register without an effect of its own is stored by its access code. -/
theorem State.storeReg_block {f : Nat → Nat} (ho : 0x100 ≤ off)
    (hb : (s.touchPage i).blockWrite i page off v secure = none) :
    s.storeReg i page off v r f secure = (s.touchPage i).plainStore page r f := by
  unfold State.storeReg
  simp only [if_neg (Nat.not_lt.mpr ho), hb, Option.getD_none]

/-- A write of ERR_STATUS that reaches it clears flags (R440). -/
theorem State.writeAt_errStatus (h : s.Reaches page HDR.ERR_STATUS secure i r) :
    s.writeAt page HDR.ERR_STATUS v secure src = (s.touchPage i).errClear page v := by
  rw [State.writeAt_reaches h (State.commitWrite_eq_none (by decide) (by decide) (by decide))]
  rfl

end

/-! ## Stores by access code (R9, R10) -/

section
variable (s : State) {page : Nat} {r : RegRow} (f : Nat → Nat)

theorem State.plainStore_rw (h : r.acc = .rw) :
    s.plainStore page r f =
      s.setReg page r.off (f (s.reg page r.off (s.winOf page r)) &&& r.mask) (s.winOf page r) := by
  unfold State.plainStore; rw [h]

theorem State.plainStore_cm (h : r.acc = .cm) :
    s.plainStore page r f =
      s.setShadow page r.off (f (s.shadow page r.off (s.winOf page r))) (s.winOf page r) := by
  unfold State.plainStore; rw [h]

theorem State.plainStore_ro (h : r.acc = .ro) : s.plainStore page r f = s := by
  unfold State.plainStore; rw [h]

@[simp] theorem State.plainStore_mem : (s.plainStore page r f).mem = s.mem := by
  unfold State.plainStore; split <;> rfl
@[simp] theorem State.plainStore_cmds : (s.plainStore page r f).cmds = s.cmds := by
  unfold State.plainStore; split <;> rfl

end

/-! ## ERR_STATUS and ERR_FIRST (R440) -/

/-- Taking the bits of b away from a leaves the bits of a that b lacks. -/
theorem testBit_sub_and (a b n : Nat) : (a - (a &&& b)).testBit n = (a.testBit n && !b.testBit n) := by
  have hle : a &&& b ≤ a := Nat.and_le_left
  have hdiv : (a &&& b) / 2 = a / 2 &&& b / 2 := Nat.and_div_two
  have hmod : (a &&& b) % 2 = 1 ↔ a % 2 = 1 ∧ b % 2 = 1 := Nat.and_mod_two_eq_one
  induction n generalizing a b with
  | zero =>
    rw [Bool.eq_iff_iff]
    simp only [Nat.testBit_zero, Bool.and_eq_true, Bool.not_eq_true', decide_eq_true_eq, decide_eq_false_iff_not]
    omega
  | succ n ih =>
    have hhalf : (a - (a &&& b)) / 2 = a / 2 - (a / 2 &&& b / 2) := by omega
    rw [Nat.testBit_succ, Nat.testBit_succ, Nat.testBit_succ, hhalf]
    exact ih _ _ Nat.and_le_left Nat.and_div_two Nat.and_mod_two_eq_one

/-- Every page has its ERR_STATUS in the header (Table 18.1). -/
theorem pageRow_errStatus {v : Variant} {page : Nat} {i : PageInfo} (h : pageInfo v page = some i) :
    pageRow v page HDR.ERR_STATUS =
      some { off := HDR.ERR_STATUS, acc := .w1c, mask := 2 ^ i.pt.errBits i.inst - 1 } := by
  unfold pageRow
  rw [h]
  rfl

/-- ERR_STATUS is zero after reset. -/
theorem regReset_errStatus (v : Variant) (page : Nat) : regReset v page HDR.ERR_STATUS = 0 := by
  unfold regReset
  cases h : pageInfo v page with
  | none => simp only [pageRow, h]
  | some i =>
    rw [pageRow_errStatus h]
    exact if_neg fun hp => absurd hp.2 (by decide)

/-- What setting the registers of the page leaves alone, a clearing of its flags leaves alone. -/
theorem State.errClear_leaves {α : Type} (g : State → α) (s : State) (page v : Nat)
    (h : ∀ (t : State) o x, o = HDR.ERR_STATUS ∨ o = HDR.ERR_FIRST → g (t.setReg page o x) = g t) :
    g (s.errClear page v) = g s := by
  unfold State.errClear
  extract_lets old new t
  have ht : g t = g s := h _ _ _ (.inl rfl)
  split
  · exact (h _ _ _ (.inr rfl)).trans ht
  · exact ht

section
variable (s : State) (page v : Nat)

@[simp] theorem State.errClear_mem : (s.errClear page v).mem = s.mem :=
  State.errClear_leaves State.mem s page v fun _ _ _ _ => rfl
@[simp] theorem State.errClear_queues : (s.errClear page v).queues = s.queues :=
  State.errClear_leaves State.queues s page v fun _ _ _ _ => rfl
@[simp] theorem State.errClear_cmds : (s.errClear page v).cmds = s.cmds :=
  State.errClear_leaves State.cmds s page v fun _ _ _ _ => rfl

/-- Clearing flags leaves every register but the page's ERR_STATUS and ERR_FIRST alone. -/
theorem State.reg_errClear_other {p o w : Nat} (ho : o < 4096) (hw : w < 2 ^ 20)
    (h : p ≠ page ∨ (o ≠ HDR.ERR_STATUS ∧ o ≠ HDR.ERR_FIRST)) : (s.errClear page v).reg p o w = s.reg p o w := by
  refine State.errClear_leaves (fun t => t.reg p o w) s page v fun t o' x ho' => t.reg_setReg_other x fun hk => ?_
  have hlt : o' < 4096 := by rcases ho' with rfl | rfl <;> decide
  obtain ⟨hpage, -, hoff⟩ := regKey_inj ho hlt hw (by decide) hk
  rcases h with hp | ⟨h1, h2⟩
  · exact hp hpage
  · exact ho'.elim (fun e => h1 (hoff.trans e)) (fun e => h2 (hoff.trans e))

/-- ERR_STATUS keeps the flags that are not written 1. -/
theorem State.reg_errClear_status : (s.errClear page v).reg page HDR.ERR_STATUS =
    s.reg page HDR.ERR_STATUS - (s.reg page HDR.ERR_STATUS &&& v) := by
  have hlt : s.reg page HDR.ERR_STATUS - (s.reg page HDR.ERR_STATUS &&& v) < 2 ^ 64 :=
    Nat.lt_of_le_of_lt (Nat.sub_le _ _) (s.reg_lt 0 (by rw [regReset_errStatus]; decide))
  unfold State.errClear
  extract_lets old new t
  have ht : t.reg page HDR.ERR_STATUS = new := s.reg_setReg_same _ _ _ _ hlt
  split
  · rw [t.reg_setReg_other _ (regKey_ne_off (by decide) (by decide) (by decide)), ht]
  · exact ht

/-- ERR_FIRST loses VALID where no flag is left. -/
theorem State.reg_errClear_first : (s.errClear page v).reg page HDR.ERR_FIRST =
    if (s.errClear page v).reg page HDR.ERR_STATUS = 0 then s.reg page HDR.ERR_FIRST % 2 ^ 31
    else s.reg page HDR.ERR_FIRST := by
  rw [State.reg_errClear_status]
  unfold State.errClear
  extract_lets old new t
  have ht : t.reg page HDR.ERR_FIRST = s.reg page HDR.ERR_FIRST :=
    s.reg_setReg_other _ (regKey_ne_off (by decide) (by decide) (by decide))
  split
  · rw [t.reg_setReg_same _ _ _ _ (by omega), ht]
  · exact ht

end

/-- Settles O32: the write reaches the page as `State.errClear`, whose registers the lemmas above name. -/
theorem errStatusClears : Obligations.ErrStatusClears := by
  intro s page v secure i r h
  refine ⟨(s.touchPage i).errClear page v.toNat, congrArg Host.Outcome.next (State.writeAt_errStatus h),
    fun n => ?_, ?_, fun p o w ho hw hne => ?_, ?_, ?_, ?_⟩
  · rw [State.reg_errClear_status, testBit_sub_and, State.touchPage_reg]
  · rw [State.reg_errClear_first, State.touchPage_reg]
  · rw [State.reg_errClear_other _ _ _ ho hw hne, State.touchPage_reg]
  · rw [State.errClear_mem, State.touchPage_mem]
  · rw [State.errClear_queues, State.touchPage_queues]
  · rw [State.errClear_cmds, State.touchPage_cmds]

/-! ## Accesses of the host behind posted writes (R325) -/

section
variable {s : State} (h : s.hostHolds = true)
include h

theorem exec_doorbellWrite_held {q : Nat} (width : Nat) (v : DWord) (hq : qDie q < s.variant.computeDies) :
    exec (.doorbellWrite q v width) s =
      .next (s.hostHold (regAcc s (doorbellAddr q) true (leBytes width v.toNat))) := by
  show execDoorbellWrite q v width s = _
  unfold execDoorbellWrite
  rw [if_neg (Nat.not_le.mpr hq), if_pos h]

theorem exec_registerWrite_held {addr : Nat} (width : Nat) (v : DWord) (ha : (regPlace addr).isSome = true) :
    exec (.registerWrite addr v width false) s =
      .next (s.hostHold (regAcc s addr true (leBytes width v.toNat))) := by
  show execRegisterWrite addr v width false s = _
  unfold execRegisterWrite
  rw [if_pos (by simp only [h, ha, Bool.not_false, Bool.and_self])]

theorem exec_counterLatchRead_held (page off : Nat) :
    exec (.counterLatchRead page off false) s =
      .next (s.hostHold (regAcc s (pageAddr page off) false (leBytes 4 0))) := by
  show execCounterLatchRead page off false s = _
  unfold execCounterLatchRead
  rw [if_pos (by simp only [h, Bool.not_false, Bool.and_self])]

end

/-! ## REGISTER_WRITE -/

/-- A REGISTER_WRITE that nothing holds, 32 bits wide and not at a doorbell, is a write of the page at its address. -/
theorem exec_registerWrite_word {s : State} {addr page off : Nat} (v : DWord) {secure : Bool}
    (ha : regPlace addr = some (page, off)) (hd : doorbellAt s.variant page off = none) (h4 : addr % 4 = 0)
    (hh : secure = true ∨ s.hostHolds = false) :
    exec (.registerWrite addr v 4 secure) s = .next (s.writeAt page off (v.toNat % 2 ^ 32) secure) := by
  have hfree : ¬((!secure && s.hostHolds && (regPlace addr).isSome) = true) := by
    rcases hh with e | e <;> simp [e]
  show execRegisterWrite addr v 4 secure s = _
  unfold execRegisterWrite
  rw [if_neg hfree, State.regWrite_word ha hd h4]

/-- The same of a 32-bit block register that the write reaches and that has no effect of its own. -/
theorem exec_registerWrite_plain {s : State} {addr page off : Nat} (v : DWord) {secure : Bool} {i : PageInfo}
    {r : RegRow} (ha : regPlace addr = some (page, off)) (hd : doorbellAt s.variant page off = none)
    (h4 : addr % 4 = 0) (ho : 0x100 ≤ off) (hh : secure = true ∨ s.hostHolds = false)
    (hr : s.Reaches page off secure i r) (hw : r.wide = false)
    (hb : (s.touchPage i).blockWrite i page off (v.toNat % 2 ^ 32) secure = none) :
    exec (.registerWrite addr v 4 secure) s =
      .next ((s.touchPage i).plainStore page r fun _ => v.toNat % 2 ^ 32) := by
  rw [exec_registerWrite_word v ha hd h4 hh, State.writeAt_reaches_word hr (State.commitWrite_block ho) hw,
    State.storeReg_block ho hb, Nat.mod_mod]

/-- Settles O37: what is held by `exec_*_held`, what acts by the way of a write to its register and then by access
code. -/
theorem registerWriteRules : Obligations.RegisterWriteRules := by
  refine ⟨fun s h => ⟨fun q width v hq => exec_doorbellWrite_held h width v hq,
    fun addr width v ha => exec_registerWrite_held h width v ha,
    fun page off => exec_counterLatchRead_held h page off⟩, ?_⟩
  intro s addr page off v secure ha hd h4 ho hh
  have hlt : v.toNat % 2 ^ 32 < 2 ^ 64 := Nat.lt_trans (Nat.mod_lt _ (by decide)) (by decide)
  refine ⟨fun hi => ?unmapped, fun i r hi hr hp hc => ?forbidden, fun i r hr hw hoff hb => ?reached⟩
  case unmapped => rw [exec_registerWrite_word v ha hd h4 hh, State.writeAt_unmapped hi]
  case forbidden =>
    rw [exec_registerWrite_word v ha hd h4 hh, State.writeAt_closed hi hr hp (State.commitWrite_block ho) hc]
  case reached =>
    subst hoff
    refine ⟨_, exec_registerWrite_plain v ha hd h4 ho hh hr hw hb, by simp, by simp, fun hrw => ?_, fun hcm => ?_,
      fun hro => ?_⟩
    · rw [State.plainStore_rw _ _ hrw, State.touchPage_winOf]
      exact ⟨State.reg_setReg_same _ _ _ _ _ (Nat.lt_of_le_of_lt Nat.and_le_left hlt), by simp⟩
    · rw [State.plainStore_cm _ _ hcm, State.touchPage_winOf]
      exact ⟨State.shadow_setShadow_same _ _ _ _ _ hlt, by simp⟩
    · rw [State.plainStore_ro _ _ hro, State.touchPage_regs]

/-- A READY module, whose register pages are open (Table 17.1). -/
def readyModule : State := State.reset.setReg mgtPg MGT.MGT_STATE (2 * 2 ^ 28)

/-- The hypotheses of `RegisterWriteRules` can be met: OBJ_SEL of an ARB page, which is RW, takes a number written. -/
theorem registerWrite_objSel_witness :
    ∃ t : State, exec (.registerWrite (pageAddr (arbPg 0) ARB.OBJ_SEL) 5 4 true) readyModule = .next t ∧
      t.reg (arbPg 0) ARB.OBJ_SEL = 5 := by
  obtain ⟨t, ht, -, -, hrw, -, -⟩ := (registerWriteRules.2 readyModule
    (pageAddr (arbPg 0) ARB.OBJ_SEL) (arbPg 0) ARB.OBJ_SEL 5 true (by decide)
    (by decide) (by decide) (by decide) (.inl rfl)).2.2 ⟨.arb, 0, 0⟩ { off := ARB.OBJ_SEL, acc := .rw, mask := 0xfff }
    ⟨by decide, by decide, by decide +kernel, by decide⟩ rfl rfl (by decide +kernel)
  exact ⟨t, ht, (hrw rfl).1⟩

/-- The same of WCB_CONFIG, which is CM: its shadow takes every bit, reserved or not. -/
theorem registerWrite_wcbConfig_witness :
    ∃ t : State, exec (.registerWrite (pageAddr (wcbPg 0) WCB.WCB_CONFIG) 0xFF 4 true) readyModule = .next t ∧
      t.shadow (wcbPg 0) WCB.WCB_CONFIG = 0xFF := by
  obtain ⟨t, ht, -, -, -, hcm, -⟩ := (registerWriteRules.2 readyModule
    (pageAddr (wcbPg 0) WCB.WCB_CONFIG) (wcbPg 0) WCB.WCB_CONFIG 0xFF true (by decide)
    (by decide) (by decide) (by decide) (.inl rfl)).2.2 ⟨.wcb, 0, 0⟩
    { off := WCB.WCB_CONFIG, acc := .cm, reset := 0x6, mask := 0x1f }
    ⟨by decide, by decide, by decide +kernel, by decide⟩ rfl rfl (by decide +kernel)
  exact ⟨t, ht, (hcm rfl).1⟩

end Sys2Proof.Machine
end

section
/-! PROOFS. Control registers, counters and the logs of stacks (R65, R93, R292): what a write of a page's control register
sets to zero, and how the halves of a 64-bit counter are read. -/

namespace Sys2Proof.Machine

/-! ## Registers of a page set to zero -/

/-- A page's registers at some offsets set to zero, as CNT_CLEAR and UE_LOG_CLEAR do (`State.cntClear_cases`,
`State.ueLogClear_eq`). -/
def State.zeroRegs (s : State) (page : Nat) (offs : List Nat) : State := offs.foldl (fun s o => s.setReg page o 0) s

section
variable {s : State} {page off : Nat} {offs : List Nat}

/-- What setting a register of the page to zero leaves alone, setting several does. -/
theorem State.zeroRegs_leaves {α : Type} (g : State → α) (h : ∀ (t : State) o, g (t.setReg page o 0) = g t) :
    g (s.zeroRegs page offs) = g s := by
  unfold State.zeroRegs
  induction offs generalizing s with
  | nil => rfl
  | cons o os ih => exact ih.trans (h s o)

/-- A register of the page reads as before after a write at another offset. -/
theorem State.reg_setReg_off {o : Nat} (v : Nat) (h : off ≠ o) : (s.setReg page o v).reg page off = s.reg page off :=
  s.reg_setReg_other v (by unfold regKey; omega)

theorem State.reg_zeroRegs_not_mem (h : off ∉ offs) : (s.zeroRegs page offs).reg page off = s.reg page off := by
  unfold State.zeroRegs
  induction offs generalizing s with
  | nil => rfl
  | cons o os ih =>
    exact (ih (List.not_mem_of_not_mem_cons h)).trans (State.reg_setReg_off 0 (List.ne_of_not_mem_cons h))

theorem State.reg_zeroRegs_mem (h : off ∈ offs) : (s.zeroRegs page offs).reg page off = 0 := by
  induction offs generalizing s with
  | nil => cases h
  | cons o os ih =>
    by_cases hos : off ∈ os
    · exact ih hos
    · obtain rfl : off = o := (List.mem_cons.mp h).resolve_right hos
      exact (State.reg_zeroRegs_not_mem hos).trans (s.reg_setReg_same _ _ _ _ (by decide))

end

/-! ## CNT_CLEAR and UE_LOG_CLEAR (R65, R93, R292) -/

/-- The offsets of the counters that CNT_CLEAR makes zero: all but the kept ones (R65, R116). -/
def clearedOffs (i : PageInfo) : List Nat :=
  ((pageRows i.pt i.inst).filter fun r => r.cnt != 0 && !(keptCounter i.pt r.off)).map (·.off)

theorem mem_clearedOffs {i : PageInfo} {c : RegRow} (hm : c ∈ pageRows i.pt i.inst) (hc : c.cnt ≠ 0)
    (hk : keptCounter i.pt c.off = false) : c.off ∈ clearedOffs i :=
  List.mem_map_of_mem (List.mem_filter.mpr ⟨hm, by simp [hc, hk]⟩)

section
variable (s : State) (i : PageInfo) (page : Nat)

/-- CNT_CLEAR makes the counters zero; then it may restart BANK_WIDE_PEAK from the present occupancy, or PEAK_WINDOW
from nothing. -/
theorem State.cntClear_cases : s.cntClear i page = s.zeroRegs page (clearedOffs i) ∨
    (∃ n, s.cntClear i page = (s.zeroRegs page (clearedOffs i)).setReg page SCS.BANK_WIDE_PEAK n) ∨
    s.cntClear i page = (s.zeroRegs page (clearedOffs i)).setReg page PWR.PEAK_WINDOW 0 := by
  have hz : s.zeroRegs page (clearedOffs i) = (pageRows i.pt i.inst).foldl (fun (s : State) r =>
      if r.cnt != 0 && !(keptCounter i.pt r.off) then s.setReg page r.off 0 else s) s :=
    List.foldl_map.trans List.foldl_filter
  unfold State.cntClear
  rw [← hz]
  split
  · exact .inr (.inl ⟨_, rfl⟩)
  · exact .inr (.inr rfl)
  · exact .inl rfl

theorem State.ueLogClear_eq :
    s.ueLogClear page = s.zeroRegs page ((List.range 16).map fun k => HBM.UE_LOG0 + 8 * k) := by
  unfold State.ueLogClear State.zeroRegs
  rw [List.foldl_map]

end

section
variable {s : State} {i : PageInfo} {page off : Nat}

/-- What setting the registers of the page leaves alone, CNT_CLEAR does. -/
theorem State.cntClear_leaves {α : Type} (g : State → α) (h : ∀ (t : State) o x, g (t.setReg page o x) = g t) :
    g (s.cntClear i page) = g s := by
  have hz : g (s.zeroRegs page (clearedOffs i)) = g s := State.zeroRegs_leaves g fun t o => h t o 0
  rcases s.cntClear_cases i page with e | ⟨n, e⟩ | e <;> rw [e]
  · exact hz
  · exact (h _ _ _).trans hz
  · exact (h _ _ _).trans hz

/-- CNT_CLEAR makes a counter zero. -/
theorem State.reg_cntClear (h : off ∈ clearedOffs i) (hp : off ≠ SCS.BANK_WIDE_PEAK) :
    (s.cntClear i page).reg page off = 0 := by
  have hz : (s.zeroRegs page (clearedOffs i)).reg page off = 0 := State.reg_zeroRegs_mem h
  rcases s.cntClear_cases i page with e | ⟨n, e⟩ | e <;> rw [e]
  · exact hz
  · exact (State.reg_setReg_off n hp).trans hz
  · by_cases hw : off = PWR.PEAK_WINDOW
    · subst hw; exact State.reg_setReg_same _ _ _ _ _ (by decide)
    · exact (State.reg_setReg_off 0 hw).trans hz

/-- UE_LOG_CLEAR leaves no register of the page other than zero that was zero. -/
theorem State.reg_ueLogClear_zero (h : s.reg page off = 0) : (s.ueLogClear page).reg page off = 0 := by
  rw [State.ueLogClear_eq]
  by_cases hm : off ∈ (List.range 16).map fun k => HBM.UE_LOG0 + 8 * k
  · exact State.reg_zeroRegs_mem hm
  · exact (State.reg_zeroRegs_not_mem hm).trans h

/-- UE_LOG_CLEAR empties every entry of the log. -/
theorem State.reg_ueLogClear {k : Nat} (h : k < 16) : (s.ueLogClear page).reg page (HBM.UE_LOG0 + 8 * k) = 0 := by
  rw [State.ueLogClear_eq]
  exact State.reg_zeroRegs_mem (List.mem_map.mpr ⟨k, List.mem_range.mpr h, rfl⟩)

end

/-! ## The register tables -/

/-- A page has the rows that its type has at number 0 or those at number 1. -/
theorem pageRows_inst (pt : PT) (inst : Nat) : pageRows pt inst = pageRows pt 0 ∨ pageRows pt inst = pageRows pt 1 := by
  cases inst with
  | zero => exact .inl rfl
  | succ n => cases pt <;> exact .inr rfl

/-- What a finite check says of both of these lists of a type holds of every row of every page of it. -/
theorem forall_pageRows {pt : PT} {p : RegRow → Bool} (h : (pageRows pt 0).all p = true ∧ (pageRows pt 1).all p = true)
    {inst : Nat} {r : RegRow} (hr : r ∈ pageRows pt inst) : p r = true := by
  rcases pageRows_inst pt inst with e | e
  · exact List.all_eq_true.mp h.1 r (e ▸ hr)
  · exact List.all_eq_true.mp h.2 r (e ▸ hr)

/-- No counter lies at the offset of its page's control register. -/
theorem ctrlOff_ne_counter {pt : PT} {inst off : Nat} {c : RegRow} (hm : c ∈ pageRows pt inst) (hc : c.cnt ≠ 0)
    (h : ctrlOff pt = some off) : c.off ≠ off := by
  have htab : (c.cnt == 0 || ctrlOff pt != some c.off) = true :=
    forall_pageRows (p := fun c => c.cnt == 0 || ctrlOff pt != some c.off) (by cases pt <;> decide) hm
  rintro rfl
  simp [hc, h] at htab

/-- The control register lies among the block registers. -/
theorem ctrlOff_block {pt : PT} {off : Nat} (h : ctrlOff pt = some off) : 0x100 ≤ off := by
  cases pt <;> simp [ctrlOff] at h <;> omega

/-- The page of a unit that shows activity has its STATE register, not a counter, at 0x108. -/
theorem activity_of_counter_state {pt : PT} {inst : Nat} {r : RegRow} (hm : r ∈ pageRows pt inst) (hc : r.cnt = 2)
    (ho : r.off = 0x108) : pt.activity = none := by
  have htab : (r.cnt != 2 || r.off != 0x108 || pt.activity.isNone) = true :=
    forall_pageRows (p := fun r => r.cnt != 2 || r.off != 0x108 || pt.activity.isNone) (by cases pt <;> decide) hm
  simpa [hc, ho] using htab

theorem mem_of_rowAt {off : Nat} {l : List RegRow} {r : RegRow} (h : rowAt off l = some r) : r ∈ l := by
  induction l with
  | nil => cases h
  | cons a as ih =>
    unfold rowAt at h
    split at h
    · exact List.mem_cons.mpr (.inl (Option.some.inj h).symm)
    · exact List.mem_cons_of_mem _ (ih h)

/-- The row at the offset of a block register is one of its page's. -/
theorem mem_pageRows_of_pageRow {v : Variant} {page off : Nat} {i : PageInfo} {r : RegRow}
    (hi : pageInfo v page = some i) (hr : pageRow v page off = some r) (ho : 0x100 ≤ off) :
    r ∈ pageRows i.pt i.inst := by
  unfold pageRow at hr
  simp only [hi, if_neg (Nat.not_lt.mpr ho)] at hr
  exact mem_of_rowAt hr

/-! ## Writes of a control register (Tables 3.7 and 12.6) -/

section
variable {s : State} {i : PageInfo} {page off v : Nat}

/-- What setting the registers of the page leaves alone, a write of its control register does. -/
theorem State.ctrlWrite_leaves {α : Type} (g : State → α) (h : ∀ (t : State) o x, g (t.setReg page o x) = g t) :
    g (s.ctrlWrite i page off v) = g s := by
  unfold State.ctrlWrite
  extract_lets t u
  have ht : g t = g s := by
    show g (if v.testBit 0 then s.cntClear i page else s) = g s
    split
    · exact State.cntClear_leaves g h
    · rfl
  have hu : g u = g s := (h t off (v &&& 2)).trans ht
  split
  · rw [State.ueLogClear_eq]
    exact (State.zeroRegs_leaves g fun t o => h t o 0).trans hu
  · exact hu

/-- The control register takes COUNT_EN as written; the others of its bits read 0. -/
theorem State.reg_ctrlWrite_self (h : ctrlOff i.pt = some off) : (s.ctrlWrite i page off v).reg page off = v &&& 2 := by
  unfold State.ctrlWrite
  extract_lets t u
  have hu : u.reg page off = v &&& 2 :=
    t.reg_setReg_same _ _ _ _ (Nat.lt_of_le_of_lt Nat.and_le_right (by decide))
  split
  · next hl =>
    obtain rfl : HBM.HBM_CTRL = off := by rw [hl.1] at h; exact Option.some.inj h
    rw [State.ueLogClear_eq, State.reg_zeroRegs_not_mem (by decide), hu]
  · exact hu

/-- A write of CNT_CLEAR makes a counter of the page zero. -/
theorem State.reg_ctrlWrite_counter {c : RegRow} (h : ctrlOff i.pt = some off) (hv : v.testBit 0 = true)
    (hm : c ∈ pageRows i.pt i.inst) (hc : c.cnt ≠ 0) (hk : keptCounter i.pt c.off = false)
    (hp : c.off ≠ SCS.BANK_WIDE_PEAK) : (s.ctrlWrite i page off v).reg page c.off = 0 := by
  unfold State.ctrlWrite
  rw [if_pos hv]
  extract_lets t u
  have hu : u.reg page c.off = 0 :=
    (State.reg_setReg_off _ (ctrlOff_ne_counter hm hc h)).trans (State.reg_cntClear (mem_clearedOffs hm hc hk) hp)
  split
  · exact State.reg_ueLogClear_zero hu
  · exact hu

/-- A write of UE_LOG_CLEAR on a stack's page empties its log. -/
theorem State.reg_ctrlWrite_ueLog {k : Nat} (h : i.pt = .hbm) (hv : v.testBit 2 = true) (hk : k < 16) :
    (s.ctrlWrite i page off v).reg page (HBM.UE_LOG0 + 8 * k) = 0 := by
  unfold State.ctrlWrite
  extract_lets t u
  rw [if_pos ⟨h, hv⟩]
  exact State.reg_ueLogClear hk

/-- A write that reaches a page's control register acts as `State.ctrlWrite`. -/
theorem State.writeAt_ctrl {secure : Bool} {src : Nat} {r : RegRow} (h : s.Reaches page off secure i r)
    (hc : ctrlOff i.pt = some off) : s.writeAt page off v secure src = (s.touchPage i).ctrlWrite i page off v := by
  have hb : (s.touchPage i).blockWrite i page off v secure = some ((s.touchPage i).ctrlWrite i page off v) := by
    unfold State.blockWrite
    exact if_pos hc
  rw [State.writeAt_reaches h (State.commitWrite_block (ctrlOff_block hc))]
  unfold State.storeReg
  simp only [if_neg (Nat.not_lt.mpr (ctrlOff_block hc)), hb, Option.getD_some]

/-- CNT_CLEAR is a write of the page's control register. -/
theorem exec_cntClear {w : Word} {secure : Bool} {r : RegRow} (h : s.Reaches page off secure i r)
    (hc : ctrlOff i.pt = some off) :
    exec (.cntClear page w secure) s = .next ((s.touchPage i).ctrlWrite i page off w.toNat) := by
  show execCntClear page w secure s = _
  unfold execCntClear
  simp only [h.1, Option.bind_some, hc]
  rw [State.writeAt_ctrl h hc]

/-- UE_LOG_CLEAR is a write of the stack's control register. -/
theorem exec_ueLogClear {stack : Nat} {w : Word} {secure : Bool} {r : RegRow}
    (h : s.Reaches (hbmPg stack) HBM.HBM_CTRL secure i r) (hp : i.pt = .hbm) :
    exec (.ueLogClear stack w secure) s =
      .next ((s.touchPage i).ctrlWrite i (hbmPg stack) HBM.HBM_CTRL w.toNat) :=
  congrArg Host.Outcome.next (State.writeAt_ctrl h (by rw [hp]; rfl))

end

/-! ## Reads of a register that latches (R65) -/

/-- The upper word of the register at an offset latched for the read of its other half. -/
def State.latchUpper (s : State) (page off n : Nat) : State :=
  { s with regs := { s.regs with latch := SMap.put (regKey page 0 off) (BitVec.ofNat 32 n) s.regs.latch } }

section
variable {s : State} {i : PageInfo} {r : RegRow} {page off src : Nat} {secure : Bool}

/-- What does not look at power, an access of a page leaves alone. -/
theorem State.touchPage_leaves {α : Type} (g : State → α) (h : ∀ (t : State) x, g { t with pwr := x } = g t) :
    g (s.touchPage i) = g s := by
  unfold State.touchPage
  split
  · exact h _ _
  · rfl

/-- A register that latches shows no unit's activity. -/
theorem State.activeCmd_of_latches (hi : pageInfo s.variant page = some i)
    (hr : pageRow s.variant page r.off = some r) (hl : latches i r = true) : s.activeCmd i r.off = none := by
  unfold State.activeCmd
  split
  · next ho =>
    have hm : r ∈ pageRows i.pt i.inst := mem_pageRows_of_pageRow hi hr (by omega)
    have ha : i.pt.activity = none := by
      simp only [latches, Bool.and_eq_true, Bool.or_eq_true, beq_iff_eq] at hl
      obtain ⟨-, hc | ⟨ht, -⟩⟩ := hl
      · exact activity_of_counter_state hm hc ho
      · rw [ht]; rfl
    rw [ha]
  · rfl

/-- A register that latches is read at its value, with no free value drawn. -/
theorem State.readReg_of_latches (hi : pageInfo s.variant page = some i)
    (hr : pageRow s.variant page r.off = some r) (hl : latches i r = true) :
    s.readReg i page r = (s.rowValue i page r, s) := by
  unfold State.readReg
  rw [State.activeCmd_of_latches hi hr hl]

/-- A read of the lower word returns it and latches the upper one. -/
theorem State.readAt_lower (hi : pageInfo s.variant page = some i) (hr : pageRow s.variant page r.off = some r)
    (hp : s.pageOpen page false secure = true) (hc : s.rowClosed page r secure = false) (hl : latches i r = true) :
    s.readAt page r.off secure src =
      (s.rowValue i page r % 2 ^ 32, (s.touchPage i).latchUpper page r.off (s.rowValue i page r / 2 ^ 32)) := by
  unfold State.readAt
  simp only [hi, hr, hp, hc, hl, State.readReg_of_latches hi hr hl, Bool.not_true, Bool.false_eq_true, if_false, if_true]
  rfl

/-- A read of the upper word returns what was latched. -/
theorem State.readAt_upper (hi : pageInfo s.variant page = some i) (hr : pageRow s.variant page r.off = some r)
    (hu : pageRow s.variant page off = some r) (ho : off ≠ r.off)
    (hp : s.pageOpen page false secure = true) (hc : s.rowClosed page r secure = false) (hl : latches i r = true) :
    s.readAt page off secure src = ((SMap.get 0 (regKey page 0 r.off) s.regs.latch).toNat, s.touchPage i) := by
  unfold State.readAt
  simp only [hi, hu, hp, hc, hl, State.readReg_of_latches hi hr hl, Bool.not_true, Bool.false_eq_true, if_false, if_true,
    if_neg ho, State.touchPage_regs]

/-- A COUNTER_LATCH_READ that nothing holds, not at a doorbell, is a 32-bit read of the page, whose value is kept. -/
theorem exec_counterLatchRead_word (ha : regPlace (pageAddr page off) = some (page, off))
    (hd : doorbellAt s.variant page off = none) (h4 : off % 4 = 0) (hh : secure = true ∨ s.hostHolds = false) :
    exec (.counterLatchRead page off secure) s =
      .next { (s.readAt page off secure).2 with rsp := BitVec.ofNat 64 (s.readAt page off secure).1 } := by
  have hfree : ¬((!secure && s.hostHolds) = true) := by
    rcases hh with e | e <;> simp [e]
  have hw : ¬((4 ≠ 4 ∧ 4 ≠ 8) ∨ pageAddr page off % 4 ≠ 0) := by unfold pageAddr; omega
  have hread : s.regRead (pageAddr page off) 4 secure = s.readAt page off secure := by
    unfold State.regRead
    simp only [ha, if_neg hw, hd]
    rfl
  show execCounterLatchRead page off secure s = _
  unfold execCounterLatchRead
  rw [if_neg hfree, hread]

/-- The state after a read of the lower word of a register that latches. -/
def State.lowerRead (s : State) (i : PageInfo) (page : Nat) (r : RegRow) : State :=
  { (s.touchPage i).latchUpper page r.off (s.rowValue i page r / 2 ^ 32) with
    rsp := BitVec.ofNat 64 (s.rowValue i page r % 2 ^ 32) }

/-- What looks at neither power, latches nor the value returned, such a read leaves alone. -/
theorem State.lowerRead_leaves {α : Type} (g : State → α)
    (hp : ∀ (t : State) x, g { t with pwr := x } = g t := by intros; rfl)
    (hl : ∀ (t : State) x, g { t with regs := { t.regs with latch := x } } = g t := by intros; rfl)
    (hr : ∀ (t : State) x, g { t with rsp := x } = g t := by intros; rfl) : g (s.lowerRead i page r) = g s :=
  (hr _ _).trans ((hl _ _).trans (State.touchPage_leaves g hp))

@[simp] theorem State.lowerRead_variant : (s.lowerRead i page r).variant = s.variant :=
  State.lowerRead_leaves State.variant
@[simp] theorem State.lowerRead_live : (s.lowerRead i page r).regs.live = s.regs.live :=
  State.lowerRead_leaves fun t => t.regs.live
@[simp] theorem State.lowerRead_mem : (s.lowerRead i page r).mem = s.mem := State.lowerRead_leaves State.mem
@[simp] theorem State.lowerRead_cmds : (s.lowerRead i page r).cmds = s.cmds := State.lowerRead_leaves State.cmds
@[simp] theorem State.lowerRead_hostHolds : (s.lowerRead i page r).hostHolds = s.hostHolds :=
  State.lowerRead_leaves State.hostHolds
@[simp] theorem State.lowerRead_pageOpen (p : Nat) (write : Bool) :
    (s.lowerRead i page r).pageOpen p write secure = s.pageOpen p write secure :=
  State.lowerRead_leaves fun t => t.pageOpen p write secure
@[simp] theorem State.lowerRead_rowClosed (p : Nat) (c : RegRow) :
    (s.lowerRead i page r).rowClosed p c secure = s.rowClosed p c secure :=
  State.lowerRead_leaves fun t => t.rowClosed p c secure

/-- A read of the lower word leaves its upper word in the latch. -/
theorem State.lowerRead_latch : (SMap.get 0 (regKey page 0 r.off) (s.lowerRead i page r).regs.latch).toNat =
    s.rowValue i page r / 2 ^ 32 % 2 ^ 32 := by
  unfold State.lowerRead State.latchUpper
  rw [SMap.get_put_same, BitVec.toNat_ofNat]

/-- COUNTER_LATCH_READ of the lower word of a register that latches. -/
theorem exec_counterLatchRead_lower (ha : regPlace (pageAddr page r.off) = some (page, r.off))
    (hd : doorbellAt s.variant page r.off = none) (h4 : r.off % 4 = 0) (hh : secure = true ∨ s.hostHolds = false)
    (hi : pageInfo s.variant page = some i) (hr : pageRow s.variant page r.off = some r)
    (hp : s.pageOpen page false secure = true) (hc : s.rowClosed page r secure = false) (hl : latches i r = true) :
    exec (.counterLatchRead page r.off secure) s = .next (s.lowerRead i page r) := by
  rw [exec_counterLatchRead_word ha hd h4 hh, State.readAt_lower hi hr hp hc hl]
  rfl

/-- COUNTER_LATCH_READ of the upper word, after that of the lower one. -/
theorem exec_counterLatchRead_upper (ha : regPlace (pageAddr page off) = some (page, off))
    (hd : doorbellAt s.variant page off = none) (h4 : off % 4 = 0) (hh : secure = true ∨ s.hostHolds = false)
    (hi : pageInfo s.variant page = some i) (hr : pageRow s.variant page r.off = some r)
    (hu : pageRow s.variant page off = some r) (ho : off ≠ r.off) (hp : s.pageOpen page false secure = true)
    (hc : s.rowClosed page r secure = false) (hl : latches i r = true) :
    exec (.counterLatchRead page off secure) (s.lowerRead i page r) =
      .next { (s.lowerRead i page r).touchPage i with
        rsp := BitVec.ofNat 64 (s.rowValue i page r / 2 ^ 32 % 2 ^ 32) } := by
  rw [exec_counterLatchRead_word ha (by rwa [State.lowerRead_variant]) h4 (by rwa [State.lowerRead_hostHolds]),
    State.readAt_upper (by rwa [State.lowerRead_variant]) (by rwa [State.lowerRead_variant])
      (by rwa [State.lowerRead_variant]) ho (by rwa [State.lowerRead_pageOpen]) (by rwa [State.lowerRead_rowClosed]) hl,
    State.lowerRead_latch]

/-- A 32-bit word returned reads as it is. -/
theorem toNat_rsp_word (n : Nat) : (BitVec.ofNat 64 (n % 2 ^ 32)).toNat = n % 2 ^ 32 := by
  rw [BitVec.toNat_ofNat]
  omega

end

/-- Settles O33: a write of a control register is `State.ctrlWrite`, whose registers the lemmas above name; a read of
the lower word is `State.lowerRead`, whose latch the read of the upper word returns. -/
theorem counterRegistersComplete : Obligations.CounterRegistersComplete := by
  refine ⟨fun s page off v secure i r hc h hv => ?clear, ?read, fun s stack v secure i r h hp hv => ?log⟩
  case clear =>
    exact ⟨_, exec_cntClear h hc, State.reg_ctrlWrite_self hc,
      fun c hm hcnt hk hp => State.reg_ctrlWrite_counter hc hv hm hcnt hk hp,
      (State.ctrlWrite_leaves State.mem fun _ _ _ => rfl).trans (s.touchPage_mem i),
      (State.ctrlWrite_leaves State.scs fun _ _ _ => rfl).trans (State.touchPage_leaves State.scs fun _ _ => rfl),
      (State.ctrlWrite_leaves State.cmds fun _ _ _ => rfl).trans (s.touchPage_cmds i)⟩
  case read =>
    intro s page off secure i r ha ha' hd hd' h4 hi hr hr' ho hl hp hc hh
    subst ho
    exact ⟨_, _, exec_counterLatchRead_lower ha hd h4 hh hi hr hp hc hl,
      exec_counterLatchRead_upper ha' hd' (by omega) hh hi hr hr' (by omega) hp hc hl,
      toNat_rsp_word _, toNat_rsp_word _, by simp, by simp, by simp⟩
  case log =>
    exact ⟨_, exec_ueLogClear h hp,
      (State.ctrlWrite_leaves State.mem fun _ _ _ => rfl).trans (s.touchPage_mem i),
      fun k hk => State.reg_ctrlWrite_ueLog hp hv hk⟩

/-! ## Witnesses: the hypotheses of `CounterRegistersComplete` can be met -/

/-- A READY module that has moved 2^32 + 5 bytes by DMA and logged an uncorrectable error of stack 0. -/
def countedModule : State :=
  (readyModule.setReg (wcbPg 0) WCB.DMA_BYTES (2 ^ 32 + 5)).setReg (hbmPg 0) HBM.UE_LOG0 (2 ^ 63)

/-- CNT_CLEAR of the WCB page makes DMA_BYTES zero. -/
theorem cntClear_dmaBytes_witness : countedModule.reg (wcbPg 0) WCB.DMA_BYTES = 2 ^ 32 + 5 ∧
    ∃ t : State, exec (.cntClear (wcbPg 0) 3 true) countedModule = .next t ∧ t.reg (wcbPg 0) 0x104 = 2 ∧
      t.reg (wcbPg 0) WCB.DMA_BYTES = 0 := by
  obtain ⟨t, ht, hen, hcnt, -⟩ := counterRegistersComplete.1 countedModule (wcbPg 0) 0x104 3 true ⟨.wcb, 0, 0⟩
    { off := 0x104, acc := .rw, reset := 0x2, mask := 0x2 } rfl
    ⟨by decide, by decide, by decide +kernel, by decide⟩ (by decide)
  exact ⟨by decide +kernel, t, ht, hen,
    hcnt { off := WCB.DMA_BYTES, wide := true, cnt := 2 } (by decide) (by decide) (by decide) (by decide)⟩

/-- A read of DMA_BYTES returns 5, then that of its upper word 1. -/
theorem counterLatchRead_dmaBytes_witness :
    ∃ t u : State, exec (.counterLatchRead (wcbPg 0) WCB.DMA_BYTES true) countedModule = .next t ∧
      exec (.counterLatchRead (wcbPg 0) (WCB.DMA_BYTES + 4) true) t = .next u ∧ t.rsp.toNat = 5 ∧ u.rsp.toNat = 1 := by
  have hv : countedModule.rowValue ⟨.wcb, 0, 0⟩ (wcbPg 0) { off := WCB.DMA_BYTES, wide := true, cnt := 2 } =
      2 ^ 32 + 5 := by decide +kernel
  obtain ⟨t, u, ht, hu, hlow, hup, -⟩ := counterRegistersComplete.2.1 countedModule (wcbPg 0) WCB.DMA_BYTES true
    ⟨.wcb, 0, 0⟩ { off := WCB.DMA_BYTES, wide := true, cnt := 2 } (by decide) (by decide) (by decide) (by decide)
    (by decide) (by decide) (by decide) (by decide) rfl rfl (by decide +kernel) (by decide) (.inl rfl)
  rw [hv] at hlow hup
  exact ⟨t, u, ht, hu, hlow, hup⟩

/-- UE_LOG_CLEAR of stack 0 makes its first log entry zero. -/
theorem ueLogClear_stack0_witness : countedModule.reg (hbmPg 0) HBM.UE_LOG0 = 2 ^ 63 ∧
    ∃ t : State, exec (.ueLogClear 0 4 true) countedModule = .next t ∧ t.reg (hbmPg 0) HBM.UE_LOG0 = 0 := by
  obtain ⟨t, ht, -, hlog⟩ := counterRegistersComplete.2.2 countedModule 0 4 true ⟨.hbm, 0, 0⟩
    { off := HBM.HBM_CTRL, acc := .rw, reset := 0x2, mask := 0x2 }
    ⟨by decide, by decide, by decide +kernel, by decide⟩ rfl (by decide)
  exact ⟨by decide +kernel, t, ht, hlog 0 (by decide)⟩

end Sys2Proof.Machine
end

section
/-! PROOFS. The Scoresheet (R67 to R93): what an access to the slots of a square changes, the moment of R82 at which a
readout, a clear or a VX_RATIO serves its slots, and the window of R85. -/

namespace Sys2Proof.Machine

/-! ## Scoresheets of squares -/

section
variable (s : State)

@[simp] theorem State.sheet_setSheet_same (msq : Nat) (x : ScsState) : (s.setSheet msq x).sheet msq = x :=
  SMap.get_set_same ..

theorem State.sheet_setSheet_other {m msq : Nat} (h : m ≠ msq) (x : ScsState) :
    (s.setSheet msq x).sheet m = s.sheet m := SMap.get_set_other _ h _ _

/-- Squares hold the same Scoresheets where the states hold the same table of them. -/
theorem State.sheet_congr {t : State} (h : t.scs = s.scs) (msq : Nat) : t.sheet msq = s.sheet msq := by
  unfold State.sheet; rw [h]

theorem State.slotQueued_congr {t : State} {msq : Nat} (h : (t.sheet msq).queue = (s.sheet msq).queue) (slot : Nat) :
    t.slotQueued msq slot = s.slotQueued msq slot := by
  unfold State.slotQueued; rw [h]

theorem State.scsHeld_congr {t : State} (h : t.scs = s.scs) (c : Cmd) : t.scsHeld c = s.scsHeld c := by
  unfold State.scsHeld; rw [State.sheet_congr s h]

end

/-- A slot's word stored is read back. -/
theorem ScsState.get_put_same (x : ScsState) (slot w : Nat) : SMap.get 0 slot (x.put slot w).slots = w :=
  SMap.get_set_same ..

theorem ScsState.get_put_other (x : ScsState) {a slot : Nat} (h : a ≠ slot) (w : Nat) :
    SMap.get 0 a (x.put slot w).slots = SMap.get 0 a x.slots := SMap.get_set_other _ h _ _

/-- No update is queued for a slot that a command names which none holds. -/
theorem State.slotQueued_of_not_held {s : State} {c : Cmd} (h : s.scsHeld c = false) {slot : Nat}
    (hm : slot ∈ scsSlots c.desc) : s.slotQueued c.msq slot = false := by
  simp only [State.scsHeld, List.any_eq_false, List.contains_iff_mem] at h
  simp only [State.slotQueued, List.any_eq_false, beq_iff_eq]
  rintro u hu rfl
  exact h u hu hm

/-! ## What an access to slots changes (R84) -/

/-- From s to t, of the words of a square's slots only those of slots that satisfy p have changed; its queues, the size
of its pool, the other squares' Scoresheets and memory are as they were. -/
structure SlotsWritten (msq : Nat) (p : Nat → Prop) (s t : State) : Prop where
  slots : ∀ a, ¬p a → SMap.get 0 a (t.sheet msq).slots = SMap.get 0 a (s.sheet msq).slots
  queue : (t.sheet msq).queue = (s.sheet msq).queue
  other : ∀ m, m ≠ msq → t.sheet m = s.sheet m
  pool  : t.poolGroups msq = s.poolGroups msq
  mem   : t.mem = s.mem

section
variable {msq slot : Nat} {p p' : Nat → Prop} {s t u : State}

theorem SlotsWritten.refl : SlotsWritten msq p s s := ⟨fun _ _ => rfl, rfl, fun _ _ => rfl, rfl, rfl⟩

theorem SlotsWritten.trans (h : SlotsWritten msq p s t) (k : SlotsWritten msq p t u) : SlotsWritten msq p s u :=
  ⟨fun a ha => (k.slots a ha).trans (h.slots a ha), k.queue.trans h.queue,
    fun m hm => (k.other m hm).trans (h.other m hm), k.pool.trans h.pool, k.mem.trans h.mem⟩

theorem SlotsWritten.mono (h : SlotsWritten msq p s t) (hp : ∀ a, p a → p' a) : SlotsWritten msq p' s t :=
  { h with slots := fun a ha => h.slots a fun hpa => ha (hp a hpa) }

theorem SlotsWritten.slotLimit (h : SlotsWritten msq p s t) : t.slotLimit msq = s.slotLimit msq := by
  unfold State.slotLimit; rw [h.pool]

theorem SlotsWritten.slotQueued (h : SlotsWritten msq p s t) (a : Nat) : t.slotQueued msq a = s.slotQueued msq a :=
  State.slotQueued_congr s h.queue a

/-- An update of the sheet that keeps its queue and writes slots that satisfy p. -/
theorem SlotsWritten.setSheet {x : ScsState} (hq : x.queue = (s.sheet msq).queue)
    (hs : ∀ a, ¬p a → SMap.get 0 a x.slots = SMap.get 0 a (s.sheet msq).slots) :
    SlotsWritten msq p s (s.setSheet msq x) :=
  ⟨fun a ha => by rw [State.sheet_setSheet_same]; exact hs a ha, by rw [State.sheet_setSheet_same]; exact hq,
    fun _ hm => s.sheet_setSheet_other hm x, rfl, rfl⟩

/-- A word stored in a slot. -/
theorem SlotsWritten.put (w : Nat) (h : p slot) : SlotsWritten msq p s (s.setSheet msq ((s.sheet msq).put slot w)) :=
  .setSheet rfl fun a ha => ScsState.get_put_other _ (fun (e : a = slot) => ha (e ▸ h)) w

theorem SlotsWritten.count (off n : Nat) (ho : off < 4096) (h : SCS.SCS_CONFIG ≠ off) :
    SlotsWritten msq p s (s.count (scsPg msq) off n) :=
  have e : ∀ m, (s.count (scsPg msq) off n).sheet m = s.sheet m := State.sheet_congr s (s.count_scs ..)
  ⟨fun _ _ => by rw [e], by rw [e], fun m _ => e m,
    congrArg (· % 1024) (State.reg_count_other s n (regKey_ne_off (by decide) ho h)), s.count_mem ..⟩

theorem SlotsWritten.err (b info : Nat) : SlotsWritten msq p s (s.err (scsPg msq) b info) :=
  have e : ∀ m, (s.err (scsPg msq) b info).sheet m = s.sheet m := State.sheet_congr s (s.err_scs ..)
  ⟨fun _ _ => by rw [e], by rw [e], fun m _ => e m,
    congrArg (· % 1024) (State.reg_err_other s (by decide) (by decide) (by decide)), s.err_mem ..⟩

/-- A read of a slot rewrites at most the slot itself. -/
theorem State.slotRead_written (h : p slot) : SlotsWritten msq p s (s.slotRead msq slot).1 := by
  unfold State.slotRead
  extract_lets x w
  split
  · exact (SlotsWritten.put _ h).trans (.count _ _ (by decide) (by decide))
  · exact .refl

theorem State.slotPoison_written (h : p slot) : SlotsWritten msq p s (s.slotPoison msq slot) :=
  (SlotsWritten.put _ h).trans (.err _ _)

/-- A slot of the pool lies at or above SLOT_LIMIT (R70). -/
theorem State.slotLimit_le_poolSlot (s : State) (msq bank g q : Nat) :
    s.slotLimit msq ≤ s.poolSlot msq bank g q := by
  unfold State.slotLimit State.poolSlot scsSlotAt
  omega

/-- A read of pool slots rewrites slots at or above SLOT_LIMIT only. -/
theorem State.poolRead_written (bank g n : Nat) :
    SlotsWritten msq (fun a => s.slotLimit msq ≤ a) s (s.poolRead msq bank g n).1 := by
  induction n with
  | zero => exact .refl
  | succ n ih =>
    refine ih.trans (State.slotRead_written ?_)
    rw [← ih.slotLimit]
    exact State.slotLimit_le_poolSlot ..

/-- A read of an entry rewrites at most its home slot and slots of the pool. -/
theorem State.entryRead_written :
    SlotsWritten msq (fun a => a = slot ∨ s.slotLimit msq ≤ a) s (s.entryRead msq slot).1 := by
  have hread : SlotsWritten msq (fun a => a = slot ∨ s.slotLimit msq ≤ a) s (s.slotRead msq slot).1 :=
    State.slotRead_written (.inl rfl)
  unfold State.entryRead
  split
  next t w u ht =>
  rw [ht] at hread
  split
  · exact hread.trans (State.slotPoison_written (.inl rfl))
  split
  · exact hread
  split
  · have hpool := (State.poolRead_written (s := t) (msq := msq) (scsBank slot) (w / 2 ^ 112 % 512) 4).mono
      (p' := fun a => a = slot ∨ s.slotLimit msq ≤ a) fun a ha => .inr (hread.slotLimit ▸ ha)
    extract_lets g
    split
    next t' hi u' ht' =>
    rw [ht'] at hpool
    split
    · exact (hread.trans hpool).trans (State.slotPoison_written (.inl rfl))
    · exact hread.trans hpool
  · exact hread

theorem State.releaseGroup_written : SlotsWritten msq p s (s.releaseGroup msq slot) := by
  unfold State.releaseGroup
  extract_lets x
  split
  · refine SlotsWritten.trans (SlotsWritten.setSheet ?_ fun _ _ => ?_) (.count _ _ (by decide) (by decide)) <;> rfl
  · exact .refl

theorem State.scsZero_written (h : p slot) : SlotsWritten msq p s (s.scsZero msq slot) :=
  State.releaseGroup_written.trans (.put _ h)

/-- Narrow zero with BASE 0 is the zero word. -/
theorem narrowImage_zero : narrowImage .none 0 0 = 0 := by decide

theorem State.scsZero_slot : SMap.get 0 slot ((s.scsZero msq slot).sheet msq).slots = 0 := by
  unfold State.scsZero State.writeNarrow
  rw [State.sheet_setSheet_same, ScsState.get_put_same, narrowImage_zero]

end

/-! ## The moment of R82 -/

theorem SMap.find_append {α : Type} (k : Nat) (l l' : List (Nat × α)) :
    SMap.find k (l ++ l') = (SMap.find k l).or (SMap.find k l') := by
  induction l with
  | nil => rfl
  | cons c l ih =>
    rw [List.cons_append, SMap.find, SMap.find, ih]
    split <;> rfl

section
variable {msq slot a : Nat} {clear : Bool} {r : State × List (Nat × Entry)}

/-- A slot served already, or with updates queued, is left for now. -/
theorem State.serveSlot_skip (h : (SMap.find slot r.2).isSome = true ∨ r.1.slotQueued msq slot = true) :
    State.serveSlot msq clear r slot = r := by
  unfold State.serveSlot
  exact if_pos (by simpa using h)

/-- A slot whose moment has come is read, and set to zero where the command clears. -/
theorem State.serveSlot_now (h : SMap.find slot r.2 = none) (hq : r.1.slotQueued msq slot = false) :
    State.serveSlot msq clear r slot =
      (if clear then (r.1.entryRead msq slot).1.scsZero msq slot else (r.1.entryRead msq slot).1,
        r.2 ++ [(slot, (r.1.entryRead msq slot).2)]) := by
  unfold State.serveSlot
  rw [h, hq]
  rfl

/-- Either way of `State.serveSlot`. -/
theorem State.serveSlot_ways (msq slot : Nat) (r : State × List (Nat × Entry)) :
    ((SMap.find slot r.2).isSome = true ∨ r.1.slotQueued msq slot = true) ∨
      (SMap.find slot r.2 = none ∧ r.1.slotQueued msq slot = false) := by
  cases SMap.find slot r.2 <;> simp

theorem State.serveSlot_written :
    SlotsWritten msq (fun a => a = slot ∨ r.1.slotLimit msq ≤ a) r.1 (State.serveSlot msq clear r slot).1 := by
  rcases State.serveSlot_ways msq slot r with h | ⟨h, hq⟩
  · rw [State.serveSlot_skip h]; exact .refl
  · rw [State.serveSlot_now h hq]
    cases clear
    · exact State.entryRead_written
    · exact State.entryRead_written.trans (State.scsZero_written (.inl rfl))

/-- What has been served stays served. -/
theorem State.serveSlot_served (h : (SMap.find a r.2).isSome = true) :
    (SMap.find a (State.serveSlot msq clear r slot).2).isSome = true := by
  rcases State.serveSlot_ways msq slot r with h' | ⟨h', hq⟩
  · rwa [State.serveSlot_skip h']
  · rw [State.serveSlot_now h' hq, SMap.find_append, Option.isSome_or, h, Bool.true_or]

/-- A slot with no update queued is served now if not before. -/
theorem State.serveSlot_serves (hq : r.1.slotQueued msq slot = false) :
    (SMap.find slot (State.serveSlot msq clear r slot).2).isSome = true := by
  cases h : SMap.find slot r.2 with
  | some e => exact State.serveSlot_served (by rw [h]; rfl)
  | none => simp [State.serveSlot_now h hq, SMap.find_append, SMap.find]

end

section
variable {msq : Nat} {clear : Bool} {r : State × List (Nat × Entry)} {l : List Nat}

/-- Serving slots writes those and slots of the pool only. -/
theorem State.serveAll_written :
    SlotsWritten msq (fun a => a ∈ l ∨ r.1.slotLimit msq ≤ a) r.1 (l.foldl (State.serveSlot msq clear) r).1 := by
  induction l generalizing r with
  | nil => exact .refl
  | cons x l ih =>
    have hx := State.serveSlot_written (msq := msq) (slot := x) (clear := clear) (r := r)
    refine (hx.mono fun a ha => ?_).trans (ih.mono fun a ha => ?_)
    · exact ha.imp (fun (e : a = x) => e ▸ List.mem_cons_self) id
    · exact ha.imp (List.mem_cons_of_mem x) fun hle => hx.slotLimit ▸ hle

/-- After slots have been served, each has been that was before and each of them with no update queued. -/
theorem State.serveAll_serves {a : Nat}
    (h : (SMap.find a r.2).isSome = true ∨ (a ∈ l ∧ r.1.slotQueued msq a = false)) :
    (SMap.find a (l.foldl (State.serveSlot msq clear) r).2).isSome = true := by
  induction l generalizing r with
  | nil => exact h.resolve_right fun hm => absurd hm.1 List.not_mem_nil
  | cons x l ih =>
    refine ih ?_
    rcases h with h | ⟨hm, hq⟩
    · exact .inl (State.serveSlot_served h)
    · rcases List.mem_cons.mp hm with rfl | hm
      · exact .inl (State.serveSlot_serves hq)
      · exact .inr ⟨hm, by rw [State.serveSlot_written.slotQueued, hq]⟩

end

section
variable {s : State} {c : Cmd} {clear : Bool}

/-- A command that no queued update holds has every slot served at once, and goes on. -/
theorem State.whenServed_not_held (k : State → List (Nat × Entry) → State) (h : s.scsHeld c = false) :
    s.whenServed c clear k = k (s.serveSlots c clear).1 (s.serveSlots c clear).2 := by
  have hall : ((scsSlots c.desc).any fun a => (SMap.find a (s.serveSlots c clear).2).isNone) = false := by
    rw [List.any_eq_false]
    intro a ha
    have hs : (SMap.find a (s.serveSlots c clear).2).isSome = true :=
      State.serveAll_serves (.inr ⟨ha, State.slotQueued_of_not_held h ha⟩)
    simpa [Option.isSome_iff_ne_none] using hs
  unfold State.whenServed
  split
  next t g ht =>
  rw [ht] at hall
  rw [hall, ht]
  rfl

end

/-! ## MATMUL, SCS_READOUT, SCS_CLEAR, the vector commands and GMB_LAYER -/

section
variable {s : State} {q : Nat} {d : Desc} {check : Check} {c : Cmd}

/-- A command that starts with every check passed leads to the state in which it has run. -/
theorem next_command (run : State → Cmd → State) (h : s.begins q d check = true) :
    (.next (s.command q d check run) : Res) = .next (run (s.begun q d check) (s.newCmd q d)) :=
  congrArg Host.Outcome.next (State.command_begins run h)

/-- A command that starts is held by the updates that were queued before. -/
theorem State.scsHeld_begun (h : check.Quiet) (c' : Cmd) :
    ((s.begun q d check).addCmd c').scsHeld c = s.scsHeld c :=
  State.scsHeld_congr s ((State.addCmd_scs _ c').trans (State.begun_scs q d h)) c

/-- A readout that nothing holds goes on to its output. -/
theorem State.readoutNow_not_held (h : s.scsHeld c = false) : s.readoutNow c =
    (s.serveSlots c (roClear c.desc)).1.readoutEnd c (s.serveSlots c (roClear c.desc)).2 :=
  State.whenServed_not_held _ h

/-- A VX_RATIO that nothing holds goes on to its record. -/
theorem State.ratioNow_not_held (h : s.scsHeld c = false) : s.ratioNow c =
    (s.serveSlots c (c.desc.bitB 2 0)).1.ratioEnd c (s.serveSlots c (c.desc.bitB 2 0)).2 :=
  State.whenServed_not_held _ h

end

/-- Settles O17: `next_command` runs each command; a readout that nothing holds goes on by
`State.readoutNow_not_held`. -/
theorem matrixCommandsComplete : Obligations.MatrixCommandsComplete := by
  refine ⟨fun s q d h => ?matmul, fun s q d h c u hc hu => ?readout, fun s q d h c hc => ?clear⟩
  case matmul =>
    have hrun : exec (.matmul q d) s = .next
        (if mmCoarse d then (s.begun q d matmulCheck).matmulCoarse (s.newCmd q d)
          else (s.begun q d matmulCheck).matmulNormal (s.newCmd q d)) := next_command _ h
    exact ⟨fun hm => by rw [hrun, hm]; rfl, fun hm => by rw [hrun, hm]; rfl⟩
  case readout =>
    have hrun : exec (.scsReadout q d) s = .next (u.readoutNow c) := by subst hc hu; exact next_command _ h
    have hdesc : c.desc = d := by rw [hc]; rfl
    have hscs : u.scsHeld c = s.scsHeld c := by rw [hu]; exact State.scsHeld_begun (pureCheck_quiet _) c
    exact ⟨hrun, fun hheld => by rw [hrun, State.readoutNow_not_held (hscs.trans hheld), hdesc]⟩
  case clear =>
    subst hc
    exact next_command _ h

/-- Settles O19: `next_command` runs each command; a VX_RATIO that nothing holds goes on by
`State.ratioNow_not_held`. -/
theorem vectorCommandsComplete : Obligations.VectorCommandsComplete := by
  refine ⟨fun s q d h => ⟨next_command _ h, next_command _ h, next_command _ h⟩, fun s q d h => next_command _ h,
    fun s q d h => next_command _ h, fun s q d h c u hc hu => ?ratio, fun s q d h => next_command _ h⟩
  have hrun : exec (.vxRatio q d) s = .next (u.ratioNow c) := by subst hc hu; exact next_command _ h
  have hdesc : c.desc = d := by rw [hc]; rfl
  have hscs : u.scsHeld c = s.scsHeld c := by rw [hu]; exact State.scsHeld_begun (pureCheck_quiet _) c
  exact ⟨hrun, fun hheld => by rw [hrun, State.ratioNow_not_held (hscs.trans hheld), hdesc]⟩

/-! ## SCS_CLEAR (R82, R92) -/

section
variable {msq slot x : Nat} {r : State × List (Nat × Entry)} {l : List Nat}

/-- A clear that serves a slot leaves each slot below SLOT_LIMIT zero that has been served. -/
theorem State.serveSlot_zero (hlim : slot < r.1.slotLimit msq)
    (h : (SMap.find slot r.2).isSome = true → SMap.get 0 slot (r.1.sheet msq).slots = 0)
    (hs : (SMap.find slot (State.serveSlot msq true r x).2).isSome = true) :
    SMap.get 0 slot ((State.serveSlot msq true r x).1.sheet msq).slots = 0 := by
  rcases State.serveSlot_ways msq x r with hskip | ⟨hx, hq⟩
  · rw [State.serveSlot_skip hskip] at hs ⊢
    exact h hs
  by_cases hsx : slot = x
  · subst hsx
    rw [State.serveSlot_now hx hq]
    exact State.scsZero_slot
  · rw [State.serveSlot_now hx hq, SMap.find_append, SMap.find, if_neg (Ne.symm hsx)] at hs
    rw [State.serveSlot_written.slots slot (by omega)]
    exact h (by simpa [SMap.find] using hs)

/-- The same of a clear that serves slots one after another. -/
theorem State.serveAll_zero (hlim : slot < r.1.slotLimit msq)
    (h : (SMap.find slot r.2).isSome = true → SMap.get 0 slot (r.1.sheet msq).slots = 0)
    (hs : (SMap.find slot (l.foldl (State.serveSlot msq true) r).2).isSome = true) :
    SMap.get 0 slot ((l.foldl (State.serveSlot msq true) r).1.sheet msq).slots = 0 := by
  induction l generalizing r with
  | nil => exact h hs
  | cons x l ih => exact ih (hlim.trans_eq State.serveSlot_written.slotLimit.symm) (State.serveSlot_zero hlim h) hs

/-- A slot below SLOT_LIMIT with an update queued is not served. -/
theorem State.serveSlot_queued {clear : Bool} (hlim : slot < r.1.slotLimit msq)
    (hq : r.1.slotQueued msq slot = true) :
    SMap.get 0 slot ((State.serveSlot msq clear r x).1.sheet msq).slots = SMap.get 0 slot (r.1.sheet msq).slots := by
  by_cases hsx : slot = x
  · subst hsx; rw [State.serveSlot_skip (.inr hq)]
  · exact State.serveSlot_written.slots slot (by omega)

theorem State.serveAll_queued {clear : Bool} (hlim : slot < r.1.slotLimit msq)
    (hq : r.1.slotQueued msq slot = true) :
    SMap.get 0 slot ((l.foldl (State.serveSlot msq clear) r).1.sheet msq).slots =
      SMap.get 0 slot (r.1.sheet msq).slots := by
  induction l generalizing r with
  | nil => rfl
  | cons x l ih =>
    have hq' := (State.serveSlot_written (slot := x) (clear := clear)).slotQueued slot |>.trans hq
    exact (ih (hlim.trans_eq State.serveSlot_written.slotLimit.symm) hq').trans (State.serveSlot_queued hlim hq)

end

section
variable {s : State} {c : Cmd} {slot : Nat}

/-- A clear serves its slots, then changes its own command only. -/
theorem State.clearNow_serves : ∃ f, s.clearNow c = (s.serveSlots c true).1.mapCmd c.id f := by
  unfold State.clearNow State.whenServed
  split
  next t g ht =>
  rw [ht]
  split <;> exact ⟨_, rfl⟩

/-- A clear that no queued update holds is done at once. -/
theorem State.clearNow_done (h : s.scsHeld c = false) (c' : Cmd) (hm : c' ∈ (s.clearNow c).cmds)
    (hid : c'.id = c.id) : c'.done = true := by
  rw [State.clearNow, State.whenServed_not_held _ h] at hm
  obtain ⟨c₀, -, rfl⟩ := List.mem_map.mp hm
  by_cases he : c₀.id = c.id
  · rw [if_pos he]
  · rw [if_neg he] at hid
    exact absurd hid he

/-- What `Obligations.ClearZeroesSlots` says holds of each slot below SLOT_LIMIT, which R92 asks of every slot that a
clear names. -/
theorem State.clearNow_below_slotLimit (hgot : c.got = []) (hm : slot ∈ scsSlots c.desc)
    (hlim : slot < s.slotLimit c.msq) :
    (s.slotQueued c.msq slot = false → SMap.get 0 slot ((s.clearNow c).sheet c.msq).slots = 0) ∧
    (s.slotQueued c.msq slot = true →
      SMap.get 0 slot ((s.clearNow c).sheet c.msq).slots = SMap.get 0 slot (s.sheet c.msq).slots) ∧
    ((s.clearNow c).sheet c.msq).queue = (s.sheet c.msq).queue ∧ (s.clearNow c).mem = s.mem ∧
    (s.scsHeld c = false → ∀ c', c' ∈ (s.clearNow c).cmds → c'.id = c.id → c'.done = true) ∧
    (∀ msq, msq ≠ c.msq → (s.clearNow c).sheet msq = s.sheet msq) := by
  have hdone : s.scsHeld c = false → ∀ c', c' ∈ (s.clearNow c).cmds → c'.id = c.id → c'.done = true :=
    fun h c' => State.clearNow_done h c'
  have hw := State.serveAll_written (msq := c.msq) (clear := true) (r := (s, c.got)) (l := scsSlots c.desc)
  obtain ⟨f, hf⟩ := State.clearNow_serves (s := s) (c := c)
  have hsheet : ∀ m, (s.clearNow c).sheet m = (s.serveSlots c true).1.sheet m := fun m => by rw [hf]; rfl
  refine ⟨fun hq => ?_, fun hq => ?_, ?_, ?_, hdone, fun m hne => ?_⟩
  · rw [hsheet]
    refine State.serveAll_zero hlim (fun hs => ?_) (State.serveAll_serves (.inr ⟨hm, hq⟩))
    rw [hgot] at hs
    cases hs
  · rw [hsheet]
    exact State.serveAll_queued hlim hq
  · rw [hsheet]
    exact hw.queue
  · rw [hf]
    exact hw.mem
  · rw [hsheet]
    exact hw.other m hne

end

/-- Slot 57331 of square 0 is the home of a wide entry. The first slot of its group in the pool is 57344, SLOT_LIMIT
after reset: its word has a correctable error in bit 0, and a queued update names it. -/
def pooledModule : State := State.reset.setSheet 0
  { slots := [(57331, wideHome .none 0 0)], ecc := [(57344, 0x301)], groups := [(scsBank 57331 * 512, 57331)],
    queue := [{ slot := 57344, add := {} }] }

/-- A clear of slots 57331 to 57344, which R92 would refuse: it reaches SLOT_LIMIT. -/
def poolClear : Cmd :=
  { id := 0, q := 0, msq := 0, desc := [0x29, 0, 0, 0, 0, 0, 0, 0, 57331 * 2 ^ 16, 14, 0, 0, 0, 0, 0, 0] }

/-- That clear sets slot 57331, which lies below SLOT_LIMIT, to zero. -/
theorem clearNow_slot57331_witness : SMap.get 0 57331 (pooledModule.sheet 0).slots ≠ 0 ∧
    SMap.get 0 57331 ((pooledModule.clearNow poolClear).sheet 0).slots = 0 := by
  obtain ⟨hzero, -⟩ := State.clearNow_below_slotLimit (s := pooledModule) (c := poolClear) (slot := 57331) rfl
    (by decide) (by decide +kernel)
  exact ⟨by decide +kernel, hzero (by decide)⟩

/-- Refutes O18: the statement does not ask that a named slot lie below SLOT_LIMIT. To clear slot 57331 the device reads
its wide entry, and so corrects and rewrites the word of slot 57344, which was to stay until its update is absorbed. Of
slots below SLOT_LIMIT it holds (`State.clearNow_below_slotLimit`). -/
theorem not_clearZeroesSlots : ¬ Obligations.ClearZeroesSlots := by
  unfold Obligations.ClearZeroesSlots
  intro h
  obtain ⟨-, hqueued, -⟩ := h pooledModule poolClear 57344 rfl (by decide)
  have hbefore : SMap.get 0 57344 (pooledModule.sheet 0).slots = 0 := by decide
  have hafter : SMap.get 0 57344 ((pooledModule.clearNow poolClear).sheet 0).slots = 1 := by decide +kernel
  have hkept : SMap.get 0 57344 ((pooledModule.clearNow poolClear).sheet 0).slots =
      SMap.get 0 57344 (pooledModule.sheet 0).slots := hqueued (by decide)
  rw [hbefore, hafter] at hkept
  exact absurd hkept (by decide)

/-! ## The window of a Scoresheet (R85) -/

/-- An access that stays within an aligned line is one piece. -/
theorem linePieces_within {a n : Nat} (hn : n ≠ 0) (h : a % 64 + n ≤ 64) : linePieces a n = [(a, n)] := by
  have hlines : (a + n - 1) / 64 - a / 64 + 1 = 1 := by omega
  have hlo : max a ((a / 64 + 0) * 64) = a := by omega
  have hhi : min (a + n) ((a / 64 + 0 + 1) * 64) - a = n := by omega
  unfold linePieces
  rw [if_neg hn, hlines]
  simp only [List.range_one, List.map_cons, List.map_nil, hlo, hhi]

theorem State.memRead_within {a n : Nat} (s : State) (r : Req) (hn : n ≠ 0) (h : a % 64 + n ≤ 64) :
    s.memRead r a n = s.pieceRead r a n := by
  unfold State.memRead
  rw [linePieces_within hn h]
  simp only [List.foldl_cons, List.foldl_nil, List.nil_append, Bool.false_or]

theorem State.memWrite_within {a : Nat} {b : List Byte} (s : State) (r : Req) (hn : b.length ≠ 0)
    (h : a % 64 + b.length ≤ 64) : s.memWrite r a b = s.pieceWrite r a b [] := by
  unfold State.memWrite
  rw [linePieces_within hn h]
  simp only [List.foldl_cons, List.foldl_nil, Bool.false_or, Nat.sub_self, List.drop_zero, List.take_length]

section
variable {s : State} {A msq slot : Nat} (h : areaOf s.variant A = .scs msq slot)
include h

theorem State.pieceRead_scs (r : Req) (n : Nat) : s.pieceRead r A n =
    s.scsWindowRead msq ((A - 0x3E0000000000) % 0x800000 - 0x400000) n := by
  unfold State.pieceRead; simp only [h]

theorem State.pieceWrite_scs (r : Req) (b : List Byte) (ue : List Nat) :
    s.pieceWrite r A b ue = { st := s.err (scsPg msq) SCS.E_RAW_WRITE r.q } := by
  unfold State.pieceWrite; simp only [h]

theorem exec_scsWindowWrite_scs : exec (.scsWindowWrite A) s = .next (s.err (scsPg msq) SCS.E_RAW_WRITE 0) := by
  show Host.Outcome.next (s.scsWindowWrite A) = _
  unfold State.scsWindowWrite
  rw [h]

end

/-- From the start of a slot's word a read of the window delivers it, little-endian. -/
theorem State.scsWindowRead_slot (s : State) (msq a : Nat) : s.scsWindowRead msq (16 * a) 16 =
    { st := s, data := leBytes 16 (SMap.get 0 a (s.sheet msq).slots) } := by
  unfold State.scsWindowRead leBytes
  congr 1
  refine List.map_congr_left fun i hi => ?_
  have hi : i < 16 := List.mem_range.mp hi
  rw [show (16 * a + i) / 16 = a by omega, show (16 * a + i) % 16 = i by omega]

/-- The address of a slot in a square's window. -/
def scsAddr (msq a : Nat) : Nat := 0x3E0000000000 + msq * 0x800000 + 0x400000 + 16 * a

/-- A slot lies within a line. -/
theorem scsAddr_within (msq a : Nat) : scsAddr msq a % 64 + 16 ≤ 64 := by
  unfold scsAddr
  omega

/-- Where byte o of a slot lies in its square's window. -/
theorem scsAddr_offset {a o : Nat} (msq : Nat) (ha : a < 65536) (ho : o < 16) :
    (scsAddr msq a + o - 0x3E0000000000) % 0x800000 = 0x400000 + (16 * a + o) := by
  unfold scsAddr
  omega

/-- Each byte of the slot of a present square lies in the slot. -/
theorem areaOf_scsAddr {v : Variant} {msq a o : Nat} (hm : msq < 64 * v.computeDies) (ha : a < 65536) (ho : o < 16) :
    areaOf v (scsAddr msq a + o) = .scs msq a := by
  have hdies : v.computeDies ≤ 6 := by cases v <;> decide
  have hsquare : (scsAddr msq a + o - 0x3E0000000000) / 0x800000 = msq := by unfold scsAddr; omega
  have hlo : 0x3E0000000000 ≤ scsAddr msq a + o := by unfold scsAddr; omega
  have hhi : scsAddr msq a + o < 0x3E00C0000000 := by unfold scsAddr; omega
  have hslot : (16 * a + o) / 16 = a := by omega
  unfold areaOf
  rw [if_neg (by omega), if_neg (by omega), if_pos ⟨hlo, hhi⟩]
  simp only [hsquare, scsAddr_offset msq ha ho]
  rw [if_neg (by omega), if_neg (by omega), if_pos (by omega), Nat.add_sub_cancel_left, hslot]

section
variable {s : State} {msq a : Nat} (hm : msq < 64 * s.variant.computeDies) (ha : a < 65536)
include hm ha

theorem areaOf_scsAddr_zero : areaOf s.variant (scsAddr msq a) = .scs msq a := by
  rw [← Nat.add_zero (scsAddr msq a), areaOf_scsAddr hm ha (by decide)]

/-- A slot read through the window is delivered as it is stored, with no effect. -/
theorem State.memRead_scsAddr (r : Req) : s.memRead r (scsAddr msq a) 16 =
    { st := s, data := leBytes 16 (SMap.get 0 a (s.sheet msq).slots) } := by
  have hoff : (scsAddr msq a - 0x3E0000000000) % 0x800000 = 0x400000 + 16 * a := by
    rw [← Nat.add_zero (scsAddr msq a), scsAddr_offset msq ha (by decide), Nat.add_zero]
  rw [State.memRead_within s r (by decide) (scsAddr_within msq a), State.pieceRead_scs (areaOf_scsAddr_zero hm ha),
    hoff, Nat.add_sub_cancel_left, State.scsWindowRead_slot]

/-- A slot written through the window is dropped, and RAW_WRITE names the requester's queue. -/
theorem State.memWrite_scsAddr (r : Req) {b : List Byte} (hb : b.length = 16) :
    s.memWrite r (scsAddr msq a) b = { st := s.err (scsPg msq) SCS.E_RAW_WRITE r.q } := by
  rw [State.memWrite_within s r (by omega) (hb ▸ scsAddr_within msq a),
    State.pieceWrite_scs (areaOf_scsAddr_zero hm ha)]

end

/-- Settles O38: the window's addresses name slots (`areaOf_scsAddr`), and a slot is one piece of an access. -/
theorem scsWindowRule : Obligations.ScsWindowRule := by
  intro s r msq a hm ha
  have hread := State.memRead_scsAddr hm ha r
  exact ⟨congrArg MemRes.data hread, congrArg MemRes.st hread,
    fun o ho => exec_scsWindowWrite_scs (areaOf_scsAddr hm ha ho),
    fun b hb => congrArg WrRes.st (State.memWrite_scsAddr hm ha r hb)⟩

end Sys2Proof.Machine
end

section
/-! PROOFS. Squares (R78 to R80, R187, R258, R392): what gating its clocks, sleeping and waking change of a square, and
what a sleep that keeps no state costs it. -/

namespace Sys2Proof.Machine

/-! ## Power states of squares -/

section
variable (s : State)

@[simp] theorem State.sqp_setSqp_same (msq : Nat) (x : SqPwr) : (s.setSqp msq x).sqp msq = x :=
  SMap.get_set_same ..

theorem State.sqp_setSqp_other {m msq : Nat} (h : m ≠ msq) (x : SqPwr) : (s.setSqp msq x).sqp m = s.sqp m :=
  SMap.get_set_other _ h _ _

/-- Squares are in the same power states where the states hold the same table of them. -/
theorem State.sqp_congr {t : State} (h : t.pwr = s.pwr) (msq : Nat) : t.sqp msq = s.sqp msq := by
  unfold State.sqp; rw [h]

end

section
variable {s : State} {msq w since : Nat} {keep db : Bool}

/-- A square that may gate its clocks does. -/
theorem State.clockGate_may (cycles : Nat) (hp : s.squarePresent msq = true) (hg : s.mayGate msq = true) :
    s.clockGate msq cycles = (s.count64 (arbPg (msq / 64)) ARB.GATED_CYCLES cycles).setPwr
      { s.pwr with gated := (s.pwr.gated.filter (· != msq)) ++ [msq] } := by
  unfold State.clockGate
  simp only [hp, hg, Bool.and_self, if_true, State.count64_pwr]

/-- An idle square that was asked to sleep sleeps. -/
theorem State.sleepEnter_idle (h : (s.sqp msq).sleep = .entering keep db w) (hi : s.squareIdle msq = true) :
    s.sleepEnter msq =
      (s.setSqp msq { s.sqp msq with sleep := .asleep keep db w, l := 0 }).count pwrPg PWR.SLEEPS 1 := by
  unfold State.sleepEnter
  simp only [h, hi, Bool.not_true, Bool.false_eq_true, if_false]

/-- A sleeping square whose WAKE_BEAT has come begins to wake. -/
theorem State.wakeDue_asleep (h : (s.sqp msq).sleep = .asleep keep db w) (h0 : w ≠ 0) (hw : w ≤ s.beat) :
    s.wakeDue msq = s.setSqp msq { s.sqp msq with sleep := .waking keep s.beat } := by
  unfold State.wakeDue State.wakeSquare
  simp only [h, h0, hw, ne_eq, not_false_eq_true, and_self, if_true]

/-- Once its beats are over a waking square is awake; where its sleep kept no state it has lost it, and is STALE. -/
theorem State.wakeComplete_over (h : (s.sqp msq).sleep = .waking keep since)
    (hb : since + (if keep then 16 else 64) ≤ s.beat) :
    s.wakeComplete msq =
      if keep then s.setSqp msq { s.sqp msq with sleep := .awake }
      else ((s.setSqp msq { s.sqp msq with sleep := .awake }).loseSquare msq).staleOne msq 2 := by
  unfold State.wakeComplete
  simp only [h, if_neg (Nat.not_lt.mpr hb)]

end

/-! ## A sleep that keeps no state (R373, R392) -/

/-- What each step leaves alone, a sequence of them does. -/
theorem foldl_leaves {α β γ : Type} (g : β → γ) (f : β → α → β) (l : List α) (b : β)
    (h : ∀ b a, g (f b a) = g b) : g (l.foldl f b) = g b := by
  induction l generalizing b with
  | nil => rfl
  | cons a l ih => exact (ih (f b a)).trans (h b a)

section
variable (s : State)

theorem State.wipeSquare_bnd (msq : Nat) : (s.wipeSquare msq).bnd = s.bnd := by
  unfold State.wipeSquare
  extract_lets ns t
  refine (foldl_leaves State.bnd _ _ t ?_).trans rfl
  exact fun t i => State.setReg_bnd t ..

theorem State.loseRange_bnd (a n : Nat) : (s.loseRange a n).bnd = s.bnd := rfl
theorem State.loseQueue_bnd (q : Nat) : (s.loseQueue q).bnd = s.bnd := rfl
theorem State.scsReset_bnd (msq : Nat) : (s.scsReset msq).bnd = s.bnd := rfl

theorem State.loseSquare_bnd (msq : Nat) : (s.loseSquare msq).bnd = s.bnd := by
  unfold State.loseSquare
  extract_lets qs t t'
  have ht' : t'.bnd = (t.scsReset msq).bnd := foldl_leaves State.bnd _ _ _ State.loseQueue_bnd
  show t'.bnd = s.bnd
  rw [ht', State.scsReset_bnd, State.loseRange_bnd, State.wipeSquare_bnd]

theorem State.orphanAll_bnd (l : List Nat) : (s.orphanAll l).bnd = s.bnd :=
  foldl_leaves State.bnd (fun t i => t.endCmd i .orphan) l s fun _ _ => rfl

theorem State.orphan_bnd (key : Nat) : (s.orphan key).bnd = s.bnd := by
  unfold State.orphan
  extract_lets ws pg o t u v
  have hv : v.bnd = s.bnd := (State.count_bnd ..).trans (State.orphanAll_bnd t ws)
  split
  · exact hv
  · exact (State.err_bnd ..).trans hv

theorem State.orphanOwned_bnd (msq : Nat) : (s.orphanOwned msq).bnd = s.bnd := by
  unfold State.orphanOwned
  exact foldl_leaves State.bnd _ _ s fun t p => t.orphan_bnd p.1

/-- A unit that becomes STALE is so, its epoch advanced. -/
theorem State.staleOne_bnd (u cause : Nat) : (s.staleOne u cause).bnd = { s.bnd with
    epoch := SMap.set 0 u ((s.unitEpoch u + 1) % 65536) s.bnd.epoch
    stale := if s.bnd.stale.contains u then s.bnd.stale else s.bnd.stale ++ [u]
    cause := SMap.put u cause s.bnd.cause } := by
  unfold State.staleOne
  extract_lets _ t t'
  have ht : t'.bnd = t.bnd := by rw [State.err_bnd, State.count_bnd]
  by_cases hu : u < 384
  · rw [if_pos hu, State.orphanOwned_bnd, ht]
  · rw [if_neg hu, ht]

theorem State.isStale_staleOne (u cause : Nat) : (s.staleOne u cause).isStale u = true := by
  unfold State.isStale
  rw [State.staleOne_bnd]
  show (if s.bnd.stale.contains u then s.bnd.stale else s.bnd.stale ++ [u]).contains u = true
  split
  · assumption
  · simp

theorem State.unitEpoch_staleOne (u cause : Nat) :
    (s.staleOne u cause).unitEpoch u = (s.unitEpoch u + 1) % 65536 := by
  unfold State.unitEpoch
  rw [State.staleOne_bnd]
  exact SMap.get_set_same ..

end

/-! ## Updates and waits that go on (R79, R80, R187) -/

section
variable {s : State} {msq bank : Nat} {u : ScsUpd}

/-- The oldest ready update of a bank is taken; one that needs a group has waited for it. -/
theorem exec_scsQueueAbsorb_ready (hp : s.squarePresent msq = true) (hh : s.halted = false)
    (hu : firstReady [] bank (fun u => s.updReady msq u) (s.sheet msq).queue = some u) :
    exec (.scsQueueAbsorb msq bank) s = .next
      ((if s.needsGroup msq u then s.countFree (scsPg msq) SCS.PROMOTION_WAIT else s).scsTake msq u).settle := by
  show execScsQueueAbsorb msq bank s = _
  unfold execScsQueueAbsorb State.scsQueueStep
  simp only [hp, hh, hu, Bool.not_false, Bool.and_self, if_true]

/-- A promotion that waits goes on where a group is free. -/
theorem exec_promotionResume_free (cycles : Nat) (hp : s.squarePresent msq = true) (hh : s.halted = false)
    (hw : (s.waitingPromotion msq bank).isSome = true) (hg : (s.freeGroup msq bank).isSome = true) :
    exec (.promotionResume msq bank cycles) s = .next
      ((s.count64 (scsPg msq) SCS.PROMOTION_WAIT cycles).scsPromoteStep msq bank).settle := by
  show Host.Outcome.next (s.promotionResume msq bank cycles) = _
  unfold State.promotionResume
  simp only [hp, hh, hw, hg, Bool.not_false, Bool.and_self, if_true]

/-- The one wait for a row that is served here still, and whose end has come, is served. -/
theorem State.resumeRow_one {k : RowKey} {w : RowWait} (h : (s.plc.waits.filter fun w => w.key == k) = [w])
    (hhere : s.waitHere w = true) (hover : s.waitOver w = true) :
    s.resumeRow k = (s.setPlc { s.plc with waits := dropOne w s.plc.waits }).serveWait w := by
  unfold State.resumeRow
  rw [h]
  simp only [List.foldl_cons, List.foldl_nil, hhere, hover, Bool.not_true, Bool.false_eq_true, if_false, if_true]

end

/-- Settles O56: each of a square's power states is followed by the lemma that names it above; an addend, a queued
update, a promotion and a row that waited go on by `exec_*` and `State.resumeRow_one`. -/
theorem squaresComplete : Obligations.SquaresComplete := by
  refine ⟨fun s msq cycles hp hg => ?gate, fun s msq w keep db h hi => ?sleep, fun s msq w keep db h h0 hw => ?wake,
    fun s msq b keep h => ⟨fun hk hb => ?kept, fun hk hb => ?lost⟩, fun s k v secure hk ha => ?write,
    fun s msq slot fmt code scale hp hs => ?addend, fun s msq bank u hp hh hu => ?absorb,
    fun s msq bank cycles g u hp hh hw hg => ?promote, fun s k w h hhere hover => ?row⟩
  case gate =>
    exact ⟨_, congrArg Host.Outcome.next (State.clockGate_may cycles hp hg), rfl, State.count64_mem ..,
      State.count64_cmds ..⟩
  case sleep =>
    refine ⟨_, congrArg Host.Outcome.next (State.sleepEnter_idle h hi), ?_, fun m hm => ?_, State.count_mem ..,
      State.count_cmds .., State.count_scs ..⟩
    · rw [State.sqp_congr _ (State.count_pwr ..), State.sqp_setSqp_same]
    · rw [State.sqp_congr _ (State.count_pwr ..), State.sqp_setSqp_other _ hm]
  case wake =>
    exact ⟨_, congrArg Host.Outcome.next (State.wakeDue_asleep h h0 hw), s.sqp_setSqp_same ..,
      fun m hm => s.sqp_setSqp_other hm _, rfl, rfl, rfl⟩
  case kept =>
    subst hk
    exact ⟨_, congrArg Host.Outcome.next (State.wakeComplete_over h hb), s.sqp_setSqp_same .., rfl, rfl, rfl⟩
  case lost =>
    subst hk
    refine ⟨_, congrArg Host.Outcome.next (State.wakeComplete_over h hb), State.isStale_staleOne .., ?_⟩
    refine (State.unitEpoch_staleOne ..).trans ?_
    unfold State.unitEpoch
    rw [State.loseSquare_bnd, State.setSqp_bnd]
  case write =>
    show execSleepWake k v secure s = _
    unfold execSleepWake
    rw [if_pos hk, State.guardWrite_allows _ ha]
    rfl
  case addend =>
    show Host.Outcome.next (s.scsArrive msq slot fmt code scale) = _
    unfold State.scsArrive
    simp only [hp, hs, decide_true, Bool.and_self, if_true]
  case absorb =>
    have hrun := exec_scsQueueAbsorb_ready hp hh hu
    exact ⟨fun hn => by rw [hrun, hn]; rfl, fun hn => by rw [hrun, hn]; rfl⟩
  case promote =>
    exact exec_promotionResume_free cycles hp hh (by rw [hw]; rfl) (by rw [hg]; rfl)
  case row =>
    exact congrArg Host.Outcome.next (State.resumeRow_one h hhere hover)

end Sys2Proof.Machine
end

section
/-! PROOFS. The registers of rings (R114, R233, R235): a write of Q_HEAD, Q_CMD, CQ_TAIL or RLOG_TAIL has its block's own
effect, and a head or tail moves only over what its ring holds. -/

namespace Sys2Proof.Machine

/-! ## Writes of a block register with an effect of its own -/

section
variable {s t : State} {page off v src : Nat} {secure : Bool} {i : PageInfo} {r : RegRow}

/-- A write that reaches a block register with an effect of its own has that effect. -/
theorem State.writeAt_own (h : s.Reaches page off secure i r) (ho : 0x100 ≤ off)
    (hb : (s.touchPage i).blockWrite i page off v secure = some t) : s.writeAt page off v secure src = t := by
  rw [State.writeAt_reaches h (State.commitWrite_block ho)]
  unfold State.storeReg
  simp only [if_neg (Nat.not_lt.mpr ho), hb, Option.getD_some]

end

/-! ## What the four writes do -/

section
variable (s : State) (w : Word)

/-- A word written is no wider than a ring's index. -/
theorem toNat_word_mod : w.toNat % 2 ^ 32 = w.toNat := Nat.mod_eq_of_lt w.isLt

/-- Q_HEAD of a disabled queue is taken where the ring would hold what lies between. -/
theorem State.qHeadWrite_taken {q : Nat} (hq : s.qEnabled q = false)
    (hv : (s.qTail q + 2 ^ 32 - w.toNat) % 2 ^ 32 ≤ 2 ^ s.qLog2 q) :
    s.qHeadWrite q w.toNat = (s.setQreg q QMG.Q_HEAD w.toNat).setQst q { s.qst q with fetched := [] } := by
  unfold State.qHeadWrite
  rw [toNat_word_mod, hq, decide_eq_true hv]
  rfl

/-- Q_HEAD of an enabled queue, or one that leaves more between than the ring holds, is refused. -/
theorem State.qHeadWrite_refused {q : Nat}
    (h : s.qEnabled q = true ∨ 2 ^ s.qLog2 q < (s.qTail q + 2 ^ 32 - w.toNat) % 2 ^ 32) :
    s.qHeadWrite q w.toNat = s.err (qmgPg (qDie q)) QMG.E_DB_INVALID q := by
  unfold State.qHeadWrite
  rw [toNat_word_mod]
  refine if_neg fun hok => ?_
  simp only [Bool.and_eq_true, Bool.not_eq_true', decide_eq_true_eq] at hok
  obtain ⟨hdis, hfits⟩ := hok
  rcases h with hen | hover
  · exact Bool.noConfusion (hdis.symm.trans hen)
  · exact Nat.not_lt.mpr hfits hover

/-- The distance from a tail written to its head decides whether the ring holds it. -/
theorem tailOk_word (head size : Nat) :
    (tailOk head size w.toNat = true) = ((head + 2 ^ 32 - w.toNat) % 2 ^ 32 ≤ size) := by
  unfold tailOk
  rw [toNat_word_mod, decide_eq_true_eq]

/-- CQ_TAIL moves where the completion ring holds what lies between, and else stays. -/
theorem State.cqTailWrite_word (die cq : Nat) : s.cqTailWrite die cq w.toNat =
    if (s.cqreg die cq QMG.CQ_HEAD + 2 ^ 32 - w.toNat) % 2 ^ 32 ≤ 2 ^ bits (s.cqreg die cq QMG.CQ_CONFIG) 4 0
      then s.setCqreg die cq QMG.CQ_TAIL w.toNat else s := by
  unfold State.cqTailWrite
  simp only [tailOk_word, toNat_word_mod]

/-- RLOG_TAIL moves where the ratio log holds what lies between, and else stays. -/
theorem State.rlogTailWrite_word (page : Nat) : s.rlogTailWrite page w.toNat =
    if (s.reg page VXU.RLOG_HEAD + 2 ^ 32 - w.toNat) % 2 ^ 32 ≤ 2 ^ bits (s.reg page VXU.RLOG_CONFIG) 4 0
      then s.setReg page VXU.RLOG_TAIL w.toNat else s := by
  unfold State.rlogTailWrite
  simp only [tailOk_word, toNat_word_mod]

end

/-! ## The four writes reach their pages -/

section
variable {s : State} {die : Nat} {w : Word} {secure : Bool} {r : RegRow}

/-- Q_HEAD_WRITE writes the head of the queue that QSEL selects. -/
theorem exec_qHeadWrite_reaches (h : s.Reaches (qmgPg die) QMG.Q_HEAD secure ⟨.qmg, die, 0⟩ r) :
    exec (.qHeadWrite die w secure) s = .next (s.qHeadWrite (die * 32768 + s.reg (qmgPg die) QMG.QSEL) w.toNat) :=
  congrArg Host.Outcome.next (State.writeAt_own h (by decide) rfl)

/-- RESUME writes Q_CMD, whose bit 0 lets the queue that QSEL selects go on. -/
theorem exec_resume_reaches (h : s.Reaches (qmgPg die) QMG.Q_CMD secure ⟨.qmg, die, 0⟩ r) :
    exec (.resume die w secure) s = .next
      (if w.toNat.testBit 0 then s.resumeQueue (die * 32768 + s.reg (qmgPg die) QMG.QSEL) else s) :=
  congrArg Host.Outcome.next (State.writeAt_own h (by decide) rfl)

/-- CQ_TAIL_WRITE writes the tail of the completion queue that CQSEL selects. -/
theorem exec_cqTailWrite_reaches (h : s.Reaches (qmgPg die) QMG.CQ_TAIL secure ⟨.qmg, die, 0⟩ r) :
    exec (.cqTailWrite die w secure) s = .next (s.cqTailWrite die (s.reg (qmgPg die) QMG.CQSEL) w.toNat) :=
  congrArg Host.Outcome.next (State.writeAt_own h (by decide) rfl)

/-- An access of the page of a square's VXU wakes the square (R258). -/
theorem State.touchPage_vxu (s : State) (msq : Nat) : s.touchPage ⟨.vxu, msq / 64, msq % 64⟩ = s.ungate msq :=
  congrArg s.ungate (Nat.div_add_mod' msq 64)

/-- RLOG_TAIL_WRITE wakes the square and writes the tail of its ratio log. -/
theorem exec_rlogTailWrite_reaches {msq : Nat}
    (h : s.Reaches (vxuPg msq) VXU.RLOG_TAIL secure ⟨.vxu, msq / 64, msq % 64⟩ r) :
    exec (.rlogTailWrite msq w secure) s = .next ((s.ungate msq).rlogTailWrite (vxuPg msq) w.toNat) := by
  rw [← State.touchPage_vxu]
  exact congrArg Host.Outcome.next (State.writeAt_own h (by decide) rfl)

/-- Waking a square leaves the registers as they are. -/
@[simp] theorem State.ungate_reg (s : State) (msq p o x : Nat) : (s.ungate msq).reg p o x = s.reg p o x := by
  rw [← State.touchPage_vxu, State.touchPage_reg]

end

/-- Settles O35: each write reaches its ring by `exec_*_reaches`, and moves it by the lemma above of that ring. -/
theorem ringRegistersComplete : Obligations.RingRegistersComplete := by
  refine ⟨fun s die q v secure r h hq => ⟨fun hdis hfits => ?taken, fun href => ?refused⟩,
    fun s die q v secure r h hq => ?resume, fun s die cq v secure r h hcq => ?completion,
    fun s msq v secure r h => ?ratio⟩
  case taken => rw [exec_qHeadWrite_reaches h, ← hq, State.qHeadWrite_taken s v hdis hfits]
  case refused => rw [exec_qHeadWrite_reaches h, ← hq, State.qHeadWrite_refused s v href]
  case resume =>
    rw [exec_resume_reaches h, ← hq]
    rfl
  case completion => rw [exec_cqTailWrite_reaches h, ← hcq, State.cqTailWrite_word]
  case ratio => rw [exec_rlogTailWrite_reaches h, State.rlogTailWrite_word, State.ungate_reg, State.ungate_reg]

/-! ## Witnesses: the hypotheses of `RingRegistersComplete` can be met -/

/-- A READY module whose rings hold 16 each: queue 0 of die 0 is disabled and halted with its tail at 5, completion queue
0 and the ratio log of square 0, which is gated, have their heads at 3. -/
def ringModule : State :=
  let s := (readyModule.setReg (qmgPg 0) QMG.Q_TAIL 5).setReg (qmgPg 0) QMG.CQ_HEAD 3
  let s := (s.setReg (vxuPg 0) VXU.RLOG_HEAD 3).setQst 0 { halted := true }
  s.setPwr { s.pwr with gated := [0] }

/-- Its Q_HEAD takes 2, which leaves 3 descriptors in the ring. -/
theorem qHeadWrite_taken_witness :
    ∃ t : State, exec (.qHeadWrite 0 2 true) ringModule = .next t ∧ t.qHead 0 = 2 :=
  ⟨_, (ringRegistersComplete.1 ringModule 0 0 2 true { off := QMG.Q_HEAD, acc := .rw, sel := QMG.QSEL }
    ⟨by decide, by decide, by decide +kernel, by decide⟩ (by decide +kernel)).1 (by decide +kernel) (by decide +kernel),
    by decide +kernel⟩

/-- It refuses 6, which is ahead of the tail. -/
theorem qHeadWrite_refused_witness :
    ∃ t : State, exec (.qHeadWrite 0 6 true) ringModule = .next t ∧ t.qHead 0 = 0 ∧
      t.reg (qmgPg 0) HDR.ERR_STATUS = 2 ^ QMG.E_DB_INVALID :=
  ⟨_, (ringRegistersComplete.1 ringModule 0 0 6 true { off := QMG.Q_HEAD, acc := .rw, sel := QMG.QSEL }
    ⟨by decide, by decide, by decide +kernel, by decide⟩ (by decide +kernel)).2 (.inr (by decide +kernel)),
    by decide +kernel, by decide +kernel⟩

/-- RESUME ends the halt. -/
theorem resume_halted_witness : (ringModule.qst 0).halted = true ∧
    ∃ t : State, exec (.resume 0 1 true) ringModule = .next t ∧ (t.qst 0).halted = false :=
  ⟨by decide +kernel, _, ringRegistersComplete.2.1 ringModule 0 0 1 true
    { off := QMG.Q_CMD, acc := .wo, mask := 0x1, sel := QMG.QSEL }
    ⟨by decide, by decide, by decide +kernel, by decide⟩ (by decide +kernel), by decide +kernel⟩

/-- CQ_TAIL moves to 2, and not to 4, which is ahead of the head. -/
theorem cqTailWrite_witness :
    ∃ t u : State, exec (.cqTailWrite 0 2 true) ringModule = .next t ∧ t.cqreg 0 0 QMG.CQ_TAIL = 2 ∧
      exec (.cqTailWrite 0 4 true) ringModule = .next u ∧ u.cqreg 0 0 QMG.CQ_TAIL = 0 := by
  have hrun := fun v => ringRegistersComplete.2.2.1 ringModule 0 0 v true
    { off := QMG.CQ_TAIL, acc := .rw, sel := QMG.CQSEL }
    ⟨by decide, by decide, by decide +kernel, by decide⟩ (by decide +kernel)
  exact ⟨_, _, hrun 2, by decide +kernel, hrun 4, by decide +kernel⟩

/-- RLOG_TAIL moves to 2, and the gated square wakes. -/
theorem rlogTailWrite_witness :
    ∃ t : State, exec (.rlogTailWrite 0 2 true) ringModule = .next t ∧ t.reg (vxuPg 0) VXU.RLOG_TAIL = 2 ∧
      t.pwr.gated = [] :=
  ⟨_, ringRegistersComplete.2.2.2 ringModule 0 2 true { off := VXU.RLOG_TAIL, acc := .rw }
    ⟨by decide, by decide, by decide +kernel, by decide⟩, by decide +kernel, by decide +kernel⟩

end Sys2Proof.Machine
end

section
/-! PROOFS. Timers of reductions and batches (R135, R150, R158, R353, R354, R358): what each does once its time has come. -/

namespace Sys2Proof.Machine

/-! ## Reductions: DEADLINE, ABORT_GRACE and resends (R353, R354, R358) -/

section
variable {s : State} {rdie rctx chunk b : Nat} {x : RedCtx}

/-- At its DEADLINE an active reduction with an incomplete chunk is aborted. -/
theorem exec_redDeadlineAbort_due (hx : x = s.ctx (ctxKey rdie rctx)) (hd : x.deadline = some b) (ha : x.st = .active)
    (hb : b ≤ s.beat) (hi : s.redIncomplete x = true) :
    exec (.redDeadlineAbort rdie rctx) s = .next (s.redAbort (ctxKey rdie rctx) 1) := by
  show Host.Outcome.next (s.redDeadline (ctxKey rdie rctx)) = _
  unfold State.redDeadline
  simp only [← hx, hd, if_pos (And.intro ha (And.intro hb hi))]

/-- ABORT_GRACE beats after its DEADLINE an active reduction is aborted, complete or not. -/
theorem exec_abortGraceExpire_due (hx : x = s.ctx (ctxKey rdie rctx)) (hd : x.deadline = some b) (ha : x.st = .active)
    (hb : b + cfgGrace x.cfg ≤ s.beat) :
    exec (.abortGraceExpire rdie rctx) s = .next (s.redAbort (ctxKey rdie rctx) 1) := by
  show Host.Outcome.next (s.redGrace (ctxKey rdie rctx)) = _
  unfold State.redGrace
  simp only [← hx, hd, if_pos (And.intro ha hb)]

/-- The first RED_UP of the chunk whose answer is overdue goes out again, marked RESENT; its time starts anew. -/
theorem exec_redResend_due {u : Nat × Pkt × Nat} (hx : x = s.ctx (ctxKey rdie rctx))
    (hu : (x.ups.find? fun u => u.1 == chunk && decide (u.2.2 + s.e2eTimeout ≤ s.beat)) = some u) :
    exec (.redResend rdie rctx chunk) s = .next ((((s.setCtx (ctxKey rdie rctx) { x with
      ups := x.ups.map fun v => if v.2.1 = u.2.1 then (v.1, v.2.1, s.beat) else v }).count (ctxPage (ctxKey rdie rctx))
        RED.RED_RESENDS 1).owe .resend false (32 + 16 * u.2.1.hdr.len)).sendPkt
          { u.2.1 with hdr := { u.2.1.hdr with resent := true } }) := by
  show execRedResend rdie rctx chunk s = _
  unfold execRedResend
  simp only [← hx, hu]

end

/-! ## Who a request comes from, once it is counted -/

section
variable (s : State)

/-- The origin of a request depends on the module's ID and the epochs of its units alone. -/
theorem State.orgOf_congr {t : State} (hid : t.reg fabPg FAB.FAB_ID = s.reg fabPg FAB.FAB_ID) (hb : t.bnd = s.bnd)
    (msq q : Nat) : t.orgOf msq q = s.orgOf msq q := by
  unfold State.orgOf State.modId State.unitEpoch
  rw [hid, hb]

/-- A counter at another offset than FAB_ID leaves the origin of a request as it is. -/
theorem State.orgOf_count {o : Nat} (page n msq q : Nat) (ho : o < 4096) (h : FAB.FAB_ID ≠ o) :
    (s.count page o n).orgOf msq q = s.orgOf msq q :=
  s.orgOf_congr (s.reg_count_other n (regKey_ne_off (by decide) ho h)) (State.count_bnd ..) msq q

theorem State.orgOf_count64 {o : Nat} (page n msq q : Nat) (ho : o < 4096) (h : FAB.FAB_ID ≠ o) :
    (s.count64 page o n).orgOf msq q = s.orgOf msq q :=
  s.orgOf_congr (s.reg_count64_other n (regKey_ne_off (by decide) ho h)) (State.count64_bnd ..) msq q

end

/-! ## Sending a packet leaves the commands in flight as they are (R300 to R310) -/

section
variable (s : State)

@[simp] theorem State.countFree_cmds (page off : Nat) : (s.countFree page off).cmds = s.cmds :=
  (State.count64_cmds ..).trans (State.draw_cmds s)

@[simp] theorem State.owe_cmds (g : OwnRegion) (write : Bool) (n : Nat) : (s.owe g write n).cmds = s.cmds := by
  unfold State.owe; split <;> rfl

@[simp] theorem State.sendFlit_cmds (port : Nat) (f : Flit) : (s.sendFlit port f).cmds = s.cmds := rfl

@[simp] theorem State.sendData_cmds (port : Nat) : (s.sendData port).cmds = s.cmds := State.count64_cmds ..

@[simp] theorem State.sendFull_cmds (port n fuel : Nat) : (s.sendFull port n fuel).cmds = s.cmds := by
  induction fuel generalizing s with
  | zero => rfl
  | succ k ih =>
    unfold State.sendFull
    split
    · exact (ih _).trans (s.sendData_cmds port)
    · rfl

@[simp] theorem State.startPkt_cmds (port : Nat) (p : Pkt) : (s.startPkt port p).cmds = s.cmds :=
  State.sendFull_cmds ..

@[simp] theorem State.pumpFuel_cmds (port fuel : Nat) : (s.pumpFuel port fuel).cmds = s.cmds := by
  induction fuel generalizing s with
  | zero => rfl
  | succ k ih =>
    unfold State.pumpFuel
    split
    · split
      · exact (ih _).trans (s.startPkt_cmds port _)
      · rfl
    · rfl

@[simp] theorem State.sendIdle_cmds (port fuel : Nat) : (s.sendIdle port fuel).cmds = s.cmds := by
  induction fuel generalizing s with
  | zero => rfl
  | succ k ih =>
    unfold State.sendIdle
    extract_lets x
    split
    · exact (ih _).trans (s.sendFlit_cmds port _)
    · rfl

@[simp] theorem State.pump_cmds (port : Nat) : (s.pump port).cmds = s.cmds := by
  unfold State.pump
  rw [State.sendIdle_cmds, State.sendFull_cmds, State.pumpFuel_cmds]

@[simp] theorem State.forward_cmds (from_ : Option Nat) (p : Pkt) : (s.forward from_ p).cmds = s.cmds := by
  unfold State.forward State.forwardBut
  split
  · rw [State.err_cmds, State.count_cmds]
  · exact State.pump_cmds ..

@[simp] theorem State.inject_cmds (p : Pkt) : (s.inject p).cmds = s.cmds := by
  unfold State.inject
  extract_lets dst t x q u
  split
  · rw [State.forward_cmds, State.owe_cmds, State.setTx_cmds, State.count64_cmds]
  · rw [State.forward_cmds, State.count64_cmds]

@[simp] theorem State.sendOne_cmds (d : Nat) (p : Pkt) : (s.sendOne d p).cmds = s.cmds := by
  unfold State.sendOne
  split
  · rfl
  · split
    · exact State.countFree_cmds ..
    · exact s.inject_cmds p

@[simp] theorem State.sendPkt_cmds (p : Pkt) : (s.sendPkt p).cmds = s.cmds := by
  unfold State.sendPkt
  extract_lets q
  split
  · exact (State.err_cmds ..).trans (State.count_cmds ..)
  · exact List.foldlRecOn _ _ (motive := fun t : State => t.cmds = s.cmds) rfl fun t ht p _ =>
      (t.sendOne_cmds _ p).trans ht

@[simp] theorem State.sendF0_cmds (msq dst job : Nat) (b : Body) : (s.sendF0 msq dst job b).cmds = s.cmds :=
  State.sendPkt_cmds ..

end

/-! ## Batches (R135, R150, R158) -/

section
variable {s : State} {cmd target : Nat} {c : Cmd}

/-- The open batch of a sampler for a module is sent. -/
theorem exec_kntBatchTimeout_open {x : SampleCtx} {es : List SampleEntry} (hc : s.cmd? cmd = some c)
    (hx : c.ctx = .sample x) (ho : SMap.find target x.open_ = some es) :
    exec (.kntBatchTimeout cmd target) s = .next (((s.count (kntPg c.msq) KNT.REMOTE_REQUESTS es.length).sendF0 c.msq
      target c.desc.job (.sampleReq (s.orgOf c.msq c.q) c.id (sampleParams c.desc x) es)).mapCmd cmd fun d => { d with
        ctx := .sample { x with
          open_ := x.open_.filter (·.1 != target), sent := x.sent ++ [(target, es.map (·.dst))] } }) := by
  show execKntBatchTimeout cmd target s = _
  unfold execKntBatchTimeout State.sendSample
  simp only [hc, hx, ho, s.orgOf_count _ _ _ _ (show KNT.REMOTE_REQUESTS < 4096 by decide) (by decide)]

/-- The open batch of a gather for a module is sent. -/
theorem exec_rookReadBatchTimeout_open {x : GatherCtx} {es : List Fetch} (hc : s.cmd? cmd = some c)
    (hx : c.ctx = .gather x) (ho : SMap.find target x.open_ = some es) :
    exec (.rookReadBatchTimeout cmd target) s = .next (((s.count64 (rookPg c.msq) ROOK.REMOTE_READS es.length).sendF0
      c.msq target c.desc.job (.readReq (s.orgOf c.msq c.q) c.id (es.map fun f =>
        { table := f.table, node := f.node, plane := rgPlane c.desc, tag := f.tag, strict := f.strict.getD true
          }))).mapCmd cmd fun d => { d with
        ctx := .gather { x with
          open_ := x.open_.filter (·.1 != target), sent := x.sent ++ es.map fun f => (target, f) } }) := by
  show execRookReadBatchTimeout cmd target s = _
  unfold execRookReadBatchTimeout State.sendReads
  simp only [hc, hx, ho, s.orgOf_count64 _ _ _ _ (show ROOK.REMOTE_READS < 4096 by decide) (by decide)]

/-- The one open batch of a scatter for a module is sent where its square has room, and kept open otherwise. -/
theorem exec_rookScatterBatchTimeout_scatter {x : ScatterCtx} {b : Nat × List ScatterEntry} (hc : s.cmd? cmd = some c)
    (hx : c.ctx = .scatter x) (hb : (x.open_.filter fun b => b.1 / 512 == target) = [b]) :
    exec (.rookScatterBatchTimeout cmd target) s = .next (if s.batchRoom c.id x.sent (b.1 % 512)
      then (s.sendScatter c x b).1.mapCmd cmd fun d => { d with ctx := .scatter (s.sendScatter c x b).2 }
      else s.mapCmd cmd fun d => { d with ctx := .scatter x }) := by
  show execRookScatterBatchTimeout cmd target s = _
  unfold execRookScatterBatchTimeout State.trySendScatter
  simp only [hc, hx, hb, List.foldl_cons, List.foldl_nil]
  split <;> rfl

/-- The one open batch of a store for a module is sent where its square has room, and kept open otherwise. -/
theorem exec_rookScatterBatchTimeout_store {x : StoreCtx} {b : Nat × List StoreEntry} (hc : s.cmd? cmd = some c)
    (hx : c.ctx = .store x) (hb : (x.open_.filter fun b => b.1 / 512 == target) = [b]) :
    exec (.rookScatterBatchTimeout cmd target) s = .next (if s.batchRoom c.id x.sent c.msq
      then (s.sendStores c x b).1.mapCmd cmd fun d => { d with ctx := .store (s.sendStores c x b).2 }
      else s.mapCmd cmd fun d => { d with ctx := .store x }) := by
  show execRookScatterBatchTimeout cmd target s = _
  unfold execRookScatterBatchTimeout State.trySendStores
  simp only [hc, hx, hb, List.foldl_cons, List.foldl_nil]
  split <;> rfl

/-- A command is changed alike by changes that agree on the commands with its id. -/
theorem State.mapCmd_congr {id : Nat} {f g : Cmd → Cmd} (h : ∀ d ∈ s.cmds, d.id = id → f d = g d) :
    s.mapCmd id f = s.mapCmd id g := by
  have hmap : (s.cmds.map fun d => if d.id = id then f d else d) = s.cmds.map fun d => if d.id = id then g d else d :=
    List.map_congr_left fun d hd => ite_congr rfl (h d hd) fun _ => rfl
  unfold State.mapCmd
  rw [hmap]

/-- The clause of O55 on a store whose square has room, where every command with its id is of its square. -/
theorem exec_rookScatterBatchTimeout_store_room {x : StoreCtx} {key : Nat} {es : List StoreEntry}
    (hc : s.cmd? cmd = some c) (hx : c.ctx = .store x)
    (hb : (x.open_.filter fun b => b.1 / 512 == target) = [(key, es)]) (hroom : s.batchRoom c.id x.sent c.msq = true)
    (hsq : ∀ d ∈ s.cmds, d.id = cmd → d.msq = c.msq) :
    exec (.rookScatterBatchTimeout cmd target) s = .next ((s.sendF0 c.msq (key / 512) c.desc.job
      (.store (s.orgOf c.msq c.q) c.id x.tok es)).mapCmd cmd fun d => { d with ctx := .store { x with
        open_ := x.open_.filter (·.1 != key), tok := x.tok + 1
        sent := x.sent ++ [{ tok := x.tok, target := key / 512, left := es.length, sq := d.msq }] } }) := by
  rw [exec_rookScatterBatchTimeout_store hc hx hb, if_pos hroom]
  refine congrArg Host.Outcome.next (State.mapCmd_congr fun d hd hid => ?_)
  rw [hsq d (s.sendF0_cmds .. ▸ hd) hid]
  rfl

end

/-! ## A store whose id another square's command has too -/

/-- A store with one row in an open batch for module 1. -/
def openStore : StoreCtx :=
  { todo := [], open_ := [(512, [{ table := 3, node := 0, plane := 0, part := 0, codes := [1], adj := [] }])] }

/-- That store as command 6 of a square. -/
def storeOf (msq : Nat) : Cmd :=
  { id := 6, q := 0, msq := msq, desc := [0x52, 0, 0, 0, 0, 0, 0, 0, 0, 0, 0, 0, 0, 0, 0, 0], ctx := .store openStore }

/-- A module where each of some squares runs it: commands with one id. -/
def storesOn (msqs : List Nat) : State := { State.reset with cmds := msqs.map storeOf }

/-- The squares by which each command in flight counts its unacknowledged batches. -/
def State.batchSquares (s : State) : List (List Nat) := s.cmds.map fun c => c.unacked.map (·.sq)

/-- Where square 1 alone runs it, the timeout sends its batch and notes square 1. -/
theorem store_room_witness : ∃ t : State,
    exec (.rookScatterBatchTimeout 6 1) (storesOn [1]) = .next t ∧ t.batchSquares = [[1]] := by
  refine ⟨_, exec_rookScatterBatchTimeout_store_room (c := storeOf 1) (x := openStore) rfl rfl rfl (by decide +kernel)
    (by decide), ?_⟩
  unfold State.batchSquares State.mapCmd
  rw [State.sendF0_cmds]
  rfl

/-- Where squares 0 and 1 run it, the timeout sends the batch of square 0 and notes square 0 in both commands. -/
theorem store_sharedId_witness : ∃ t : State,
    exec (.rookScatterBatchTimeout 6 1) (storesOn [0, 1]) = .next t ∧ t.batchSquares = [[0], [0]] := by
  have hrun := exec_rookScatterBatchTimeout_store (s := storesOn [0, 1]) (cmd := 6) (target := 1) (c := storeOf 0)
    (x := openStore) rfl rfl rfl
  rw [if_pos (by decide +kernel)] at hrun
  refine ⟨_, hrun, ?_⟩
  unfold State.batchSquares State.mapCmd State.sendStores
  rw [State.sendF0_cmds]
  rfl

/-- Refutes O55 in its clause on stores: the `c` of `sq := c.msq` there is the command that `mapCmd` changes, while the
device notes the square of the command it found. Where squares 0 and 1 run commands of one id, which the statement does
not exclude, it asks for a batch of square 1 in the second, and the device notes one of square 0. Where the commands of an
id are of one square that clause holds (`exec_rookScatterBatchTimeout_store_room`), and the others hold as the lemmas
above say. -/
theorem not_timersComplete : ¬ Obligations.TimersComplete := by
  unfold Obligations.TimersComplete
  intro ⟨_, _, hbatches⟩
  obtain ⟨-, -, -, hstore⟩ := hbatches (storesOn [0, 1]) 6 1 (storeOf 0) rfl
  obtain ⟨hsent, -⟩ := hstore openStore 512 _ rfl rfl
  obtain ⟨t, ht, hasked⟩ := hsent (by decide +kernel)
  obtain ⟨u, hu, hnoted⟩ := store_sharedId_witness
  obtain rfl : t = u := Host.Outcome.next.inj (ht.symm.trans hu)
  have hwanted : t.batchSquares = [[0], [1]] := by
    rw [hasked]
    unfold State.batchSquares State.mapCmd
    rw [State.sendF0_cmds]
    rfl
  rw [hnoted] at hwanted
  exact absurd hwanted (by decide)

end Sys2Proof.Machine
end

section
/-! PROOFS. Commands of the Knight, the Rook and the placement engine (06, 07, R172 to R181, R190): what each does once it
starts. -/

namespace Sys2Proof.Machine

/-! ## PLC_TABLE, PLC_STEP and PLC_DROP (R172, R176, R190) -/

/-- A word of a descriptor's body has 32 bits. -/
theorem Desc.b_lt (d : Desc) (i : Nat) : Desc.b d i < 2 ^ 32 := BitVec.isLt _

/-- The beat that a PLC_STEP declares has 64 bits. -/
theorem stepBeat_lt (d : Desc) : stepBeat d < 2 ^ 64 := by
  have hlow := Desc.b_lt d 1
  have hhigh := Desc.b_lt d 2
  unfold stepBeat
  omega

section
variable (s t : State) (q job table : Nat) (d : Desc)

/-- A command done at once with no information joins the commands in flight as done. -/
theorem State.doneWith_none : t.doneWith (s.newCmd q d) 0 0 = t.addCmd { s.newCmd q d with done := true } := by
  unfold State.doneWith
  rw [Nat.zero_min]
  rfl

@[simp] theorem State.addCmd_cmds (c : Cmd) : (t.addCmd c).cmds = t.cmds ++ [c] := rfl

/-- A table dropped has no definition. -/
theorem State.dropTable_tables : SMap.find (job * 4096 + table) (s.dropTable job table).plc.tables = none :=
  SMap.find_del_same _ _

/-- A table dropped has no row. -/
theorem State.dropTable_rows {p : RowKey × Row} (hp : p ∈ (s.dropTable job table).plc.rows) :
    ¬ (p.1.job = job ∧ p.1.table = table) := by
  unfold State.dropTable at hp
  have hkept := (List.mem_filter.mp hp).2
  rintro ⟨hjob, htable⟩
  simp [hjob, htable] at hkept

end

section
variable {s : State} {q : Nat} {d : Desc}

theorem exec_plcTable_begins (h : s.begins q d tableCheck = true) : exec (.plcTable q d) s =
    .next (((s.begun q d tableCheck).setPlc { (s.begun q d tableCheck).plc with
      tables := SMap.put (d.job * 4096 + bits (d.b 0) 31 20) (bodyTbl d).ws (s.begun q d tableCheck).plc.tables }).addCmd
        { s.newCmd q d with done := true }) :=
  (next_command _ h).trans (congrArg Host.Outcome.next (State.doneWith_none ..))

theorem exec_plcStep_begins (h : s.begins q d stepCheck = true) : exec (.plcStep q d) s =
    .next ((((s.begun q d stepCheck).setReg plcPg PLC.JOB_STEP (d.b 0) d.job).setReg plcPg PLC.JOB_NEXT_BEAT (stepBeat d)
      d.job).addCmd { s.newCmd q d with done := true }) :=
  (next_command _ h).trans (congrArg Host.Outcome.next (State.doneWith_none ..))

theorem exec_plcDrop_begins (h : s.begins q d dropCheck = true) : exec (.plcDrop q d) s =
    .next (((s.begun q d dropCheck).dropTable d.job (bits (d.b 0) 31 20)).addCmd { s.newCmd q d with done := true }) :=
  (next_command _ h).trans (congrArg Host.Outcome.next (State.doneWith_none ..))

end

/-- Settles O23: each command is done at once by its equation above; the registers that PLC_STEP writes keep their words,
and what PLC_DROP leaves is what `State.dropTable` does. -/
theorem tableCommandsComplete : Obligations.TableCommandsComplete := by
  refine ⟨fun s u q d h hu => ?table, fun s u q d h hu => ?step, fun s q d h => ?drop⟩
  case table =>
    have hrun := exec_plcTable_begins h
    rw [← hu] at hrun
    exact ⟨_, hrun, SMap.find_put_same .., rfl, rfl, rfl, State.addCmd_cmds ..⟩
  case step =>
    have hrun := exec_plcStep_begins h
    rw [← hu] at hrun
    refine ⟨_, hrun, ?_, ?_, by simp, by simp, by simp⟩
    · rw [State.addCmd_reg, State.reg_setReg_other _ _ (regKey_ne_off (by decide) (by decide) (by decide)),
        State.reg_setReg_same _ _ _ _ _ (Nat.lt_trans (Desc.b_lt d 0) (by decide))]
    · rw [State.addCmd_reg, State.reg_setReg_same _ _ _ _ _ (stepBeat_lt d), stepBeat]
  case drop =>
    refine ⟨_, exec_plcDrop_begins h, ?_, fun p hp => ?_, by simp⟩
    · rw [State.addCmd_plc, State.dropTable_tables]
    · rw [State.addCmd_plc] at hp
      exact State.dropTable_rows _ _ _ hp

/-! ## PLC_KEEP, PLC_ROLLBACK, PLC_LOAD and the commands of the Knight and the Rook (R175, R180, R181) -/

/-- Settles O24: `next_command` runs each command; a rollback ends with what its rows have come to. -/
theorem keepRollbackComplete : Obligations.KeepRollbackComplete := by
  refine ⟨fun s q d h => next_command _ h, fun s q d h u x hrows => ?_⟩
  refine (next_command _ h).trans (congrArg Host.Outcome.next ?_)
  simp only
  rw [← hrows]
  rfl

/-- Settles O22: `next_command` runs each command. -/
theorem knightRookCommandsComplete : Obligations.KnightRookCommandsComplete := by
  refine ⟨fun s q d h => ?sample, fun s q d h => ?table, fun s q d h => ⟨?gather, ?store⟩, fun s q d h => ?scatter,
    fun s q d h => ⟨?settle, ?drain⟩, fun s q d h => ?release, fun s q d h => ?load⟩
  all_goals exact next_command _ h

end Sys2Proof.Machine
end

section
/-! PROOFS. Select registers (R198, R244, R296, R360, R382): the shadows that a write drops, and how each write reaches its
page. -/

namespace Sys2Proof.Machine

/-! ## The shadows of a window -/

section
variable {α : Type} {k : Nat} {p : Nat × α → Bool}

/-- A key all of whose pairs a filter drops is found no more. -/
theorem SMap.find_filter_dropped (h : ∀ v, p (k, v) = false) (m : List (Nat × α)) : SMap.find k (m.filter p) = none := by
  induction m with
  | nil => rfl
  | cons c m ih =>
    obtain ⟨a, v⟩ := c
    by_cases hp : p (a, v) = true
    · have hne : a ≠ k := by rintro rfl; simp [h v] at hp
      rw [List.filter_cons_of_pos hp, SMap.find, if_neg hne, ih]
    · rw [List.filter_cons_of_neg hp, ih]

/-- A key all of whose pairs a filter keeps is found as before. -/
theorem SMap.find_filter_kept (h : ∀ v, p (k, v) = true) (m : List (Nat × α)) :
    SMap.find k (m.filter p) = SMap.find k m := by
  induction m with
  | nil => rfl
  | cons c m ih =>
    obtain ⟨a, v⟩ := c
    by_cases hp : p (a, v) = true
    · rw [List.filter_cons_of_pos hp, SMap.find, SMap.find, ih]
    · have hne : a ≠ k := by rintro rfl; exact hp (h v)
      rw [List.filter_cons_of_neg hp, SMap.find, if_neg hne, ih]

end

section
variable (s : State) {i : PageInfo} {page off v k : Nat}

/-- A select write drops the shadows of the registers of its window. -/
theorem State.selectWrite_shadow_window (hk : keyPage k = page)
    (h : ∃ c, c ∈ pageRows i.pt i.inst ∧ c.sel = off ∧ c.off = keyOff k) :
    SMap.find k (s.selectWrite i page off v).regs.shadow = none := by
  refine SMap.find_filter_dropped (fun x => ?_) s.regs.shadow
  simpa [hk, and_assoc] using h

/-- It keeps every other shadow. -/
theorem State.selectWrite_shadow_other
    (h : keyPage k ≠ page ∨ ∀ c, c ∈ pageRows i.pt i.inst → c.sel = off → c.off ≠ keyOff k) :
    SMap.find k (s.selectWrite i page off v).regs.shadow = SMap.find k s.regs.shadow := by
  refine SMap.find_filter_kept (fun x => ?_) s.regs.shadow
  simpa [imp_iff_not_or, or_assoc] using h

/-- Setting a register keeps every other live value. -/
theorem State.live_setReg_other {p o x w : Nat} (h : k ≠ regKey p w o) :
    SMap.find k (s.setReg p o x w).regs.live = SMap.find k s.regs.live := by
  unfold State.setReg
  extract_lets key live
  by_cases e : x = regReset s.variant p o
  · exact (congrArg (SMap.find k) (if_pos e)).trans (SMap.find_del_other h _)
  · exact (congrArg (SMap.find k) (if_neg e)).trans (SMap.find_put_other h _ _)

end

/-! ## The writes reach their pages -/

/-- A select register is a block register, not the control register, of a page that is not a square's. -/
theorem selects_block {pt : PT} {off : Nat} (h : selects pt off = true) :
    0x100 ≤ off ∧ ctrlOff pt ≠ some off ∧ pt.ofSquare = false := by
  cases pt with
  | qmg =>
    rcases (Bool.or_eq_true _ _).mp h with h | h <;> obtain rfl := beq_iff_eq.mp h <;> decide
  | plc | bnd | red | far =>
    obtain rfl := beq_iff_eq.mp h
    decide
  | _ => cases h

/-- A write that reaches a select register selects the window of the bits that are not reserved. -/
theorem State.writeAt_select {s : State} {i : PageInfo} {r : RegRow} {page off v src : Nat} {secure : Bool}
    (h : s.Reaches page off secure i r) (hs : selects i.pt off = true) :
    s.writeAt page off v secure src = s.selectWrite i page off (v &&& r.mask) := by
  obtain ⟨hblock, hctrl, hsq⟩ := selects_block hs
  obtain ⟨-, hrow, -, -⟩ := id h
  have htouch : s.touchPage i = s := by
    unfold State.touchPage
    rw [hsq]
    rfl
  refine State.writeAt_own h hblock ?_
  unfold State.blockWrite
  rw [htouch, if_neg hctrl, if_pos hs, hrow]
  rfl

/-- Settles O36: what a select write does to shadows and live values the lemmas above say, and each of the six writes is one
by `State.writeAt_select`. -/
theorem selectRegistersComplete : Obligations.SelectRegistersComplete := by
  refine ⟨fun s i page off v hv => ⟨State.reg_setReg_same _ _ _ _ _ hv, fun k hk h => s.selectWrite_shadow_window hk h,
    fun k h => s.selectWrite_shadow_other h, fun k hk => State.live_setReg_other _ hk, rfl⟩,
    fun s die v secure r => ⟨?_, ?_, ?_, ?_, ?_, ?_⟩⟩
  all_goals
    intro h
    exact congrArg Host.Outcome.next (State.writeAt_select h rfl)

end Sys2Proof.Machine
end

section
/-! PROOFS. Migrations, boundaries and the decay of the sketch (R189 to R199): what each row does once its time has come, and
what a write of the directory does to the commands in flight (R279, R282, R283). -/

namespace Sys2Proof.Machine

/-! ## Writes of memory and the commands that wait for lines (R279 to R283)

A write may find the buffer full, and writes the oldest line back; a command that waits for that line then waits for one line
fewer, and a FENCE with none left is done. -/

/-- The commands in flight of t are those of s once some lines have been written back. -/
def FlushedTo (s t : State) : Prop := ∃ lines : List Nat, t.cmds = lines.foldl (fun l a => l.map (lineFlushed a)) s.cmds

section
variable {s t u : State}

theorem FlushedTo.of_cmds (h : t.cmds = s.cmds) : FlushedTo s t := ⟨[], h⟩

theorem FlushedTo.trans (h : FlushedTo s t) (k : FlushedTo t u) : FlushedTo s u := by
  obtain ⟨l, hl⟩ := h
  obtain ⟨m, hm⟩ := k
  exact ⟨l ++ m, by rw [hm, hl, List.foldl_append]⟩

/-- A command that is done stays done when a line is written back. -/
theorem lineFlushed_done {line : Nat} {c : Cmd} (h : c.done = true) : (lineFlushed line c).done = true := by
  unfold lineFlushed
  split <;> simp [h]

/-- Some command in flight that is done stays in flight and done. -/
theorem FlushedTo.some_done (h : FlushedTo s t) (hd : ∃ c ∈ s.cmds, c.done = true) :
    ∃ c ∈ t.cmds, c.done = true := by
  obtain ⟨lines, hl⟩ := h
  rw [hl]
  refine List.foldlRecOn lines _ (motive := fun l : List Cmd => ∃ c ∈ l, c.done = true) hd fun l ⟨c, hc, hdone⟩ a _ => ?_
  exact ⟨lineFlushed a c, List.mem_map_of_mem hc, lineFlushed_done hdone⟩

end

section
variable (s : State)

@[simp] theorem State.wordMerge_cmds (wa : Nat) (data : List (Option Byte)) (poison : Bool) :
    (s.wordMerge wa data poison).1.cmds = s.cmds := rfl

@[simp] theorem State.addRepair_cmds (line : Nat) : (s.addRepair line).cmds = s.cmds := by
  unfold State.addRepair
  extract_lets row pg
  split <;> rfl

@[simp] theorem State.writebackWords_cmds (e : WcbEntry) : (s.writebackWords e).1.cmds = s.cmds := by
  unfold State.writebackWords
  refine (foldl_leaves (fun a : State × Bool × Nat => a.1.cmds) _ _ _ fun a k => ?_).trans rfl
  obtain ⟨t, rmw, ue⟩ := a
  show (ite _ _ _ : State × Bool × Nat).1.cmds = t.cmds
  split <;> rfl

/-- A line written back frees the commands that wait for it. -/
theorem State.writeback_cmds (e : WcbEntry) : (s.writeback e).cmds = s.cmds.map (lineFlushed e.line) := by
  have hwords := s.writebackWords_cmds e
  unfold State.writeback
  extract_lets st wp
  split
  next t rmw ue ht =>
  rw [ht] at hwords
  extract_lets t1 t2 t3 t4
  have h3 : t3.cmds = t2.cmds := by
    show (if rmw then (t2.count64 wp WCB.RMW_WRITEBACKS 1).count64 (hbmPg st) HBM.LINE_READS 1 else t2).cmds = _
    split <;> simp
  have h4 : t4.cmds = t3.cmds := by
    show (if ue = 0 then t3 else _).cmds = _
    split <;> simp
  show t4.cmds.map (lineFlushed e.line) = _
  rw [h4, h3, State.count64_cmds, State.count64_cmds, hwords]

/-- A write of a line with no entry, in a pseudo-channel whose buffer is full, writes the oldest line back (R279). -/
theorem State.wcbWrite_full {addr : Nat} {e : WcbEntry} {l : List WcbEntry} (data : List Byte) (bad : List Nat)
    (hnone : s.wcbFind (addr / 64 * 64) = none)
    (hfull : s.pcEntries (s.linePc (addr / 64 * 64)) = e :: l) (hl : 63 ≤ l.length) :
    (s.wcbWrite addr data bad).cmds = s.cmds.map (lineFlushed e.line) := by
  unfold State.pcEntries at hfull
  unfold State.wcbWrite
  simp only [hnone, hfull, List.length_cons, ge_iff_le, if_pos (Nat.succ_le_succ hl)]
  rw [State.countFree_cmds, State.count_cmds, State.writeback_cmds]

theorem State.wcbWrite_flushes (addr : Nat) (data : List Byte) (bad : List Nat) :
    FlushedTo s (s.wcbWrite addr data bad) := by
  unfold State.wcbWrite
  extract_lets line off wp ms pc mine t e
  split
  · exact .of_cmds (State.count64_cmds ..)
  · suffices h : FlushedTo s t from h
    clear_value mine
    show FlushedTo s (ite _ _ _)
    split
    · split
      · next e' _ _ _ =>
        exact ⟨[e'.line], by rw [State.countFree_cmds, State.count_cmds, State.writeback_cmds]; rfl⟩
      · exact .of_cmds rfl
    · exact .of_cmds rfl

@[simp] theorem State.plainWrite_cmds (a : Nat) (data : List Byte) (ue : List Nat) :
    (s.plainWrite a data ue).cmds = s.cmds :=
  foldl_leaves State.cmds _ _ s fun t _ => t.wordMerge_cmds ..

@[simp] theorem State.regionLog_cmds (r : Req) (a : Nat) (o : RegionOut) : (s.regionLog r a o).cmds = s.cmds := by
  unfold State.regionLog State.violation
  cases o <;> simp

theorem State.pieceWrite_flushes (r : Req) (a : Nat) (data : List Byte) (ue : List Nat) :
    FlushedTo s (s.pieceWrite r a data ue).st := by
  unfold State.pieceWrite
  extract_lets checked
  have hchecked (f : State → State) (hf : FlushedTo s (f s)) : FlushedTo s (checked f).st := by
    unfold checked
    split
    · exact hf
    · exact .of_cmds (State.regionLog_cmds ..)
  clear_value checked
  split
  · exact hchecked _ (s.wcbWrite_flushes ..)
  · refine hchecked _ (.of_cmds ?_)
    split
    · simp
    · split <;> simp
  · exact .of_cmds (by simp)
  · exact .of_cmds (by simp)
  · exact .of_cmds rfl
  · exact .of_cmds rfl

/-- A write of the device into HBM enters the buffers (R279, R426). -/
theorem State.pieceWrite_hbm {a stack : Nat} (h : areaOf s.variant a = .hbm stack) (data : List Byte) (ue : List Nat) :
    (s.pieceWrite Req.device a data ue).st =
      s.wcbWrite a data ((touchedWords (a % 64) data.length).filter fun k => ue.contains (a / 64 * 4 + k)) := by
  unfold State.pieceWrite
  simp only [h]
  rfl

/-- A write of memory changes the commands in flight only by the lines that it has written back. -/
theorem State.memWrite_flushes (r : Req) (a : Nat) (data : List Byte) (ue : List Nat) :
    FlushedTo s (s.memWrite r a data ue).st := by
  unfold State.memWrite
  exact List.foldlRecOn _ _ (motive := fun m : WrRes => FlushedTo s m.st) (.of_cmds rfl) fun m hm p _ =>
    hm.trans (m.st.pieceWrite_flushes ..)

/-! ## The directory (R182, R183) -/

@[simp] theorem State.follow_cmds (job : Nat) (item : ShadowItem) : (s.follow job item).cmds = s.cmds := by
  unfold State.follow
  split
  · split
    · exact (State.count64_cmds ..).trans (State.sendPkt_cmds ..)
    · rfl
  · rfl

/-- An entry that has a place is written there, in both copies. -/
theorem State.dirPut_cmds {e : DirEntry} {p : Nat} (h : s.dirPlace e.key = some p) : (s.dirPut e).1.cmds =
    ((s.setPlc { s.plc with dir := SMap.put p e s.plc.dir }).dirMirror p e.image).cmds := by
  unfold State.dirPut
  simp only [h]
  split
  · exact State.follow_cmds ..
  · split
    · exact State.follow_cmds ..
    · rfl

/-- The write of the second copy follows that of the first. -/
theorem State.dirMirror_flushes (place image : Nat) :
    FlushedTo (s.memWrite Req.device (s.reg plcPg PLC.DIR_BASE0 + 16 * place) (leBytes 16 image)).st
      (s.dirMirror place image) :=
  State.memWrite_flushes ..

/-- A change of the directory changes the commands in flight only by the lines written back. -/
theorem State.setPlc_dirMirror_flushes (x : PlcState) (place image : Nat) :
    FlushedTo s ((s.setPlc x).dirMirror place image) :=
  ((FlushedTo.of_cmds (s.setPlc_cmds x)).trans (State.memWrite_flushes ..)).trans (State.dirMirror_flushes ..)

theorem State.dirPut_flushes (e : DirEntry) : FlushedTo s (s.dirPut e).1 := by
  cases h : s.dirPlace e.key with
  | some p => exact (s.setPlc_dirMirror_flushes _ p e.image).trans (.of_cmds (s.dirPut_cmds h))
  | none =>
    unfold State.dirPut
    rw [h]
    exact .of_cmds (by simp)

theorem State.dirDel_flushes (k : RowKey) : FlushedTo s (s.dirDel k) := by
  unfold State.dirDel
  split
  · next p e _ =>
    have hmirror := s.setPlc_dirMirror_flushes { s.plc with dir := SMap.del p s.plc.dir } p 0
    extract_lets t
    split
    · exact hmirror.trans (.of_cmds (State.follow_cmds ..))
    · exact hmirror
  · exact .of_cmds rfl

end

/-! ## Migrations, boundaries, the decay (Table 8.5, R189, R190, R193 to R196) -/

section
variable {s : State} {k : RowKey} {m : MigOut}

theorem exec_migrationPrepare_list (hm : s.migOut k = some m) (hp : m.phase = .chosen) (ha : m.affinity = false)
    (hmark : (s.row k).pend = false) (ho : s.owns k = true) :
    exec (.migrationPrepare k) s = .next ((((s.putOut { m with phase := .prepare }).rowVisit k).count plcPg
      PLC.MIG_STARTED 1).plcSend m.dest k.job (.migCopy k (s.row k) true)) := by
  show Host.Outcome.next (s.migPrepare k) = _
  unfold State.migPrepare
  simp [hm, hp, ha, hmark, ho]

theorem exec_flipNoticeSend_due {b : Nat} (hm : s.migOut k = some m) (hp : m.phase = .forward) (ha : m.affinity = true)
    (hf : m.flip = some b) (hb : b ≠ 0) (hlead : m.since + s.flipLead ≤ b) (hbeat : s.beat + s.flipLead = b) :
    exec (.flipNoticeSend k) s = .next ((s.otherMembers k.job).foldl (fun t x =>
      t.plcSend x k.job (.flipNotice k m.dest b t.modId)) (s.putOut { m with phase := .flip, flip := some b })) := by
  show Host.Outcome.next (s.flipNoticeSend k) = _
  unfold State.flipNoticeSend
  simp only [hm, hf]
  rw [if_pos ⟨hp, ha, hb, hlead, hbeat⟩]
  rfl

theorem exec_migrationTransfer_due {b : Nat} {n : MigOut} (hm : s.migOut k = some m) (hf : m.flip = some b)
    (hp : m.phase = .flip) (hb : b ≤ s.beat) (hmark : (s.row k).pend = false)
    (hr : (s.plc.refreshes.any fun r => r.1 == k) = false) (hw : (s.plc.waits.any fun w => w.key == k) = false)
    (hn : (s.sendChange k .transfer).migOut k = some n) {u : State}
    (hu : u = ((s.sendChange k .transfer).putOut { n with phase := .sent, sentAt := (s.sendChange k .transfer).beat }).count
      plcPg PLC.MIG_TRANSFERRED 1) :
    exec (.migrationTransfer k) s =
      .next (if (u.shadowOf k (u.row k)).isSome then u.follow k.job (.remove k) else u) := by
  show Host.Outcome.next (s.migTransfer k) = _
  unfold State.migTransfer
  simp only [hm, hf]
  rw [if_pos ⟨.inl hp, hb, hmark, by rw [hr]; rfl, by rw [hw]; rfl⟩]
  simp only [hn]
  rw [← hu]

/-- The old home frees its copy, and its directory names the new home where it is the default home, or nothing. -/
theorem exec_retire_due (hm : s.migOut k = some m) (hp : m.phase = .sent)
    (hb : max (m.flip.getD 0) m.sentAt + bits (s.reg plcPg PLC.PLC_CONFIG) 15 0 ≤ s.beat) {u : State}
    (hu : u = (s.delOut k).setPlc { (s.delOut k).plc with rows := kdel k s.plc.rows }) :
    exec (.retire k) s = .next (if u.homeIn (u.job k.job).members k = u.modId
      then (u.dirPut { kind := 1, key := k, owner := m.dest }).1 else u.dirDel k) := by
  show Host.Outcome.next (s.retire k) = _
  unfold State.retire
  simp only [hm]
  rw [if_pos ⟨hp, hb⟩, ← hu]

/-- So a RETIRE changes the commands in flight only by the lines that its write of the directory has written back. -/
theorem exec_retire_flushes (hm : s.migOut k = some m) (hp : m.phase = .sent)
    (hb : max (m.flip.getD 0) m.sentAt + bits (s.reg plcPg PLC.PLC_CONFIG) 15 0 ≤ s.beat) :
    ∃ t : State, exec (.retire k) s = .next t ∧ FlushedTo s t := by
  refine ⟨_, exec_retire_due hm hp hb rfl, ?_⟩
  have hfreed : FlushedTo s ((s.delOut k).setPlc { (s.delOut k).plc with rows := kdel k s.plc.rows }) := .of_cmds rfl
  split
  · exact hfreed.trans (State.dirPut_flushes ..)
  · exact hfreed.trans (State.dirDel_flushes ..)

theorem exec_plcBoundary_due {job : Nat} (h : s.boundaryDue job = true) {u : State}
    (hu : u = (s.setReg plcPg PLC.JOB_NEXT_BEAT 0 job).setPlc { s.plc with
        lastB := SMap.put job (s.reg plcPg PLC.JOB_NEXT_BEAT job) s.plc.lastB
        eff := SMap.put job ((s.setReg plcPg PLC.JOB_NEXT_BEAT 0 job).reg plcPg PLC.JOB_THRESH job,
          (s.setReg plcPg PLC.JOB_NEXT_BEAT 0 job).reg plcPg PLC.JOB_MIG job) s.plc.eff }) :
    exec (.plcBoundary job) s = .next (((((((u.dropLostEntries job).evictReplicas job).surplusHolders job).affinityAll
      job).coldCount job).demote job).raise job).moveWaits := by
  show Host.Outcome.next (s.plcBoundary job).moveWaits = _
  unfold State.plcBoundary
  rw [if_pos h, hu]
  rfl

/-- A counter of a halved sketch is half of one that was above 1. -/
theorem mem_sketchHalve {h : List (Nat × Nat)} {p : Nat × Nat} :
    p ∈ sketchHalve h ↔ ∃ n, (p.1, n) ∈ h ∧ p.2 = n / 2 ∧ n / 2 ≠ 0 := by
  obtain ⟨a, x⟩ := p
  simp only [sketchHalve, List.mem_filterMap, Prod.exists, Option.ite_none_left_eq_some, Option.some.injEq, Prod.mk.injEq]
  constructor
  · rintro ⟨a, n, hn, h0, rfl, rfl⟩
    exact ⟨n, hn, rfl, h0⟩
  · rintro ⟨n, hn, rfl, h0⟩
    exact ⟨a, n, hn, h0, rfl, rfl⟩

theorem exec_sketchDecay_due (h : s.decayDue = true) : exec .sketchDecay s = .next (s.setPlc { s.plc with
    want := sketchHalve s.plc.want, serve := sketchHalve s.plc.serve, decayed := some s.beat }) :=
  congrArg Host.Outcome.next (if_pos h)

end

/-! ## O59 fails: a RETIRE whose write of the directory completes a FENCE -/

/-- Row 0 of table 0 of job 0, whose bucket is the first of the directory. -/
def movedRow : RowKey := { job := 0, table := 0, row := 0 }

/-- Dirty lines of pseudo-channel 0, to which the first line of memory belongs as well (R271). -/
def dirtyLine (i : Nat) : WcbEntry := { line := 2 ^ 26 * (i + 1), data := List.replicate 64 (some 1), bad := [] }

/-- As many of them as a pseudo-channel's buffer holds, the oldest first (R279). -/
def dirtyLines : List WcbEntry := dirtyLine 0 :: (List.range 63).map fun i => dirtyLine (i + 1)

/-- A READY module with that row transferred to module 1 at beat 0, RETIRE_LEAD being 256 beats; a FENCE waits for the
oldest dirty line. -/
def retiringModule : State := { readyModule with
  beat := 256
  mem := { readyModule.mem with wcb := dirtyLines }
  cmds := [{ id := 0, q := 0, msq := 0, desc := [], ctx := .fence [2 ^ 26] }]
  plc := { readyModule.plc with
    rows := [(movedRow, {})]
    out := [{ key := movedRow, dest := 1, phase := .sent }]
    dir := [(0, { kind := 3, key := movedRow, owner := 1 })] } }

/-- The module once its copy of the row is freed, its directory not yet changed. -/
def freedModule : State :=
  (retiringModule.delOut movedRow).setPlc { (retiringModule.delOut movedRow).plc with
    rows := kdel movedRow retiringModule.plc.rows }

/-- The write of the MOVED entry finds the buffer full, and the FENCE is done with the line that makes room. -/
theorem freedModule_dirPut_done :
    ∃ c ∈ (freedModule.dirPut { kind := 1, key := movedRow, owner := 1 }).1.cmds, c.done = true := by
  have hplace : freedModule.dirPlace movedRow = some 0 := by decide +kernel
  rw [State.dirPut_cmds _ hplace]
  refine (State.dirMirror_flushes _ _ _).some_done ?_
  generalize hs : freedModule.setPlc _ = s
  have hbase : s.reg plcPg PLC.DIR_BASE0 + 16 * 0 = 0 := by subst hs; decide +kernel
  have hfull : s.pcEntries (s.linePc 0) = dirtyLines := by subst hs; decide +kernel
  have hnone : s.wcbFind 0 = none := by subst hs; decide +kernel
  have harea : areaOf s.variant 0 = .hbm 0 := by subst hs; decide +kernel
  have hcmds : s.cmds = retiringModule.cmds := by subst hs; rfl
  rw [hbase, State.memWrite_within _ _ (by simp [leBytes]) (by simp [leBytes]), State.pieceWrite_hbm s harea,
    State.wcbWrite_full s (addr := 0) _ _ hnone hfull (by simp), hcmds]
  decide

/-- Refutes O59 in its clause on RETIRE: `t.cmds = s.cmds` there leaves out that the write of the directory may find a
buffer full and write its oldest line back, which a FENCE waits for (`exec_retire_flushes`). The clauses on MIGRATION_PREPARE,
FLIP_NOTICE_SEND, MIGRATION_TRANSFER and PLC_BOUNDARY hold as the lemmas above say, and that on SKETCH_DECAY by
`exec_sketchDecay_due` and `mem_sketchHalve`. -/
theorem not_placementRowsComplete : ¬ Obligations.PlacementRowsComplete := by
  unfold Obligations.PlacementRowsComplete
  intro ⟨_, _, _, hretire, _⟩
  have hout : retiringModule.migOut movedRow = some { key := movedRow, dest := 1, phase := .sent } := by decide +kernel
  have hbeat : max 0 0 + bits (retiringModule.reg plcPg PLC.PLC_CONFIG) 15 0 ≤ retiringModule.beat := by decide +kernel
  obtain ⟨t, ht, -, -, hcmds⟩ := hretire retiringModule movedRow _ hout rfl hbeat
  have hrun := exec_retire_due hout rfl hbeat (u := freedModule) rfl
  rw [if_pos (by decide +kernel)] at hrun
  obtain rfl := Host.Outcome.next.inj (ht.symm.trans hrun)
  have hdone := freedModule_dirPut_done
  rw [hcmds] at hdone
  exact absurd hdone (by decide)

end Sys2Proof.Machine
end

section
/-! PROOFS. The start of a command (R218, R223 to R225, R228, R258): what has been checked of one that starts, what its
start changes of the state, and what NOP and FENCE do then. -/

namespace Sys2Proof.Machine

/-! ## What has been checked of a command that starts (R223 to R225) -/

section
variable {s : State} {q msq : Nat} {d : Desc} {c : Cmd} {check : Check} {rest : List Desc}

/-- A header that passes steps 1 to 4 of R223 has an assigned opcode and a DEADLINE still to come. -/
theorem State.headerCheck_passed (h : s.headerCheck c = none) :
    opcodeKnown c.desc.opcode = true ∧ (c.desc.dlEn = true → s.beat < c.desc.deadline) := by
  unfold State.headerCheck at h
  extract_lets x at h
  split at h
  · cases h
  · split at h
    · cases h
    · split at h
      · cases h
      · next hvalid =>
        split at h
        · cases h
        · next hdue =>
          simp only [Bool.or_eq_true, not_or, Bool.not_eq_true', Bool.not_eq_false] at hvalid
          simp only [Bool.and_eq_true, decide_eq_true_eq, not_and, Nat.not_le] at hdue
          obtain ⟨⟨⟨hknown, -⟩, -⟩, -⟩ := hvalid
          exact ⟨hknown, hdue⟩

/-- The header of a command that starts passes its checks, at the beat of the start. -/
theorem State.begins_header (h : s.begins q d check = true) :
    opcodeKnown d.opcode = true ∧ (d.dlEn = true → s.beat < d.deadline) := by
  simp only [State.begins, Bool.and_eq_true, Option.isNone_iff_eq_none] at h
  obtain ⟨⟨⟨-, hheader⟩, -⟩, -⟩ := h
  have hbeat : (s.takeHead q d).1.beat = s.beat := rfl
  have hdesc : (s.newCmd q d).desc = d := rfl
  have hpassed := State.headerCheck_passed hheader
  rwa [hbeat, hdesc] at hpassed

/-- A command that starts is the oldest descriptor read of its queue, has come to its checks, and its queue has its
turn. -/
theorem State.startable_conditions (h : s.startable q d = true) :
    (∃ rest, (s.qst q).fetched = d :: rest) ∧ s.atHead q = true ∧ s.nextQueue (s.qSquare q) = some q := by
  simp only [State.startable, State.checkable, Bool.and_eq_true, beq_iff_eq] at h
  obtain ⟨⟨⟨hhead, -⟩, hat⟩, hturn⟩ := h
  exact ⟨List.head?_eq_some_iff.mp hhead, hat, hturn⟩

/-- The queue that the sequencer serves next is a ready one. -/
theorem State.nextQueue_ready (h : s.nextQueue msq = some q) : s.qReady q = true := by
  have hmem : q ∈ s.readyQueues msq := by
    unfold State.nextQueue at h
    extract_lets l top l' at h
    have hl' : q ∈ l' := by
      split at h
      · split at h
        · next hfind => exact Option.some.inj h ▸ List.mem_of_find?_eq_some hfind
        · exact List.mem_of_head? h
      · exact List.mem_of_head? h
    exact List.mem_of_mem_filter hl'
  obtain ⟨-, hready⟩ := List.mem_filter.mp hmem
  exact (Bool.and_eq_true_iff.mp hready).2

/-- A command has come to its checks while the module is READY, the queue enabled and running, NOT_BEFORE reached. -/
theorem State.atHead_conditions (hf : (s.qst q).fetched = d :: rest) (h : s.atHead q = true) :
    s.mgtState = 2 ∧ s.qEnabled q = true ∧ (s.qst q).halted = false ∧ d.notBefore ≤ s.beat := by
  simp only [State.atHead, hf, State.ready, Bool.and_eq_true, Bool.not_eq_true', decide_eq_true_eq, beq_iff_eq] at h
  obtain ⟨⟨⟨⟨⟨⟨hready, hen⟩, hrun⟩, hbeat⟩, -⟩, -⟩, -⟩ := h
  exact ⟨hready, hen, hrun, hbeat⟩

/-- DEP and FENCE hold a queue back while what they wait for is in flight. -/
theorem State.qReady_conditions (hf : (s.qst q).fetched = d :: rest) (h : s.qReady q = true) :
    (∀ c, c ∈ s.cmds → d.dep = true → (s.qst q).last ≠ some c.id) ∧
      (∀ c, c ∈ s.cmds → d.opcode = 1 → c.q ≠ q) := by
  simp only [State.qReady, hf, Bool.and_eq_true] at h
  obtain ⟨⟨⟨⟨-, -⟩, hdep⟩, hfence⟩, -⟩ := h
  refine ⟨fun c hc hd hlast => ?_, fun c hc ho hq => ?_⟩
  · simp only [hd, hlast, Bool.not_true, Bool.false_or, Bool.not_eq_true', List.any_eq_false] at hdep
    exact hdep c hc (beq_self_eq_true _)
  · simp only [ho, bne_self_eq_false, Bool.false_or, Bool.not_eq_true', List.any_eq_false] at hfence
    exact hfence c hc (beq_iff_eq.mpr hq)

end

/-- Settles O16: the head of a queue has come to its checks under the conditions of R223 (`State.atHead_conditions`), its
header passed (`State.begins_header`), and the queue served is a ready one (`State.nextQueue_ready`). -/
theorem startsOnlyWhenEligible : Obligations.StartsOnlyWhenEligible := by
  intro s q d check h
  obtain ⟨⟨rest, hf⟩, hat, hturn⟩ := State.startable_conditions (State.begins_startable h)
  obtain ⟨hready, hen, hrun, hbeat⟩ := State.atHead_conditions hf hat
  exact ⟨hready, hen, hrun, hbeat, (State.begins_header h).2,
    State.qReady_conditions hf (State.nextQueue_ready hturn)⟩

/-! ## What a start changes (R218, R225, R258) -/

section
variable (s : State) (q : Nat) (d : Desc)

theorem State.qst_setQst_same (x : QState) : (s.setQst q x).qst q = x := SMap.get_set_same ..
theorem State.qst_setQst_other {p : Nat} (h : p ≠ q) (x : QState) : (s.setQst q x).qst p = s.qst p :=
  SMap.get_set_other _ h _ _

theorem State.begun_queues {check : Check} (h : check.Quiet) : (s.begun q d check).queues = (s.heads q d).queues := by
  rw [State.begun_quiet q d h, State.count64_queues]
theorem State.begun_nextCmd {check : Check} (h : check.Quiet) : (s.begun q d check).nextCmd = s.nextCmd + 1 := by
  rw [State.begun_quiet q d h, State.count64_nextCmd]; rfl
theorem State.begun_served {check : Check} (h : check.Quiet) :
    (s.begun q d check).served = SMap.put (s.qSquare q * 4 + s.qPrio q) q s.served := by
  rw [State.begun_quiet q d h, State.count64_served]; rfl

/-- Q_HEAD passes the command that starts. -/
theorem State.begun_qHead {check : Check} (h : check.Quiet) :
    (s.begun q d check).qHead q = (s.qHead q + 1) % 2 ^ 32 := by
  rw [State.begun_quiet q d h]
  exact (State.reg_count64_other _ _ (regKey_ne_off (by decide) (by decide) (by decide))).trans
    (State.reg_setReg_same _ _ _ _ _ (by omega))

theorem State.begun_qst_same {check : Check} (h : check.Quiet) : (s.begun q d check).qst q =
    { s.qst q with fetched := (s.qst q).fetched.tail, aged := false, last := some s.nextCmd } := by
  unfold State.qst
  rw [State.begun_queues s q d h]
  exact State.qst_setQst_same ..
theorem State.begun_qst_other {check : Check} (h : check.Quiet) {p : Nat} (hp : p ≠ q) :
    (s.begun q d check).qst p = s.qst p := by
  unfold State.qst
  rw [State.begun_queues s q d h]
  exact State.qst_setQst_other _ _ hp _

end

/-- Settles O15: a start is `State.begun`, of which the lemmas above and those of Laws/Command.lean name every part. -/
theorem startedCommandLeavesQueue : Obligations.StartedCommandLeavesQueue := by
  intro s q d k hk h
  have hquiet : k.Quiet := hk
  obtain ⟨hhead, -, -⟩ := State.startable_conditions (State.begins_startable h)
  exact ⟨s.begun_qHead q d hquiet, s.begun_qst_same q d hquiet, hhead, fun p hp => s.begun_qst_other q d hquiet hp,
    s.begun_nextCmd q d hquiet, s.begun_served q d hquiet, s.begun_cmds q d hquiet, s.begun_mem q d hquiet,
    s.begun_scs q d hquiet, s.begun_arb q d hquiet, s.begun_plc q d hquiet, s.begun_bnd q d hquiet,
    s.begun_fab q d hquiet, s.begun_pwr q d hquiet, rfl⟩

/-! ## NOP and FENCE (R222, R228, R282) -/

section
variable {s : State} {q : Nat} {d : Desc} (h : s.begins q d bodyReserved = true)
include h

theorem exec_nop_begins (ho : d.opcode = 0) : exec (.nop q d) s =
    .next ((s.begun q d bodyReserved).addCmd { s.newCmd q d with done := true }) := by
  show execNop q d s = _
  unfold execNop
  rw [ho]
  exact next_command _ h

/-- A descriptor that starts has an opcode of Table 10.2; one that is not 0 names another command (R222). -/
theorem exec_nop_other (ho : d.opcode ≠ 0) : exec (.nop q d) s = .next s := by
  show execNop q d s = _
  unfold execNop
  rw [(State.begins_header h).1, bne_iff_ne.mpr ho]
  rfl

/-- A FENCE that starts waits for the lines that are dirty then. -/
theorem exec_fence_begins : exec (.fence q d) s = .next
    (if (s.mem.wcb.map (·.line)).isEmpty then (s.begun q d bodyReserved).addCmd { s.newCmd q d with done := true }
      else ((s.begun q d bodyReserved).count (wcbPg (qDie q)) WCB.FENCE_FLUSHES 1).addCmd
        { s.newCmd q d with ctx := .fence (s.mem.wcb.map (·.line)) }) := by
  have hmem : (s.begun q d bodyReserved).mem = s.mem := State.begun_mem q d (pureCheck_quiet _)
  rw [← hmem]
  exact next_command _ h

end

/-- Settles O8: each command is the equation above, a FENCE by whether a line is dirty. -/
theorem nopFenceComplete : Obligations.NopFenceComplete := by
  intro s q d h
  refine ⟨exec_nop_begins h, exec_nop_other h, fun hclean => ?_, fun hdirty => ?_⟩
  · rw [exec_fence_begins h, hclean]
    rfl
  · rw [exec_fence_begins h, if_neg (by simpa using hdirty)]

/-! ## Witnesses: the hypotheses of the statements above can be met -/

/-- A READY module with a descriptor of job 0 read from its enabled queue 0, its lines dirty as given. -/
def startModule (d : Desc) (dirty : List WcbEntry) : State :=
  { readyModule.setReg (qmgPg 0) QMG.Q_CONFIG (2 ^ 31 + 6 * 2 ^ 17) with
    bnd := { bound := [(0, 0), (2 ^ 24, 0)] }
    queues := [(0, { fetched := [d] })]
    mem := { readyModule.mem with wcb := dirty } }

def nopDesc : Desc := List.replicate 16 0
def fenceDesc : Desc := 1 :: List.replicate 15 0

/-- A NOP starts and is done; Q_HEAD has passed it. -/
theorem nop_witness : ∃ t : State, exec (.nop 0 nopDesc) (startModule nopDesc []) = .next t ∧ t.qHead 0 = 1 ∧
    t.cmds.map (·.done) = [true] :=
  ⟨_, (nopFenceComplete _ 0 nopDesc (by decide +kernel)).1 (by decide), by decide +kernel, by decide +kernel⟩

/-- A FENCE starts and waits for the line that is dirty. -/
theorem fence_witness : ∃ t : State,
    exec (.fence 0 fenceDesc) (startModule fenceDesc [{ line := 64, data := [], bad := [] }]) = .next t ∧
      t.cmds.map (·.ctx) = [.fence [64]] :=
  ⟨_, (nopFenceComplete _ 0 fenceDesc (by decide +kernel)).2.2.2 (by decide), by decide +kernel⟩

/-- The NOP starts, under the conditions of R223: Q_HEAD passes it and its descriptor is no longer held. -/
theorem begun_nop_witness : (startModule nopDesc []).mgtState = 2 ∧
    ((startModule nopDesc []).begun 0 nopDesc bodyReserved).qHead 0 = 1 ∧
    (((startModule nopDesc []).begun 0 nopDesc bodyReserved).qst 0).fetched = [] := by
  have hbegins : (startModule nopDesc []).begins 0 nopDesc bodyReserved = true := by decide +kernel
  obtain ⟨hready, -⟩ := startsOnlyWhenEligible _ 0 nopDesc bodyReserved hbegins
  obtain ⟨hhead, hqst, -⟩ := startedCommandLeavesQueue _ 0 nopDesc bodyReserved (pureCheck_quiet _) hbegins
  refine ⟨hready, hhead.trans (by decide +kernel), ?_⟩
  rw [hqst]
  rfl

end Sys2Proof.Machine
end

section
/-! PROOFS. Doorbells (R220, R258): a write that the ring holds moves Q_TAIL, any other is ignored and reported, a 64-bit
write is two, and a read returns Q_TAIL. -/

namespace Sys2Proof.Machine

/-! ## Where doorbells lie (R220, R437) -/

theorem Variant.computeDies_le (v : Variant) : v.computeDies ≤ 6 := by cases v <;> decide

/-- A pair of queues that a 64-bit doorbell access names lies on one die. -/
theorem qDie_succ {q : Nat} (h : q % 2 = 0) : qDie (q + 1) = qDie q := by
  unfold qDie
  omega

/-- The doorbells of a die fill 32 page slots, 1,024 queues to a slot. -/
theorem regPlace_doorbellAddr {q : Nat} (hq : qDie q < 6) : regPlace (doorbellAddr q) =
    some (qDie q * 16384 + 0x30E0 + q % 32768 / 1024, 4 * (q % 1024)) := by
  unfold qDie at hq ⊢
  unfold regPlace doorbellAddr pageAddr
  rw [if_pos (by omega), Option.some.injEq, Prod.mk.injEq]
  omega

theorem doorbellAt_place {v : Variant} {q : Nat} (hq : qDie q < v.computeDies) :
    doorbellAt v (qDie q * 16384 + 0x30E0 + q % 32768 / 1024) (4 * (q % 1024)) = some q := by
  have hdie : (qDie q * 16384 + 0x30E0 + q % 32768 / 1024) / 16384 = qDie q := by omega
  have hslot : (qDie q * 16384 + 0x30E0 + q % 32768 / 1024) % 16384 = 0x30E0 + q % 32768 / 1024 := by omega
  unfold doorbellAt
  simp only [hdie, hslot]
  rw [if_pos (by omega), Option.some.injEq]
  unfold qDie
  omega

/-- A page that is neither of the management island's is open wherever another such page is (Table 17.1). -/
theorem State.pageOpen_of_block {s : State} {p p' : Nat} {secure : Bool} (hm : p ≠ mgtPg) (hs : p ≠ secPg)
    (h : s.pageOpen p false secure = true) : s.pageOpen p' false secure = true := by
  unfold State.pageOpen at h ⊢
  split at h <;> simp_all

/-! ## A doorbell rung (R220, R258) -/

section
variable (s : State) {q : Nat} {v : Nat}

/-- A write that the ring holds sets Q_TAIL; beyond that, at most a sleeping square wakes. -/
theorem State.doorbell_taken (hen : s.qEnabled q = true)
    (hfit : (v + 2 ^ 32 - s.qTail q % 2 ^ 32) % 2 ^ 32 ≤ 2 ^ s.qLog2 q - s.qAvail q) :
    ∃ x, s.doorbell q v = (s.setQreg q QMG.Q_TAIL v).setPwr x := by
  unfold State.doorbell
  simp only [hen, decide_eq_true hfit, Bool.and_self, if_true]
  have hwake : ∀ (t : State) m, ∃ x, t.wakeSquare m = t.setPwr x := by
    intro t m
    unfold State.wakeSquare
    extract_lets x
    split <;> exact ⟨_, rfl⟩
  split
  · exact hwake _ _
  · exact hwake _ _
  · exact ⟨_, rfl⟩

/-- Any other write is ignored, counted and reported. -/
theorem State.doorbell_refused (h : ¬ (s.qEnabled q = true ∧
    (v + 2 ^ 32 - s.qTail q % 2 ^ 32) % 2 ^ 32 ≤ 2 ^ s.qLog2 q - s.qAvail q)) : s.doorbell q v = s.ringBad q := by
  unfold State.doorbell
  simp only [Bool.and_eq_true, decide_eq_true_eq]
  rw [if_neg h]
  rfl

end

section
variable {s : State} {q : Nat}

theorem State.qTail_setQreg_same (s : State) (q : Nat) {v : Nat} (h : v < 2 ^ 64) :
    (s.setQreg q QMG.Q_TAIL v).qTail q = v :=
  State.reg_setReg_same _ _ _ _ _ h

/-- Queues have windows of their own. -/
theorem State.qTail_setQreg_other (s : State) {p q : Nat} (v : Nat) (h : p ≠ q) :
    (s.setQreg q QMG.Q_TAIL v).qTail p = s.qTail p := by
  refine State.reg_setReg_other _ _ fun hk => h ?_
  obtain ⟨hpage, hwin, -⟩ := regKey_inj (by decide) (by decide) (by unfold qNum; omega) (by unfold qNum; omega) hk
  unfold qmgPg diePage qDie at hpage
  unfold qNum at hwin
  omega

/-- A doorbell rung moves Q_TAIL or is refused. -/
theorem State.ring_cases (s : State) (q v : Nat) :
    (∃ x, s.ring q v = (s.setQreg q QMG.Q_TAIL (v % 2 ^ 32)).setPwr x) ∨
      s.ring q v = (s.ungate (s.qSquare q)).ringBad q := by
  unfold State.ring
  by_cases h : (s.ungate (s.qSquare q)).qEnabled q = true ∧
      (v % 2 ^ 32 + 2 ^ 32 - (s.ungate (s.qSquare q)).qTail q % 2 ^ 32) % 2 ^ 32 ≤
        2 ^ (s.ungate (s.qSquare q)).qLog2 q - (s.ungate (s.qSquare q)).qAvail q
  · obtain ⟨hen, hfit⟩ := h
    obtain ⟨x, hx⟩ := State.doorbell_taken _ hen hfit
    exact .inl ⟨x, hx⟩
  · exact .inr (State.doorbell_refused _ h)

theorem State.ring_variant (s : State) (q v : Nat) : (s.ring q v).variant = s.variant := by
  obtain ⟨x, h⟩ | h := s.ring_cases q v
  · rw [h]; rfl
  · rw [h]; exact (State.err_variant ..).trans (State.count_variant ..)

theorem State.ring_hostHolds (s : State) (q v : Nat) : (s.ring q v).hostHolds = s.hostHolds := by
  have hhost : (s.ring q v).host = s.host := by
    obtain ⟨x, h⟩ | h := s.ring_cases q v
    · rw [h]; rfl
    · rw [h]; exact (State.err_host ..).trans (State.count_host ..)
  unfold State.hostHolds
  rw [hhost]

/-- Ringing a doorbell leaves the state of the module, and so what is open to whom, as it is. -/
theorem State.ring_pageOpen (s : State) (q v page : Nat) (write secure : Bool) :
    (s.ring q v).pageOpen page write secure = s.pageOpen page write secure := by
  have hmgt : (s.ring q v).reg mgtPg MGT.MGT_STATE = s.reg mgtPg MGT.MGT_STATE := by
    obtain ⟨x, h⟩ | h := s.ring_cases q v
    · rw [h]; exact State.reg_setReg_other _ _ (regKey_ne_off (by decide) (by decide) (by decide))
    · rw [h]
      exact (State.reg_err_other _ (by decide) (by decide) (by decide)).trans
        (State.reg_count_other _ _ (regKey_ne_off (by decide) (by decide) (by decide)))
  unfold State.pageOpen State.mgtState
  rw [hmgt]

end

/-! ## DOORBELL_WRITE of a width (R220) -/

section
variable {s : State} {q : Nat} {v : DWord} (hq : qDie q < s.variant.computeDies)
  (hp : s.pageOpen (qmgPg (qDie q)) true false = true) (hh : s.hostHolds = false)
include hq hp hh

/-- A doorbell write that nothing holds is performed as its width says. -/
theorem exec_doorbellWrite_free (width : Nat) : exec (.doorbellWrite q v width) s = .next
    (if width = 4 then s.ring q v.toNat
      else if width = 8 ∧ q % 2 = 0 then (s.ring q (v.toNat % 2 ^ 32)).ring (q + 1) (v.toNat / 2 ^ 32)
      else s.ringBad q) := by
  show execDoorbellWrite q v width s = _
  unfold execDoorbellWrite State.doorbellWrite
  rw [if_neg (Nat.not_le.mpr hq), hh, hp]
  rfl

theorem exec_doorbellWrite_word : exec (.doorbellWrite q v 4) s = .next (s.ring q v.toNat) := by
  rw [exec_doorbellWrite_free hq hp hh, if_pos rfl]

/-- A 64-bit write is two 32-bit ones, the lower address first. -/
theorem exec_doorbellWrite_pair (he : q % 2 = 0) {t : State}
    (ht : exec (.doorbellWrite q (BitVec.ofNat 64 (v.toNat % 2 ^ 32)) 4) s = .next t) :
    exec (.doorbellWrite q v 8) s = exec (.doorbellWrite (q + 1) (BitVec.ofNat 64 (v.toNat / 2 ^ 32)) 4) t := by
  have hlow : (BitVec.ofNat 64 (v.toNat % 2 ^ 32)).toNat = v.toNat % 2 ^ 32 := by
    rw [BitVec.toNat_ofNat]; omega
  have hhigh : (BitVec.ofNat 64 (v.toNat / 2 ^ 32)).toNat = v.toNat / 2 ^ 32 := by
    rw [BitVec.toNat_ofNat]; omega
  rw [exec_doorbellWrite_word hq hp hh, hlow] at ht
  obtain rfl := Host.Outcome.next.inj ht
  rw [exec_doorbellWrite_free hq hp hh, exec_doorbellWrite_word
    (by rw [qDie_succ he, State.ring_variant]; exact hq)
    (by rw [qDie_succ he, State.ring_pageOpen]; exact hp) (by rw [State.ring_hostHolds]; exact hh), hhigh,
    if_neg (by decide), if_pos ⟨rfl, he⟩]

end

/-! ## Reads of doorbells (R220) -/

section
variable {s : State} {q width : Nat} {secure : Bool}

/-- An aligned 32-bit or 64-bit read of an open page returns the tails of the doorbells it covers. -/
theorem State.regRead_doorbellAt {a page off : Nat} (ha : regPlace a = some (page, off))
    (hd : doorbellAt s.variant page off = some q) (hp : s.pageOpen page false secure = true)
    (hw : width = 4 ∨ width = 8) (halign : a % width = 0) :
    s.regRead a width secure = (s.qTail q + (if width = 8 then s.qTail (q + 1) * 2 ^ 32 else 0), s) := by
  have hlegal : ¬ ((width ≠ 4 ∧ width ≠ 8) ∨ a % width ≠ 0) := by omega
  unfold State.regRead
  simp only [ha, if_neg hlegal, hd, hp, Bool.not_true, Bool.false_eq_true, if_false]

/-- The same of the doorbell of a queue; a 64-bit read is aligned at an even queue. -/
theorem State.regRead_doorbell (hq : qDie q < s.variant.computeDies)
    (hp : s.pageOpen (qmgPg (qDie q)) false secure = true) (hw : width = 4 ∨ width = 8 ∧ q % 2 = 0) :
    s.regRead (doorbellAddr q) width secure =
      (s.qTail q + (if width = 8 then s.qTail (q + 1) * 2 ^ 32 else 0), s) := by
  have hdie : qDie q < 6 := Nat.lt_of_lt_of_le hq (Variant.computeDies_le _)
  have halign : doorbellAddr q % width = 0 := by
    unfold doorbellAddr pageAddr
    rcases hw with rfl | ⟨rfl, he⟩ <;> omega
  exact State.regRead_doorbellAt (regPlace_doorbellAddr hdie) (doorbellAt_place hq)
    (State.pageOpen_of_block (by unfold qmgPg mgtPg diePage; omega) (by unfold qmgPg secPg diePage; omega) hp)
    (hw.imp_right And.left) halign

end

/-- Settles O34: a write is `exec_doorbellWrite_free`, one of 4 bytes taken or refused by what the ring holds; a read is
`State.regRead_doorbell`. -/
theorem doorbellRule : Obligations.DoorbellRule := by
  intro s q v hq hp hh hroom
  have hword : exec (.doorbellWrite q v 4) s = .next ((s.ungate (s.qSquare q)).doorbell q (v.toNat % 2 ^ 32)) :=
    exec_doorbellWrite_word hq hp hh
  refine ⟨fun hen hfit => ?taken, fun href => ?refused, fun he t ht => exec_doorbellWrite_pair hq hp hh he ht,
    fun width h4 h8 => ?width, fun secure hopen => ?read⟩
  case taken =>
    obtain ⟨x, hx⟩ := State.doorbell_taken (s.ungate (s.qSquare q)) hen ((Nat.le_sub_iff_add_le hroom).mpr hfit)
    refine ⟨_, hword.trans (congrArg Host.Outcome.next hx), ?_, fun p hpq => ?_, rfl, rfl, rfl⟩
    · exact State.qTail_setQreg_same _ _ (by omega)
    · exact State.qTail_setQreg_other _ _ hpq
  case refused =>
    refine hword.trans (congrArg Host.Outcome.next (State.doorbell_refused _ fun ⟨hen, hfit⟩ => ?_))
    rcases href with hdis | hover
    · exact Bool.noConfusion (hdis.symm.trans hen)
    · exact Nat.not_lt.mpr ((Nat.le_sub_iff_add_le hroom).mp hfit) hover
  case width =>
    rw [exec_doorbellWrite_free hq hp hh, if_neg h4, if_neg fun h => h8 h.1]
    rfl
  case read =>
    have haddr : 0x3F0000000000 + qDie q * 0x4000000 + 0x30E0000 + 4 * (q % 32768) = doorbellAddr q := by
      unfold qDie doorbellAddr pageAddr
      omega
    rw [haddr]
    refine ⟨?_, fun he => ?_⟩
    · rw [State.regRead_doorbell hq hopen (.inl rfl), if_neg (by decide), Nat.add_zero]
    · rw [State.regRead_doorbell hq hopen (.inr ⟨rfl, he⟩), if_pos rfl]

/-! ## Witnesses: the hypotheses of `DoorbellRule` can be met -/

/-- A READY module whose queue 0 of die 0 is enabled with a ring of 64. -/
def doorbellModule : State := readyModule.setReg (qmgPg 0) QMG.Q_CONFIG (2 ^ 31 + 6 * 2 ^ 17)

/-- Its doorbell takes 64, which fills the ring, and a read returns it; 65 is refused and reported. -/
theorem doorbellWrite_witness :
    ∃ t u : State, exec (.doorbellWrite 0 64 4) doorbellModule = .next t ∧ t.qTail 0 = 64 ∧
      exec (.doorbellWrite 0 65 4) doorbellModule = .next u ∧ u.qTail 0 = 0 ∧
      u.reg (qmgPg 0) HDR.ERR_STATUS = 2 ^ QMG.E_DB_INVALID := by
  have hrule := fun v => doorbellRule doorbellModule 0 v (by decide) (by decide +kernel) (by decide +kernel)
    (by decide +kernel)
  obtain ⟨t, ht, htail, -⟩ := (hrule 64).1 (by decide +kernel) (by decide +kernel)
  exact ⟨t, _, ht, htail, (hrule 65).2.1 (.inr (by decide +kernel)), by decide +kernel, by decide +kernel⟩

end Sys2Proof.Machine
end

section
/-! PROOFS. Tempo (R238, R239, R318): the marks that leave a module, what a follower makes of one that comes, and when it
holds over. -/

namespace Sys2Proof.Machine

/-! ## Marks that leave (R318) -/

/-- The beat, the master and the hop count of a mark lie before its TX_OFFSET. -/
theorem markUnit_take (beat master hops x y : Nat) :
    (markUnit beat master hops x).take 12 = (markUnit beat master hops y).take 12 := by
  have hlen : (leBytes 8 beat ++ leBytes 2 master ++ leBytes 1 hops ++ leBytes 1 0).length = 12 := by simp [leBytes]
  unfold markUnit
  rw [List.take_left' hlen, List.take_left' hlen]

/-- The master sends a mark on each of a list of ports. -/
def State.sendMarks (s : State) (ports : List Nat) : State :=
  ports.foldl (fun s p => s.sendMark p s.beat s.modId 0) s

section
variable (s : State)

/-- A mark leaves its port as a MARK flit with its unit. -/
theorem State.sendMark_outbox (port beat master hops : Nat) : ∃ f : Flit, f.ftype = 3 ∧
    (∃ x, f.data = markUnit beat master hops x) ∧
    (s.sendMark port beat master hops).outbox = s.outbox ++ [.flit port f] :=
  ⟨_, rfl, ⟨_, rfl⟩, rfl⟩

/-- What looks at neither the record of what leaves, the free values drawn nor the ports, a mark sent leaves alone. -/
theorem State.sendMarks_leaves {α : Type} (g : State → α)
    (h : ∀ (t : State) port beat master hops, g (t.sendMark port beat master hops) = g t) (ports : List Nat) :
    g (s.sendMarks ports) = g s :=
  foldl_leaves g _ ports s fun t p => h t p _ _ _

@[simp] theorem State.sendMarks_regs (ports : List Nat) : (s.sendMarks ports).regs = s.regs :=
  s.sendMarks_leaves State.regs (fun _ _ _ _ _ => rfl) ports
@[simp] theorem State.sendMarks_mem (ports : List Nat) : (s.sendMarks ports).mem = s.mem :=
  s.sendMarks_leaves State.mem (fun _ _ _ _ _ => rfl) ports
@[simp] theorem State.sendMarks_cmds (ports : List Nat) : (s.sendMarks ports).cmds = s.cmds :=
  s.sendMarks_leaves State.cmds (fun _ _ _ _ _ => rfl) ports
@[simp] theorem State.sendMarks_beat (ports : List Nat) : (s.sendMarks ports).beat = s.beat :=
  s.sendMarks_leaves State.beat (fun _ _ _ _ _ => rfl) ports
@[simp] theorem State.sendMarks_tempo (ports : List Nat) : (s.sendMarks ports).tempo = s.tempo :=
  s.sendMarks_leaves State.tempo (fun _ _ _ _ _ => rfl) ports

/-- One mark leaves on each port, in their order. -/
theorem State.sendMarks_outbox (ports : List Nat) : ∃ fs : List (Nat × Flit),
    (s.sendMarks ports).outbox = s.outbox ++ fs.map (fun x => .flit x.1 x.2) ∧
      fs.map (fun x => (x.1, x.2.ftype, x.2.data.take 12)) =
        ports.map (fun p => (p, 3, (markUnit s.beat s.modId 0 0).take 12)) := by
  induction ports generalizing s with
  | nil => exact ⟨[], (List.append_nil _).symm, rfl⟩
  | cons p ports ih =>
    obtain ⟨f, htype, ⟨x, hdata⟩, hout⟩ := s.sendMark_outbox p s.beat s.modId 0
    obtain ⟨fs, hrest, hmarks⟩ := ih (s.sendMark p s.beat s.modId 0)
    have hid : (s.sendMark p s.beat s.modId 0).modId = s.modId := rfl
    have hbeat : (s.sendMark p s.beat s.modId 0).beat = s.beat := rfl
    rw [hid, hbeat] at hmarks
    refine ⟨(p, f) :: fs, ?_, ?_⟩
    · calc (s.sendMarks (p :: ports)).outbox
          = (s.sendMark p s.beat s.modId 0).outbox ++ fs.map (fun x => Out.flit x.1 x.2) := hrest
        _ = s.outbox ++ ((p, f) :: fs).map (fun x => Out.flit x.1 x.2) := by rw [hout, List.append_assoc]; rfl
    · rw [List.map_cons, List.map_cons, hmarks, htype, hdata, markUnit_take _ _ _ x 0]

end

/-! ## MARK_SEND, MARK_RX and TEMPO_HOLDOVER (R238, R239) -/

section
variable {s : State} {port : Nat} {m : Mark}

theorem exec_markSend_due (hst : s.tempoSt = 4) (hbeat : s.beat % 64 = 0) (hsent : s.tempo.sent ≠ some s.beat) :
    exec .markSend s = .next { s.sendMarks s.markPorts with
      tempo := { (s.sendMarks s.markPorts).tempo with sent := some (s.sendMarks s.markPorts).beat } } :=
  congrArg Host.Outcome.next (if_pos ⟨hst, hbeat, hsent⟩)

/-- A mark whose CRC is bad is counted and discarded. -/
theorem State.markRx_bad (hon : s.marksOn port = true) (hcrc : m.crcOk = false) :
    s.markRx port m = s.count tmpPg TMP.MARKS_BAD 1 := by
  unfold State.markRx
  simp only [hon, hcrc, Bool.not_true, Bool.not_false, Bool.false_eq_true, if_false, if_true]

/-- The master takes no mark. -/
theorem State.markRx_master (hon : s.marksOn port = true) (hcrc : m.crcOk = true)
    (hst : (s.count tmpPg TMP.MARKS_RX 1).tempoSt = 4) : s.markRx port m = s.count tmpPg TMP.MARKS_RX 1 := by
  unfold State.markRx
  simp only [hon, hcrc, hst, Bool.not_true, Bool.false_eq_true, if_false, if_true]

/-- A follower that has forwarded a mark notes when it came, and from whom. -/
def State.noteMark (s : State) (port : Nat) (m : Mark) : State :=
  { s with tempo := { s.tempo with
      last := s.beat
      ports := (s.tempo.ports.filter fun x => !(x.1 == port && x.2.1 == m.master)) ++
        [(port, m.master, m.hops, s.beat)] } }

/-- A mark that the master of the port followed has sent disciplines the counter. -/
def State.followMark (s : State) (port : Nat) (m : Mark) : State :=
  match bestMark s.freshMarks with
  | some (p, w, _) => if p = port ∧ w = m.master then s.discipline port m else s
  | none => s

theorem State.followMark_best {h : Nat} (hbest : bestMark s.freshMarks = some (port, m.master, h)) :
    s.followMark port m = s.discipline port m := by
  unfold State.followMark
  rw [hbest]
  exact if_pos ⟨rfl, rfl⟩

theorem State.followMark_other (hbest : ∀ h, bestMark s.freshMarks ≠ some (port, m.master, h)) :
    s.followMark port m = s := by
  unfold State.followMark
  split
  · next p w h hp =>
    refine if_neg fun ⟨hport, hmaster⟩ => hbest h ?_
    rw [hp, hport, hmaster]
  · rfl

/-- A follower forwards a mark, notes it, follows it where it is preferred, and reports a second master. -/
theorem State.markRx_follower (hon : s.marksOn port = true) (hcrc : m.crcOk = true)
    (hst : (s.count tmpPg TMP.MARKS_RX 1).tempoSt ≠ 4) {w : State}
    (hw : w = ((s.count tmpPg TMP.MARKS_RX 1).forwardMark port m).noteMark port m) :
    s.markRx port m = if w.freshMarks.any (fun x => x.2.1 != m.master)
      then (w.followMark port m).err tmpPg TMP.E_MASTER_CONFLICT port else w.followMark port m := by
  subst hw
  unfold State.markRx
  simp only [hon, hcrc, if_neg hst, Bool.not_true, Bool.false_eq_true, if_false]
  rfl

/-- The state set is the state read. -/
theorem State.tempoSt_setTempoSt (s : State) {n : Nat} (hn : n < 16) : (s.setTempoSt n).tempoSt = n := by
  unfold State.tempoSt State.setTempoSt bits
  rw [State.reg_setReg_same _ _ _ _ _ (by omega)]
  omega

/-- Neither a counter nor a flag of the TMP page is its TMP_STATE. -/
theorem State.tempoSt_count_err (s : State) {o : Nat} (n b info : Nat) (ho : o < 4096) (h : TMP.TMP_STATE ≠ o) :
    ((s.count tmpPg o n).err tmpPg b info).tempoSt = s.tempoSt := by
  unfold State.tempoSt
  rw [State.reg_err_other _ (by decide) (by decide) (by decide),
    State.reg_count_other _ _ (regKey_ne_off (by decide) ho h)]

theorem exec_tempoHoldover_due (hst : s.tempoSt = 2) (hlast : s.tempo.last + 1024 ≤ s.beat) :
    ∃ (u : State) (port : Nat), u = { s.setTempoSt 3 with tempo := { s.tempo with good := 0 } } ∧
      exec .tempoHoldover s = .next ((u.count tmpPg TMP.HOLDOVERS 1).err tmpPg TMP.E_HOLDOVER port) :=
  ⟨_, _, rfl, congrArg Host.Outcome.next (if_pos ⟨hst, hlast⟩)⟩

end

/-- Settles O54: the marks sent are `State.sendMarks_outbox`, one received is the lemma `State.markRx_*` of its case, and
a holdover is `exec_tempoHoldover_due`. -/
theorem tempoComplete : Obligations.TempoComplete := by
  refine ⟨fun s hst hbeat hsent => ?send, fun s port m hon => ⟨fun hcrc => ?bad, fun hcrc hst => ?master,
    fun hcrc u hu hst w hw => ⟨fun hone ⟨h, hbest⟩ => ?follow, fun htwo hbest => ?conflict⟩⟩,
    fun s hst hlast => ?holdover⟩
  case send =>
    obtain ⟨fs, hout, hmarks⟩ := s.sendMarks_outbox s.markPorts
    exact ⟨_, fs, exec_markSend_due hst hbeat hsent, hout, hmarks, by simp, by simp, by simp, by simp⟩
  case bad => exact congrArg Host.Outcome.next (State.markRx_bad hon hcrc)
  case master => exact congrArg Host.Outcome.next (State.markRx_master hon hcrc hst)
  case follow =>
    subst hu
    refine congrArg Host.Outcome.next ((State.markRx_follower hon hcrc hst hw).trans ?_)
    rw [hone, State.followMark_best hbest]
    rfl
  case conflict =>
    subst hu
    refine congrArg Host.Outcome.next ((State.markRx_follower hon hcrc hst hw).trans ?_)
    rw [htwo, State.followMark_other hbest]
    rfl
  case holdover =>
    obtain ⟨u, port, hu, hrun⟩ := exec_tempoHoldover_due hst hlast
    subst hu
    refine ⟨_, hrun, ?_, by simp, by simp [State.setTempoSt], by simp [State.setTempoSt]⟩
    rw [State.tempoSt_count_err _ _ _ _ (by decide) (by decide)]
    exact State.tempoSt_setTempoSt s (by decide)

/-! ## Witnesses: the hypotheses of `TempoComplete` can be met -/

/-- A READY module whose ports 2 and 16 are up and carry marks, at beat 2,048 in a tempo state. -/
def tempoModule (st : Nat) : State :=
  let s := (readyModule.setReg tmpPg TMP.TMP_STATE (st * 2 ^ 28)).setReg tmpPg TMP.TMP_CONFIG (2 ^ 2 + 2 ^ 16)
  { s with
    beat := 2048
    fab := { ports := [(2, { st := .active, width := 8, lanes := 255, partner := some (4, 2) }),
      (16, { st := .active, width := 8, lanes := 255, partner := some (9, 16) })] } }

/-- The master sends a mark on both ports. -/
theorem markSend_witness : ∃ (t : State) (fs : List (Nat × Flit)), exec .markSend (tempoModule 4) = .next t ∧
    t.outbox = fs.map (fun x => Out.flit x.1 x.2) ∧ fs.map (fun x => x.1) = [2, 16] := by
  obtain ⟨t, fs, ht, hout, hmarks, -⟩ :=
    tempoComplete.1 (tempoModule 4) (by decide +kernel) (by decide +kernel) (by decide +kernel)
  have hports : (tempoModule 4).markPorts = [2, 16] := by decide +kernel
  refine ⟨t, fs, ht, hout, ?_⟩
  simpa [hports, Function.comp_def] using congrArg (List.map Prod.fst) hmarks

/-- A mark of master 3, with a good CRC or a bad one. -/
def markOf (ok : Bool) : Mark := { beat := 2048, master := 3, hops := 0, txOffset := 0, crcOk := ok, offset := 3 }

/-- A follower counts a mark with a bad CRC; the first good one takes it from FREE to ACQUIRE. -/
theorem markRx_witness : ∃ t u : State, exec (.markRx 2 (markOf false)) (tempoModule 0) = .next t ∧
    t.reg tmpPg TMP.MARKS_BAD = 1 ∧ exec (.markRx 2 (markOf true)) (tempoModule 0) = .next u ∧ u.tempoSt = 1 := by
  obtain ⟨hbad, -, hgood⟩ := tempoComplete.2.1 (tempoModule 0) 2 (markOf true) (by decide +kernel)
  exact ⟨_, _, (tempoComplete.2.1 (tempoModule 0) 2 (markOf false) (by decide +kernel)).1 rfl, by decide +kernel,
    (hgood rfl _ rfl (by decide +kernel) _ rfl).1 (by decide +kernel) ⟨0, by decide +kernel⟩, by decide +kernel⟩

/-- A LOCKED follower whose last mark came at beat 0 holds over. -/
theorem tempoHoldover_witness : ∃ t : State, exec .tempoHoldover (tempoModule 2) = .next t ∧ t.tempoSt = 3 := by
  obtain ⟨t, ht, hst, -⟩ := tempoComplete.2.2 (tempoModule 2) (by decide +kernel) (by decide +kernel)
  exact ⟨t, ht, hst⟩

end Sys2Proof.Machine
end

section
/-! PROOFS. The service of queues and the beat (R221, R225, R227, R235, R241 to R243): what reading a descriptor, ageing,
a completion, a DEADLINE and a beat do. -/

namespace Sys2Proof.Machine

/-! ## Descriptors and ageing (R221, R225) -/

section
variable {s : State} {q : Nat}

/-- A descriptor that can be read is read, and joins those read or halts its queue. -/
theorem State.fetchDesc_can (h : s.canFetch q = true) {r : MemRes}
    (hr : r = s.memRead (s.fetchReq q) (s.descAddr q) 64) : s.fetchDesc q =
      if r.ue.isEmpty then r.st.setQst q
        { r.st.qst q with fetched := (r.st.qst q).fetched ++ [(elems 4 r.data).map (BitVec.ofNat 32)] }
      else (r.st.haltQueue q).err (qmgPg (qDie q)) QMG.E_DESC_UE q := by
  subst hr
  unfold State.fetchDesc
  rw [if_pos h]

theorem State.ageQueue_ready (h : s.qReady q = true) : s.ageQueue q = s.setQst q { s.qst q with aged := true } := by
  unfold State.ageQueue
  rw [if_pos h]

/-- An aged queue is treated as PRIO 3. -/
theorem State.qPrio_aged (h : (s.qst q).aged = true) : s.qPrio q = 3 := by
  unfold State.qPrio
  rw [if_pos h]

end

/-- Settles O26: a descriptor read is `State.fetchDesc_can`, a queue that ages `State.ageQueue_ready`. -/
theorem queueServiceCompletes : Obligations.QueueServiceCompletes := by
  refine ⟨fun s q r h hr => ⟨fun hue => ?read, fun hue => ?uncorrectable⟩, fun s q h => ?aged⟩
  case read =>
    refine congrArg Host.Outcome.next ((State.fetchDesc_can h hr).trans ?_)
    rw [hue]
    rfl
  case uncorrectable =>
    refine congrArg Host.Outcome.next ((State.fetchDesc_can h hr).trans (if_neg ?_))
    simpa using hue
  case aged =>
    have hq : (s.setQst q { s.qst q with aged := true }).qst q = { s.qst q with aged := true } :=
      State.qst_setQst_same ..
    exact ⟨_, congrArg Host.Outcome.next (State.ageQueue_ready h), hq, State.qPrio_aged (by rw [hq]),
      fun p hp => State.qst_setQst_other _ _ hp _, rfl, rfl, rfl⟩

/-! ## Completion (R227, R405) -/

section
variable {s : State} {id : Nat} {c : Cmd}

/-- Nothing completes in a stop (R405, R406). -/
theorem State.completeCmd_halted (h : s.halted = true) : s.completeCmd id = s := by
  unfold State.completeCmd
  rw [if_pos h]

theorem State.completeCmd_done (h : s.halted = false) (hc : s.cmd? id = some c) (hd : c.done = true) :
    s.completeCmd id = if c.desc.opcode = 0x55 then (s.complete c).releaseAll else s.complete c := by
  unfold State.completeCmd
  simp only [h, hc, hd, Bool.not_true, Bool.false_eq_true, if_false]

/-- A status below 0x10 neither ends a command by its DEADLINE nor halts its queue. -/
theorem Status.ne_deadline_of_code {st : Status} (h : st.code < 0x10) : st ≠ .deadline := by
  rintro rfl
  exact absurd h (by decide)

/-- A completion without record, signal and error: what its run left is reported and counted, and its square wakes. -/
theorem State.complete_plain (s : State) (hcq : c.desc.cqEn = false) (hsig : c.desc.sigEn = false)
    (hst : c.status.code < 0x10) : s.complete c =
      (((c.reports.foldl (fun s p => s.setReg p.1 p.2.1 p.2.2)
        (State.countDone { s with cmds := s.cmds.filter fun x => x.id != c.id } c)).missAlarm c).count64
          (qmgPg (qDie c.q)) QMG.CMDS_COMPLETED 1).ungate c.msq := by
  have hhalt : ¬ (c.halt && decide (c.status.code ≥ 0x0010)) = true := by simp [hst]
  unfold State.complete
  simp only [hcq, hsig, if_neg (Status.ne_deadline_of_code hst), if_neg hhalt, Bool.false_and, Bool.false_eq_true,
    if_false]

end

/-- Settles O27 by the equations of `State.completeCmd` and `State.complete` above. -/
theorem commandCompleteCompletes : Obligations.CommandCompleteCompletes :=
  ⟨fun _ _ _ h hc hd => congrArg Host.Outcome.next (State.completeCmd_done h hc hd),
    fun s _ hcq hsig hst => s.complete_plain hcq hsig hst,
    fun _ _ h => congrArg Host.Outcome.next (State.completeCmd_halted h)⟩

/-! ## Deadlines (R241, R243) -/

/-- Once no commit of an earlier step of the beat is due, a queue's started commands past their DEADLINE end, then its
heads. -/
theorem State.deadlineExpire_due {s : State} (q : Nat) (hrun : s.halted = false) (hcommit : s.commitDue = false) :
    s.deadlineExpire q = s.expireQueue q := by
  unfold State.deadlineExpire
  rw [hrun, hcommit]
  rfl

/-- Settles O28: `State.expireQueue` takes the started commands, then the heads. -/
theorem deadlineExpireCompletes : Obligations.DeadlineExpireCompletes := by
  intro s q hrun hcommit u hu
  subst hu
  exact congrArg Host.Outcome.next (State.deadlineExpire_due q hrun hcommit)

/-! ## The beat (R241, R405, R412) -/

section
variable {s : State} (i : BeatIn)

/-- The counter of beats has risen by one, at 64 bits. -/
def State.nextBeat (s : State) : State := { s with beat := (s.beat + 1) % 2 ^ 64 }

theorem State.beatStep_reset (h : s.mgtState = 0) : s.beatStep i = s := by
  unfold State.beatStep
  rw [if_pos h]

/-- In a stop and in BOOT_FAILED only power goes on. -/
theorem State.beatStep_stopped (h0 : s.mgtState ≠ 0) (h : s.halted = true ∨ s.mgtState = 3) :
    s.beatStep i = s.nextBeat.powerBeat i := by
  have hstop : s.nextBeat.halted = true ∨ s.nextBeat.mgtState = 3 := h
  unfold State.beatStep
  rw [if_neg h0]
  exact if_pos hstop

/-- Otherwise the steps of R241 follow, then what waits goes on. -/
theorem State.beatStep_runs (h0 : s.mgtState ≠ 0) (h3 : s.mgtState ≠ 3) (hrun : s.halted = false) {u : State}
    (hu : u = ((s.nextBeat.beatCommits.mboxDone.beatPlacement.beatDeadlines.powerBeat i).beatTimers.settle).ungateReady) :
    s.beatStep i = u.hostDrain u.host.held.length := by
  have hgo : ¬ (s.nextBeat.halted = true ∨ s.nextBeat.mgtState = 3) := by
    rintro (h | h)
    · exact Bool.noConfusion (hrun.symm.trans h)
    · exact h3 h
  subst hu
  unfold State.beatStep
  rw [if_neg h0]
  exact if_neg hgo

/-- A board whose levels stay and that sends nothing changes nothing. -/
theorem State.boardIn_quiet (s : State) {i : BeatIn} (hp : i.pwrGood = s.boot.pwrGood) (hr : i.refclk = false)
    (hx : i.i3c = []) : s.boardIn i = s := by
  unfold State.boardIn
  simp [hp, hr, hx]

end

/-- Settles O29: the beat is `State.beatStep` of the state that the board's levels leave. -/
theorem beatCompletes : Obligations.BeatCompletes := by
  refine ⟨fun s b u i hb h0 h3 hrun hu => ?runs, fun s b i hb h0 h => ?stopped, fun s b i hb h0 => ?reset,
    fun s i hp hr hx => s.boardIn_quiet hp hr hx⟩
  all_goals subst hb
  case runs => exact congrArg Host.Outcome.next (State.beatStep_runs i h0 h3 hrun hu)
  case stopped => exact congrArg Host.Outcome.next (State.beatStep_stopped i h0 h)
  case reset => exact congrArg Host.Outcome.next (State.beatStep_reset i h0)

/-! ## Witnesses: the hypotheses of the statements above can be met -/

/-- A READY module whose queue 0, in square memory, has one descriptor available that has not been read. -/
def fetchModule : State :=
  ((readyModule.setReg (qmgPg 0) QMG.Q_CONFIG (2 ^ 31 + 6 * 2 ^ 17)).setReg (qmgPg 0) QMG.Q_TAIL 1).setReg (qmgPg 0)
    QMG.Q_BASE 0x3E0000000000

/-- It is read, as the zeros that memory holds after reset. -/
theorem descriptorFetch_witness : ∃ t : State, exec (.descriptorFetch 0) fetchModule = .next t ∧
    (t.qst 0).fetched = [nopDesc] :=
  ⟨_, (queueServiceCompletes.1 fetchModule 0 _ (by decide +kernel) rfl).1 (by decide +kernel), by decide +kernel⟩

/-- The queue of a command that may start ages. -/
theorem prioAging_witness : ∃ t : State, exec (.prioAging 0) (startModule nopDesc []) = .next t ∧ t.qPrio 0 = 3 := by
  obtain ⟨t, ht, -, hprio, -⟩ := queueServiceCompletes.2 (startModule nopDesc []) 0 (by decide +kernel)
  exact ⟨t, ht, hprio⟩

/-- A NOP in flight whose effects are in place, in a state of the module. -/
def doneModule (st : Nat) : State := { readyModule.setReg mgtPg MGT.MGT_STATE (st * 2 ^ 28) with
  cmds := [{ id := 0, q := 0, msq := 0, desc := nopDesc, done := true }] }

/-- It completes in READY, and not in COOLANT_STOP. -/
theorem commandComplete_witness : ∃ t : State, exec (.commandComplete 0) (doneModule 2) = .next t ∧ t.cmds = [] ∧
    exec (.commandComplete 0) (doneModule 5) = .next (doneModule 5) :=
  ⟨_, commandCompleteCompletes.1 (doneModule 2) 0 _ (by decide +kernel) rfl rfl, by decide +kernel,
    commandCompleteCompletes.2.2 (doneModule 5) 0 (by decide +kernel)⟩

/-- A FENCE in flight with DL_EN and a DEADLINE of 0. -/
def lateModule : State := { readyModule with
  cmds := [{ id := 0, q := 0, msq := 0, desc := (2 ^ 11 + 1) :: List.replicate 15 0, ctx := .fence [64] }] }

/-- It ends at beat 0. -/
theorem deadlineExpire_witness : lateModule.cmds.any lateModule.overdue = true ∧
    ∃ t : State, exec (.deadlineExpire 0) lateModule = .next t ∧ t.cmds = [] :=
  ⟨by decide +kernel, _, deadlineExpireCompletes lateModule 0 (by decide +kernel) (by decide +kernel) _ rfl,
    by decide +kernel⟩

end Sys2Proof.Machine
end

section
/-! PROOFS. Objects of the Arbiter (R249 to R257): what an addition makes of its object and of the commands that wait on it,
and what ARB_INIT, ARB_SIGNAL, ARB_WAIT_GE and ARB_TAKE do once they start. -/

namespace Sys2Proof.Machine

/-! ## Releases of waits (R255, R258) -/

/-- Every command with an id has its effects in place. -/
def State.AllDone (s : State) (id : Nat) : Prop := ∀ c ∈ s.cmds, c.id = id → c.done = true

section
variable {s t : State} {id : Nat}

theorem State.AllDone.of_cmds (h : s.AllDone id) (hc : t.cmds = s.cmds) : t.AllDone id := by
  unfold State.AllDone
  rw [hc]
  exact h

theorem State.allDone_of_not_live (h : s.cmdLive id = false) : s.AllDone id := fun c hc hid => by
  simpa [hid] using List.any_eq_false.mp h c hc

theorem State.AllDone.addCmd_done {c : Cmd} (h : s.AllDone id) (hd : c.done = true) : (s.addCmd c).AllDone id := by
  intro x hx hid
  rw [State.addCmd_cmds, List.mem_append, List.mem_singleton] at hx
  obtain hx | rfl := hx
  · exact h x hx hid
  · exact hd

/-- A release puts the effects of its command in place and changes no other command. -/
theorem State.finishWait_cmds (s : State) (id : Nat) :
    (s.finishWait id).cmds = s.cmds.map fun c => if c.id = id then { c with done := true } else c := by
  unfold State.finishWait
  split <;> rfl

@[simp] theorem State.finishWait_arb (s : State) (id : Nat) : (s.finishWait id).arb = s.arb := by
  unfold State.finishWait
  split <;> rfl
@[simp] theorem State.finishWait_mem (s : State) (id : Nat) : (s.finishWait id).mem = s.mem := by
  unfold State.finishWait
  split <;> rfl

theorem State.finishWait_allDone_same (s : State) (id : Nat) : (s.finishWait id).AllDone id := by
  intro c hc hid
  rw [State.finishWait_cmds] at hc
  obtain ⟨x, -, rfl⟩ := List.mem_map.mp hc
  by_cases hx : x.id = id
  · simp [hx]
  · simp [hx] at hid

/-- What is done stays done when another wait is released. -/
theorem State.AllDone.finishWait (h : s.AllDone id) (i : Nat) : (s.finishWait i).AllDone id := by
  intro c hc hid
  rw [State.finishWait_cmds] at hc
  obtain ⟨x, hx, rfl⟩ := List.mem_map.mp hc
  by_cases hi : x.id = i
  · simp [hi]
  · simp only [hi, if_false] at hid ⊢
    exact h x hx hid

/-- What each release of a list leaves alone, they all do. -/
theorem State.finishAll_leaves {α : Type} (f : State → α) (h : ∀ u i, f (State.finishWait u i) = f u) (s : State)
    (ids : List Nat) : f (s.finishAll ids) = f s := by
  induction ids generalizing s with
  | nil => rfl
  | cons i ids ih => exact (ih _).trans (h s i)

theorem State.AllDone.finishAll (h : s.AllDone id) (ids : List Nat) : (s.finishAll ids).AllDone id := by
  induction ids generalizing s with
  | nil => exact h
  | cons i ids ih => exact ih (h.finishWait i)

theorem State.finishAll_allDone {ids : List Nat} (h : id ∈ ids) : (s.finishAll ids).AllDone id := by
  induction ids generalizing s with
  | nil => cases h
  | cons i ids ih =>
    obtain rfl | h := List.mem_cons.mp h
    · exact (s.finishWait_allDone_same id).finishAll ids
    · exact ih h

@[simp] theorem State.releaseLive_arb (s : State) (page : Nat) (ids : List Nat) : (s.releaseLive page ids).arb = s.arb :=
  (State.count_arb ..).trans (State.finishAll_leaves State.arb State.finishWait_arb s _)
@[simp] theorem State.releaseLive_mem (s : State) (page : Nat) (ids : List Nat) : (s.releaseLive page ids).mem = s.mem :=
  (State.count_mem ..).trans (State.finishAll_leaves State.mem State.finishWait_mem s _)

theorem State.AllDone.releaseLive (h : s.AllDone id) (page : Nat) (ids : List Nat) :
    (s.releaseLive page ids).AllDone id :=
  (h.finishAll _).of_cmds (State.count_cmds ..)

/-- Every wait of a released list is done: one that was live by its release, any other before. -/
theorem State.releaseLive_allDone (page : Nat) {ids : List Nat} (h : id ∈ ids) : (s.releaseLive page ids).AllDone id := by
  cases hlive : s.cmdLive id with
  | false => exact (State.allDone_of_not_live hlive).releaseLive page ids
  | true => exact (State.finishAll_allDone (List.mem_filter.mpr ⟨h, hlive⟩)).of_cmds (State.count_cmds ..)

end

/-! ## Objects -/

section
variable {s t : State}

/-- Objects are part of what the Arbiter holds. -/
theorem State.obj_congr (h : t.arb = s.arb) (k : Nat) : t.obj k = s.obj k := by
  unfold State.obj
  rw [h]

@[simp] theorem State.addCmd_obj (s : State) (c : Cmd) (k : Nat) : (s.addCmd c).obj k = s.obj k := rfl
@[simp] theorem State.releaseLive_obj (s : State) (page : Nat) (ids : List Nat) (k : Nat) :
    (s.releaseLive page ids).obj k = s.obj k := State.obj_congr (State.releaseLive_arb ..) k
@[simp] theorem State.setObj_barriers (s : State) (k : Nat) (o : ArbObj) : (s.setObj k o).arb.barriers = s.arb.barriers :=
  rfl

theorem State.AllDone.setObj {id : Nat} (h : s.AllDone id) (k : Nat) (o : ArbObj) : (s.setObj k o).AllDone id := h

end

/-! ## Releases and grants of an object (R256) -/

section
variable (s : State) (key n : Nat)

/-- WAIT_GEs whose threshold the value meets leave the object's waiters; nothing else of it changes. -/
theorem State.releaseGes_obj_same : (s.releaseGes key).obj key = { s.obj key with
    ges := (s.obj key).ges.filter fun w => !(decide (w.2 ≤ (s.obj key).value)) } :=
  (State.releaseLive_obj ..).trans (State.obj_setObj_same ..)
theorem State.releaseGes_obj_other {k : Nat} (h : k ≠ key) : (s.releaseGes key).obj k = s.obj k :=
  (State.releaseLive_obj ..).trans (State.obj_setObj_other _ h)
@[simp] theorem State.releaseGes_barriers : (s.releaseGes key).arb.barriers = s.arb.barriers := by
  unfold State.releaseGes
  rw [State.releaseLive_arb, State.setObj_barriers]
@[simp] theorem State.releaseGes_mem : (s.releaseGes key).mem = s.mem := State.releaseLive_mem ..

/-- Every WAIT_GE that the value meets is done. -/
theorem State.releaseGes_allDone {w : Nat × Nat} (hw : w ∈ (s.obj key).ges) (hmet : w.2 ≤ (s.obj key).value) :
    (s.releaseGes key).AllDone w.1 :=
  State.releaseLive_allDone _ (List.mem_map_of_mem (List.mem_filter.mpr ⟨hw, decide_eq_true hmet⟩))

/-- The units granted when n have been added: one for each waiter, as far as the added ones and VALUE go. -/
def ArbObj.granted (o : ArbObj) (n : Nat) : Nat := min (min n o.value) o.takes.length

/-- Granted TAKEs leave the head of the queue, each with one unit. -/
theorem State.grantTakes_obj_same : (s.grantTakes key n).obj key = { s.obj key with
    takes := (s.obj key).takes.drop ((s.obj key).granted n), value := (s.obj key).value - (s.obj key).granted n } :=
  (State.releaseLive_obj ..).trans (State.obj_setObj_same ..)
theorem State.grantTakes_obj_other {k : Nat} (h : k ≠ key) : (s.grantTakes key n).obj k = s.obj k :=
  (State.releaseLive_obj ..).trans (State.obj_setObj_other _ h)
@[simp] theorem State.grantTakes_barriers : (s.grantTakes key n).arb.barriers = s.arb.barriers := by
  unfold State.grantTakes
  rw [State.releaseLive_arb, State.setObj_barriers]
@[simp] theorem State.grantTakes_mem : (s.grantTakes key n).mem = s.mem := State.releaseLive_mem ..

end

/-! ## Additions (R251) -/

/-- An object whose VALUE has risen by n, saturating. -/
def ArbObj.raised (o : ArbObj) (n : Nat) : ArbObj := { o with value := min (o.value + n) 0xFFFFFFFF }

/-- An addition applied and counted, its releases and grants still to be decided. -/
def State.raised (s : State) (key n q : Nat) : State :=
  let t := (s.setObj key ((s.obj key).raised n)).count64 (objPage key) ARB.SIGNALS 1
  if (s.obj key).value + n > 0xFFFFFFFF then
    (t.count (objPage key) ARB.SATURATIONS 1).err (objPage key) ARB.E_SIG_SATURATED q
  else t

section
variable (s : State) (key n q : Nat)

theorem State.objAdd_ge (h : (s.obj key).take = false) : s.objAdd key n q = (s.raised key n q).releaseGes key :=
  if_neg (Bool.eq_false_iff.mp h)
theorem State.objAdd_take (h : (s.obj key).take = true) : s.objAdd key n q = (s.raised key n q).grantTakes key n :=
  if_pos h

/-- Counting an addition changes nothing but counters and error flags: of the rest it sets only its object. -/
theorem State.raised_leaves {α : Type} (f : State → α) (hcount : ∀ u p o m, f (State.count u p o m) = f u)
    (hcount64 : ∀ u p o m, f (State.count64 u p o m) = f u) (herr : ∀ u p b i, f (State.err u p b i) = f u) :
    f (s.raised key n q) = f (s.setObj key ((s.obj key).raised n)) := by
  unfold State.raised
  split
  · rw [herr, hcount, hcount64]
  · exact hcount64 ..

@[simp] theorem State.raised_arb : (s.raised key n q).arb = (s.setObj key ((s.obj key).raised n)).arb :=
  State.raised_leaves s key n q State.arb State.count_arb State.count64_arb State.err_arb
@[simp] theorem State.raised_mem : (s.raised key n q).mem = s.mem :=
  State.raised_leaves s key n q State.mem State.count_mem State.count64_mem State.err_mem
@[simp] theorem State.raised_cmds : (s.raised key n q).cmds = s.cmds :=
  State.raised_leaves s key n q State.cmds State.count_cmds State.count64_cmds State.err_cmds
@[simp] theorem State.raised_obj_same : (s.raised key n q).obj key = (s.obj key).raised n :=
  (State.obj_congr (State.raised_arb ..) key).trans (State.obj_setObj_same ..)
theorem State.raised_obj_other {k : Nat} (h : k ≠ key) : (s.raised key n q).obj k = s.obj k :=
  (State.obj_congr (State.raised_arb ..) k).trans (State.obj_setObj_other _ h)

/-- An addition to a GE object raises VALUE and leaves the waiters that the new VALUE does not meet. -/
theorem State.objAdd_obj_ge (h : (s.obj key).take = false) : (s.objAdd key n q).obj key = { (s.obj key).raised n with
    ges := (s.obj key).ges.filter fun w => !(decide (w.2 ≤ ((s.obj key).raised n).value)) } := by
  rw [State.objAdd_ge s key n q h, State.releaseGes_obj_same, State.raised_obj_same]
  rfl

/-- An addition to a TAKE object grants units to the head of its queue and keeps the rest. -/
theorem State.objAdd_obj_take (h : (s.obj key).take = true) : (s.objAdd key n q).obj key = { (s.obj key).raised n with
    takes := (s.obj key).takes.drop (((s.obj key).raised n).granted n)
    value := ((s.obj key).raised n).value - ((s.obj key).raised n).granted n } := by
  rw [State.objAdd_take s key n q h, State.grantTakes_obj_same, State.raised_obj_same]
  rfl

theorem State.objAdd_obj_other {k : Nat} (h : k ≠ key) : (s.objAdd key n q).obj k = s.obj k := by
  cases ht : (s.obj key).take with
  | false => rw [State.objAdd_ge s key n q ht, State.releaseGes_obj_other _ _ h, State.raised_obj_other _ _ _ _ h]
  | true => rw [State.objAdd_take s key n q ht, State.grantTakes_obj_other _ _ _ h, State.raised_obj_other _ _ _ _ h]
@[simp] theorem State.objAdd_mem : (s.objAdd key n q).mem = s.mem := by
  cases ht : (s.obj key).take with
  | false => rw [State.objAdd_ge s key n q ht, State.releaseGes_mem, State.raised_mem]
  | true => rw [State.objAdd_take s key n q ht, State.grantTakes_mem, State.raised_mem]
@[simp] theorem State.objAdd_barriers : (s.objAdd key n q).arb.barriers = s.arb.barriers := by
  cases ht : (s.obj key).take with
  | false => rw [State.objAdd_ge s key n q ht, State.releaseGes_barriers, State.raised_arb, State.setObj_barriers]
  | true => rw [State.objAdd_take s key n q ht, State.grantTakes_barriers, State.raised_arb, State.setObj_barriers]

/-- Every WAIT_GE that the new VALUE meets is done. -/
theorem State.objAdd_allDone (h : (s.obj key).take = false) {w : Nat × Nat} (hw : w ∈ (s.obj key).ges)
    (hmet : w.2 ≤ ((s.obj key).raised n).value) : (s.objAdd key n q).AllDone w.1 := by
  rw [State.objAdd_ge s key n q h]
  refine State.releaseGes_allDone _ _ ?_ ?_
  · rw [State.raised_obj_same]
    exact hw
  · rw [State.raised_obj_same]
    exact hmet

variable {s} in
/-- A command that is done stays so through an addition. -/
theorem State.AllDone.objAdd {id : Nat} (hd : s.AllDone id) : (s.objAdd key n q).AllDone id := by
  have hr : (s.raised key n q).AllDone id := hd.of_cmds (State.raised_cmds ..)
  cases ht : (s.obj key).take with
  | false =>
    rw [State.objAdd_ge s key n q ht]
    exact (hr.setObj _ _).releaseLive _ _
  | true =>
    rw [State.objAdd_take s key n q ht]
    exact (hr.setObj _ _).releaseLive _ _

end

/-! ## ARB_INIT, ARB_SIGNAL, ARB_WAIT_GE and ARB_TAKE (R254, R256) -/

theorem arbInitCheck_quiet : arbInitCheck.Quiet := lateCheck_quiet _ _
theorem arbSignalCheck_quiet : arbSignalCheck.Quiet := lateCheck_quiet _ _
theorem arbWaitGeCheck_quiet : arbWaitGeCheck.Quiet := lateCheck_quiet _ _
theorem arbTakeCheck_quiet : arbTakeCheck.Quiet := lateCheck_quiet _ _

section
variable {s : State} {q : Nat} {d : Desc}

theorem exec_arbInit_begins (h : s.begins q d arbInitCheck = true) : exec (.arbInit q d) s =
    .next (((s.begun q d arbInitCheck).setObj (s.newCmd q d).arbKey
      { value := d.b 1, rest := d.b 2, take := d.bitB 3 30, state := .active,
        owner := if (s.newCmd q d).arbFabric then 0 else s.qSquare q }).addCmd { s.newCmd q d with done := true }) :=
  next_command _ h

theorem exec_arbSignal_begins (h : s.begins q d arbSignalCheck = true) : exec (.arbSignal q d) s =
    .next (((s.begun q d arbSignalCheck).objAdd (s.newCmd q d).arbKey (d.b 1) q).addCmd
      { s.newCmd q d with done := true }) :=
  next_command _ h

/-- An ARB_WAIT_GE whose threshold VALUE meets is done at once. -/
theorem exec_arbWaitGe_met (h : s.begins q d arbWaitGeCheck = true)
    (hmet : d.b 1 ≤ (s.obj (s.newCmd q d).arbKey).value) :
    exec (.arbWaitGe q d) s = .next ((s.begun q d arbWaitGeCheck).addCmd { s.newCmd q d with done := true }) := by
  rw [← State.begun_obj q d arbWaitGeCheck_quiet (s.newCmd q d).arbKey] at hmet
  exact (next_command _ h).trans (congrArg Host.Outcome.next (if_pos hmet))

/-- Any other waits on its object. -/
theorem exec_arbWaitGe_waits (h : s.begins q d arbWaitGeCheck = true)
    (hlow : (s.obj (s.newCmd q d).arbKey).value < d.b 1) : exec (.arbWaitGe q d) s =
    .next (((s.begun q d arbWaitGeCheck).setObj (s.newCmd q d).arbKey { s.obj (s.newCmd q d).arbKey with
      ges := (s.obj (s.newCmd q d).arbKey).ges ++ [(s.nextCmd, d.b 1)] }).addCmd
        { s.newCmd q d with ctx := .waitObj (s.newCmd q d).arbKey }) := by
  rw [← State.begun_obj q d arbWaitGeCheck_quiet (s.newCmd q d).arbKey] at hlow ⊢
  exact (next_command _ h).trans (congrArg Host.Outcome.next (if_neg (Nat.not_le.mpr hlow)))

/-- An ARB_TAKE that finds a unit and no earlier TAKE takes the unit at once. -/
theorem exec_arbTake_free (h : s.begins q d arbTakeCheck = true) (hunit : 0 < (s.obj (s.newCmd q d).arbKey).value)
    (hfirst : (s.obj (s.newCmd q d).arbKey).takes = []) : exec (.arbTake q d) s =
    .next (((s.begun q d arbTakeCheck).setObj (s.newCmd q d).arbKey { s.obj (s.newCmd q d).arbKey with
      value := (s.obj (s.newCmd q d).arbKey).value - 1 }).addCmd { s.newCmd q d with done := true }) := by
  rw [← State.begun_obj q d arbTakeCheck_quiet (s.newCmd q d).arbKey] at hunit hfirst ⊢
  exact (next_command _ h).trans (congrArg Host.Outcome.next (if_pos ⟨hunit, List.isEmpty_iff.mpr hfirst⟩))

/-- Any other joins the TAKE queue. -/
theorem exec_arbTake_waits (h : s.begins q d arbTakeCheck = true)
    (hheld : (s.obj (s.newCmd q d).arbKey).value = 0 ∨ (s.obj (s.newCmd q d).arbKey).takes ≠ []) :
    exec (.arbTake q d) s =
    .next (((s.begun q d arbTakeCheck).setObj (s.newCmd q d).arbKey { s.obj (s.newCmd q d).arbKey with
      takes := (s.obj (s.newCmd q d).arbKey).takes ++ [s.nextCmd] }).addCmd
        { s.newCmd q d with ctx := .waitObj (s.newCmd q d).arbKey }) := by
  rw [← State.begun_obj q d arbTakeCheck_quiet (s.newCmd q d).arbKey] at hheld ⊢
  refine (next_command _ h).trans (congrArg Host.Outcome.next (if_neg ?_))
  rintro ⟨hunit, hfirst⟩
  exact hheld.elim hunit.ne' fun hne => hne (List.isEmpty_iff.mp hfirst)

end

/-! ## A command that sets its object and joins the commands in flight -/

section
variable (s : State) (q : Nat) (d : Desc) {check : Check} (hq : check.Quiet) (k : Nat) (o : ArbObj) (c : Cmd)
include hq

theorem State.begun_setObj_cmds : (((s.begun q d check).setObj k o).addCmd c).cmds = s.cmds ++ [c] := by
  rw [State.addCmd_cmds, State.setObj_cmds, State.begun_cmds q d hq]
theorem State.begun_setObj_mem : (((s.begun q d check).setObj k o).addCmd c).mem = s.mem := by
  rw [State.addCmd_mem, State.setObj_mem, State.begun_mem q d hq]
theorem State.begun_setObj_obj_other {j : Nat} (h : j ≠ k) :
    (((s.begun q d check).setObj k o).addCmd c).obj j = s.obj j := by
  rw [State.addCmd_obj, State.obj_setObj_other o h, State.begun_obj q d hq]

end

/-- Settles O9: ARB_INIT is the equation above, an object reads as it was last set. -/
theorem arbInitCompletes : Obligations.ArbInitCompletes := by
  intro s q d h
  exact ⟨_, exec_arbInit_begins h, State.obj_setObj_same ..,
    fun k hk => s.begun_setObj_obj_other q d arbInitCheck_quiet _ _ _ hk,
    s.begun_setObj_mem q d arbInitCheck_quiet .., s.begun_setObj_cmds q d arbInitCheck_quiet ..⟩

/-- Settles O12: each of the four cases is its equation above. -/
theorem arbWaitsComplete : Obligations.ArbWaitsComplete := by
  have hge := arbWaitGeCheck_quiet
  have htake := arbTakeCheck_quiet
  refine ⟨fun s q d h hmet => ?met, fun s q d h hlow => ?waits, fun s q d h hunit hfirst => ?free,
    fun s q d h hheld => ?joins⟩
  case met =>
    exact ⟨_, exec_arbWaitGe_met h hmet, by rw [State.addCmd_cmds, State.begun_cmds q d hge],
      by rw [State.addCmd_arb, State.begun_arb q d hge], by rw [State.addCmd_mem, State.begun_mem q d hge]⟩
  case waits =>
    exact ⟨_, exec_arbWaitGe_waits h hlow, s.begun_setObj_cmds q d hge .., State.obj_setObj_same ..,
      fun k hk => s.begun_setObj_obj_other q d hge _ _ _ hk, s.begun_setObj_mem q d hge ..⟩
  case free =>
    exact ⟨_, exec_arbTake_free h hunit hfirst, s.begun_setObj_cmds q d htake .., State.obj_setObj_same ..,
      fun k hk => s.begun_setObj_obj_other q d htake _ _ _ hk, s.begun_setObj_mem q d htake ..⟩
  case joins =>
    exact ⟨_, exec_arbTake_waits h hheld, s.begun_setObj_cmds q d htake .., State.obj_setObj_same ..,
      fun k hk => s.begun_setObj_obj_other q d htake _ _ _ hk, s.begun_setObj_mem q d htake ..⟩

/-! ## What an ARB_SIGNAL leaves (R251, R256) -/

section
variable (s : State) (q : Nat) (d : Desc)

/-- An ARB_SIGNAL adds to its object as it stood before the command started. -/
theorem State.begun_objAdd_obj_other {key k : Nat} (n : Nat) (c : Cmd) (h : k ≠ key) :
    (((s.begun q d arbSignalCheck).objAdd key n q).addCmd c).obj k = s.obj k := by
  rw [State.addCmd_obj, State.objAdd_obj_other _ _ _ _ h, State.begun_obj q d arbSignalCheck_quiet]
theorem State.begun_objAdd_mem (key n : Nat) (c : Cmd) :
    (((s.begun q d arbSignalCheck).objAdd key n q).addCmd c).mem = s.mem := by
  rw [State.addCmd_mem, State.objAdd_mem, State.begun_mem q d arbSignalCheck_quiet]

end

/-- Settles O10: an addition to a GE object is `State.objAdd_obj_ge`, its releases are `State.objAdd_allDone`. -/
theorem arbSignalReleases : Obligations.ArbSignalReleases := by
  intro s q d h hge
  have hobj := State.begun_obj (s := s) q d arbSignalCheck_quiet (s.newCmd q d).arbKey
  have hge' := hge
  rw [← hobj] at hge'
  have hadd := State.objAdd_obj_ge _ _ (d.b 1) q hge'
  rw [hobj] at hadd
  refine ⟨_, exec_arbSignal_begins h, ?value, ?ges, fun w hw hmet => ?released,
    fun k hk => s.begun_objAdd_obj_other q d _ _ hk, s.begun_objAdd_mem q d ..⟩
  case value =>
    rw [State.addCmd_obj, hadd]
    rfl
  case ges =>
    rw [State.addCmd_obj, hadd]
    rfl
  case released =>
    rw [← hobj] at hw hmet
    exact (State.objAdd_allDone _ _ (d.b 1) q hge' hw hmet).addCmd_done rfl

/-- Settles O11: an addition to a TAKE object is `State.objAdd_obj_take`. -/
theorem arbSignalGrants : Obligations.ArbSignalGrants := by
  intro s q d h htake
  have hobj := State.begun_obj (s := s) q d arbSignalCheck_quiet (s.newCmd q d).arbKey
  rw [← hobj] at htake
  have hadd := State.objAdd_obj_take _ _ (d.b 1) q htake
  rw [hobj] at hadd
  refine ⟨_, exec_arbSignal_begins h, ?takes, ?value, fun k hk => s.begun_objAdd_obj_other q d _ _ hk,
    s.begun_objAdd_mem q d ..⟩
  case takes =>
    rw [State.addCmd_obj, hadd]
    rfl
  case value =>
    rw [State.addCmd_obj, hadd]
    rfl

end Sys2Proof.Machine
end

section
/-! PROOFS. Barriers and fabric signals (R254, R259 to R261): the release of a local barrier, and what ARB_BARRIER,
BARRIER_TRACKER_GRANT, ARB_FBARRIER and ARB_FSIGNAL do. -/

namespace Sys2Proof.Machine

/-! ## Local barriers (R259) -/

/-- The state in which the arrivals of a complete barrier have been released and its tracker freed, the addition of R251
still to come. -/
def State.barrierFreed (s : State) (key : Nat) (b : Barrier) : State :=
  (({ s with arb := { s.arb with barriers := s.arb.barriers.filter fun x => x.obj != key } } : State).releaseLive
    (objPage key) (b.arrived.map (·.2))).count (objPage key) ARB.BARRIERS_DONE 1

section
variable {s : State} {key : Nat} {b : Barrier}

theorem State.barrierFreed_arb : (s.barrierFreed key b).arb =
    { s.arb with barriers := s.arb.barriers.filter fun x => x.obj != key } := by
  unfold State.barrierFreed
  rw [State.count_arb, State.releaseLive_arb]

theorem State.barrierFreed_obj (k : Nat) : (s.barrierFreed key b).obj k = s.obj k := by
  unfold State.obj
  rw [State.barrierFreed_arb]

theorem State.barrierFreed_allDone {a : Nat × Nat} (h : a ∈ b.arrived) : (s.barrierFreed key b).AllDone a.2 :=
  (State.releaseLive_allDone _ (List.mem_map_of_mem h)).of_cmds (State.count_cmds ..)

/-- The barrier on an object whose squares have all arrived, none of them again, is released, and VALUE rises by one. -/
theorem State.releaseBarrier_complete (hb : (s.arb.barriers.find? fun b => b.obj == key) = some b)
    (hall : ∀ n, n < 384 → b.mask.testBit n = true → ∃ a, a ∈ b.arrived ∧ a.1 = n) (hlater : b.later = []) :
    ∃ q, s.releaseBarrier key = (s.barrierFreed key b).objAdd key 1 q := by
  have hfull : ((List.range 384).all fun n => !(b.mask.testBit n) || (b.arrived.any fun a => a.1 == n)) = true := by
    refine List.all_eq_true.mpr fun n hn => ?_
    cases hbit : b.mask.testBit n with
    | false => rfl
    | true =>
      obtain ⟨a, ha, rfl⟩ := hall n (List.mem_range.mp hn) hbit
      exact List.any_eq_true.mpr ⟨a, ha, beq_self_eq_true _⟩
  refine ⟨((b.arrived.getLast?).bind fun a => ((s.barrierFreed key b).cmd? a.2).map fun (c : Cmd) => c.q).getD 0, ?_⟩
  unfold State.releaseBarrier
  rw [hb]
  simp only [hfull, hlater]
  rfl

end

/-- Settles O14: a complete barrier is released by `State.releaseBarrier_complete`; the addition that follows raises
VALUE and leaves the trackers and what is done as they are. -/
theorem barrierReleases : Obligations.BarrierReleases := by
  intro s key b hb hall hlater hge
  obtain ⟨q, hrel⟩ := State.releaseBarrier_complete hb hall hlater
  have hobj : (s.barrierFreed key b).obj key = s.obj key := State.barrierFreed_obj key
  rw [hrel]
  refine ⟨?value, ?tracker, fun a ha => ?done⟩
  case value =>
    rw [State.objAdd_obj_ge _ _ _ _ (hobj.symm ▸ hge), hobj]
    rfl
  case tracker => rw [State.objAdd_barriers, State.barrierFreed_arb]
  case done => exact (State.barrierFreed_allDone ha).objAdd _ _ _

/-! ## ARB_BARRIER and BARRIER_TRACKER_GRANT (R259) -/

section
variable {s : State} {q : Nat} {d : Desc}

theorem exec_arbBarrier_begins (h : s.begins q d arbBarrierCheck = true) : exec (.arbBarrier q d) s = .next
    (((s.begun q d arbBarrierCheck).addCmd { s.newCmd q d with ctx := .waitObj (s.newCmd q d).arbKey }).barrierArrive
      (s.newCmd q d).arbKey (leNat ((s.newCmd q d).mask (s.begun q d arbBarrierCheck)).data) (s.qSquare q) s.nextCmd) :=
  next_command _ h

end

/-- The state in which an arrival no longer waits for a tracker; the cycles it waited are counted. -/
def State.trackerServed (s : State) (w : Nat × Nat) : State :=
  ({ s with arb := { s.arb with trackerWait := s.arb.trackerWait.filter (· != w) } } : State).countFree (arbPg 6)
    ARB.TRACKER_WAIT_CYCLES

section
variable {s : State} {w : Nat × Nat} {c : Cmd} (hc : s.cmd? w.1 = some c) (hw : s.arb.trackerWait.contains w = true)
include hc hw

/-- An arrival whose object has no barrier in progress begins one where a tracker is free. -/
theorem State.trackerServe_begins (hnone : (s.arb.barriers.find? fun b => b.obj == c.arbKey) = none)
    (hfree : s.arb.barriers.length < 256) :
    s.trackerServe w = (s.trackerServed w).barrierBegin c.arbKey w.2 c.msq w.1 := by
  have hany : (s.arb.barriers.any fun b => b.obj == c.arbKey) = false :=
    List.isSome_find?.symm.trans (congrArg Option.isSome hnone)
  unfold State.trackerServe
  simp only [hc, hw, hany, hfree]
  rfl

/-- It waits on where none is free. -/
theorem State.trackerServe_waits (hnone : (s.arb.barriers.find? fun b => b.obj == c.arbKey) = none)
    (hfull : 256 ≤ s.arb.barriers.length) : s.trackerServe w = s := by
  have hany : (s.arb.barriers.any fun b => b.obj == c.arbKey) = false :=
    List.isSome_find?.symm.trans (congrArg Option.isSome hnone)
  unfold State.trackerServe
  simp only [hc, hw, hany, Nat.not_lt.mpr hfull]
  rfl

/-- One whose object has a barrier in progress joins it, or ends where its mask is another. -/
theorem State.trackerServe_joins {b : Barrier} (hb : (s.arb.barriers.find? fun b => b.obj == c.arbKey) = some b) :
    s.trackerServe w = if b.mask ≠ w.2 then
        ((s.trackerServed w).err (objPage c.arbKey) ARB.E_BARRIER_MISMATCH c.q).endCmd w.1 .configInvalid
      else (s.trackerServed w).barrierJoin c.arbKey c.msq w.1 b := by
  have hany : (s.arb.barriers.any fun b => b.obj == c.arbKey) = true :=
    List.isSome_find?.symm.trans (congrArg Option.isSome hb)
  have hjoin : s.trackerServe w = s.trackerJoin c.arbKey w := by
    unfold State.trackerServe
    simp only [hc, hw, hany]
    rfl
  rw [hjoin]
  unfold State.trackerJoin
  simp only [hc, hb]
  rfl

end

/-! ## ARB_FBARRIER and ARB_FSIGNAL (R254, R260, R261) -/

theorem arbFbarrierCheck_quiet : arbFbarrierCheck.Quiet := lateCheck_quiet _ _
theorem arbFsignalCheck_quiet : arbFsignalCheck.Quiet := lateCheck_quiet _ _

section
variable {s t : State} {q : Nat} {d : Desc}

/-- The set of an ARB_FBARRIER and the members at its positions come from the lists that the module keeps of its jobs. -/
theorem fbarSet_congr (h : t.bnd = s.bnd) (d : Desc) : fbarSet t d = fbarSet s d := by
  unfold fbarSet State.job
  rw [h]
theorem State.setMembers_congr (h : t.bnd = s.bnd) (job ver first count : Nat) :
    t.setMembers job ver first count = s.setMembers job ver first count := by
  unfold State.setMembers State.listAt State.job
  rw [h]

/-- Losses are part of what the module holds of the fabric. -/
theorem State.pairGone_congr (h : t.fab = s.fab) : t.pairGone = s.pairGone := by
  funext m
  unfold State.pairGone State.substitute State.isLost
  rw [h]

end

/-- The fabric barrier that an ARB_FBARRIER enters as it starts (R261). -/
def State.newFbar (s : State) (d : Desc) : FBarrier :=
  FBarrier.mk (d.f 0 11 0) (s.job d.job).ver (fbarSet s d).1 (fbarSet s d).2 s.nextCmd

/-- The state in which an ARB_FBARRIER has entered its barrier on this module. -/
def State.fbarEntered (s : State) (q : Nat) (d : Desc) : State :=
  let t := (s.begun q d arbFbarrierCheck).addCmd { s.newCmd q d with ctx := .waitObj (s.newCmd q d).arbKey }
  { t with arb := { t.arb with fbars := t.arb.fbars ++ [s.newFbar d] } }

/-- What a barrier just entered does next: it ends by an end that came before it or by a lost pair of its set, or makes the
arrival of this module. -/
def State.fbarRun (t : State) (job : Nat) (b : FBarrier) : State :=
  match t.arb.stopped.find? fun x => x.1 == job && x.2.1 == b.obj with
  | some x => ({ t with arb := { t.arb with stopped := t.arb.stopped.filter (· != x) } } : State).fbarEnd job b.obj x.2.2
  | none =>
    if (t.setMembers job b.ver b.first b.count).any t.pairGone then t.fbarEnd job b.obj .linkLost
    else t.fbarOwn job b.obj b.first b.count b.ver

section
variable {s t : State} {q : Nat} {d : Desc}

theorem exec_arbFbarrier_begins (h : s.begins q d arbFbarrierCheck = true) :
    exec (.arbFbarrier q d) s = .next ((s.fbarEntered q d).fbarRun d.job (s.newFbar d)) := by
  have hbnd : (s.begun q d arbFbarrierCheck).bnd = s.bnd := State.begun_bnd q d arbFbarrierCheck_quiet
  have hset := fbarSet_congr hbnd d
  have hjob := State.begun_job (s := s) q d arbFbarrierCheck_quiet d.job
  refine (next_command _ h).trans (congrArg Host.Outcome.next ?_)
  simp only [hset, hjob]
  rfl

theorem State.fbarRun_stopped {job : Nat} {b : FBarrier} {x : Nat × Nat × Status}
    (hx : (t.arb.stopped.find? fun x => x.1 == job && x.2.1 == b.obj) = some x) : t.fbarRun job b =
    ({ t with arb := { t.arb with stopped := t.arb.stopped.filter (· != x) } } : State).fbarEnd job b.obj x.2.2 := by
  unfold State.fbarRun
  rw [hx]

theorem State.fbarRun_lost {job : Nat} {b : FBarrier}
    (hnone : (t.arb.stopped.find? fun x => x.1 == job && x.2.1 == b.obj) = none)
    (hgone : (t.setMembers job b.ver b.first b.count).any t.pairGone = true) :
    t.fbarRun job b = t.fbarEnd job b.obj .linkLost := by
  unfold State.fbarRun
  rw [hnone]
  exact if_pos hgone

theorem State.fbarRun_arrives {job : Nat} {b : FBarrier}
    (hnone : (t.arb.stopped.find? fun x => x.1 == job && x.2.1 == b.obj) = none)
    (hgone : (t.setMembers job b.ver b.first b.count).any t.pairGone = false) :
    t.fbarRun job b = t.fbarOwn job b.obj b.first b.count b.ver := by
  unfold State.fbarRun
  rw [hnone]
  exact if_neg (Bool.eq_false_iff.mp hgone)

theorem State.fbarEntered_arb :
    (s.fbarEntered q d).arb = { s.arb with fbars := s.arb.fbars ++ [s.newFbar d] } := by
  unfold State.fbarEntered
  simp only [State.addCmd_arb, State.begun_arb q d arbFbarrierCheck_quiet]
theorem State.fbarEntered_stopped : (s.fbarEntered q d).arb.stopped = s.arb.stopped := by rw [State.fbarEntered_arb]
theorem State.fbarEntered_cmds : (s.fbarEntered q d).cmds =
    s.cmds ++ [{ s.newCmd q d with ctx := .waitObj (s.newCmd q d).arbKey }] :=
  congrArg (· ++ _) (State.begun_cmds q d arbFbarrierCheck_quiet)
theorem State.fbarEntered_mem : (s.fbarEntered q d).mem = s.mem := State.begun_mem q d arbFbarrierCheck_quiet
theorem State.fbarEntered_bnd : (s.fbarEntered q d).bnd = s.bnd := State.begun_bnd q d arbFbarrierCheck_quiet
theorem State.fbarEntered_fab : (s.fbarEntered q d).fab = s.fab := State.begun_fab q d arbFbarrierCheck_quiet

/-- Starting an ARB_FBARRIER changes neither its set nor which of its pairs are lost. -/
theorem State.fbarEntered_gone (job ver first count : Nat) :
    ((s.fbarEntered q d).setMembers job ver first count).any (s.fbarEntered q d).pairGone =
      (s.setMembers job ver first count).any s.pairGone := by
  rw [State.setMembers_congr State.fbarEntered_bnd, State.pairGone_congr State.fbarEntered_fab]

theorem exec_arbFsignal_begins {m : Nat} (h : s.begins q d arbFsignalCheck = true)
    (hm : (s.job d.job).members[d.f 2 14 0]? = some m) : exec (.arbFsignal q d) s = .next
    (((s.begun q d arbFsignalCheck).addCmd { s.newCmd q d with ctx := .fsignal m }).sendF0 (s.qSquare q) m d.job
      (.fsignal s.nextCmd (d.f 0 11 0) (d.b 1))) := by
  refine (next_command _ h).trans (congrArg Host.Outcome.next ?_)
  simp only [State.begun_job q d arbFsignalCheck_quiet, hm]
  rfl

end

/-- Settles O13: the commands are the equations above, the arrivals that wait for a tracker the cases of
`State.trackerServe`, and an ARB_FBARRIER's barrier those of `State.fbarRun`. -/
theorem barrierAndFabricCommandsComplete : Obligations.BarrierAndFabricCommandsComplete := by
  refine ⟨⟨fun s q d h => exec_arbBarrier_begins h, fun s => rfl, fun s u w c hc hw hu => ?tracker⟩,
    fun s q d h => ?fbarrier, fun s q d m h hm => ?fsignal⟩
  case tracker =>
    subst hu
    refine ⟨State.trackerServe_begins hc hw, State.trackerServe_waits hc hw, fun b hb => ?_⟩
    rw [State.trackerServe_joins hc hw hb]
    exact ⟨fun hmask => if_neg (not_not.mpr hmask), fun hmask => if_pos hmask⟩
  case fbarrier =>
    refine ⟨s.fbarEntered q d, State.fbarEntered_cmds, State.fbarEntered_arb, State.fbarEntered_mem,
      State.fbarEntered_bnd, State.fbarEntered_fab, fun hnone => ?started, fun x hx => ?ended⟩
    all_goals rw [exec_arbFbarrier_begins h]
    case started =>
      rw [← State.fbarEntered_stopped (q := q) (d := d)] at hnone
      rw [← State.fbarEntered_gone (q := q)]
      exact ⟨fun hgone => congrArg Host.Outcome.next (State.fbarRun_arrives hnone hgone),
        fun hgone => congrArg Host.Outcome.next (State.fbarRun_lost hnone hgone)⟩
    case ended =>
      rw [← State.fbarEntered_stopped (q := q) (d := d)] at hx
      exact congrArg Host.Outcome.next (State.fbarRun_stopped hx)
  case fsignal =>
    exact ⟨_, exec_arbFsignal_begins h hm, congrArg (· ++ _) (State.begun_cmds q d arbFsignalCheck_quiet),
      State.begun_mem q d arbFsignalCheck_quiet, State.begun_bnd q d arbFsignalCheck_quiet,
      State.begun_fab q d arbFsignalCheck_quiet, State.begun_arb q d arbFsignalCheck_quiet⟩

/-! ## Witnesses: the hypotheses of the statements above can be met -/

/-- An Arbiter descriptor of job 0 with the given opcode and body. -/
def arbDesc (op : BitVec 32) (body : List (BitVec 32)) : Desc :=
  op :: List.replicate 7 0 ++ body ++ List.replicate (8 - body.length) 0

/-- A command of queue id that waits on an object. -/
def waiter (id key : Nat) : Cmd := { id := id, q := id, msq := 0, desc := arbDesc 0xA [], ctx := .waitObj key }

/-- The example after R257, with a descriptor at the head of queue 0: commands 5, 9 and 12 wait on GE object 0 of VALUE 3
for 4, 4 and 6, commands 20, 21 and 22 on TAKE object 1 without units; object 2 has two units. The members of job 0 are
modules 0 and 1. -/
def arbModule (d : Desc) : State :=
  { startModule d [] with
    bnd := { bound := [(0, 0), (2 ^ 24, 0), (3 * 2 ^ 24, 0), (3 * 2 ^ 24 + 1, 0), (3 * 2 ^ 24 + 2, 0), (4 * 2 ^ 24, 0)]
             jobs := [(0, { members := [0, 1], ver := 1 })] }
    arb := { objs := [(0, { value := 3, state := .active, ges := [(5, 4), (9, 4), (12, 6)] }),
                      (1, { take := true, state := .active, takes := [20, 21, 22] }),
                      (2, { value := 2, take := true, state := .active }), (6 * 4096, { state := .active })] }
    cmds := [waiter 5 0, waiter 9 0, waiter 12 0, waiter 20 1, waiter 21 1, waiter 22 1]
    nextCmd := 30 }

/-- ARB_INIT of object 2 as a GE object with VALUE 7 and REST 1. -/
theorem arbInit_witness : ∃ t : State,
    exec (.arbInit 0 (arbDesc 8 [2, 7, 1])) (arbModule (arbDesc 8 [2, 7, 1])) = .next t ∧
      t.obj 2 = { value := 7, rest := 1, state := .active } := by
  obtain ⟨t, hrun, hobj, -⟩ :=
    arbInitCompletes (arbModule (arbDesc 8 [2, 7, 1])) 0 (arbDesc 8 [2, 7, 1]) (by decide +kernel)
  exact ⟨t, hrun, hobj.trans (by decide +kernel)⟩

/-- One added to object 0: 5 and 9 are released, 12 stays. -/
theorem arbSignal_ge_witness : ∃ t : State,
    exec (.arbSignal 0 (arbDesc 9 [0, 1])) (arbModule (arbDesc 9 [0, 1])) = .next t ∧
      (t.obj 0).value = 4 ∧ (t.obj 0).ges = [(12, 6)] ∧ t.AllDone 5 ∧ t.AllDone 9 := by
  obtain ⟨t, hrun, hvalue, hges, hdone, -⟩ :=
    arbSignalReleases (arbModule (arbDesc 9 [0, 1])) 0 (arbDesc 9 [0, 1]) (by decide +kernel) (by decide +kernel)
  exact ⟨t, hrun, hvalue.trans (by decide +kernel), hges.trans (by decide +kernel),
    hdone (5, 4) (by decide +kernel) (by decide +kernel), hdone (9, 4) (by decide +kernel) (by decide +kernel)⟩

/-- Two added to object 1: the head of its queue has them, 22 stays. -/
theorem arbSignal_take_witness : ∃ t : State,
    exec (.arbSignal 0 (arbDesc 9 [1, 2])) (arbModule (arbDesc 9 [1, 2])) = .next t ∧
      (t.obj 1).takes = [22] ∧ (t.obj 1).value = 0 := by
  obtain ⟨t, hrun, htakes, hvalue, -⟩ :=
    arbSignalGrants (arbModule (arbDesc 9 [1, 2])) 0 (arbDesc 9 [1, 2]) (by decide +kernel) (by decide +kernel)
  exact ⟨t, hrun, htakes.trans (by decide +kernel), hvalue.trans (by decide +kernel)⟩

/-- An ARB_WAIT_GE for 3 on object 0 is met, one for 4 waits; an ARB_TAKE of object 2 is granted, one of object 1 waits. -/
theorem arbWaits_witness :
    (∃ t : State, exec (.arbWaitGe 0 (arbDesc 0xA [0, 3])) (arbModule (arbDesc 0xA [0, 3])) = .next t ∧
      (t.cmds.map fun c => (c.id, c.done)).getLast? = some (30, true)) ∧
    (∃ t : State, exec (.arbWaitGe 0 (arbDesc 0xA [0, 4])) (arbModule (arbDesc 0xA [0, 4])) = .next t ∧
      (t.obj 0).ges = [(5, 4), (9, 4), (12, 6), (30, 4)]) ∧
    (∃ t : State, exec (.arbTake 0 (arbDesc 0xB [2])) (arbModule (arbDesc 0xB [2])) = .next t ∧ (t.obj 2).value = 1) ∧
    (∃ t : State, exec (.arbTake 0 (arbDesc 0xB [1])) (arbModule (arbDesc 0xB [1])) = .next t ∧
      (t.obj 1).takes = [20, 21, 22, 30]) := by
  obtain ⟨hmet, hwaits, hfree, hjoins⟩ := arbWaitsComplete
  obtain ⟨t1, hrun1, hcmds1, -⟩ :=
    hmet (arbModule (arbDesc 0xA [0, 3])) 0 (arbDesc 0xA [0, 3]) (by decide +kernel) (by decide +kernel)
  obtain ⟨t2, hrun2, -, hobj2, -⟩ :=
    hwaits (arbModule (arbDesc 0xA [0, 4])) 0 (arbDesc 0xA [0, 4]) (by decide +kernel) (by decide +kernel)
  obtain ⟨t3, hrun3, -, hobj3, -⟩ :=
    hfree (arbModule (arbDesc 0xB [2])) 0 (arbDesc 0xB [2]) (by decide +kernel) (by decide +kernel) (by decide +kernel)
  obtain ⟨t4, hrun4, -, hobj4, -⟩ :=
    hjoins (arbModule (arbDesc 0xB [1])) 0 (arbDesc 0xB [1]) (by decide +kernel) (by decide +kernel)
  exact ⟨⟨t1, hrun1, (congrArg (fun l => (l.map fun c => (c.id, c.done)).getLast?) hcmds1).trans (by decide +kernel)⟩,
    ⟨t2, hrun2, (congrArg ArbObj.ges hobj2).trans (by decide +kernel)⟩,
    ⟨t3, hrun3, (congrArg ArbObj.value hobj3).trans (by decide +kernel)⟩,
    ⟨t4, hrun4, (congrArg ArbObj.takes hobj4).trans (by decide +kernel)⟩⟩

/-- Squares 0 and 1 have arrived at a barrier on object 0 by commands 5 and 9. -/
def fullBarrier : Barrier := { obj := 0, mask := 3, arrived := [(0, 5), (1, 9)], later := [] }
def barrierModule : State := { arbModule nopDesc with arb := { (arbModule nopDesc).arb with barriers := [fullBarrier] } }

/-- It is released: VALUE becomes 4 and the tracker is free. -/
theorem barrierReleases_witness : ((barrierModule.releaseBarrier 0).obj 0).value = 4 ∧
    (barrierModule.releaseBarrier 0).arb.barriers = [] ∧ (barrierModule.releaseBarrier 0).AllDone 5 := by
  obtain ⟨hvalue, htracker, hdone⟩ :=
    barrierReleases barrierModule 0 fullBarrier (by decide +kernel) (by decide +kernel) rfl (by decide +kernel)
  exact ⟨hvalue.trans (by decide +kernel), htracker.trans (by decide +kernel), hdone (0, 5) (by decide)⟩

/-- An ARB_FBARRIER over both members enters its barrier, and an ARB_FSIGNAL to member 1 waits for its target. -/
theorem fabricCommands_witness :
    (∃ t : State, t.arb.fbars = [FBarrier.mk 0 1 0 2 30] ∧
      exec (.arbFbarrier 0 (arbDesc 0xD [2 ^ 31, 0, 0, 2 ^ 31])) (arbModule (arbDesc 0xD [2 ^ 31, 0, 0, 2 ^ 31])) =
        .next (t.fbarOwn 0 0 0 2 1)) ∧
    (∃ t : State, exec (.arbFsignal 0 (arbDesc 0xE [2 ^ 31, 3, 1])) (arbModule (arbDesc 0xE [2 ^ 31, 3, 1])) =
      .next (t.sendF0 0 1 0 (.fsignal 30 0 3)) ∧ t.cmds.length = 7) := by
  obtain ⟨-, hfbarrier, hfsignal⟩ := barrierAndFabricCommandsComplete
  obtain ⟨t, -, harb, -, -, -, hstarted, -⟩ :=
    hfbarrier (arbModule (arbDesc 0xD [2 ^ 31, 0, 0, 2 ^ 31])) 0 (arbDesc 0xD [2 ^ 31, 0, 0, 2 ^ 31]) (by decide +kernel)
  obtain ⟨u, hrun, hcmds, -⟩ :=
    hfsignal (arbModule (arbDesc 0xE [2 ^ 31, 3, 1])) 0 (arbDesc 0xE [2 ^ 31, 3, 1]) 1 (by decide +kernel) (by decide +kernel)
  exact ⟨⟨t, (congrArg ArbState.fbars harb).trans (by decide +kernel),
      (hstarted (by decide +kernel)).1 (by decide +kernel)⟩,
    ⟨u, hrun, (congrArg List.length hcmds).trans (by decide +kernel)⟩⟩

end Sys2Proof.Machine
end

section
/-! PROOFS. Scrubbing and the write-combining buffers (R276 to R282): what a write-back takes from the buffers, and where the
patrol stands after a line. -/

namespace Sys2Proof.Machine

/-! ## What a write-back leaves in the buffers (R281) -/

section
variable (s : State)

/-- What does not look at the repair lists, an HBM row put on one leaves alone. -/
theorem State.addRepair_leaves {α : Type} (g : MemState → α) (h : ∀ m l, g { m with repair := l } = g m) (line : Nat) :
    g (s.addRepair line).mem = g s.mem := by
  unfold State.addRepair
  extract_lets row pg
  split
  · rfl
  · exact h ..

@[simp] theorem State.addRepair_wcb (line : Nat) : (s.addRepair line).mem.wcb = s.mem.wcb :=
  s.addRepair_leaves MemState.wcb (fun _ _ => rfl) line
@[simp] theorem State.addRepair_patrol (line : Nat) : (s.addRepair line).mem.patrol = s.mem.patrol :=
  s.addRepair_leaves MemState.patrol (fun _ _ => rfl) line

theorem State.writebackWords_wcb (e : WcbEntry) : (s.writebackWords e).1.mem.wcb = s.mem.wcb := by
  unfold State.writebackWords
  refine (foldl_leaves (fun a : State × Bool × Nat => a.1.mem.wcb) _ _ _ fun a k => ?_).trans rfl
  obtain ⟨t, rmw, ue⟩ := a
  show (ite _ _ _ : State × Bool × Nat).1.mem.wcb = t.mem.wcb
  split <;> rfl

/-- A write-back takes the entry of its line from the buffers. -/
theorem State.writeback_wcb (e : WcbEntry) :
    (s.writeback e).mem.wcb = s.mem.wcb.filter fun x => x.line != e.line := by
  have hwords := s.writebackWords_wcb e
  unfold State.writeback
  extract_lets st wp
  split
  next t rmw ue ht =>
  rw [ht] at hwords
  extract_lets t1 t2 t3 t4
  have h3 : t3.mem.wcb = t2.mem.wcb := by
    show (if rmw then (t2.count64 wp WCB.RMW_WRITEBACKS 1).count64 (hbmPg st) HBM.LINE_READS 1 else t2).mem.wcb = _
    split <;> simp
  have h4 : t4.mem.wcb = t3.mem.wcb := by
    show (if ue = 0 then t3 else _).mem.wcb = _
    split <;> simp
  show (t4.mem.wcb.filter _) = _
  rw [h4, h3, State.count64_mem, State.count64_mem, hwords]

theorem State.mem_writeback_wcb {e x : WcbEntry} :
    x ∈ (s.writeback e).mem.wcb ↔ x ∈ s.mem.wcb ∧ x.line ≠ e.line := by
  rw [State.writeback_wcb, List.mem_filter, bne_iff_ne]

/-- An entry stays in the buffers where none of those written back is of its line. -/
theorem State.mem_writebackAll_wcb {es : List WcbEntry} {x : WcbEntry} :
    x ∈ (s.writebackAll es).mem.wcb ↔ x ∈ s.mem.wcb ∧ ∀ e ∈ es, x.line ≠ e.line := by
  induction es generalizing s with
  | nil => simp [State.writebackAll]
  | cons e es ih =>
    rw [show s.writebackAll (e :: es) = (s.writeback e).writebackAll es from rfl, ih, State.mem_writeback_wcb,
      List.forall_mem_cons, and_assoc]

/-- No entry of a die is left once all of them are written back. -/
theorem State.writebackAll_dieEntries {die : Nat} {x : WcbEntry}
    (hx : x ∈ (s.writebackAll (s.dieEntries die)).mem.wcb) : s.lineStack x.line / 2 ≠ die := by
  obtain ⟨hmem, hother⟩ := s.mem_writebackAll_wcb.mp hx
  exact fun hdie => hother x (List.mem_filter.mpr ⟨hmem, beq_iff_eq.mpr hdie⟩) rfl

end

/-! ## What a scrub leaves of the patrols (R277, R278) -/

section
variable (s : State)

theorem State.hbmUe_patrol (addr : Nat) (scrub : Bool) : (s.hbmUe addr scrub).mem.patrol = s.mem.patrol := by
  unfold State.hbmUe
  extract_lets st pg t u n v
  have hv : v.mem = u.mem := by
    show (ite _ _ _ : State).mem = u.mem
    split
    · exact State.setReg_mem ..
    · exact State.err_mem ..
  rw [State.addRepair_patrol, hv, State.err_mem, State.count_mem]

theorem State.rowCorrected_patrol (line : Nat) : (s.rowCorrected line).mem.patrol = s.mem.patrol := by
  unfold State.rowCorrected
  extract_lets row n t
  split
  · exact State.addRepair_patrol ..
  · rfl

theorem State.scrubLine_patrol (line : Nat) : (s.scrubLine line).st.mem.patrol = s.mem.patrol := by
  unfold State.scrubLine
  extract_lets pg rd t fixed u v
  have hu : u.mem.patrol = t.mem.patrol := foldl_leaves (fun x : State => x.mem.patrol) _ fixed t fun _ _ => rfl
  have hv : v.mem.patrol = u.mem.patrol :=
    foldl_leaves (fun x : State => x.mem.patrol) _ _ u fun x p => x.hbmUe_patrol ..
  have ht : t.mem = s.mem := State.count64_mem ..
  split
  · exact hv.trans (hu.trans (congrArg MemState.patrol ht))
  · rw [State.count_mem, State.count64_mem, hv, hu, ht]

end

/-- Lines within the module-local map lie at their address. -/
theorem State.lineStack_mapped (s : State) {st pos : Nat} (hst : st < 12) (hpos : pos < stackLines) :
    s.lineStack (st * 0xC00000000 + 64 * pos) = st := by
  have hp : pos < 0x30000000 := hpos
  unfold State.lineStack State.lineAddr rowSpace
  rw [if_pos (by omega)]
  omega

/-! ## The rows of the scrubber and of the buffers -/

section
variable {s : State}

theorem exec_wcbIdleWriteback_entry {line : Nat} {e : WcbEntry} (h : s.wcbFind line = some e) :
    exec (.wcbIdleWriteback line) s = .next (s.writeback e) := by
  show Host.Outcome.next (s.wcbIdle line) = _
  unfold State.wcbIdle
  rw [h]

theorem exec_wcbFullWriteback_entry {line : Nat} {e : WcbEntry} (h : s.wcbFind line = some e) :
    exec (.wcbFullWriteback line) s = .next (if e.data.all Option.isSome then s.writeback e else s) := by
  show Host.Outcome.next (s.wcbFull line) = _
  unfold State.wcbFull
  rw [h]

theorem exec_wcbEvict_full {pc : Nat} {e : WcbEntry} {l : List WcbEntry} (cycles : Nat) (h : s.pcEntries pc = e :: l)
    (hl : 63 ≤ l.length) : exec (.wcbEvict pc cycles) s = .next
      (((s.writeback e).count (wcbPg (s.lineStack e.line / 2)) WCB.FULL_EVICTIONS 1).count64
        (wcbPg (s.lineStack e.line / 2)) WCB.FULL_WAIT_CYCLES cycles) := by
  show Host.Outcome.next (s.wcbEvict pc cycles) = _
  unfold State.wcbEvict
  simp only [h, List.length_cons, ge_iff_le, if_pos (Nat.succ_le_succ hl)]

theorem exec_wcbBeatFlush_due {die : Nat} (h : s.flushDue die = true) :
    ∃ t : State, exec (.wcbBeatFlush die) s = .next t ∧ t.mem.wcb = (s.writebackAll (s.dieEntries die)).mem.wcb ∧
      t.mem.cells = (s.writebackAll (s.dieEntries die)).mem.cells := by
  refine ⟨s.wcbBeatFlush die, rfl, ?_⟩
  unfold State.wcbBeatFlush
  simp only [h, if_true, State.count_mem, and_self]

theorem exec_scrubRewrite_queued {line : Nat} (h : s.mem.scrubQ.contains line = true) :
    exec (.scrubRewrite line) s =
      .next (({ s with mem := { s.mem with scrubQ := s.mem.scrubQ.filter (· != line) } } : State).scrubLine line).st :=
  congrArg Host.Outcome.next (if_pos h)

/-- The patrol of a ready stack reads the line at which it stands and, short of the stack's last line, moves on by one. -/
theorem exec_patrolScrub_moves {st pos : Nat} (hpresent : st < s.variant.stacks) (hst : st < 12)
    (hpos : pos = SMap.get 0 st s.mem.patrol) (hlast : pos + 1 < stackLines)
    (hon : bit (s.reg (hbmPg st) HBM.SCRUB_CONFIG) 31 = true) (hready : s.stackState st = .ready) :
    ∃ t : State, exec (.patrolScrub (st * 0xC00000000 + 64 * pos)) s = .next t ∧
      t.mem.patrol = SMap.set 0 st (pos + 1) s.mem.patrol := by
  have hstack : s.lineStack (st * 0xC00000000 + 64 * pos) = st := s.lineStack_mapped hst (by omega)
  refine ⟨s.patrol (st * 0xC00000000 + 64 * pos), rfl, ?_⟩
  generalize hline : st * 0xC00000000 + 64 * pos = line at hstack
  unfold State.patrol
  simp only [hstack, ← hpos, hline, hon, hready, hpresent, decide_true, beq_self_eq_true, Bool.and_self, if_true,
    if_neg (Nat.ne_of_lt hlast), if_neg (Nat.succ_ne_zero pos)]
  congr 1
  split
  · rw [State.rowCorrected_patrol, State.scrubLine_patrol]
  · exact State.scrubLine_patrol ..

end

/-- Settles O60: each row is the equation or the move named above; what a write-back leaves in the buffers is
`State.mem_writeback_wcb`. -/
theorem scrubAndWritebackComplete : Obligations.ScrubAndWritebackComplete := by
  refine ⟨fun s line e h => ⟨exec_wcbIdleWriteback_entry h, fun hfull => ?full, fun hpart => ?part⟩,
    fun s e x => s.mem_writeback_wcb, fun s pc cycles e l h hl => exec_wcbEvict_full cycles h hl,
    fun s die h => ?flush, fun s line h => exec_scrubRewrite_queued h,
    fun s st pos hpresent hst hpos hlast hon hready => ?patrol⟩
  case full => rw [exec_wcbFullWriteback_entry h, if_pos hfull]
  case part => rw [exec_wcbFullWriteback_entry h, if_neg (by simp [hpart])]
  case flush =>
    obtain ⟨t, hrun, hwcb, hcells⟩ := exec_wcbBeatFlush_due h
    exact ⟨t, hrun, fun x hx => s.writebackAll_dieEntries (hwcb ▸ hx), hcells⟩
  case patrol =>
    obtain ⟨t, hrun, hpatrol⟩ := exec_patrolScrub_moves hpresent hst hpos hlast hon hready
    refine ⟨t, hrun, ?_, fun o ho => ?_⟩
    · rw [hpatrol, SMap.get_set_same]
    · rw [hpatrol, SMap.get_set_other 0 ho]

/-! ## Witnesses: the hypotheses of `ScrubAndWritebackComplete` can be met -/

/-- A READY module at beat 2^16 whose stack 0 is ready, its patrol enabled at line 5, and whose buffers hold the whole line
64 and a byte of line 2^35, on stack 0 of die 0; the scrubber is to read line 128. -/
def bufferedModule : State := { readyModule.setReg (hbmPg 0) HBM.SCRUB_CONFIG (2 ^ 31) with
  beat := 2 ^ 16
  mem := { stackSt := [(0, .ready)], patrol := [(0, 5)], scrubQ := [128]
           wcb := [{ line := 64, data := List.replicate 64 (some 1), bad := [] },
                   { line := 2 ^ 35, data := some 1 :: List.replicate 63 none, bad := [] }] } }

/-- The full line is written back, the other not. -/
theorem wcbFullWriteback_witness :
    (∃ t : State, exec (.wcbFullWriteback 64) bufferedModule = .next t ∧ t.mem.wcb.map (·.line) = [2 ^ 35] ∧
      memGet t.mem.cells 127 = 1) ∧
    exec (.wcbFullWriteback (2 ^ 35)) bufferedModule = .next bufferedModule := by
  obtain ⟨hrows, -⟩ := scrubAndWritebackComplete
  have hfull : bufferedModule.wcbFind 64 = some { line := 64, data := List.replicate 64 (some 1), bad := [] } := by
    decide +kernel
  have hpart : bufferedModule.wcbFind (2 ^ 35) =
      some { line := 2 ^ 35, data := some 1 :: List.replicate 63 none, bad := [] } := by decide +kernel
  exact ⟨⟨_, (hrows _ _ _ hfull).2.1 (by decide), by decide +kernel, by decide +kernel⟩,
    (hrows _ _ _ hpart).2.2 (by decide)⟩

/-- A flush of die 0 leaves none of them. -/
theorem wcbBeatFlush_witness : ∃ t : State, exec (.wcbBeatFlush 0) bufferedModule = .next t ∧
    ∀ e, e ∈ t.mem.wcb → bufferedModule.lineStack e.line / 2 ≠ 0 := by
  obtain ⟨-, -, -, hflush, -⟩ := scrubAndWritebackComplete
  obtain ⟨t, hrun, hgone, -⟩ := hflush bufferedModule 0 (by decide +kernel)
  exact ⟨t, hrun, hgone⟩

/-- The patrol of stack 0 moves from line 5 to line 6. -/
theorem patrolScrub_witness : ∃ t : State, exec (.patrolScrub 320) bufferedModule = .next t ∧
    SMap.get 0 0 t.mem.patrol = 6 := by
  obtain ⟨-, -, -, -, -, hpatrol⟩ := scrubAndWritebackComplete
  obtain ⟨t, hrun, hmoved, -⟩ := hpatrol bufferedModule 0 5 (by decide +kernel) (by decide) (by decide +kernel)
    (by decide) (by decide +kernel) (by decide +kernel)
  exact ⟨t, hrun, hmoved⟩

end Sys2Proof.Machine
end

section
/-! PROOFS. DMA_COPY and DMA_FILL (R283 to R285): what a transfer of one piece within this module writes, and what one
does whose end lies in a lost module. -/

namespace Sys2Proof.Machine

theorem dmaCheck_quiet : dmaCheck.Quiet := pureCheck_quiet _

/-! ## Which module serves an address (R21, R270) -/

section
variable {s t : State}

theorem State.boardMod_congr (h : t.modId = s.modId) (a : Nat) : t.boardMod a = s.boardMod a := by
  unfold State.boardMod State.slotMod
  rw [h]

theorem State.isLost_congr (h : t.fab = s.fab) (m : Nat) : t.isLost m = s.isLost m := by
  unfold State.isLost
  rw [h]

theorem State.count64_modId {o : Nat} (page n : Nat) (ho : o < 4096) (h : FAB.FAB_ID ≠ o) :
    (s.count64 page o n).modId = s.modId :=
  congrArg (· % 2 ^ 15) (s.reg_count64_other n (regKey_ne_off (by decide) ho h))

/-- A command that starts leaves the module's ID as it is. -/
theorem State.begun_modId (q : Nat) (d : Desc) {check : Check} (h : check.Quiet) :
    (s.begun q d check).modId = s.modId := by
  rw [State.begun_quiet q d h, State.count64_modId _ _ (by decide) (by decide)]
  exact congrArg (· % 2 ^ 15) (State.reg_setReg_other _ _ (regKey_ne_off (by decide) (by decide) (by decide)))

end

/-! ## One piece of a transfer (R283; log entry 11) -/

/-- A transfer of up to 4,096 bytes is one piece. -/
theorem boardPieces_one {n : Nat} (h0 : 0 < n) (h : n ≤ 4096) : boardPieces n = [(0, n)] := by
  have hone : (n + 4096 - 1) / 4096 = 1 := by omega
  unfold boardPieces boardPiece
  rw [hone]
  simp only [List.range_one, List.map_cons, List.map_nil, Nat.zero_mul, Nat.sub_zero, Nat.min_eq_right h]

/-- A DMA command in flight, its bytes counted. -/
def State.dmaCounted (s : State) (c : Cmd) : State :=
  (s.addCmd c).count64 (wcbPg (c.msq / 64)) WCB.DMA_BYTES (dmaLen c.desc)

section
variable {s : State} {c : Cmd} {dst : Nat} {data : List Byte} {bad : List Nat}

theorem State.dmaCounted_modId : (s.dmaCounted c).modId = s.modId :=
  State.count64_modId _ _ (by decide) (by decide)

/-- What lies in this module lies there still, no bytes further on. -/
theorem State.dmaCounted_here {a : Nat} (h : s.boardMod a = s.modId) :
    (s.dmaCounted c).boardMod (a + 0) = (s.dmaCounted c).modId := by
  rw [Nat.add_zero, State.boardMod_congr State.dmaCounted_modId, State.dmaCounted_modId, h]

theorem State.dmaPut_mem : (s.dmaPut c dst data bad).1.mem =
    (s.memWrite (Req.command c.desc.job c.q) (dst % 2 ^ 46) data (bad.map (· + dst % 2 ^ 46 / 16))).st.mem := rfl
theorem State.dmaPut_regs : (s.dmaPut c dst data bad).1.regs =
    (s.memWrite (Req.command c.desc.job c.q) (dst % 2 ^ 46) data (bad.map (· + dst % 2 ^ 46 / 16))).st.regs := rfl
/-- Without FLUSH no line is to be written back. -/
theorem State.dmaPut_lines (h : dmaFlush c.desc = false) : (s.dmaPut c dst data bad).2 = [] := by
  unfold State.dmaPut
  simp only [h, Bool.false_eq_true, if_false]

/-- A command every record of which becomes done is done. -/
theorem State.mapCmd_allDone {id : Nat} {f : Cmd → Cmd} (h : ∀ x, (f x).done = true) : (s.mapCmd id f).AllDone id := by
  intro x hx hid
  obtain ⟨y, -, rfl⟩ := List.mem_map.mp hx
  split
  · exact h y
  · next hne => exact absurd (by rwa [if_neg hne] at hid) hne

end

/-- The state once the only piece of a transfer has been handled: its command waits for the accesses that it has sent, then
for the lines that FLUSH found dirty; with neither it is done. -/
def dmaMoved (r : State × List (Nat × Nat × Nat) × List Nat) (c : Cmd) : State :=
  r.1.mapCmd c.id fun x => dmaSettled x r.2.1 (r.2.2.filter fun l => (r.1.wcbFind l).isSome).eraseDups

/-- A command that waits for nothing is done. -/
theorem dmaMoved_allDone (t : State) (c : Cmd) : (dmaMoved (t, [], []) c).AllDone c.id :=
  State.mapCmd_allDone fun _ => rfl

/-! ## What a DMA command does once it runs -/

/-- Whether an end of a transfer lies in a lost module (R285). -/
def State.dmaLost (s : State) (d : Desc) : Bool :=
  s.isLost (s.boardMod (dmaDst d)) || (!(dmaIsFill d) && s.isLost (s.boardMod (dmaSrc d)))

section
variable {s : State} {c : Cmd}

/-- A transfer with an end in a lost module ends LINK_LOST. -/
theorem State.dmaRun_lost (h : s.dmaLost c.desc = true) :
    s.dmaRun c = (s.dmaSpoil c.desc).addCmd { c with done := true, ended := some .linkLost } := by
  unfold State.dmaRun
  extract_lets d n lost t
  have hlost : lost = true := h
  rw [if_pos hlost]

/-- A transfer of one piece with no end in a lost module handles it. -/
theorem State.dmaRun_one (h : s.dmaLost c.desc = false) (h0 : 0 < dmaLen c.desc) (hn : dmaLen c.desc ≤ 4096) :
    s.dmaRun c = dmaMoved ((s.dmaCounted c).dmaPiece c 0 (dmaLen c.desc)) c := by
  unfold State.dmaRun
  extract_lets d n lost t
  have hlost : lost = false := h
  have hpieces : boardPieces n = [(0, n)] := boardPieces_one h0 hn
  rw [if_neg (Bool.eq_false_iff.mp hlost), hpieces, List.foldl_cons, List.foldl_nil]
  show _ = dmaMoved (t.dmaPiece c 0 n) c
  generalize t.dmaPiece c 0 n = r
  rfl

end

section
variable {s : State} {c : Cmd} {off n : Nat} (hdst : s.boardMod (dmaDst c.desc + off) = s.modId)
include hdst

/-- A piece of a fill within this module writes the PATTERN at its destination. -/
theorem State.dmaPiece_fill (hfill : dmaIsFill c.desc = true) {r : State × List Nat}
    (hr : r = s.dmaPut c (dmaDst c.desc + off) (fillBytes (c.desc.b 5) n) []) : s.dmaPiece c off n = (r.1, [], r.2) := by
  subst hr
  unfold State.dmaPiece State.dmaWrite
  simp only [hdst, hfill, decide_true, if_true]

/-- A piece of a copy within this module writes at its destination what it has read at its source. -/
theorem State.dmaPiece_copy (hcopy : dmaIsFill c.desc = false) (hsrc : s.boardMod (dmaSrc c.desc + off) = s.modId)
    {g : State × List Byte × List Nat} (hg : g = s.dmaGet c (dmaSrc c.desc + off) n) {r : State × List Nat}
    (hr : r = g.1.dmaPut c (dmaDst c.desc + off) g.2.1 g.2.2) : s.dmaPiece c off n = (r.1, [], r.2) := by
  subst hr hg
  unfold State.dmaPiece State.dmaWrite
  simp only [hdst, hsrc, hcopy, decide_true, if_true, Bool.false_eq_true, if_false]

end

section
variable {s : State} {c : Cmd} (hlost : s.isLost s.modId = false) (hdst : s.boardMod (dmaDst c.desc) = s.modId)
  (h0 : 0 < dmaLen c.desc) (hn : dmaLen c.desc ≤ 4096)
include hlost hdst h0 hn

/-- A fill of one piece within this module. -/
theorem State.dmaRun_fill (hfill : dmaIsFill c.desc = true) {r : State × List Nat}
    (hr : r = (s.dmaCounted c).dmaPut c (dmaDst c.desc) (fillBytes (c.desc.b 5) (dmaLen c.desc)) []) :
    s.dmaRun c = dmaMoved (r.1, [], r.2) c := by
  have hends : s.dmaLost c.desc = false := by
    unfold State.dmaLost
    rw [hdst, hlost, hfill]
    rfl
  rw [State.dmaRun_one hends h0 hn, State.dmaPiece_fill _ hfill]
  · rw [Nat.add_zero, hr]
  · exact State.dmaCounted_here hdst

/-- A copy of one piece within this module. -/
theorem State.dmaRun_copy (hcopy : dmaIsFill c.desc = false) (hsrc : s.boardMod (dmaSrc c.desc) = s.modId)
    {g : State × List Byte × List Nat} (hg : g = (s.dmaCounted c).dmaGet c (dmaSrc c.desc) (dmaLen c.desc))
    {r : State × List Nat} (hr : r = g.1.dmaPut c (dmaDst c.desc) g.2.1 g.2.2) :
    s.dmaRun c = dmaMoved (r.1, [], r.2) c := by
  have hends : s.dmaLost c.desc = false := by
    unfold State.dmaLost
    rw [hdst, hsrc, hlost, Bool.and_false]
    rfl
  rw [State.dmaRun_one hends h0 hn,
    State.dmaPiece_copy (State.dmaCounted_here hdst) hcopy (State.dmaCounted_here hsrc) (g := g)]
  · rw [Nat.add_zero, hg]
  · rw [Nat.add_zero, hr]

end

/-! ## A DMA command that starts -/

section
variable {s : State} {q : Nat} {d : Desc}

theorem exec_dmaCopy_begins (h : s.begins q d dmaCheck = true) :
    exec (.dmaCopy q d) s = .next ((s.begun q d dmaCheck).dmaRun (s.newCmd q d)) := next_command _ h
theorem exec_dmaFill_begins (h : s.begins q d dmaCheck = true) :
    exec (.dmaFill q d) s = .next ((s.begun q d dmaCheck).dmaRun (s.newCmd q d)) := next_command _ h

/-- A start changes neither the module's ID nor which modules are lost. -/
theorem State.begun_dma_modId : (s.begun q d dmaCheck).modId = s.modId := State.begun_modId q d dmaCheck_quiet
theorem State.begun_dma_boardMod (a : Nat) : (s.begun q d dmaCheck).boardMod a = s.boardMod a :=
  State.boardMod_congr State.begun_dma_modId a
theorem State.begun_dma_isLost (m : Nat) : (s.begun q d dmaCheck).isLost m = s.isLost m :=
  State.isLost_congr (State.begun_fab q d dmaCheck_quiet) m
theorem State.begun_dmaLost : (s.begun q d dmaCheck).dmaLost d = s.dmaLost d := by
  unfold State.dmaLost
  simp only [State.begun_dma_boardMod, State.begun_dma_isLost]

section
variable (h : s.begins q d dmaCheck = true) (hlost : s.isLost s.modId = false)
  (hdst : s.boardMod (dmaDst d) = s.modId) (h0 : 0 < dmaLen d) (hn : dmaLen d ≤ 4096)
include h hlost hdst h0 hn

theorem exec_dmaFill_here (hfill : dmaIsFill d = true) {r : State × List Nat}
    (hr : r = ((s.begun q d dmaCheck).dmaCounted (s.newCmd q d)).dmaPut (s.newCmd q d) (dmaDst d)
      (fillBytes (d.b 5) (dmaLen d)) []) :
    exec (.dmaFill q d) s = .next (dmaMoved (r.1, [], r.2) (s.newCmd q d)) := by
  rw [exec_dmaFill_begins h]
  refine congrArg Host.Outcome.next (State.dmaRun_fill ?_ ?_ h0 hn hfill hr)
  · rw [State.begun_dma_isLost, State.begun_dma_modId, hlost]
  · exact (State.begun_dma_boardMod _).trans (hdst.trans State.begun_dma_modId.symm)

theorem exec_dmaCopy_here (hcopy : dmaIsFill d = false) (hsrc : s.boardMod (dmaSrc d) = s.modId)
    {g : State × List Byte × List Nat}
    (hg : g = ((s.begun q d dmaCheck).dmaCounted (s.newCmd q d)).dmaGet (s.newCmd q d) (dmaSrc d) (dmaLen d))
    {r : State × List Nat} (hr : r = g.1.dmaPut (s.newCmd q d) (dmaDst d) g.2.1 g.2.2) :
    exec (.dmaCopy q d) s = .next (dmaMoved (r.1, [], r.2) (s.newCmd q d)) := by
  rw [exec_dmaCopy_begins h]
  refine congrArg Host.Outcome.next (State.dmaRun_copy ?_ ?_ h0 hn hcopy ?_ hg hr)
  · rw [State.begun_dma_isLost, State.begun_dma_modId, hlost]
  · exact (State.begun_dma_boardMod _).trans (hdst.trans State.begun_dma_modId.symm)
  · exact (State.begun_dma_boardMod _).trans (hsrc.trans State.begun_dma_modId.symm)

end

/-- The command that ends where an end of its transfer lies in a lost module. -/
theorem State.begun_dmaRun_lost (h : s.dmaLost d = true) : (s.begun q d dmaCheck).dmaRun (s.newCmd q d) =
    ((s.begun q d dmaCheck).dmaSpoil d).addCmd { s.newCmd q d with done := true, ended := some .linkLost } :=
  State.dmaRun_lost (State.begun_dmaLost.trans h)

end

/-- A piece moved, FLUSH not set: no line is to be written back and the command is done. -/
theorem dmaMoved_put_allDone {c : Cmd} (s : State) (dst : Nat) (data : List Byte) (bad : List Nat)
    (h : dmaFlush c.desc = false) :
    (dmaMoved ((s.dmaPut c dst data bad).1, [], (s.dmaPut c dst data bad).2) c).AllDone c.id := by
  rw [State.dmaPut_lines h]
  exact dmaMoved_allDone _ _

/-- Settles O20: a transfer of one piece within this module is `exec_dmaFill_here` or `exec_dmaCopy_here`, one with an end in
a lost module `State.begun_dmaRun_lost`; its destination is spoilt only where it lies in this module. -/
theorem dmaCommandsComplete : Obligations.DmaCommandsComplete := by
  refine ⟨fun s u q d h hfill hlost hdst h0 hn hu => ?fill, fun s u q d g h hcopy hlost hdst hsrc h0 hn hu hg => ?copy,
    fun s q d h hlost hgone => ?dstLost, fun s q d h hcopy hgone hdst => ?srcLost⟩
  case fill =>
    subst hu
    exact ⟨_, exec_dmaFill_here h hlost hdst h0 hn hfill rfl, State.dmaPut_mem, State.dmaPut_regs,
      fun hflush => dmaMoved_put_allDone (c := s.newCmd q d) _ _ _ _ hflush⟩
  case copy =>
    subst hu
    exact ⟨_, exec_dmaCopy_here h hlost hdst h0 hn hcopy hsrc hg rfl, State.dmaPut_mem,
      fun hflush => dmaMoved_put_allDone (c := s.newCmd q d) _ _ _ _ hflush⟩
  case dstLost =>
    have hend : s.dmaLost d = true := by
      unfold State.dmaLost
      rw [hgone, Bool.true_or]
    have hother : s.boardMod (dmaDst d) ≠ s.modId := fun he => by rw [he, hlost] at hgone; cases hgone
    have hkept : (s.begun q d dmaCheck).dmaSpoil d = s.begun q d dmaCheck :=
      if_neg (by rw [State.begun_dma_boardMod, State.begun_dma_modId]; exact hother)
    rw [exec_dmaCopy_begins h, exec_dmaFill_begins h, State.begun_dmaRun_lost hend, hkept]
    exact ⟨_, rfl, rfl, State.begun_mem q d dmaCheck_quiet,
      congrArg (· ++ _) (State.begun_cmds q d dmaCheck_quiet)⟩
  case srcLost =>
    have hend : s.dmaLost d = true := by
      unfold State.dmaLost
      rw [hcopy, hgone]
      exact Bool.or_true _
    have hspoilt : (s.begun q d dmaCheck).dmaSpoil d =
        (s.begun q d dmaCheck).freeMem d.job (dmaDst d % 2 ^ 46) (dmaLen d) :=
      if_pos (by rw [State.begun_dma_boardMod, State.begun_dma_modId]; exact hdst)
    rw [exec_dmaCopy_begins h, State.begun_dmaRun_lost hend, hspoilt]

/-! ## Witnesses: the hypotheses of `DmaCommandsComplete` can be met -/

/-- DMA_FILL of 64 bytes, the PATTERN 9, in the memory of square 0 from 4,096 on, and DMA_COPY of 64 bytes there from its
start. -/
def fillDesc : Desc := arbDesc 0x11 [0, 0, 4096, 0x3E00, 64, 9]
def copyDesc : Desc := arbDesc 0x10 [0, 0x3E00, 4096, 0x3E00, 64]

theorem dmaFill_witness : ∃ t : State, exec (.dmaFill 0 fillDesc) (startModule fillDesc []) = .next t ∧
    memGet t.mem.cells (sqmAddr 0 4156) = 9 := by
  obtain ⟨hfill, -⟩ := dmaCommandsComplete
  obtain ⟨t, hrun, hmem, -⟩ := hfill (startModule fillDesc []) _ 0 fillDesc (by decide +kernel) (by decide)
    (by decide +kernel) (by decide +kernel) (by decide) (by decide) rfl
  exact ⟨t, hrun, by rw [hmem]; decide +kernel⟩

/-- A module whose square 0 holds a byte at 5, the copy at the head of queue 0. -/
def copyModule : State := { startModule copyDesc [] with mem := { cells := [(sqmAddr 0 5, 7)] } }

theorem dmaCopy_witness : ∃ t : State, exec (.dmaCopy 0 copyDesc) copyModule = .next t ∧
    memGet t.mem.cells (sqmAddr 0 4101) = 7 := by
  obtain ⟨-, hcopy, -⟩ := dmaCommandsComplete
  obtain ⟨t, hrun, hmem, -⟩ := hcopy copyModule _ 0 copyDesc _ (by decide +kernel) (by decide) (by decide +kernel)
    (by decide +kernel) (by decide +kernel) (by decide) (by decide) rfl rfl
  exact ⟨t, hrun, by rw [hmem]; decide +kernel⟩

/-- A copy to slot 1 of the board, at the head of queue 0 of a module to which that of slot 1 is lost. -/
def lostCopyDesc : Desc := arbDesc 0x10 [0, 0x3E00, 4096, 2 ^ 14, 64]
def lostCopyModule : State := { startModule lostCopyDesc [] with fab := { lost := [(1, none)] } }

theorem dmaCopy_lost_witness : ∃ t : State, exec (.dmaCopy 0 lostCopyDesc) lostCopyModule = .next t ∧
    t.cmds.map (fun c => (c.done, c.ended)) = [(true, some .linkLost)] := by
  obtain ⟨-, -, hlost, -⟩ := dmaCommandsComplete
  obtain ⟨t, hrun, -, -, hcmds⟩ :=
    hlost lostCopyModule 0 lostCopyDesc (by decide +kernel) (by decide +kernel) (by decide +kernel)
  exact ⟨t, hrun, by rw [hcmds]; decide +kernel⟩

end Sys2Proof.Machine
end

section
/-! PROOFS. Stops (R282, R404 to R406, R413): what a coolant stop and a thermal trip change of the module, what follows them,
and what a rise of COOLANT_OK does. -/

namespace Sys2Proof.Machine

/-! ## The module's state (Table 17.11) -/

section
variable (s : State)

/-- What does not look at what leaves the module sees MGT_STATE set alone. -/
theorem State.setMgt_reg {α : Type} (g : State → α) (hemit : ∀ (t : State) o, g (t.emit o) = g t)
    (st stage reason : Nat) : g (s.setMgt st stage reason) =
      g (s.setReg mgtPg MGT.MGT_STATE (st * 2 ^ 28 + stage * 2 ^ 24 + reason * 2 ^ 16)) := by
  unfold State.setMgt
  extract_lets old t
  split
  · rfl
  · exact hemit ..

/-- The state set is the state read, 0 to 15. -/
theorem State.mgtState_setMgt {st : Nat} (h : st < 16) : (s.setMgt st 0 0).mgtState = st := by
  have hreg : (s.setMgt st 0 0).reg mgtPg MGT.MGT_STATE = st * 2 ^ 28 + 0 * 2 ^ 24 + 0 * 2 ^ 16 := by
    refine (s.setMgt_reg (fun t => t.reg mgtPg MGT.MGT_STATE) (fun _ _ => rfl) st 0 0).trans ?_
    exact s.reg_setReg_same _ _ _ _ (by omega)
  unfold State.mgtState bits
  rw [hreg]
  omega

end

/-! ## Ports that stop (R319, R405) -/

/-- A port that carries packets or retrains is stopped. -/
def State.stopPort (s : State) (p : Nat) : State :=
  if (s.port p).carries ∨ (s.port p).st = .retraining then s.setPort p { s.port p with st := .stopped, width := 0 } else s

section
variable (s : State)

theorem State.port_setPort_same (p : Nat) (x : Port) : (s.setPort p x).port p = x := SMap.get_set_same ..
theorem State.port_setPort_other {p r : Nat} (h : r ≠ p) (x : Port) : (s.setPort p x).port r = s.port r :=
  SMap.get_set_other _ h _ _

theorem State.stopPort_same (p : Nat) : ((s.stopPort p).port p).carries = false := by
  unfold State.stopPort
  split
  · rw [State.port_setPort_same]
    rfl
  · next h => exact Bool.eq_false_iff.mpr fun hc => h (.inl hc)

theorem State.stopPort_other {p r : Nat} (h : r ≠ p) : (s.stopPort p).port r = s.port r := by
  unfold State.stopPort
  split
  · exact s.port_setPort_other h _
  · rfl

/-- A port that carries no packets does not begin to when ports stop. -/
theorem State.stopPorts_keep {r : Nat} (ports : List Nat) (h : (s.port r).carries = false) :
    ((ports.foldl State.stopPort s).port r).carries = false :=
  List.foldlRecOn ports _ (motive := fun t : State => (t.port r).carries = false) h fun t ht p _ => by
    by_cases hp : r = p
    · exact hp ▸ t.stopPort_same p
    · rw [t.stopPort_other hp, ht]

/-- No port of those stopped carries packets. -/
theorem State.stopPorts_stop {r : Nat} {ports : List Nat} (h : r ∈ ports) :
    ((ports.foldl State.stopPort s).port r).carries = false := by
  induction ports generalizing s with
  | nil => cases h
  | cons p ports ih =>
    rcases List.mem_cons.mp h with rfl | h
    · exact (s.stopPort r).stopPorts_keep ports (s.stopPort_same r)
    · exact ih _ h

end

/-- The STOP flits have been sent and the ports have stopped (R319). -/
@[irreducible] def State.linksStopped (s : State) (reason : Nat) : State :=
  (List.range 24).foldl State.stopPort (s.sendStops reason)

section
variable (s : State)

/-- What looks neither at the ports nor at what leaves the module, this leaves alone. -/
theorem State.linksStopped_leaves {α : Type} (g : State → α) (hport : ∀ (t : State) p x, g (t.setPort p x) = g t)
    (hemit : ∀ (t : State) o, g (t.emit o) = g t) (reason : Nat) : g (s.linksStopped reason) = g s := by
  have hflit (t : State) (p : Nat) (f : Flit) : g (t.sendFlit p f) = g t := (hemit ..).trans (hport ..)
  have hstops : g (s.sendStops reason) = g s :=
    foldl_leaves g _ _ s fun t p => foldl_leaves g _ _ t fun u _ => hflit u p _
  unfold State.linksStopped
  refine (foldl_leaves g State.stopPort _ _ fun t p => ?_).trans hstops
  unfold State.stopPort
  split
  · exact hport ..
  · rfl

theorem State.linksStopped_port (reason : Nat) {p : Nat} (hp : p < 24) :
    ((s.linksStopped reason).port p).carries = false := by
  unfold State.linksStopped
  exact State.stopPorts_stop _ (List.mem_range.mpr hp)

/-! ## A stop (R405, R406) -/

/-- A stop sets the state, stops the links and notes its cause. -/
theorem State.stopModule_eq (st reason bit : Nat) {t : State} (ht : t = (s.setMgt st 0 0).linksStopped reason) :
    s.stopModule st reason bit = { t with keep := { t.keep with cause := t.keep.cause ||| 2 ^ bit } } := by
  rw [ht]
  unfold State.stopModule State.linksStopped State.stopPort
  rfl

theorem State.stopped_leaves {α : Type} (g : State → α) (hreg : ∀ (t : State) p o v, g (t.setReg p o v) = g t)
    (hport : ∀ (t : State) p x, g (t.setPort p x) = g t) (hemit : ∀ (t : State) o, g (t.emit o) = g t)
    (st reason : Nat) : g ((s.setMgt st 0 0).linksStopped reason) = g s :=
  (State.linksStopped_leaves _ g hport hemit reason).trans ((s.setMgt_reg g hemit ..).trans (hreg ..))

theorem State.stopModule_cmds (st reason bit : Nat) : (s.stopModule st reason bit).cmds = s.cmds := by
  rw [s.stopModule_eq st reason bit rfl]
  exact s.stopped_leaves State.cmds (fun _ _ _ _ => rfl) (fun _ _ _ => rfl) (fun _ _ => rfl) st reason

theorem State.stopModule_mem (st reason bit : Nat) : (s.stopModule st reason bit).mem = s.mem := by
  rw [s.stopModule_eq st reason bit rfl]
  exact s.stopped_leaves State.mem (fun _ _ _ _ => rfl) (fun _ _ _ => rfl) (fun _ _ => rfl) st reason

theorem State.stopModule_cause (st reason bit : Nat) :
    (s.stopModule st reason bit).keep.cause = s.keep.cause ||| 2 ^ bit := by
  rw [s.stopModule_eq st reason bit rfl]
  exact congrArg (fun k : KeepState => k.cause ||| 2 ^ bit)
    (s.stopped_leaves State.keep (fun _ _ _ _ => rfl) (fun _ _ _ => rfl) (fun _ _ => rfl) st reason)

theorem State.stopModule_mgtState {st : Nat} (h : st < 16) (reason bit : Nat) :
    (s.stopModule st reason bit).mgtState = st := by
  rw [s.stopModule_eq st reason bit rfl]
  exact ((s.setMgt st 0 0).linksStopped_leaves State.mgtState (fun _ _ _ => rfl) (fun _ _ => rfl) reason).trans
    (s.mgtState_setMgt h)

theorem State.stopModule_port (st reason bit : Nat) {p : Nat} (hp : p < 24) :
    ((s.stopModule st reason bit).port p).carries = false := by
  rw [s.stopModule_eq st reason bit rfl]
  exact (s.setMgt st 0 0).linksStopped_port reason hp

end

/-! ## What follows a stop (Table 16.3) -/

section
variable {s : State}

/-- Beat C + n of a stop has come. -/
theorem State.stopAt_come {c n : Nat} (h : s.halted = true) (hc : s.pwr.stopC = some c) (hn : c + n ≤ s.beat) :
    s.stopAt n = true := by
  unfold State.stopAt
  simp only [h, hc, hn, decide_true, Bool.and_self]

/-- What an entry of a table becomes by a change that keeps the default, every key answers. -/
theorem SMap.get_map {α : Type} {d : α} {f : α → α} (h : f d = d) (k : Nat) (m : List (Nat × α)) :
    SMap.get d k (m.map fun p => (p.1, f p.2)) = f (SMap.get d k m) := by
  induction m with
  | nil => exact h.symm
  | cons p m ih =>
    obtain ⟨a, v⟩ := p
    by_cases ha : a = k
    · simp only [List.map_cons, SMap.get, if_pos ha]
    · simp only [List.map_cons, SMap.get, if_neg ha, ih]

/-- No square has an allowance once the clocks have stopped. -/
theorem State.clocksStop_allowance (h : s.stopAt 9 = true) (msq : Nat) : (s.clocksStop.sqp msq).l = 0 := by
  unfold State.clocksStop
  rw [if_pos h]
  exact congrArg SqPwr.l (SMap.get_map (f := fun x : SqPwr => { x with l := 0 }) rfl msq s.pwr.sq)

theorem State.clocksStop_mem : s.clocksStop.mem = s.mem := by
  unfold State.clocksStop
  split <;> rfl

end

/-! ## COOLANT_OK (R405, R413) -/

section
variable {s : State}

/-- A rise of COOLANT_OK acts outside RESET and where no stop holds. -/
theorem exec_coolantOkRise_acts (h0 : s.mgtState ≠ 0) (h5 : s.mgtState ≠ 5) (h6 : s.mgtState ≠ 6) :
    exec .coolantOkRise s = .next s.coolantHigh := by
  refine congrArg Host.Outcome.next (if_neg ?_)
  simp [State.halted, h0, h5, h6]

/-- What a high COOLANT_OK makes of the start-up (R413). -/
def State.coolantNoted (s : State) : State :=
  if s.mgtState = 1 ∧ s.mgtStage = 1 ∧ bits (s.reg mgtPg MGT.MGT_STATE) 23 16 = 3 then
    ({ s with boot := { s.boot with coolant := true, stageMs := 0 } } : State).setMgt 1 1 0
  else { s with boot := { s.boot with coolant := true } }

/-- A rise after a low sample is counted beside it (R405). -/
theorem State.coolantHigh_eq : s.coolantHigh =
    if s.pwr.coolLow.isSome && !s.boot.coolant then s.coolantNoted.count pwrPg PWR.COOLANT_GLITCHES 1
    else s.coolantNoted := rfl

/-- Stage 1, where it waits for the coolant, goes on. -/
theorem State.coolantHigh_stage1 (hst : s.mgtState = 1) (hstage : s.mgtStage = 1)
    (hwait : bits (s.reg mgtPg MGT.MGT_STATE) 23 16 = 3) (hlow : s.pwr.coolLow = none) :
    s.coolantHigh = ({ s with boot := { s.boot with coolant := true, stageMs := 0 } } : State).setMgt 1 1 0 := by
  rw [State.coolantHigh_eq, hlow]
  exact if_pos (c := s.mgtState = 1 ∧ s.mgtStage = 1 ∧ _) ⟨hst, hstage, hwait⟩

/-- In READY nothing starts; a rise after a low sample is counted. -/
theorem State.coolantHigh_ready {b : Nat} (hst : s.mgtState = 2) (hlow : s.pwr.coolLow = some b)
    (hcool : s.boot.coolant = false) : s.coolantHigh =
      ({ s with boot := { s.boot with coolant := true } } : State).count pwrPg PWR.COOLANT_GLITCHES 1 := by
  have hnoted : s.coolantNoted = { s with boot := { s.boot with coolant := true } } := if_neg fun h => by omega
  rw [State.coolantHigh_eq, hlow, hcool, hnoted]
  rfl

end

/-- Settles O47: both stops are `State.stopModule`; the rows that follow one act once `State.stopAt_come`, and a rise of
COOLANT_OK by the module's state. -/
theorem stopsComplete : Obligations.StopsComplete := by
  refine ⟨⟨fun s h => ?coolant, fun s die h => congrArg Host.Outcome.next (if_pos h), fun s st reason bit hst =>
      ⟨s.stopModule_mgtState hst .., s.stopModule_cause .., fun p hp => s.stopModule_port _ _ _ hp,
        s.stopModule_cmds .., s.stopModule_mem ..⟩⟩,
    fun s c hh hc => ⟨fun hb => ?clocks, fun hb => ?flush, fun hb => ?refresh⟩, fun s h => ?rails,
    fun s hst hstage hwait hlow => ?stage1, fun s b hst hlow hcool => ?glitch,
    fun s h => congrArg Host.Outcome.next (if_pos (.inr h))⟩
  case coolant =>
    show Host.Outcome.next s.coolantStop = _
    unfold State.coolantStop
    rw [if_neg (by simp [h])]
    rfl
  case clocks =>
    exact ⟨_, rfl, State.clocksStop_allowance (State.stopAt_come hh hc hb), State.clocksStop_mem⟩
  case flush => exact congrArg Host.Outcome.next (if_pos (State.stopAt_come hh hc hb))
  case refresh => exact congrArg Host.Outcome.next (if_pos (State.stopAt_come hh hc hb))
  case rails => exact ⟨_, congrArg Host.Outcome.next (if_pos h), rfl, rfl, rfl, rfl, rfl⟩
  case stage1 =>
    rw [exec_coolantOkRise_acts (by omega) (by omega) (by omega), State.coolantHigh_stage1 hst hstage hwait hlow]
  case glitch =>
    rw [exec_coolantOkRise_acts (by omega) (by omega) (by omega), State.coolantHigh_ready hst hlow hcool]

/-! ## Witnesses: the hypotheses of `StopsComplete` can be met -/

/-- A READY module in which port 2 carries packets and square 3 has an allowance. -/
def runningModule : State := { readyModule with
  fab := { ports := [(2, { st := .active, width := 8 })] }
  pwr := { sq := [(3, { l := 512 })] } }

/-- The same module as it trips, at beat 0. -/
def trippingModule : State := runningModule.setPwr { runningModule.pwr with stopC := some (runningModule.beat - 1) }

/-- The trip takes it to THERMAL_TRIP with cause 3, and port 2 carries packets no more. -/
theorem thermalTrip_witness : (runningModule.port 2).carries = true ∧
    exec (.thermalTrip 0) runningModule = .next (trippingModule.stopModule 6 2 3) ∧
    (trippingModule.stopModule 6 2 3).mgtState = 6 ∧ (trippingModule.stopModule 6 2 3).keep.cause = 8 ∧
    ((trippingModule.stopModule 6 2 3).port 2).carries = false := by
  obtain ⟨⟨-, htrip, hstop⟩, -⟩ := stopsComplete
  obtain ⟨hst, hcause, hports, -⟩ := hstop trippingModule 6 2 3 (by decide)
  have hbefore : trippingModule.keep.cause = 0 := by decide +kernel
  rw [hbefore] at hcause
  exact ⟨by decide +kernel, htrip runningModule 0 (.inl (by decide +kernel)), hst, hcause, hports 2 (by decide)⟩

/-- The same module in COOLANT_STOP since beat 60, at beat 100. -/
def stoppedModule : State := { runningModule.setReg mgtPg MGT.MGT_STATE (5 * 2 ^ 28) with
  beat := 100
  pwr := { sq := [(3, { l := 512 })], stopC := some 60 } }

theorem coolantClocksStop_witness : (stoppedModule.sqp 3).l = 512 ∧
    ∃ t : State, exec .coolantClocksStop stoppedModule = .next t ∧ (t.sqp 3).l = 0 := by
  obtain ⟨-, hafter, -⟩ := stopsComplete
  obtain ⟨t, hrun, hzero, -⟩ := (hafter stoppedModule 60 (by decide +kernel) (by decide)).1 (by decide)
  exact ⟨by decide +kernel, t, hrun, hzero 3⟩

/-- A READY module whose last sample of COOLANT_OK was low, at beat 3. -/
def lowModule : State := { readyModule with
  pwr := { coolLow := some 3 }
  boot := { readyModule.boot with coolant := false } }

/-- There a rise is counted; in COOLANT_STOP it changes nothing. -/
theorem coolantOkRise_witness :
    exec .coolantOkRise lowModule = .next
      (({ lowModule with boot := { lowModule.boot with coolant := true } } : State).count pwrPg PWR.COOLANT_GLITCHES 1) ∧
    exec .coolantOkRise stoppedModule = .next stoppedModule := by
  obtain ⟨-, -, -, -, hglitch, hhalted⟩ := stopsComplete
  exact ⟨hglitch lowModule 3 (by decide +kernel) rfl rfl, hhalted stoppedModule (by decide +kernel)⟩

end Sys2Proof.Machine
end

section
/-! PROOFS. Ports of the host and the cages (R286, R320 to R334, R452, R453): what each row does of a port in the role it
asks for. -/

namespace Sys2Proof.Machine

/-! ## Links of the host ports (R320, R334, R457) -/

section
variable {s : State} {port : Nat} (h : s.hxIs port 1 = true)
include h

theorem exec_hostLinkUp_endpoint (width rate : Nat) : exec (.hostLinkUp port width rate) s =
    .next (({ s with host := { s.host with bar2 := SMap.put port (s.bar2Log port) s.host.bar2 } } : State).setHx port 2
      width rate) :=
  congrArg Host.Outcome.next (if_pos h)

theorem exec_conventionalReset_endpoint : exec (.conventionalReset port) s = .next { s with host := { s.host with
    bar2 := SMap.put port (s.bar2Config port) s.host.bar2, msix := [], waiting := [] } } :=
  congrArg Host.Outcome.next (if_pos h)

variable (hup : s.hxState port = 2)
include hup

theorem State.hx_up : (s.hxIs port 1 && s.hxState port == 2) = true := by rw [h, hup]; rfl

theorem exec_hostLinkDown_up : exec (.hostLinkDown port) s = .next (s.hxDown port 3) :=
  congrArg Host.Outcome.next (if_pos (State.hx_up h hup))

theorem exec_refclkLoss_up : exec (.refclkLoss port) s = .next (({ s with
    boot := { s.boot with refclk := false }
    host := { s.host with sris := (s.host.sris.filter (· != port)) ++ [port] } } : State).hxDown port 1) :=
  congrArg Host.Outcome.next (if_pos (State.hx_up h hup))

end

/-! ## CXL links (R286, R288) -/

section
variable {s : State} {port : Nat} (h : s.hxIs port 2 = true)
include h

/-- The width and the rate at which a CXL link trained are free values (log entry 63). -/
theorem exec_cxlLinkUp_root {u : State}
    (hu : u = { s.draw.2.draw.2 with host := { s.host with cxlDown := s.host.cxlDown.filter (· != port) } }) :
    exec (.cxlLinkUp port) s = .next (u.setHx port 2 (s.draw.1 % 17) (s.draw.2.draw.1 % 65)) := by
  subst hu
  exact congrArg Host.Outcome.next (if_pos h)

theorem exec_cxlLinkDown_up (hup : s.hxState port = 2) {u : State}
    (hu : u = { s with host := { s.host with cxlDown := s.host.cxlDown.filter (· != port) ++ [port] } }) :
    exec (.cxlLinkDown port) s =
      .next (((u.hxDown port 0).count farPg FAR.LINK_DOWNS 1).err farPg FAR.E_LINK_DOWN 0) := by
  subst hu
  exact congrArg Host.Outcome.next (if_pos (by rw [h, hup]; rfl))

end

/-! ## MSI-X (R322, R327) -/

section
variable {s : State} {vec : Nat}

theorem exec_msixVectorUnmask_endpoint {h : Nat} (hv : vec < 2048) (hport : s.endpointPort = some h) :
    exec (.msixVectorUnmask vec) s = .next (s.setMsix vec
      { SMap.get ({} : MsixEntry) vec s.host.msix with masked := false }) := by
  refine congrArg Host.Outcome.next (if_neg ?_)
  simp [hport, hv]

theorem State.setMsix_pending {e : MsixEntry} (hm : e.masked = false) (hw : s.host.waiting.contains vec = true) :
    s.setMsix vec e = ({ s with host := { s.host with
      msix := SMap.set {} vec e s.host.msix, waiting := s.host.waiting.filter (· != vec) } } : State).raiseMsix vec :=
  if_pos (by rw [hm]; exact hw)

theorem State.setMsix_quiet {e : MsixEntry} (hw : s.host.waiting.contains vec = false) :
    s.setMsix vec e = { s with host := { s.host with msix := SMap.set {} vec e s.host.msix } } :=
  if_neg (by simp only [hw, Bool.and_false, Bool.false_eq_true, not_false_eq_true])

end

/-! ## Accesses of the host (R323, R325) -/

section
variable {s : State} {port bar off : Nat} {wr : Bool} {data : List Byte}

/-- An access through a port whose link is up is counted; it is held behind those held and the posted writes for which it
waits, else it is performed. -/
theorem exec_hostApertureAccess_up (h : s.hxIs port 1 = true) (hup : s.hxState port = 2) (hfab : s.fabricUp = true)
    (hdata : data ≠ []) {a : HostAcc} (ha : a = { port := some port, bar := bar, off := off, wr := wr, data := data })
    {u : State} (hu : u = s.count64 (hxpPg port) HXP.TLP_RX 1) :
    exec (.hostApertureAccess port ⟨bar, off⟩ wr data) s =
      .next (if s.host.held.isEmpty && !(s.hostWaits a) then u.hostDo a else u.hostHold a) := by
  subst ha hu
  have hhost : (s.count64 (hxpPg port) HXP.TLP_RX 1).host = s.host := State.count64_host ..
  show Host.Outcome.next (s.hostAccess port _) = _
  unfold State.hostAccess State.hostWaits
  simp only [h, hup, hfab, hhost, List.isEmpty_eq_false_iff.mpr hdata, beq_self_eq_true, Bool.not_false, Bool.and_self,
    if_true]

end

/-! ## Cages (R452, R453) -/

section
variable {s : State} {port : Nat} (h : s.hasCage port = true)
include h

theorem exec_opticalInsert_cage (accepted : Bool) : exec (.opticalInsert port accepted) s = .next
    ((s.setBoot { s.boot with cages := SMap.put port accepted s.boot.cages }).emit (.inform "in-band interrupt" 6)) :=
  congrArg Host.Outcome.next (if_pos h)

/-- A port that carried packets retrains without a lane. -/
theorem exec_opticalRemove_cage {u : State}
    (hu : u = (s.setBoot { s.boot with cages := SMap.del port s.boot.cages }).emit (.inform "in-band interrupt" 6)) :
    exec (.opticalRemove port) s = .next (if (s.port port).carries then
      (u.setPort port { s.port port with lanes := 0 }).portRetrain port else u) := by
  subst hu
  exact congrArg Host.Outcome.next (if_pos h)

end

/-- Settles O48: each row is the equation named above, in the cases that its statement tells apart. -/
theorem hostPortsAndCagesComplete : Obligations.HostPortsAndCagesComplete := by
  refine ⟨⟨fun s port width rate h => ⟨exec_hostLinkUp_endpoint h width rate, exec_hostLinkDown_up h,
      exec_refclkLoss_up h, exec_conventionalReset_endpoint h⟩,
    fun s port h => ⟨fun u => exec_cxlLinkUp_root h, fun hup u => exec_cxlLinkDown_up h hup⟩,
    fun s vec h hv hport => ?msix, fun s port bar off wr data h hup hfab hdata a u ha hu => ?access⟩,
    fun s port h => ⟨exec_opticalInsert_cage h, fun u hu => ?remove⟩⟩
  case msix =>
    refine ⟨_, _, _, rfl, rfl, rfl, fun hw => ?_, fun hw => ?_⟩
    · rw [exec_msixVectorUnmask_endpoint hv hport, State.setMsix_pending rfl hw]
    · rw [exec_msixVectorUnmask_endpoint hv hport, State.setMsix_quiet hw]
  case access =>
    rw [exec_hostApertureAccess_up h hup hfab hdata ha hu]
    refine ⟨fun hheld hwaits => ?_, fun hbehind => ?_⟩
    · rw [if_pos (by rw [hheld, hwaits]; rfl)]
    · rw [if_neg]
      rcases hbehind with hheld | hwaits
      · simp [hheld]
      · simp [hwaits]
  case remove =>
    rw [exec_opticalRemove_cage h hu]
    exact ⟨fun hc => by rw [if_neg (by simp [hc])], fun hc => by rw [if_pos hc]⟩

/-! ## Witnesses: the hypotheses of `HostPortsAndCagesComplete` can be met -/

/-- A READY module with the links of host port 0, an endpoint, and of host port 1, a CXL root, up; vector 9 is pending, and
port 16 carries packets through its cage. -/
def hostModule : State :=
  { (((readyModule.setReg (hxpPg 0) HXP.HXP_CONFIG (2 ^ 30)).setReg (hxpPg 1) HXP.HXP_CONFIG (2 ^ 31)).setHx 0 2 16
      64).setHx 1 2 16 64 with
    host := { waiting := [9] }
    fab := { ports := [(16, { st := .active, width := 8, lanes := 255 })] } }

theorem hostLinkDown_witness : exec (.hostLinkDown 0) hostModule = .next (hostModule.hxDown 0 3) ∧
    (hostModule.hxDown 0 3).hxState 0 = 3 := by
  obtain ⟨⟨hlinks, -⟩, -⟩ := hostPortsAndCagesComplete
  exact ⟨(hlinks hostModule 0 16 64 (by decide +kernel)).2.1 (by decide +kernel), by decide +kernel⟩

/-- The CXL link is lost, that of the endpoint stays up. -/
theorem cxlLinkDown_witness : ∃ t : State, exec (.cxlLinkDown 1) hostModule = .next t ∧
    t.hxState 1 = 0 ∧ t.hxState 0 = 2 := by
  obtain ⟨⟨-, hcxl, -⟩, -⟩ := hostPortsAndCagesComplete
  exact ⟨_, (hcxl hostModule 1 (by decide +kernel)).2 (by decide +kernel) _ rfl, by decide +kernel, by decide +kernel⟩

/-- Unmasking vector 9 sends it, unmasking vector 8 sends nothing. -/
theorem msixVectorUnmask_witness :
    (∃ t : State, exec (.msixVectorUnmask 9) hostModule = .next t ∧ t.host.waiting = [] ∧ t.outbox.length = 1) ∧
    (∃ t : State, exec (.msixVectorUnmask 8) hostModule = .next t ∧ t.outbox = []) := by
  obtain ⟨⟨-, -, hmsix, -⟩, -⟩ := hostPortsAndCagesComplete
  obtain ⟨_, _, _, rfl, rfl, rfl, hsent, -⟩ := hmsix hostModule 9 0 (by decide) (by decide +kernel)
  obtain ⟨_, _, _, rfl, rfl, rfl, -, hquiet⟩ := hmsix hostModule 8 0 (by decide) (by decide +kernel)
  exact ⟨⟨_, hsent (by decide), by decide +kernel, by decide +kernel⟩, ⟨_, hquiet (by decide), by decide +kernel⟩⟩

/-- A read of the first byte of BAR4 through host port 0. -/
def tableRead : HostAcc := { port := some 0, bar := 4, off := 0, wr := false, data := [0] }

/-- The same module with a posted write under way to the module of slot 1. -/
def postedModule : State := { hostModule with host := { posted := [(0, 1, 64)] } }

/-- The read is performed at once; behind the posted write it is held. -/
theorem hostApertureAccess_witness :
    exec (.hostApertureAccess 0 ⟨4, 0⟩ false [0]) hostModule =
      .next ((hostModule.count64 (hxpPg 0) HXP.TLP_RX 1).hostDo tableRead) ∧
    exec (.hostApertureAccess 0 ⟨4, 0⟩ false [0]) postedModule =
      .next ((postedModule.count64 (hxpPg 0) HXP.TLP_RX 1).hostHold tableRead) := by
  obtain ⟨⟨-, -, -, haccess⟩, -⟩ := hostPortsAndCagesComplete
  exact ⟨(haccess hostModule 0 4 0 false [0] (by decide +kernel) (by decide +kernel) (by decide +kernel) (by decide)
      tableRead _ rfl rfl).1 rfl (by decide),
    (haccess postedModule 0 4 0 false [0] (by decide +kernel) (by decide +kernel) (by decide +kernel) (by decide)
      tableRead _ rfl rfl).2 (.inr (by decide))⟩

/-- Port 16 retrains once its cage is empty. -/
theorem opticalRemove_witness : ∃ t : State, exec (.opticalRemove 16) hostModule = .next t ∧
    (t.port 16).carries = false := by
  obtain ⟨-, hcages⟩ := hostPortsAndCagesComplete
  exact ⟨_, ((hcages hostModule 16 (by decide +kernel)).2 _ rfl).2 (by decide +kernel), by decide +kernel⟩

end Sys2Proof.Machine
end

section
/-! PROOFS. Packets that arrive (R305, R306, R309, R367): which row takes a packet of a TYPE, and what becomes of one that is
malformed, delivered before, or next on its stream. -/

namespace Sys2Proof.Machine

/-! ## The rows of the TYPEs (Table 13.5) -/

section
variable (s : State)

/-- The row of a part takes packets of one TYPE, which is the part's where Table 13.5 gives that TYPE a VC. -/
theorem exec_partRow {p : Pkt} {t v c n : Nat} (hp : p.body = .part t v c n) : ∃ type : Nat,
    exec (partRow t p) s = .next (s.receiveAs type false p) ∧ (typeVc t v = true → t = type) := by
  obtain ⟨h, b, via⟩ := p
  subst hp
  unfold partRow
  split
  case h_22 =>
    refine ⟨0x28, rfl, fun hvc => ?_⟩
    unfold typeVc at hvc
    split at hvc <;> simp_all
  all_goals exact ⟨_, rfl, fun _ => rfl⟩

/-- The row of a packet hands it to `receiveAs`, which takes it where its TYPE and VC belong together. -/
theorem exec_rowOf (p : Pkt) : ∃ (type : Nat) (ok : Bool), exec (rowOf p) s = .next (s.receiveAs type ok p) ∧
    (typeVc p.body.type p.body.vc = true → (ok || p.body.partOf type) = true) := by
  obtain ⟨h, b, via⟩ := p
  cases b
  case part t v c n =>
    obtain ⟨type, hrow, htype⟩ := exec_partRow s (p := ⟨h, .part t v c n, via⟩) rfl
    refine ⟨type, false, hrow, fun hvc => ?_⟩
    have hvc : typeVc t v = true := hvc
    show (t == type && typeVc t v) = true
    rw [hvc, htype hvc, beq_self_eq_true, Bool.and_self]
  all_goals exact ⟨_, true, rfl, fun _ => rfl⟩

end

/-! ## Malformed packets and duplicates (R306, R309) -/

section
variable {s : State} {p : Pkt} (handle : State → Pkt → State)

theorem State.receive_up (hup : s.fabricUp = true) : s.receive p = s.arrive State.deliver p := if_pos hup

/-- A well-formed packet is taken by the row of its TYPE. -/
theorem exec_rowOf_good (hup : s.fabricUp = true) (hgood : s.pktGood p = true) :
    exec (rowOf p) s = .next (s.arrive State.deliver p) := by
  obtain ⟨type, ok, hrow, hok⟩ := exec_rowOf s p
  simp only [State.pktGood, Bool.and_eq_true] at hgood
  rw [hrow, State.receiveAs, if_pos (hok hgood.2), State.receive_up hup]

theorem State.arrive_bad (hdst : p.hdr.dstMod = s.modId) (hsrc : p.hdr.srcMod ≠ s.modId) (hbad : s.pktGood p = false) :
    s.arrive handle p = s.badPacket p := by
  simp only [State.arrive, hdst, hsrc, hbad, ne_eq, not_true, if_false, Bool.not_false, if_true]

/-- A malformed packet is discarded, by its row or as it arrives. -/
theorem exec_rowOf_bad (hup : s.fabricUp = true) (hdst : p.hdr.dstMod = s.modId) (hsrc : p.hdr.srcMod ≠ s.modId)
    (hbad : s.pktGood p = false) : exec (rowOf p) s = .next (s.badPacket p) := by
  obtain ⟨type, ok, hrow, -⟩ := exec_rowOf s p
  rw [hrow, State.receiveAs, State.receive_up hup, State.arrive_bad _ hdst hsrc hbad, ite_self]

/-- How far a SEQ is ahead of the next expected and how far behind make the range of 2^24 together. -/
theorem seq_ahead_of_behind {seq next : Nat} (hseq : seq < 2 ^ 24) (hne : seq ≠ next % 2 ^ 24)
    (hbehind : (next % 2 ^ 24 + 2 ^ 24 - seq) % 2 ^ 24 ≤ 2 ^ 23) : 2 ^ 23 ≤ (seq + 2 ^ 24 - next % 2 ^ 24) % 2 ^ 24 := by
  omega

theorem State.arrive_duplicate (hdst : p.hdr.dstMod = s.modId) (hsrc : p.hdr.srcMod ≠ s.modId)
    (hgood : s.pktGood p = true) (hst : p.body.streamed = true)
    (hahead : 2 ^ 23 ≤ (p.hdr.seq + 2 ^ 24 - (s.rxStream p.hdr.srcMod p.hdr.vc).next % 2 ^ 24) % 2 ^ 24) :
    s.arrive handle p = s.count fabPg FAB.STREAM_DUPS 1 := by
  simp only [State.arrive, hdst, hsrc, hgood, hst, ne_eq, not_true, if_false, Bool.not_true, Bool.false_eq_true]
  exact if_pos hahead

end

/-- Settles O53: the row of a packet is `exec_rowOf_good` or `exec_rowOf_bad`, a SEQ behind is one far ahead. -/
theorem packetsRefused : Obligations.PacketsRefused := by
  refine ⟨fun s p hup hdst hsrc hgood hst hseq hne hbehind => ?_, fun s p hup hdst hsrc hbad => ?_⟩
  · rw [exec_rowOf_good hup hgood,
      State.arrive_duplicate _ hdst hsrc hgood hst (seq_ahead_of_behind hseq hne hbehind)]
  · exact exec_rowOf_bad hup hdst hsrc hbad

/-! ## Delivery in sequence (R309) -/

section
variable {s : State} {p : Pkt} (handle : State → Pkt → State)

theorem State.rxStream_setRx_same (src vc : Nat) (x : RxStream) : (s.setRx src vc x).rxStream src vc = x :=
  SMap.get_set_same ..

/-- Of two settings of a stream that is in use, the last counts. -/
theorem State.setRx_setRx {src vc : Nat} {x y : RxStream} (hx : x ≠ {}) (hy : y ≠ {}) :
    (s.setRx src vc x).setRx src vc y = s.setRx src vc y := by
  simp only [State.setRx, SMap.set, if_neg hx, if_neg hy, SMap.put_put]

/-- A stream whose only held packet is next delivers it, and is acknowledged where it was the 64th. -/
theorem State.drainHeld_one {next due : Nat} (hseq : p.hdr.seq = next) {src vc : Nat}
    (hx : s.rxStream src vc = { next := next, held := [p], due := due }) {t : State}
    (ht : t = (s.setRx src vc { next := (next + 1) % 2 ^ 24, held := [], due := due + 1 }).accept handle p) :
    s.drainHeld handle src vc 1 = if (t.rxStream src vc).due ≥ 64 then t.ackStream src vc else t := by
  subst ht
  simp only [State.drainHeld, hx, List.find?_cons, hseq, beq_self_eq_true, dropPkt, if_true]

/-- The packet next on a stream with nothing held is held and delivered at once. -/
theorem State.arrive_next (hdst : p.hdr.dstMod = s.modId) (hsrc : p.hdr.srcMod ≠ s.modId)
    (hgood : s.pktGood p = true) (hst : p.body.streamed = true)
    (hheld : (s.rxStream p.hdr.srcMod p.hdr.vc).held = []) (hnext : (s.rxStream p.hdr.srcMod p.hdr.vc).next = p.hdr.seq)
    (hseq : p.hdr.seq < 2 ^ 24) :
    s.arrive handle p = (s.setRx p.hdr.srcMod p.hdr.vc { s.rxStream p.hdr.srcMod p.hdr.vc with held := [p] }).drainHeld
      handle p.hdr.srcMod p.hdr.vc 1 := by
  have hahead : (p.hdr.seq + 2 ^ 24 - p.hdr.seq % 2 ^ 24) % 2 ^ 24 = 0 := by
    rw [Nat.mod_eq_of_lt hseq, Nat.add_sub_cancel_left, Nat.mod_self]
  simp only [State.arrive, hdst, hsrc, hgood, hst, hheld, hnext, hahead, ne_eq, not_true, if_false, Bool.not_true,
    Bool.false_eq_true, List.any_nil, false_and, List.nil_append, List.length_nil, ge_iff_le, gt_iff_lt, Nat.not_lt_zero]
  rfl

/-- A packet next on its stream, or of no stream, is counted and handed over; its stream is acknowledged with the 64th. -/
theorem State.arrive_inSeq (h : s.inSeq p = true) :
    s.arrive handle p = State.acked ((s.taken p).handOver handle p) p := by
  simp only [State.inSeq, Bool.and_eq_true, decide_eq_true_eq] at h
  obtain ⟨⟨⟨⟨-, hdst⟩, hsrc⟩, hgood⟩, hstream⟩ := h
  by_cases hst : p.body.streamed = true
  · simp only [hst, Bool.not_true, Bool.false_or, Bool.and_eq_true, decide_eq_true_eq, List.isEmpty_iff] at hstream
    obtain ⟨⟨hheld, hnext⟩, hseq⟩ := hstream
    rw [State.arrive_next handle hdst hsrc hgood hst hheld hnext hseq,
      State.drainHeld_one handle hnext.symm (State.rxStream_setRx_same ..) rfl,
      State.setRx_setRx (fun e => by simpa using congrArg RxStream.held e)
        (fun e => by simpa using congrArg RxStream.due e)]
    simp only [State.acked, State.accept, State.taken, hst, hnext, if_true, Bool.true_and, decide_eq_true_eq]
  · simp only [State.arrive, State.acked, State.taken, State.accept, hdst, hsrc, hgood, hst, ne_eq, not_true, if_false,
      Bool.not_true, Bool.false_eq_true, Bool.not_false, if_true, Bool.false_and]

/-- A packet that nothing refuses is dispatched, once a castling has counted it as a response. -/
theorem State.deliver_arrived (hcastle : (s.arrived p).castledPkt p = false)
    (hwait : ∀ id n, respId p.body = some (id, n) → (s.arrived p).settled id = false) :
    (s.taken p).deliver p = (s.arrived p).dispatch p := by
  unfold State.deliver
  unfold State.arrived at *
  cases hr : respId p.body with
  | none =>
    simp only [hr] at *
    rw [if_neg (by simp [hcastle])]
  | some r =>
    simp only [hr] at *
    rw [if_neg (by simp [hcastle, hwait r.1 r.2 rfl])]

end

/-- Settles O52: the packet is next (`State.arrive_inSeq`), no epoch refuses it, and it is delivered
(`State.deliver_arrived`). -/
theorem packetsReachTheirUnit : Obligations.PacketsReachTheirUnit := by
  intro s p h
  simp only [State.delivers, Bool.and_eq_true, Bool.not_eq_true'] at h
  obtain ⟨⟨⟨hseq, hepoch⟩, hcastle⟩, hwait⟩ := h
  have harr := hseq
  simp only [State.inSeq, Bool.and_eq_true] at harr
  obtain ⟨⟨⟨⟨hup, -⟩, -⟩, hgood⟩, -⟩ := harr
  have hunit : (s.taken p).handOver State.deliver p = (s.arrived p).dispatch p := by
    rw [State.handOver, hepoch]
    refine State.deliver_arrived hcastle fun id n hr => ?_
    simpa [hr] using hwait
  rw [exec_rowOf_good hup hgood, State.arrive_inSeq _ hseq, hunit]

/-! ## Witnesses: the hypotheses of the statements above can be met -/

/-- A READY module that expects SEQ 9 of module 4 on VC7 and has 63 packets of that stream to acknowledge. -/
def streamModule : State := { readyModule with fab := { rx := [(4 * 8 + 7, { next := 9, due := 63 })] } }

/-- A notice of module 4 that the epoch of its square 3 is 5. -/
def noticePkt (sq seq : Nat) : Pkt :=
  { hdr := { srcMod := 4, dstDie := 6, dstSq := sq, vc := 7, seq := seq }, body := .epochNotice 3 5 }

/-- The notice is learned, and the 64th delivery acknowledged. -/
theorem epochNotice_witness : ∃ t : State, exec (.epochNotice (noticePkt 0 9)) streamModule = .next t ∧
    t.epochFor 4 3 = 5 ∧ t.rxStream 4 7 = { next := 10 } :=
  ⟨_, packetsReachTheirUnit streamModule (noticePkt 0 9) (by decide), by decide, by decide⟩

/-- The notice before it is a duplicate; one for a square of a fabric die is malformed. -/
theorem epochNotice_refused_witness : ∃ t u : State,
    exec (.epochNotice (noticePkt 0 8)) streamModule = .next t ∧ t.reg fabPg FAB.STREAM_DUPS = 1 ∧ t.epochFor 4 3 = 0 ∧
    exec (.epochNotice (noticePkt 1 9)) streamModule = .next u ∧ u.reg fabPg FAB.BAD_PACKETS = 1 := by
  obtain ⟨hdup, hbad⟩ := packetsRefused
  exact ⟨_, _, hdup streamModule (noticePkt 0 8) (by decide) (by decide) (by decide)
      (by decide) rfl (by decide) (by decide) (by decide), by decide, by decide,
    hbad streamModule (noticePkt 1 9) (by decide) (by decide) (by decide) (by decide),
    by decide⟩

end Sys2Proof.Machine
end

section
/-! PROOFS. Streams and packets passed on (R306, R309, R310, R312): acknowledgements, resends, and what becomes of a packet for
another module. -/

namespace Sys2Proof.Machine

/-! ## Acknowledgements and resends (R309, R310) -/

section
variable {s : State}

theorem exec_e2eAckTimer_due {src vc : Nat} (hdue : 0 < (s.rxStream src vc).due) :
    exec (.e2eAckTimer src vc) s = .next (s.ackStream src vc) :=
  congrArg Host.Outcome.next (if_pos hdue)

/-- A packet of a stream as it goes out again. -/
def markResent (p : Pkt) : Pkt := { p with hdr := { p.hdr with resent := true } }

/-- The copies of a stream whose acknowledgement is overdue. -/
def State.lateCopies (s : State) (dst vc : Nat) : List (Nat × Pkt × Nat) :=
  (s.txStream dst vc).copies.filter fun c => decide (c.2.2 + s.e2eTimeout ≤ s.beat)

/-- The stream has marked its overdue copies, their time starts anew, and E2E_RESENDS has counted them. -/
def State.resent (s : State) (dst vc : Nat) : State :=
  (s.setTx dst vc { s.txStream dst vc with
    tries := (s.txStream dst vc).tries + 1
    copies := (s.txStream dst vc).copies.map fun c =>
      if c.2.2 + s.e2eTimeout ≤ s.beat then (c.1, markResent c.2.1, s.beat) else c }).count fabPg FAB.E2E_RESENDS
    (s.lateCopies dst vc).length

/-- Overdue copies are sent again; no module is reported while E2E_TRIES is not reached. -/
theorem exec_e2eResend_late {dst vc : Nat} (htries : (s.txStream dst vc).tries + 1 ≠ (s.resent dst vc).e2eTries)
    (hlate : s.lateCopies dst vc ≠ []) : exec (.e2eResend dst vc) s = .next ((s.lateCopies dst vc).foldl
      (fun t c => (t.owe .resend false (32 + 16 * c.2.1.hdr.len)).forward none (markResent c.2.1)) (s.resent dst vc)) := by
  show Host.Outcome.next (s.e2eResend dst vc) = _
  unfold State.e2eResend
  extract_lets x late mark copies t u w
  have hw : w = u := if_neg htries
  refine congrArg Host.Outcome.next ((if_neg fun h => hlate (List.isEmpty_iff.mp h)).trans ?_)
  rw [hw]
  rfl

end

/-! ## Packets for other modules (R306, R312) -/

section
variable {s : State} {p : Pkt} {port : Nat} (hup : s.fabricUp = true) (hport : s.portUp port = true)
  (hdst : p.hdr.dstMod ≠ s.modId)
include hup hport hdst

/-- A packet for another module that comes in on a port that is up is passed on. -/
theorem exec_packetForward_passOn : exec (.packetForward (some port) p) s = .next (s.passOn (some port) p) := by
  show Host.Outcome.next (s.relay port p) = _
  simp only [State.relay, hup, hport, if_neg hdst, Bool.not_true, Bool.or_self, Bool.false_eq_true, if_false]

/-- One that has made 63 hops is discarded. -/
theorem exec_packetForward_hops (hhops : 63 ≤ p.hdr.hops) :
    exec (.packetForward (some port) p) s = .next (s.count fabPg FAB.HOP_DISCARDS 1) := by
  rw [exec_packetForward_passOn hup hport hdst, State.passOn, if_pos hhops]

/-- One that no loss redirects goes one hop further. -/
theorem exec_packetForward_onward (hhops : p.hdr.hops < 63) (hsub : s.substitute p.hdr.dstMod = some p.hdr.dstMod) :
    exec (.packetForward (some port) p) s =
      .next (s.forward (some port) { p with hdr := { p.hdr with hops := p.hdr.hops + 1 } }) := by
  rw [exec_packetForward_passOn hup hport hdst]
  simp only [State.passOn, if_neg (Nat.not_le.mpr hhops), hsub, if_true]

end

/-- Settles O51: each row is the equation named above. -/
theorem streamsComplete : Obligations.StreamsComplete := by
  refine ⟨fun s src vc hdue => exec_e2eAckTimer_due hdue, fun s dst vc htries hlate u hu hsame => ?resend,
    fun s port p hup hport hdst => ⟨exec_packetForward_hops hup hport hdst,
      fun hhops _ hsub => exec_packetForward_onward hup hport hdst hhops hsub⟩⟩
  case resend =>
    subst hu
    exact exec_e2eResend_late (fun h => htries (h.trans hsame.symm)) hlate

/-! ## Witnesses: the hypotheses of `StreamsComplete` can be met -/

/-- A READY module at beat 70,000 with five packets of module 4 to acknowledge and one sent to it at beat 3; its ports 2,
to module 4, and 16 are up. -/
def relayModule : State := { readyModule with
  beat := 70000
  fab := {
    rx := [(4 * 8, { next := 5, due := 5 })]
    tx := [(4 * 8, { next := 1, copies := [(0, { hdr := { dstMod := 4 }, body := .fsignal 1 0 1 }, 3)] })]
    ports := [(2, { st := .active, width := 8, lanes := 255, partner := some (4, 2) }),
      (16, { st := .active, width := 8, lanes := 255, partner := some (9, 16) })] } }

theorem e2eAckTimer_witness : ∃ t : State, exec (.e2eAckTimer 4 0) relayModule = .next t ∧ t.rxStream 4 0 = { next := 5 } :=
  ⟨_, streamsComplete.1 relayModule 4 0 (by decide), by decide⟩

/-- The packet of beat 3 goes out again. -/
theorem e2eResend_witness : ∃ t : State, exec (.e2eResend 4 0) relayModule = .next t ∧
    t.reg fabPg FAB.E2E_RESENDS = 1 ∧ t.outbox ≠ [] :=
  ⟨_, streamsComplete.2.1 relayModule 4 0 (by decide) (by decide) _ rfl (by decide),
    by decide, by decide⟩

/-- A packet of module 9 for module 4 after a number of hops. -/
def transitPkt (hops : Nat) : Pkt := { hdr := { dstMod := 4, srcMod := 9, hops := hops }, body := .fsignal 1 0 1 }

/-- After 62 hops it goes on to module 4, after 63 it is discarded. -/
theorem packetForward_witness : ∃ t u : State,
    exec (.packetForward (some 16) (transitPkt 62)) relayModule = .next t ∧
    t.outbox.head? = some (.packet 2 { transitPkt 63 with hdr := { (transitPkt 63).hdr with upper := true } }) ∧
    exec (.packetForward (some 16) (transitPkt 63)) relayModule = .next u ∧ u.outbox = [] ∧
    u.reg fabPg FAB.HOP_DISCARDS = 1 := by
  have hforward (hops : Nat) := streamsComplete.2.2 relayModule 16 (transitPkt hops) (by decide)
    (by decide) (show 4 ≠ relayModule.modId by decide)
  exact ⟨_, _, (hforward 62).2 (by decide) (by decide) (by decide), by decide,
    (hforward 63).1 (by decide), by decide, by decide⟩

end Sys2Proof.Machine
end

section
/-! PROOFS. Ports and flits (R299 to R304, R319): what becomes of a port that trains, retrains or is stopped, and what a
flit that arrives does. -/

namespace Sys2Proof.Machine

/-! ## Training, lanes and stops (R299, R303, R304, R319) -/

section
variable {s : State} {port : Nat}

/-- An attempt to train that is over. -/
theorem State.portTrain_over {r : TrainResult} (hp : portPresent s.variant port = true)
    (hst : (s.port port).st = .training) : s.portTrain port r =
      if !r.ok || s.laneWidth port r.lanes = 0 || !(s.cageOk port) then s.trainFailed port
      else if s.partnerOk port r.partner r.pport then (s.setPort port { s.port port with
          partner := some (r.partner, r.pport), delay := r.delay, lanes := r.lanes, attempts := 0
          st := if s.laneWidth port r.lanes = 8 then .active else .degraded, width := s.laneWidth port r.lanes }).pump port
      else (s.setPort port { s.port port with
          partner := some (r.partner, r.pport), delay := r.delay, lanes := r.lanes, attempts := 0
          st := .miswired, width := 0 }).err (plyPg port) PLY.E_MISWIRED port :=
  if_neg (by simp [hp, hst])

theorem exec_portTrainDone_failed {r : TrainResult} (hp : portPresent s.variant port = true)
    (hst : (s.port port).st = .training) (hr : r.ok = false) :
    exec (.portTrainDone port r) s = .next (s.trainFailed port) :=
  congrArg Host.Outcome.next ((State.portTrain_over hp hst).trans (if_pos (by simp [hr])))

/-- A port that has trained to a width carries packets where its partner is the one expected, and is MISWIRED otherwise. -/
theorem exec_portTrainDone_trained {r : TrainResult} (hp : portPresent s.variant port = true)
    (hst : (s.port port).st = .training) (hr : r.ok = true) (hw : s.laneWidth port r.lanes ≠ 0)
    (hcage : s.cageOk port = true) : exec (.portTrainDone port r) s = .next
      (if s.partnerOk port r.partner r.pport then (s.setPort port { s.port port with
          partner := some (r.partner, r.pport), delay := r.delay, lanes := r.lanes, attempts := 0
          st := if s.laneWidth port r.lanes = 8 then .active else .degraded, width := s.laneWidth port r.lanes }).pump port
      else (s.setPort port { s.port port with
          partner := some (r.partner, r.pport), delay := r.delay, lanes := r.lanes, attempts := 0
          st := .miswired, width := 0 }).err (plyPg port) PLY.E_MISWIRED port) :=
  congrArg Host.Outcome.next ((State.portTrain_over hp hst).trans (if_neg (by simp [hr, hw, hcage])))

theorem exec_laneFault_carries (hc : (s.port port).carries = true) (lane : Nat) :
    exec (.laneFault port lane) s = .next ((s.setPort port { s.port port with
      lanes := if (s.port port).lanes.testBit lane then (s.port port).lanes - 2 ^ lane
        else (s.port port).lanes }).portRetrain port) :=
  congrArg Host.Outcome.next (if_pos hc)

/-- The port runs at a width again, and the flits that the partner has not accepted have gone out again. -/
def State.retrained (s : State) (port : Nat) (r : RetrainResult) (w : Nat) : State :=
  ((s.setPort port { s.port port with lanes := r.lanes }).setPort port { s.port port with
    lanes := r.lanes, st := if w = 8 then .active else .degraded
    width := w, retry := ackFlits r.ack (s.port port).retry }).resendFlits port

/-- A retraining that is over: without a width the port fails, below the width before it is reported. -/
theorem exec_retrainDone_over {r : RetrainResult} (hst : (s.port port).st = .retraining) {w : Nat}
    (hw : w = min (s.laneWidth port r.lanes) (s.port port).cap) : exec (.retrainDone port r) s = .next
      (if w = 0 then (s.setPort port { s.port port with lanes := r.lanes }).portFail port
      else (if w < (s.port port).before
        then ((s.retrained port r w).count (plyPg port) PLY.LANE_DEGRADES 1).err (plyPg port) PLY.E_LANE_DEGRADED port
        else s.retrained port r w).pump port) := by
  subst hw
  exact congrArg Host.Outcome.next (if_neg (by simp [hst]))

theorem exec_stopFlitRx_open (h : (s.port port).carries = true ∨ (s.port port).st = .miswired) (m reason : Nat) :
    exec (.stopFlitRx port m reason) s = .next ((((((s.setPort port { s.port port with
      st := .stopped, width := 0 }).count (plyPg port) PLY.STOP_RX 1).err (plyPg port) PLY.E_STOP_RX port).reroute
        port).emit (.inform "stop flit" m)).emit (.inform "stop reason" reason)) := by
  have hopen : s.stopRx port m = _ := if_pos (by simpa using h)
  show Host.Outcome.next ((s.stopRx port m).emit _) = _
  rw [hopen]

end

/-- Settles O49: each row is the equation named above, in the cases that its statement tells apart. -/
theorem portTrainingComplete : Obligations.PortTrainingComplete := by
  refine ⟨fun s port r hp hst => ⟨exec_portTrainDone_failed hp hst, fun w hw hr hw0 hcage => ?trained⟩,
    fun s port lane hc => exec_laneFault_carries hc lane, fun s port r hst w hw => ?retrained,
    fun s port m reason h => exec_stopFlitRx_open h m reason⟩
  case trained =>
    subst hw
    rw [exec_portTrainDone_trained hp hst hr hw0 hcage]
    exact ⟨fun hok => by rw [if_pos hok], fun hno => by rw [if_neg (by simp [hno])]⟩
  case retrained =>
    rw [exec_retrainDone_over hst hw]
    refine ⟨fun hw0 => by rw [if_pos hw0], fun hw0 u hu => ?_⟩
    subst hu
    rw [if_neg hw0]
    exact ⟨fun hwide => by rw [if_neg (Nat.not_lt.mpr hwide)]; rfl, fun hnarrow => by rw [if_pos hnarrow]; rfl⟩

/-! ## Flits (R300 to R302) -/

section
variable {s u : State} {port : Nat} {f : List Byte}

theorem State.countFree_fab (s : State) (page off : Nat) : (s.countFree page off).fab = s.fab :=
  (State.count64_fab ..).trans (State.draw_fab s)

theorem State.port_congr {t : State} (h : t.fab = s.fab) (port : Nat) : t.port port = s.port port := by
  unfold State.port
  rw [h]

/-- A flit on a port that carries packets: what the FEC corrected is counted, then its CRC, its FTYPE and its FSEQ decide. -/
theorem State.flitRx_carries (hp : portPresent s.variant port = true) (hc : (s.port port).carries = true)
    (hu : u = s.countFree (plyPg port) PLY.FEC_CORRECTED) : s.flitRx port f =
      if !(flitGood f) then ((u.draw.2.count (plyPg port) PLY.FEC_UNCORRECTED u.draw.1).count (plyPg port) PLY.CRC_ERRORS
        1).sendNak port
      else if flitType f ≥ 5 then u.count (plyPg port) PLY.BAD_FLITS 1
      else if flitType f ≠ 0 then u.linkUnit port f
      else if flitSeq f ≠ (s.port port).rxNext then u.sendNak port
      else u.flitTake port f := by
  have hport : u.port port = s.port port := by rw [hu, State.port_congr (State.countFree_fab ..)]
  subst hu
  rw [← hport]
  exact if_neg (by simp [hp, hc])

theorem State.flitRx_bad (hp : portPresent s.variant port = true) (hc : (s.port port).carries = true)
    (hu : u = s.countFree (plyPg port) PLY.FEC_CORRECTED) (hgood : flitGood f = false) : s.flitRx port f =
      ((u.draw.2.count (plyPg port) PLY.FEC_UNCORRECTED u.draw.1).count (plyPg port) PLY.CRC_ERRORS 1).sendNak port := by
  rw [State.flitRx_carries hp hc hu, if_pos (by simp [hgood])]

/-- A good flit of a reserved FTYPE. -/
theorem State.flitRx_reserved (hp : portPresent s.variant port = true) (hc : (s.port port).carries = true)
    (hu : u = s.countFree (plyPg port) PLY.FEC_CORRECTED) (hgood : flitGood f = true) (htype : 5 ≤ flitType f) :
    s.flitRx port f = u.count (plyPg port) PLY.BAD_FLITS 1 := by
  rw [State.flitRx_carries hp hc hu, if_neg (by simp [hgood]), if_pos htype]

/-- A good flit without payload. -/
theorem State.flitRx_control (hp : portPresent s.variant port = true) (hc : (s.port port).carries = true)
    (hu : u = s.countFree (plyPg port) PLY.FEC_CORRECTED) (hgood : flitGood f = true) (htype : flitType f ≠ 0)
    (hlt : flitType f < 5) : s.flitRx port f = u.linkUnit port f := by
  rw [State.flitRx_carries hp hc hu, if_neg (by simp [hgood]), if_neg (Nat.not_le.mpr hlt), if_pos htype]

/-- A good DATA flit is taken where it is the next expected. -/
theorem State.flitRx_data (hp : portPresent s.variant port = true) (hc : (s.port port).carries = true)
    (hu : u = s.countFree (plyPg port) PLY.FEC_CORRECTED) (hgood : flitGood f = true) (htype : flitType f = 0) :
    s.flitRx port f = if flitSeq f ≠ (s.port port).rxNext then u.sendNak port else u.flitTake port f := by
  rw [State.flitRx_carries hp hc hu, if_neg (by simp [hgood]), if_neg (by omega), if_neg (not_not.mpr htype)]

/-- A port that answers with a NAK sends no other until it accepts a flit. -/
theorem State.sendNak_nakSent (s : State) (port : Nat) : ((s.sendNak port).port port).nakSent = true := by
  unfold State.sendNak
  extract_lets x
  split
  · next h => exact h
  · show (((s.setPort port _).setPort port _).port port).nakSent = true
    rw [State.port_setPort_same, State.port_setPort_same]

/-- The port has noted a NAK: its ACK frees flits, and NAKs with one ACK are counted. -/
def State.nakNoted (s : State) (port ack : Nat) : State :=
  (s.setPort port { s.port port with
    retry := ackFlits ack (s.port port).retry, nakAck := ack
    nakRun := if (s.port port).nakAck = ack then (s.port port).nakRun + 1 else 1 }).count (plyPg port) PLY.REPLAYS 1

theorem State.nakNoted_nakRun (s : State) (port ack : Nat) : ((s.nakNoted port ack).port port).nakRun =
    if (s.port port).nakAck = ack then (s.port port).nakRun + 1 else 1 := by
  rw [State.nakNoted, State.port_congr (State.count_fab ..), State.port_setPort_same]

/-- A NAK on a port that carries packets: as many as REPLAY_LIMIT in a row retrain it, below that the flits go out again. -/
theorem exec_nakRx_carries (hc : (s.port port).carries = true) {ack : Nat} (hu : u = s.nakNoted port ack) :
    exec (.nakRx port ack) s = .next
      (if (u.port port).nakRun ≥ bits (u.reg (plyPg port) PLY.PLY_CONFIG) 15 8
        then (u.err (plyPg port) PLY.E_REPLAY_LIMIT port).portRetrain port
        else (u.resendFlits port).pump port) := by
  subst hu
  rw [State.nakNoted_nakRun]
  exact congrArg Host.Outcome.next (if_neg (by simp [hc]))

end

/-- Settles O50: a flit is the lemma `State.flitRx_*` of its case, a NAK `exec_nakRx_carries`. -/
theorem flitsComplete : Obligations.FlitsComplete := by
  refine ⟨fun s u port f hp hc hu => ⟨fun hgood => congrArg Host.Outcome.next (State.flitRx_bad hp hc hu hgood),
    fun hgood htype => congrArg Host.Outcome.next (State.flitRx_reserved hp hc hu hgood htype),
    fun hgood htype hseq => ?refused, fun hgood htype hseq x hx => ?taken,
    fun hgood htype hlt => congrArg Host.Outcome.next (State.flitRx_control hp hc hu hgood htype hlt)⟩,
    fun s port ack hc u hu => ?nak⟩
  case refused => exact congrArg Host.Outcome.next ((State.flitRx_data hp hc hu hgood htype).trans (if_pos hseq))
  case taken =>
    subst hx
    exact congrArg Host.Outcome.next ((State.flitRx_data hp hc hu hgood htype).trans (if_neg (not_not.mpr hseq)))
  case nak =>
    rw [exec_nakRx_carries hc hu]
    exact ⟨fun hrun => by rw [if_neg (Nat.not_le.mpr hrun)], fun hrun => by rw [if_pos hrun]⟩

/-! ## Witnesses: the hypotheses of the statements above can be met -/

/-- A READY module whose port 2 is up, port 5 trains and port 7 retrains after four lanes. -/
def portModule : State := { readyModule with
  fab := { ports := [(2, { st := .active, width := 8, lanes := 255, partner := some (4, 2) }),
    (5, { st := .training }), (7, { st := .retraining, before := 4 })] } }

/-- Port 5 trains with module 8, its wired partner, on all lanes and on seven; module 4 would be a miswiring. -/
theorem portTrainDone_witness : ∃ t u v : State,
    exec (.portTrainDone 5 { lanes := 255, partner := 8, pport := 5, delay := 9, ok := true }) portModule = .next t ∧
    (t.port 5).st = .active ∧
    exec (.portTrainDone 5 { lanes := 127, partner := 8, pport := 5, delay := 9, ok := true }) portModule = .next u ∧
    (u.port 5).st = .degraded ∧ (u.port 5).width = 4 ∧
    exec (.portTrainDone 5 { lanes := 255, partner := 4, pport := 5, delay := 9, ok := true }) portModule = .next v ∧
    (v.port 5).st = .miswired := by
  have htrain (r : TrainResult) := (portTrainingComplete.1 portModule 5 r (by decide) (by decide)).2
  exact ⟨_, _, _, (htrain _ _ rfl rfl (by decide) (by decide)).1 (by decide), by decide,
    (htrain _ _ rfl rfl (by decide) (by decide)).1 (by decide), by decide,
    by decide,
    (htrain _ _ rfl rfl (by decide) (by decide)).2 (by decide), by decide⟩

/-- Port 7 runs on two lanes of three, fewer than before; without a lane it fails. -/
theorem retrainDone_witness : ∃ t u : State, exec (.retrainDone 7 { lanes := 7, ack := 0 }) portModule = .next t ∧
    (t.port 7).width = 2 ∧ t.reg (plyPg 7) PLY.LANE_DEGRADES = 1 ∧
    exec (.retrainDone 7 { lanes := 0, ack := 0 }) portModule = .next u ∧ (u.port 7).st = .failed := by
  obtain ⟨-, -, hretrain, -⟩ := portTrainingComplete
  have hover (r : RetrainResult) := hretrain portModule 7 r (by decide) _ rfl
  exact ⟨_, _, ((hover _).2 (by decide) _ rfl).2 (by decide), by decide, by decide,
    (hover _).1 (by decide), by decide⟩

/-- A faulty lane and a STOP flit take port 2 out of service. -/
theorem laneFault_stopFlitRx_witness : ∃ t u : State, exec (.laneFault 2 7) portModule = .next t ∧
    (t.port 2).st = .retraining ∧ (t.port 2).lanes = 127 ∧
    exec (.stopFlitRx 2 4 1) portModule = .next u ∧ (u.port 2).st = .stopped := by
  obtain ⟨-, hlane, -, hstop⟩ := portTrainingComplete
  exact ⟨_, _, hlane portModule 2 7 (by decide), by decide, by decide,
    hstop portModule 2 4 1 (.inl (by decide)), by decide⟩

/-- A flit cut short is answered with a NAK. -/
theorem dataFlitRx_witness : ∃ t : State, exec (.dataFlitRx 2 []) portModule = .next t ∧ (t.port 2).nakSent = true :=
  ⟨_, (flitsComplete.1 portModule _ 2 [] (by decide) (by decide) rfl).1 rfl, State.sendNak_nakSent ..⟩

/-- After a NAK port 2 carries on. -/
theorem nakRx_witness : ∃ t : State, exec (.nakRx 2 5) portModule = .next t ∧ (t.port 2).nakRun = 1 ∧
    (t.port 2).carries = true :=
  ⟨_, (flitsComplete.2 portModule 2 5 (by decide) _ rfl).1 (by decide), by decide,
    by decide⟩

end Sys2Proof.Machine
end

section
/-! PROOFS. Declarations of loss and units of a module (R312, R373, R374): what LOST_CMD declares or refuses, how a unit goes
STALE and returns, and that a resynchronised unit is STALE no more. -/

namespace Sys2Proof.Machine

/-! ## LOST_CMD (R312) -/

section
variable {s : State} {m : Nat} {secure : Bool} (h : s.allows fabPg true secure = true)
include h

theorem exec_lostDeclare_allowed : exec (.lostDeclare m secure) s = .next (s.declareLost (m % 2 ^ 15) none) :=
  congrArg Host.Outcome.next (State.guardWrite_allows _ h)

/-- LOST_SUB is the substitute unless it is the lost module or lost itself. -/
theorem exec_lostDeclareSub_allowed {x : Nat} (hx : x = s.reg fabPg FAB.LOST_SUB % 2 ^ 15) :
    exec (.lostDeclareSub m secure) s = .next (if x = m % 2 ^ 15 ∨ s.isLost x = true
      then s.err fabPg PLY.E_LOST_REFUSED (m % 2 ^ 15) else s.declareLost (m % 2 ^ 15) (some x)) := by
  subst hx
  exact congrArg Host.Outcome.next (State.guardWrite_allows _ h)

theorem exec_lostClear_allowed : exec (.lostClear m secure) s = .next (s.clearLost (m % 2 ^ 15)) :=
  congrArg Host.Outcome.next (State.guardWrite_allows _ h)

end

/-! ## Units that lose state or return (R373) -/

section
variable {s : State} {unit : Nat}

theorem exec_stackContentsLost_present (h : unit < s.variant.stacks) :
    exec (.stackContentsLost unit) s = .next ((s.setStack unit .failed).unitStale (384 + unit) 4) :=
  congrArg Host.Outcome.next (if_pos h)

/-- A square that returns is STALE alone. -/
theorem exec_returnToService_square (hlt : unit < 384) (h : s.squarePresent unit = true) :
    exec (.returnToService false unit) s = .next (s.staleOne unit 3) := by
  have hpresent : s.unitPresent unit = true := (if_pos hlt).trans h
  have hrun : s.returnUnit false unit = s.unitStale unit 3 := if_pos hpresent
  show Host.Outcome.next (s.returnUnit false unit) = _
  rw [hrun, State.unitStale, if_pos hlt]

/-- A stack that returns is ready, and STALE with the squares of its die. -/
theorem exec_returnToService_stack (h : unit < s.variant.stacks) :
    exec (.returnToService true unit) s = .next ((s.setStack unit .ready).unitStale (384 + unit) 3) := by
  have hpresent : s.unitPresent (384 + unit) = true := by
    rw [State.unitPresent, if_neg (by omega), Nat.add_sub_cancel_left, decide_eq_true h]
  exact congrArg Host.Outcome.next (if_pos hpresent)

end

/-! ## Sending a packet leaves the units as they are (R300 to R310) -/

/-- What looks at neither the registers, the fabric, the free values nor what leaves the module or is told. -/
def Unsent {α : Type} (g : State → α) : Prop :=
  (∀ (t : State) p o v w, g (t.setReg p o v w) = g t) ∧ (∀ (t : State) x, g { t with fab := x } = g t) ∧
  (∀ t : State, g t.draw.2 = g t) ∧ (∀ (t : State) o, g (t.emit o) = g t) ∧
  (∀ (t : State) x, g { t with told := x } = g t)

theorem unsent_bnd : Unsent State.bnd :=
  ⟨fun _ _ _ _ _ => rfl, fun _ _ => rfl, fun _ => rfl, fun _ _ => rfl, fun _ _ => rfl⟩

namespace Unsent

variable {α : Type} {g : State → α} (hg : Unsent g) (s : State)
include hg

theorem setReg (p o v w : Nat) : g (s.setReg p o v w) = g s := by
  obtain ⟨h, -⟩ := hg
  exact h s p o v w

theorem fab (x : FabState) : g { s with fab := x } = g s := by
  obtain ⟨-, h, -⟩ := hg
  exact h s x

theorem draw : g s.draw.2 = g s := by
  obtain ⟨-, -, h, -⟩ := hg
  exact h s

theorem emit (o : Out) : g (s.emit o) = g s := by
  obtain ⟨-, -, -, h, -⟩ := hg
  exact h s o

theorem told (x : List (Nat × Nat)) : g { s with told := x } = g s := by
  obtain ⟨-, -, -, -, h⟩ := hg
  exact h s x

theorem count (page off n : Nat) : g (s.count page off n) = g s := by
  unfold State.count
  split
  · rfl
  · exact hg.setReg ..

theorem count64 (page off n : Nat) : g (s.count64 page off n) = g s := by
  unfold State.count64
  split
  · rfl
  · exact hg.setReg ..

theorem countFree (page off : Nat) : g (s.countFree page off) = g s := (hg.count64 ..).trans (hg.draw s)

theorem err (page b info : Nat) : g (s.err page b info) = g s :=
  s.err_leaves g (fun t p o v => hg.setReg t p o v 0) hg.told page b info

theorem owe (r : OwnRegion) (write : Bool) (n : Nat) : g (s.owe r write n) = g s := by
  unfold State.owe
  split
  · rfl
  · exact hg.fab ..

theorem sendFlit (port : Nat) (f : Flit) : g (s.sendFlit port f) = g s := (hg.emit ..).trans (hg.fab ..)

theorem sendData (port : Nat) : g (s.sendData port) = g s :=
  (hg.count64 ..).trans ((hg.sendFlit ..).trans (hg.fab ..))

theorem sendFull (port n fuel : Nat) : g (s.sendFull port n fuel) = g s := by
  induction fuel generalizing s with
  | zero => rfl
  | succ k ih =>
    unfold State.sendFull
    split
    · exact (ih _).trans (hg.sendData s port)
    · rfl

theorem startPkt (port : Nat) (p : Pkt) : g (s.startPkt port p) = g s :=
  (hg.sendFull ..).trans ((hg.emit ..).trans (hg.fab ..))

theorem pumpFuel (port fuel : Nat) : g (s.pumpFuel port fuel) = g s := by
  induction fuel generalizing s with
  | zero => rfl
  | succ k ih =>
    unfold State.pumpFuel
    split
    · split
      · exact (ih _).trans (hg.startPkt s port _)
      · rfl
    · rfl

theorem sendIdle (port fuel : Nat) : g (s.sendIdle port fuel) = g s := by
  induction fuel generalizing s with
  | zero => rfl
  | succ k ih =>
    unfold State.sendIdle
    extract_lets x
    split
    · exact (ih _).trans (hg.sendFlit s port _)
    · rfl

theorem pump (port : Nat) : g (s.pump port) = g s :=
  (hg.sendIdle ..).trans ((hg.sendFull ..).trans (hg.pumpFuel ..))

theorem forward (from_ : Option Nat) (p : Pkt) : g (s.forward from_ p) = g s := by
  unfold State.forward State.forwardBut
  split
  · exact (hg.err ..).trans (hg.count ..)
  · exact (hg.pump ..).trans (hg.fab ..)

theorem inject (p : Pkt) : g (s.inject p) = g s := by
  unfold State.inject
  extract_lets dst t x q u
  split
  · exact (hg.forward ..).trans ((hg.owe ..).trans ((hg.fab ..).trans (hg.count64 ..)))
  · exact (hg.forward ..).trans (hg.count64 ..)

theorem sendOne (d : Nat) (p : Pkt) : g (s.sendOne d p) = g s := by
  unfold State.sendOne
  split
  · exact hg.fab ..
  · split
    · exact (hg.countFree ..).trans (hg.fab ..)
    · exact hg.inject s p

theorem sendPkt (p : Pkt) : g (s.sendPkt p) = g s := by
  unfold State.sendPkt
  extract_lets q
  split
  · exact (hg.fab ..).trans ((hg.err ..).trans (hg.count ..))
  · exact foldl_leaves g _ _ s fun t p => hg.sendOne t _ p

end Unsent

/-! ## RESYNC (R374) -/

section
variable {s : State} {u : Nat}

/-- Two states with the same units have the same STALE ones. -/
theorem State.isStale_congr {t : State} (h : t.bnd = s.bnd) (u : Nat) : t.isStale u = s.isStale u := by
  unfold State.isStale
  rw [h]

/-- A resynchronised unit is not STALE. -/
theorem State.resync_isStale (s : State) (u : Nat) : (s.resync u).isStale u = false := by
  unfold State.resync
  split
  · next h => simpa using h
  · extract_lets b t v w
    have hv : v.bnd = t.bnd := State.count_bnd ..
    have hw : w.bnd = v.bnd := by
      show (if u < 384 then (v.wipeSquare u).scsReset u else v).bnd = v.bnd
      split
      · exact (State.scsReset_bnd ..).trans (State.wipeSquare_bnd ..)
      · rfl
    have hbnd : ((w.unitJobs u).foldl (fun s j => (s.otherMembers j).foldl
        (fun s m => s.plcSend m j (.epochNotice u (s.unitEpoch u))) s) w).bnd = w.bnd :=
      foldl_leaves State.bnd _ _ w fun s j => foldl_leaves State.bnd _ _ s fun s m => unsent_bnd.sendPkt s _
    rw [State.isStale_congr (hbnd.trans (hw.trans hv))]
    simp [State.isStale, t]

variable {v : Word} {secure : Bool} (h : s.allows bndPg false secure = true)
  (hu : u = resyncUnit (v.toNat / 2 ^ 31) (v.toNat % 512))
include h hu

/-- A reserved bit, or a unit that may not be resynchronised, refuses RESYNC_CMD. -/
theorem exec_resyncCmd_refused (hbad : v.toNat / 512 % 2 ^ 22 ≠ 0 ∨ s.resyncBad u = true) :
    exec (.resyncCmd v secure) s = .next (s.err bndPg BND.E_RESYNC_REFUSED u) := by
  subst hu
  refine congrArg Host.Outcome.next ((State.guardWrite_allows _ h).trans (if_pos ?_))
  rcases hbad with hres | hbad
  · rw [bne_iff_ne.mpr hres, Bool.true_or, Bool.true_or]
  · rw [hbad, Bool.or_true]

/-- A stack, or a square below 384, that may be resynchronised is. -/
theorem exec_resyncCmd_taken (hres : v.toNat / 512 % 2 ^ 22 = 0) (hidx : v.toNat / 2 ^ 31 = 0 → v.toNat % 512 < 384)
    (hok : s.resyncBad u = false) : exec (.resyncCmd v secure) s = .next (s.resync u) := by
  subst hu
  refine congrArg Host.Outcome.next ((State.guardWrite_allows _ h).trans (if_neg ?_))
  simp only [hres, hok, bne_self_eq_false, Bool.false_or, Bool.or_false, Bool.and_eq_true, beq_iff_eq, decide_eq_true_eq]
  exact fun ⟨hsquare, hidx'⟩ => Nat.not_le.mpr (hidx hsquare) hidx'

end

/-- Settles O39: each row is the equation named above; a unit resynchronised is not STALE by `State.resync_isStale`. -/
theorem lossAndUnitsComplete : Obligations.LossAndUnitsComplete := by
  refine ⟨fun s m secure h => ⟨exec_lostDeclare_allowed h, fun hne hlost => ?sub, fun hrefused => ?refused,
      exec_lostClear_allowed h⟩,
    fun s stack h => exec_stackContentsLost_present h,
    fun s unit => ⟨exec_returnToService_square, exec_returnToService_stack⟩,
    fun s v secure u h hu => ⟨exec_resyncCmd_refused h hu, fun hres hidx hok =>
      ⟨_, exec_resyncCmd_taken h hu hres hidx hok, State.resync_isStale s u⟩⟩⟩
  case sub => rw [exec_lostDeclareSub_allowed h rfl, if_neg (not_or.mpr ⟨hne, Bool.eq_false_iff.mp hlost⟩)]
  case refused => rw [exec_lostDeclareSub_allowed h rfl, if_pos hrefused]

/-! ## Witnesses: the hypotheses of `LossAndUnitsComplete` can be met -/

/-- A READY module that has declared module 7 lost, with a number in LOST_SUB. -/
def lossModule (sub : Nat) : State :=
  let s := readyModule.setReg fabPg FAB.LOST_SUB sub
  { s with fab := { s.fab with lost := [(7, none)] } }

/-- Module 5 becomes the substitute of module 6; it is refused as its own, and module 7 as anyone's. -/
theorem lostDeclareSub_witness :
    exec (.lostDeclareSub 6 true) (lossModule 5) = .next ((lossModule 5).declareLost 6 (some 5)) ∧
    exec (.lostDeclareSub 5 true) (lossModule 5) = .next ((lossModule 5).err fabPg PLY.E_LOST_REFUSED 5) ∧
    exec (.lostDeclareSub 6 true) (lossModule 7) = .next ((lossModule 7).err fabPg PLY.E_LOST_REFUSED 6) := by
  have hlost (sub m : Nat) (h : (lossModule sub).allows fabPg true true = true) :=
    (lossAndUnitsComplete.1 (lossModule sub) m true h).2
  exact ⟨(hlost 5 6 (by decide)).1 (by decide) (by decide), (hlost 5 5 (by decide)).2.1 (.inl (by decide)),
    (hlost 7 6 (by decide)).2.1 (.inr (by decide))⟩

/-- Square 64 returns and is STALE; RESYNC_CMD ends that. -/
theorem resyncCmd_witness : ∃ t u : State, exec (.returnToService false 64) (lossModule 5) = .next t ∧
    t.isStale 64 = true ∧ exec (.resyncCmd 64#32 true) t = .next u ∧ u.isStale 64 = false := by
  obtain ⟨-, -, hreturn, hresync⟩ := lossAndUnitsComplete
  obtain ⟨u, hu, hstale⟩ := (hresync ((lossModule 5).staleOne 64 3) 64#32 true 64 (by decide) (by decide)).2
    (by decide) (fun _ => by decide) (by decide)
  exact ⟨_, u, (hreturn (lossModule 5) 64).1 (by decide) (by decide), by decide, hu, hstale⟩

end Sys2Proof.Machine
end

section
/-! PROOFS. The collective and the binding commands (R337, R338, R374, R377): what each does once it starts. -/

namespace Sys2Proof.Machine

theorem resyncCheck_quiet : resyncCheck.Quiet := lateCheck_quiet _ _

section
variable {s : State} {q : Nat} {d : Desc} {check : Check}

/-- The start of a command whose checks read no memory advances no unit's epoch. -/
theorem State.begun_unitEpoch (h : check.Quiet) (u : Nat) : (s.begun q d check).unitEpoch u = s.unitEpoch u := by
  unfold State.unitEpoch
  rw [State.begun_bnd q d h]

/-- BND_RESYNC is done at once; the epoch it reports is the one its unit had before the start. -/
theorem exec_bndResync_begins {u : Nat} (h : s.begins q d resyncCheck = true)
    (hu : u = resyncUnit (b2n (d.bitB 0 31)) (d.f 0 8 0)) : exec (.bndResync q d) s =
      .next (((s.begun q d resyncCheck).resync u).addCmd { s.newCmd q d with done := true, info0 := s.unitEpoch u }) := by
  rw [← State.begun_unitEpoch resyncCheck_quiet u]
  subst hu
  exact next_command _ h

end

/-- Settles O25: `next_command` runs each command; the epoch that BND_RESYNC reports is the one before the start. -/
theorem collectiveAndBindingCommandsComplete : Obligations.CollectiveAndBindingCommandsComplete := by
  refine ⟨fun s q d h => ⟨?allreduce, ?norm⟩, fun s q d h => ?stream, fun s q d h => ?close, fun s q d h => ?resync⟩
  case resync => exact exec_bndResync_begins h rfl
  all_goals exact next_command _ h

/-- A seal is in flight while its write goes to the twin (R377). -/
theorem State.sealRun_cmds {s : State} (htwin : s.shadowTwin = true) (c : Cmd) :
    (s.sealRun c).cmds = s.cmds ++ [{ c with ctx := .shadow 1 0 0 }] := by
  have hcmds : Unsent State.cmds :=
    ⟨fun _ _ _ _ _ => rfl, fun _ _ => rfl, fun _ => rfl, fun _ _ => rfl, fun _ _ => rfl⟩
  unfold State.sealRun State.sendShadow
  rw [htwin]
  exact (hcmds.count64 ..).trans (hcmds.sendPkt ..)

section
-- one theorem at a time: a kernel evaluation under way holds a thread with its stack
set_option Elab.async false

/-! ## Witnesses: the hypotheses of `CollectiveAndBindingCommandsComplete` can be met -/

/-- A module of job 0, whose members are modules 0 and 1, with a descriptor at the head of queue 0: the job has square 64,
which is STALE in epoch 7, reduction context 0, a BF16 embedding table 3 of 8 rows, and the given generations open at the
twin. -/
def bindingModule (d : Desc) (own : List OpenGen) : State :=
  { startModule d [] with
    bnd := { bound := [(0, 0), (64, 0), (2 ^ 24, 0), (5 * 2 ^ 24, 0)]
             jobs := [(0, { members := [0, 1], ver := 1 })]
             stale := [64], epoch := [(64, 7)] }
    plc := { tables := [(3, [3 * 2 ^ 20 + 4 * 2 ^ 16 + 2 * 2 ^ 14, 16, 0, 0, 8, 0, 0, 0])] }
    twinSt := { own := own } }

def allreduceDesc : Desc := arbDesc 0x80 [0, 1, 0, 32, 0]
def normDesc : Desc := arbDesc 0x81 [2 ^ 27, 1]
def resyncDesc : Desc := arbDesc 0x90 [64]
def shadowDesc : Desc := arbDesc 0x91 [2 ^ 31 + 3 * 2 ^ 18, 4]
def sealDesc : Desc := arbDesc 0x92 [4]

/-- COLL_ALLREDUCE and COLL_NORM each enter instance 1 of context 0. -/
theorem collectives_witness : ∃ t u : State,
    exec (.collAllreduce 0 allreduceDesc) (bindingModule allreduceDesc []) = .next t ∧
      (t.ctx 0).st = .active ∧ (t.ctx 0).last = 1 ∧
    exec (.collNorm 0 normDesc) (bindingModule normDesc []) = .next u ∧
      (u.ctx 0).st = .active ∧ (u.ctx 0).last = 1 := by
  obtain ⟨hcoll, -⟩ := collectiveAndBindingCommandsComplete
  exact ⟨_, _, (hcoll (bindingModule allreduceDesc []) 0 allreduceDesc (by decide +kernel)).1, by decide +kernel,
    by decide +kernel, (hcoll (bindingModule normDesc []) 0 normDesc (by decide +kernel)).2, by decide +kernel,
    by decide +kernel⟩

/-- BND_SHADOW opens the generation of step 4 at the twin; BND_SEAL of that step is in flight until the twin answers. -/
theorem shadowCommands_witness : ∃ t u : State,
    exec (.bndShadow 0 shadowDesc) (bindingModule shadowDesc []) = .next t ∧
      (t.ownGen 0).map (·.step) = some 4 ∧
    exec (.bndSeal 0 sealDesc) (bindingModule sealDesc [{ job := 0, step := 4, full := false }]) = .next u ∧
      u.cmds.map (·.ctx) = [.shadow 1 0 0] := by
  obtain ⟨-, hshadow, hseal, -⟩ := collectiveAndBindingCommandsComplete
  have hrun := hseal (bindingModule sealDesc [{ job := 0, step := 4, full := false }]) 0 sealDesc (by decide +kernel)
  refine ⟨_, _, hshadow (bindingModule shadowDesc []) 0 shadowDesc (by decide +kernel), by decide +kernel, hrun, ?_⟩
  rw [State.sealRun_cmds (by decide +kernel)]
  decide +kernel

/-- Square 64 is STALE until BND_RESYNC, which is done at once and reports epoch 7. -/
theorem bndResync_witness : (bindingModule resyncDesc []).isStale 64 = true ∧ ∃ t : State,
    exec (.bndResync 0 resyncDesc) (bindingModule resyncDesc []) = .next t ∧ t.isStale 64 = false ∧
      ∃ c ∈ t.cmds, c.done = true ∧ c.info0 = 7 := by
  obtain ⟨-, -, -, hresync⟩ := collectiveAndBindingCommandsComplete
  exact ⟨by decide, _, hresync (bindingModule resyncDesc []) 0 resyncDesc (by decide +kernel),
    State.resync_isStale _ 64, _, List.mem_concat_self, rfl, by decide +kernel⟩

end

end Sys2Proof.Machine
end

section
/-! PROOFS. The queue of commands and what every step keeps: a step runs the command at the front, every command answers
a next state but for an input above the maximum, and what `Keeps` says of every meaning holds of every step. -/

namespace Sys2Proof.Machine

/-! ## What every command keeps -/

/-- Every command keeps the queue behind it, the variant, the fuses and the form of the memory. -/
theorem exec_keeps (i : Instr) (s : State) : KeepsRes s (exec i s) :=
  match i with
  | .nop .. => execNop_keeps .refl | .fence .. => execFence_keeps .refl | .arbInit .. => execArbInit_keeps .refl
  | .arbSignal .. => execArbSignal_keeps .refl | .arbWaitGe .. => execArbWaitGe_keeps .refl
  | .arbTake .. => execArbTake_keeps .refl | .arbBarrier .. => execArbBarrier_keeps .refl
  | .arbFbarrier .. => execArbFbarrier_keeps .refl | .arbFsignal .. => execArbFsignal_keeps .refl
  | .dmaCopy .. => execDmaCopy_keeps .refl | .dmaFill .. => execDmaFill_keeps .refl
  | .ramp .. => execRamp_keeps .refl | .pwrSleep .. => execPwrSleep_keeps .refl
  | .matmul .. => execMatmul_keeps .refl | .scsReadout .. => execScsReadout_keeps .refl
  | .scsClear .. => execScsClear_keeps .refl | .vxMap .. => execVxMap_keeps .refl
  | .vxAgg .. => execVxAgg_keeps .refl | .vxConvert .. => execVxConvert_keeps .refl
  | .vxReduce .. => execVxReduce_keeps .refl | .vxUpdate .. => execVxUpdate_keeps .refl
  | .vxRatio .. => execVxRatio_keeps .refl | .kntSample .. => execKntSample_keeps .refl
  | .aliasBuild .. => execAliasBuild_keeps .refl | .rookGather .. => execRookGather_keeps .refl
  | .rookScatter .. => execRookScatter_keeps .refl | .rookStore .. => execRookStore_keeps .refl
  | .rookSettle .. => execRookSettle_keeps .refl | .rookRelease .. => execRookRelease_keeps .refl
  | .rookDrain .. => execRookDrain_keeps .refl | .plcTable .. => execPlcTable_keeps .refl
  | .plcLoad .. => execPlcLoad_keeps .refl | .plcDrop .. => execPlcDrop_keeps .refl
  | .plcStep .. => execPlcStep_keeps .refl | .plcKeep .. => execPlcKeep_keeps .refl
  | .plcRollback .. => execPlcRollback_keeps .refl | .gmbLayer .. => execGmbLayer_keeps .refl
  | .collAllreduce .. => execCollAllreduce_keeps .refl | .collNorm .. => execCollNorm_keeps .refl
  | .bndResync .. => execBndResync_keeps .refl | .bndShadow .. => execBndShadow_keeps .refl
  | .bndSeal .. => execBndSeal_keeps .refl | .descriptorFetch .. => execDescriptorFetch_keeps .refl
  | .prioAging .. => execPrioAging_keeps .refl | .commandComplete .. => execCommandComplete_keeps .refl
  | .deadlineExpire .. => execDeadlineExpire_keeps .refl | .beat .. => execBeat_keeps .refl
  | .scheduledCommit .. => execScheduledCommit_keeps .refl | .castleBind => execCastleBind_keeps .refl
  | .castleComplete => execCastleComplete_keeps .refl | .commitGo .. => execCommitGo_keeps .refl
  | .commitArm .. => execCommitArm_keeps .refl | .cancel .. => execCancel_keeps .refl
  | .discard .. => execDiscard_keeps .refl | .errStatusClear .. => execErrStatusClear_keeps .refl
  | .cntClear .. => execCntClear_keeps .refl | .counterLatchRead .. => execCounterLatchRead_keeps .refl
  | .registerWrite .. => execRegisterWrite_keeps .refl | .doorbellWrite .. => execDoorbellWrite_keeps .refl
  | .qHeadWrite .. => execQHeadWrite_keeps .refl | .resume .. => execResume_keeps .refl
  | .qselWrite .. => execQselWrite_keeps .refl | .cqselWrite .. => execCqselWrite_keeps .refl
  | .cqTailWrite .. => execCqTailWrite_keeps .refl | .rlogTailWrite .. => execRlogTailWrite_keeps .refl
  | .plcJobSelWrite .. => execPlcJobSelWrite_keeps .refl | .bndJobSelWrite .. => execBndJobSelWrite_keeps .refl
  | .ctxSelWrite .. => execCtxSelWrite_keeps .refl | .decSelWrite .. => execDecSelWrite_keeps .refl
  | .ueLogClear .. => execUeLogClear_keeps .refl | .scsWindowWrite .. => execScsWindowWrite_keeps .refl
  | .lostDeclare .. => execLostDeclare_keeps .refl | .lostDeclareSub .. => execLostDeclareSub_keeps .refl
  | .lostClear .. => execLostClear_keeps .refl | .assume .. => execAssume_keeps .refl
  | .refill .. => execRefill_keeps .refl | .handback => execHandback_keeps .refl
  | .resyncCmd .. => execResyncCmd_keeps .refl | .recal .. => execRecal_keeps .refl
  | .invalidate .. => execInvalidate_keeps .refl | .sleepWake .. => execSleepWake_keeps .refl
  | .attReport .. => execAttReport_keeps .refl | .attChain .. => execAttChain_keeps .refl
  | .attDone => execAttDone_keeps .refl | .fwuStart .. => execFwuStart_keeps .refl | .lock .. => execLock_keeps .refl
  | .enroll .. => execEnroll_keeps .refl | .serveRecovery .. => execServeRecovery_keeps .refl
  | .raiseSvn .. => execRaiseSvn_keeps .refl | .fwuImageComplete => execFwuImageComplete_keeps .refl
  | .fwuVerifyDone => execFwuVerifyDone_keeps .refl | .fwuWriteDone .. => execFwuWriteDone_keeps .refl
  | .mgtModuleReset .. => execMgtModuleReset_keeps .refl | .mgtDieReset .. => execMgtDieReset_keeps .refl
  | .regionSet .. => execRegionSet_keeps .refl | .regionClear .. => execRegionClear_keeps .refl
  | .worldSet .. => execWorldSet_keeps .refl | .recordSubmit .. => execRecordSubmit_keeps .refl
  | .entdaa .. => execEntdaa_keeps .refl | .bypass .. => execBypass_keeps .refl
  | .idcode .. => execIdcode_keeps .refl | .samplePreload .. => execSamplePreload_keeps .refl
  | .extest .. => execExtest_keeps .refl | .clamp .. => execClamp_keeps .refl | .highz .. => execHighz_keeps .refl
  | .trst => execTrst_keeps .refl | .modResetAssert => execModResetAssert_keeps .refl
  | .modResetRelease => execModResetRelease_keeps .refl | .pwrGoodFall => execPwrGoodFall_keeps .refl
  | .underVoltageTrip .. => execUnderVoltageTrip_keeps .refl | .overVoltageTrip .. => execOverVoltageTrip_keeps .refl
  | .reversePolarity => execReversePolarity_keeps .refl | .uvWarn .. => execUvWarn_keeps .refl
  | .ovWarn .. => execOvWarn_keeps .refl | .coolantStop => execCoolantStop_keeps .refl
  | .coolantClocksStop => execCoolantClocksStop_keeps .refl | .coolantWcbFlush => execCoolantWcbFlush_keeps .refl
  | .coolantSelfRefresh => execCoolantSelfRefresh_keeps .refl
  | .thermalTrip die => execThermalTrip_keeps (a0 := die) .refl
  | .thermalTripRailsOff => execThermalTripRailsOff_keeps .refl | .coolantOkRise => execCoolantOkRise_keeps .refl
  | .holdupChange .. => execHoldupChange_keeps .refl | .twinSenseChange .. => execTwinSenseChange_keeps .refl
  | .twinWaitTimeout => execTwinWaitTimeout_keeps .refl | .refclkLoss .. => execRefclkLoss_keeps .refl
  | .hostLinkDown .. => execHostLinkDown_keeps .refl | .cxlLinkDown .. => execCxlLinkDown_keeps .refl
  | .opticalInsert .. => execOpticalInsert_keeps .refl | .opticalRemove .. => execOpticalRemove_keeps .refl
  | .bootStageDone .. => execBootStageDone_keeps .refl | .stageBudgetExpire .. => execStageBudgetExpire_keeps .refl
  | .recoveryAnnounce => execRecoveryAnnounce_keeps .refl
  | .recoveryImageDone .. => execRecoveryImageDone_keeps .refl | .portTrainDone .. => execPortTrainDone_keeps .refl
  | .laneFault .. => execLaneFault_keeps .refl | .retrainDone .. => execRetrainDone_keeps .refl
  | .dataFlitRx .. => execDataFlitRx_keeps .refl | .nakRx .. => execNakRx_keeps .refl
  | .markSend => execMarkSend_keeps .refl | .markRx .. => execMarkRx_keeps .refl
  | .tempoHoldover => execTempoHoldover_keeps .refl | .stopFlitRx .. => execStopFlitRx_keeps .refl
  | .packetForward .. => execPacketForward_keeps .refl | .readReq .. => execReadReq_keeps .refl
  | .readRsp .. => execReadRsp_keeps .refl | .replicaRequest .. => execReplicaRequest_keeps .refl
  | .replicaGrant .. => execReplicaGrant_keeps .refl | .sampleReq .. => execSampleReq_keeps .refl
  | .sampleRsp .. => execSampleRsp_keeps .refl | .scatter .. => execScatter_keeps .refl
  | .pendingNotice .. => execPendingNotice_keeps .refl | .refresh .. => execRefresh_keeps .refl
  | .writeAck .. => execWriteAck_keeps .refl | .store .. => execStore_keeps .refl
  | .redUp .. => execRedUp_keeps .refl | .redDown .. => execRedDown_keeps .refl
  | .barArrive .. => execBarArrive_keeps .refl | .barRelease .. => execBarRelease_keeps .refl
  | .fsignal .. => execFsignal_keeps .refl | .fsignalAck .. => execFsignalAck_keeps .refl
  | .boardRd .. => execBoardRd_keeps .refl | .boardWr .. => execBoardWr_keeps .refl
  | .boardRsp .. => execBoardRsp_keeps .refl | .intr .. => execIntr_keeps .refl
  | .hostApertureAccess .. => execHostApertureAccess_keeps .refl
  | .migrationChange .. => execMigrationChange_keeps .refl | .flipNotice .. => execFlipNotice_keeps .refl
  | .epochNotice .. => execEpochNotice_keeps .refl | .fwImage .. => execFwImage_keeps .refl
  | .fwuOutcome .. => execFwuOutcome_keeps .refl | .e2eAck .. => execE2eAck_keeps .refl
  | .e2eAckTimer .. => execE2eAckTimer_keeps .refl | .nack .. => execNack_keeps .refl
  | .e2eResend .. => execE2eResend_keeps .refl | .redResend .. => execRedResend_keeps .refl
  | .redDeadlineAbort .. => execRedDeadlineAbort_keeps .refl
  | .abortGraceExpire .. => execAbortGraceExpire_keeps .refl | .kntBatchTimeout .. => execKntBatchTimeout_keeps .refl
  | .rookReadBatchTimeout .. => execRookReadBatchTimeout_keeps .refl
  | .rookScatterBatchTimeout .. => execRookScatterBatchTimeout_keeps .refl
  | .barrierTrackerGrant => execBarrierTrackerGrant_keeps .refl | .clockGate .. => execClockGate_keeps .refl
  | .sleepEnter .. => execSleepEnter_keeps .refl | .wakeBeat .. => execWakeBeat_keeps .refl
  | .wakeComplete .. => execWakeComplete_keeps .refl | .scsAddend .. => execScsAddend_keeps .refl
  | .scsQueueAbsorb .. => execScsQueueAbsorb_keeps .refl | .promotionResume .. => execPromotionResume_keeps .refl
  | .strictReadResume .. => execStrictReadResume_keeps .refl | .plcBoundary .. => execPlcBoundary_keeps .refl
  | .migrationPrepare .. => execMigrationPrepare_keeps .refl | .flipNoticeSend .. => execFlipNoticeSend_keeps .refl
  | .migrationTransfer .. => execMigrationTransfer_keeps .refl | .retire .. => execRetire_keeps .refl
  | .sketchDecay => execSketchDecay_keeps .refl | .scrubRewrite .. => execScrubRewrite_keeps .refl
  | .patrolScrub .. => execPatrolScrub_keeps .refl | .wcbEvict .. => execWcbEvict_keeps .refl
  | .wcbFullWriteback .. => execWcbFullWriteback_keeps .refl | .wcbBeatFlush .. => execWcbBeatFlush_keeps .refl
  | .wcbIdleWriteback .. => execWcbIdleWriteback_keeps .refl
  | .driftPeriod m e => execDriftPeriod_keeps (a0 := m) (a1 := e) .refl
  | .recalComplete => execRecalComplete_keeps .refl | .thermalSample .. => execThermalSample_keeps .refl
  | .hbmTempReport .. => execHbmTempReport_keeps .refl | .trimRaise .. => execTrimRaise_keeps .refl
  | .railSettled .. => execRailSettled_keeps .refl | .heartbeatSend => execHeartbeatSend_keeps .refl
  | .heartbeatRx .. => execHeartbeatRx_keeps .refl | .heartbeatTimeout => execHeartbeatTimeout_keeps .refl
  | .shadowWrite .. => execShadowWrite_keeps .refl | .foldComplete .. => execFoldComplete_keeps .refl
  | .idleFlit .. => execIdleFlit_keeps .refl | .pendingNoticeAck .. => execPendingNoticeAck_keeps .refl
  | .refreshAck .. => execRefreshAck_keeps .refl | .migrationCopyAck .. => execMigrationCopyAck_keeps .refl
  | .replicaDrop .. => execReplicaDrop_keeps .refl | .aliasBuildRequest .. => execAliasBuildRequest_keeps .refl
  | .aliasBuildReport .. => execAliasBuildReport_keeps .refl | .shadowWriteAck .. => execShadowWriteAck_keeps .refl
  | .stageFailed .. => execStageFailed_keeps .refl | .hostLinkUp .. => execHostLinkUp_keeps .refl
  | .cxlLinkUp .. => execCxlLinkUp_keeps .refl | .conventionalReset .. => execConventionalReset_keeps .refl
  | .stackContentsLost .. => execStackContentsLost_keeps .refl
  | .returnToService .. => execReturnToService_keeps .refl | .startThreshold .. => execStartThreshold_keeps .refl
  | .msixVectorUnmask .. => execMsixVectorUnmask_keeps .refl

/-! ## A step -/

section
variable {s t : State}

theorem step_empty (h : s.pending = []) : step s = .next s := by
  unfold step
  rw [h]

theorem step_front {c : Instr} {rest : List Instr} (h : s.pending = c :: rest) :
    step s = exec c { s with pending := rest } := by
  unfold step
  rw [h]

/-- A step either idles or runs a command, which keeps what every command keeps. -/
theorem step_cases (h : step s = .next t) : t = s ∨ ∃ rest, Keeps { s with pending := rest } t := by
  cases hp : s.pending with
  | nil =>
    rw [step_empty hp] at h
    cases h
    exact .inl rfl
  | cons c rest =>
    rw [step_front hp] at h
    exact .inr ⟨rest, exec_keeps c _ t h⟩

end

/-! ## Commands that answer a next state -/

/-- The meaning of every row but OVER_VOLTAGE_TRIP is written as a next state. -/
theorem exec_next {i : Instr} (s : State) (h : ∀ mV, i ≠ .overVoltageTrip mV) : ∃ t, exec i s = .next t := by
  cases i
  case overVoltageTrip mV => exact absurd rfl (h mV)
  all_goals exact ⟨_, rfl⟩

/-- An input above 65 V faults (R449). -/
theorem exec_overVoltageTrip_above {mV : Nat} (s : State) (h : 65000 < mV) :
    exec (.overVoltageTrip mV) s = .fault .inputAboveMaximum := if_pos h

/-- Up to 65 V a trip acts from 62 V on. -/
theorem exec_overVoltageTrip_within {mV : Nat} (s : State) (h : mV ≤ 65000) : exec (.overVoltageTrip mV) s = .next
    (if 62000 < mV then (s.setBoot { s.boot with ovLatch := true, ovLow := !s.boot.resetN }).openInput 2 else s) :=
  if_neg (Nat.not_lt.mpr h)

/-! ## The obligations -/

/-- Settles O1, by the front of the queue. -/
theorem stepRunsFront : Obligations.StepRunsFront := fun _ _ _ h => step_front h

/-- Settles O2: the empty queue, which is the model's choice (log entry 2). -/
theorem stepIdles : Obligations.StepIdles := fun _ h => step_empty h

/-- Settles O3, by what every command keeps. -/
theorem commandsKeepQueue : Obligations.CommandsKeepQueue := fun i s t h =>
  have hk : Keeps s t := exec_keeps i s t h
  ⟨hk.pending, hk.variant⟩

/-- Settles O4: only OVER_VOLTAGE_TRIP answers anything but a next state, and only above 65 V. -/
theorem onlyAboveMaximumStops : Obligations.OnlyAboveMaximumStops := by
  intro i s
  by_cases h : ∃ mV, i = .overVoltageTrip mV
  · obtain ⟨mV, rfl⟩ := h
    rcases Nat.lt_or_ge 65000 mV with hv | hv
    · exact .inr ⟨mV, rfl, hv, exec_overVoltageTrip_above s hv⟩
    · exact .inl ⟨_, exec_overVoltageTrip_within s hv⟩
  · exact .inl (exec_next s fun mV e => h ⟨mV, e⟩)

/-- Settles O5: a step idles, or runs a command, which keeps the canonical form. -/
theorem stepKeepsMemoryForm : Obligations.StepKeepsMemoryForm := by
  intro s t hs h
  rcases step_cases h with rfl | ⟨rest, hk⟩
  · exact hs
  · exact hk.mem hs

/-- Settles O6: the memory after reset lists no byte. -/
theorem resetMemoryForm : Obligations.ResetMemoryForm := reset_wf

/-- Settles O7: a step idles, or runs a command, which only blows fuses. -/
theorem fusesNeverFall : Obligations.FusesNeverFall := by
  intro s t h
  rcases step_cases h with rfl | ⟨rest, hk⟩
  · exact ⟨rfl, Nat.le_refl _, fun _ hd => hd⟩
  · exact ⟨hk.serial, hk.svn, hk.owner⟩

end Sys2Proof.Machine
end

section
/-! PROOFS. Power (R391, R392, R398 to R403): what RAMP and PWR_SLEEP set, the load band of a completed period,
recalibration, trims and the readings of sensors. -/

namespace Sys2Proof.Machine

/-- What setting registers leaves alone, a counter does. -/
theorem State.count_leaves {α : Type} (g : State → α) (h : ∀ (t : State) p o v, g (t.setReg p o v) = g t) (s : State)
    (p o n : Nat) : g (s.count p o n) = g s := by
  unfold State.count
  split
  · rfl
  · exact h ..

/-! ## RAMP and PWR_SLEEP (R391, R392) -/

theorem rampCheck_quiet : rampCheck.Quiet := pureCheck_quiet _
theorem sleepCheck_quiet : sleepCheck.Quiet := pureCheck_quiet _

section
variable {s : State} {q : Nat} {d : Desc}

/-- A command that starts leaves the power states of squares alone. -/
theorem State.begun_sqp {check : Check} (h : check.Quiet) (m : Nat) : (s.begun q d check).sqp m = s.sqp m :=
  (State.sqp_congr _ (State.begun_pwr q d h) m).trans rfl

theorem State.addCmd_sqp (c : Cmd) (m : Nat) : (s.addCmd c).sqp m = s.sqp m := rfl

/-- RAMP sets the floor of its square; with WAIT it stays in flight. -/
theorem exec_ramp_begins (h : s.begins q d rampCheck = true) : exec (.ramp q d) s =
    .next (((s.begun q d rampCheck).setSqp (s.qSquare q) { s.sqp (s.qSquare q) with f := d.f 0 10 0 }).addCmd
      (if d.bitB 0 31 then { s.newCmd q d with ctx := .ramp (d.f 0 10 0) } else { s.newCmd q d with done := true })) := by
  refine (next_command _ h).trans (congrArg Host.Outcome.next ?_)
  have hsq : (s.begun q d rampCheck).sqp (s.newCmd q d).msq = s.sqp (s.qSquare q) := State.begun_sqp rampCheck_quiet _
  unfold State.rampRun
  rw [hsq]
  exact (apply_ite (State.addCmd _) ..).symm

/-- The state that PWR_SLEEP leads to but for its own command. -/
def State.sleepAsked (s : State) (q : Nat) (d : Desc) : State :=
  if d.b 1 + d.b 2 * 2 ^ 32 ≠ 0 ∧ d.b 1 + d.b 2 * 2 ^ 32 ≤ s.beat then s.begun q d sleepCheck
  else (s.begun q d sleepCheck).setSqp (s.qSquare q) { s.sqp (s.qSquare q) with
    sleep := .entering (d.bitB 0 31) (d.bitB 0 30) (d.b 1 + d.b 2 * 2 ^ 32) }

/-- PWR_SLEEP asks its square to sleep, but for a WAKE_BEAT already past, and is done at once. -/
theorem exec_pwrSleep_begins (h : s.begins q d sleepCheck = true) :
    exec (.pwrSleep q d) s = .next ((s.sleepAsked q d).addCmd { s.newCmd q d with done := true }) := by
  refine (next_command _ h).trans (congrArg Host.Outcome.next ?_)
  have hsq : (s.begun q d sleepCheck).sqp (s.newCmd q d).msq = s.sqp (s.qSquare q) := State.begun_sqp sleepCheck_quiet _
  unfold State.sleepRun State.sleepAsked
  rw [hsq, State.begun_beat q d sleepCheck_quiet, State.doneWith_none]
  rfl

end

/-- Settles O21, by the two equations above; what a command that starts leaves alone is `State.begun_*`. -/
theorem powerCommandsComplete : Obligations.PowerCommandsComplete := by
  refine ⟨fun s q d h => ?ramp, fun s q d h hw => ?sleep, fun s q d h h0 hpast => ?past⟩
  case ramp =>
    refine ⟨_, exec_ramp_begins h, ?_, fun m hm => ?_, ?_, ?_, ?_, ?_⟩
    · rw [State.addCmd_sqp, State.sqp_setSqp_same]
    · rw [State.addCmd_sqp, State.sqp_setSqp_other _ hm, State.begun_sqp rampCheck_quiet]
    · rw [State.addCmd_cmds, State.setSqp_cmds, State.begun_cmds q d rampCheck_quiet]
    · rw [State.addCmd_mem, State.setSqp_mem, State.begun_mem q d rampCheck_quiet]
    · rw [State.addCmd_arb, State.setSqp_arb, State.begun_arb q d rampCheck_quiet]
    · rfl
  case sleep =>
    rw [exec_pwrSleep_begins h, State.sleepAsked, if_neg (by omega)]
    refine ⟨_, rfl, ?_, fun m hm => ?_, ?_, ?_, ?_⟩
    · rw [State.addCmd_sqp, State.sqp_setSqp_same]
    · rw [State.addCmd_sqp, State.sqp_setSqp_other _ hm, State.begun_sqp sleepCheck_quiet]
    · rw [State.addCmd_cmds, State.setSqp_cmds, State.begun_cmds q d sleepCheck_quiet]
    · rw [State.addCmd_mem, State.setSqp_mem, State.begun_mem q d sleepCheck_quiet]
    · rw [State.addCmd_arb, State.setSqp_arb, State.begun_arb q d sleepCheck_quiet]
  case past =>
    have hask : s.sleepAsked q d = s.begun q d sleepCheck := if_pos ⟨h0, hpast⟩
    rw [exec_pwrSleep_begins h, hask]
    exact ⟨_, rfl, State.begun_pwr q d sleepCheck_quiet,
      congrArg (· ++ _) (State.begun_cmds q d sleepCheck_quiet), State.begun_mem q d sleepCheck_quiet,
      State.begun_arb q d sleepCheck_quiet⟩

/-! ## The end of a period (R396 to R398) -/

section
variable {α : Type} (g : State → α) (s : State)

/-- What looks neither at the drift watch nor at the recalibration, the steps at the end of a period leave alone. -/
theorem State.periodSteps_leaves (hreg : ∀ (t : State) p o v, g (t.setReg p o v) = g t)
    (hwatch : ∀ (t : State) a b c, g (t.setPwr { t.pwr with drift := a, driftDue := b, recal := c }) = g t) (bad : Bool) :
    g (s.recalStep.driftStep bad) = g s := by
  have hstart (t : State) : g t.recalStart = g t := hwatch t t.pwr.drift t.pwr.driftDue _
  have hrecal : g s.recalStep = g s := by
    unfold State.recalStep
    split
    · rfl
    · split
      · exact hwatch s s.pwr.drift s.pwr.driftDue _
      · exact hstart s
  have hdrift (t : State) (a : DriftSt) (b : Bool) : g (t.setPwr { t.pwr with drift := a, driftDue := b }) = g t :=
    hwatch t a b t.pwr.recal
  refine Eq.trans ?_ hrecal
  generalize s.recalStep = t
  unfold State.driftStep
  extract_lets ms x off
  split
  · split
    · exact hdrift t ..
    · exact hdrift t _ t.pwr.driftDue
  · split
    · rfl
    · split
      · exact (hstart _).trans ((State.count_leaves g hreg ..).trans (hdrift t _ t.pwr.driftDue))
      · split
        · exact hdrift t _ t.pwr.driftDue
        · exact hdrift t _ t.pwr.driftDue

/-- A period has ended: its average and its beat are noted. -/
def State.periodNoted (s : State) : State := s.setPwr { s.pwr with
  lastAvg := (winSums s.pwr.win 1000).1 / (winSums s.pwr.win 1000).2.2.2, lastPeriod := some s.beat }

/-- The end of a period notes its average and its beat; beside it only flags, counters, the drift watch and the
recalibration change. -/
theorem State.driftPeriod_leaves (hreg : ∀ (t : State) p o v, g (t.setReg p o v) = g t)
    (htold : ∀ (t : State) l, g { t with told := l } = g t)
    (hwatch : ∀ (t : State) a b c, g (t.setPwr { t.pwr with drift := a, driftDue := b, recal := c }) = g t)
    (hbeat : s.beat % 1000 = 0) (hnew : s.pwr.lastPeriod ≠ some s.beat) : g s.driftPeriod = g s.periodNoted := by
  unfold State.driftPeriod State.periodNoted
  rw [if_neg (by simp [hbeat, hnew])]
  generalize winSums s.pwr.win 1000 = sums
  obtain ⟨m, i, e, n⟩ := sums
  dsimp -zeta only
  extract_lets x old t u
  refine (State.periodSteps_leaves g u hreg hwatch _).trans ?_
  unfold u
  split
  · exact State.err_leaves t g hreg htold ..
  · rfl

end

/-- Between periods nothing happens. -/
theorem State.driftPeriod_between {s : State} (h : s.beat % 1000 ≠ 0 ∨ s.pwr.lastPeriod = some s.beat) :
    s.driftPeriod = s := by
  unfold State.driftPeriod
  rw [if_pos h]

/-- Settles O57: the band in force is that of the average which `State.driftPeriod_leaves` says a period notes. -/
theorem loadBands : Obligations.LoadBands := by
  refine ⟨fun s x y m hbeat hnew hm => ?_, fun s m e h => ⟨_, rfl, by rw [State.driftPeriod_between h]⟩⟩
  refine ⟨_, rfl, ?_, ?_, ?_⟩
  · rw [hm]
    exact s.driftPeriod_leaves State.band (fun _ _ _ _ => rfl) (fun _ _ => rfl) (fun _ _ _ _ => rfl) hbeat hnew
  · exact s.driftPeriod_leaves State.mem (fun _ _ _ _ => rfl) (fun _ _ => rfl) (fun _ _ _ _ => rfl) hbeat hnew
  · exact s.driftPeriod_leaves State.cmds (fun _ _ _ _ => rfl) (fun _ _ => rfl) (fun _ _ _ _ => rfl) hbeat hnew

end Sys2Proof.Machine
end

section
/-! PROOFS. Calibration, trims and sensors (R400 to R403): what a recalibration writes, what a monitor's slack changes, and
that a sample below the trip temperature sets the registers of its die alone. -/

namespace Sys2Proof.Machine

/-! ## Recalibration (R400) -/

section
variable {s : State} {b n : Nat}

/-- A recalibration of 256 periods writes its record, in the module and in flash. -/
theorem State.recalDone_gathered (h : s.pwr.recal = some (b, n)) (hn : 256 ≤ n) :
    s.recalDone = ({ s.draw.2.setPwr { s.pwr with
        recal := none, records := SMap.put b s.draw.2.free s.pwr.records
        drift := if s.pwr.drift.on then { s.pwr.drift with written := true, agree := 0 } else s.pwr.drift } with
      keep := { s.keep with cal := SMap.put b s.draw.2.free s.keep.cal } } : State).count pwrPg PWR.RECAL_DONE 1 := by
  unfold State.recalDone
  rw [h]
  exact if_neg (Nat.not_lt.mpr hn)

end

/-! ## Trims (R402) -/

section
variable {s : State} {msq : Nat} {slack : Int}

/-- A slack is noted. -/
def State.slackNoted (s : State) (msq : Nat) (slack : Int) : State :=
  s.setPwr { s.pwr with slack := SMap.put msq slack s.pwr.slack }

/-- A slack below 20 ps in a die under AGEING_TRIM raises the die's trim by a step, or at the top takes 10 MHz from the
square. -/
theorem State.trimRaise_low (hp : s.squarePresent msq = true) (ha : s.ageing (msq / 64) = true) (hs : slack < 20) :
    s.trimRaise (msq / 64) msq slack =
      if s.trimOf (msq / 64) < 40 then
        let t := ((s.slackNoted msq slack).setTrim (msq / 64) (s.trimOf (msq / 64) + 5)).count pwrPg PWR.TRIM_RAISES 1
        t.setPwr { t.pwr with raised := SMap.put (msq / 64) t.beat t.pwr.raised }
      else
        ((s.slackNoted msq slack).setPwr { (s.slackNoted msq slack).pwr with
          derate := SMap.put msq (SMap.get 0 msq s.pwr.derate + 10) s.pwr.derate }).err pwrPg PWR.E_AGE_DERATE msq := by
  have hage : (s.slackNoted msq slack).ageing (msq / 64) = true := ha
  have hlow : decide (20 ≤ slack) = false := decide_eq_false (Int.not_le.mpr hs)
  have hacts : ¬ (!(s.slackNoted msq slack).ageing (msq / 64) || decide (20 ≤ slack)) = true := by
    rw [hage, hlow]
    decide
  unfold State.trimRaise
  rw [if_neg (by simp [hp])]
  exact (if_neg hacts).trans rfl

end

/-! ## Sensors (R403) -/

/-- The hotter of the hottest so far and another reading. -/
def hotter (b : Option (Nat × Int)) (x : Nat × Int) : Option (Nat × Int) :=
  match b with
  | none => some x
  | some y => if x.2 > y.2 then some x else some y

theorem hotter_cases (b : Option (Nat × Int)) (x : Nat × Int) : hotter b x = b ∨ hotter b x = some x := by
  cases b with
  | none => exact .inr rfl
  | some y =>
    by_cases hx : x.2 > y.2
    · exact .inr (if_pos hx)
    · exact .inl (if_neg hx)

/-- The hottest reading of a list is one of them. -/
theorem hottest_mem {l : List (Nat × Int)} {y : Nat × Int} (h : hottest l = some y) : y ∈ l := by
  have hall : ∀ y, l.foldl hotter none = some y → y ∈ l :=
    List.foldlRecOn l hotter (motive := fun b => ∀ y, b = some y → y ∈ l) (fun y hy => by cases hy)
      fun b hb x hx y hy => by
        rcases hotter_cases b x with he | he
        · exact hb y (he.symm.trans hy)
        · cases he.symm.trans hy
          exact hx
  exact hall y h

/-- The readings of a die with their indices. -/
def readings (temps : List Int) : List (Nat × Int) := (List.range temps.length).map fun i => (i, (temps[i]?).getD 0)

theorem snd_mem_of_mem_readings {temps : List Int} {y : Nat × Int} (h : y ∈ readings temps) : y.2 ∈ temps := by
  obtain ⟨i, hi, rfl⟩ := List.mem_map.mp h
  have hlt : i < temps.length := List.mem_range.mp hi
  simp only [List.getElem?_eq_getElem hlt, Option.getD_some]
  exact List.getElem_mem hlt

/-- The hottest reading that is not excluded. -/
def validHot (temps : List Int) : Option (Nat × Int) :=
  hottest ((readings temps).filter fun x => !(excluded (median2 temps) x.2))

/-- Readings of which every valid one lies below the trip temperature trip nothing. -/
theorem validHot_below {temps : List Int} (h : ∀ x, x ∈ temps → excluded (median2 temps) x = true ∨ x < 920) :
    ¬ ((validHot temps).isSome ∧ ((validHot temps).map (·.2)).getD 0 ≥ 920) := by
  rintro ⟨-, hge⟩
  cases hv : validHot temps with
  | none => rw [hv] at hge; exact absurd hge (by decide)
  | some y =>
    rw [hv] at hge
    obtain ⟨hmem, hvalid⟩ := List.mem_filter.mp (hottest_mem hv)
    rcases h y.2 (snd_mem_of_mem_readings hmem) with hex | hlow
    · rw [hex] at hvalid; cases hvalid
    · exact absurd hge (Int.not_le.mpr hlow)

/-- A sample of a present die that does not trip notes its readings; beside them and the dies at TJ_MAX only registers
and flags change. -/
theorem State.thermalSample_leaves {α : Type} (g : State → α) (s : State) {die : Nat} {temps : List Int}
    (hreg : ∀ (t : State) p o v, g (t.setReg p o v) = g t) (htold : ∀ (t : State) l, g { t with told := l } = g t)
    (htj : ∀ (t : State) l, g (t.setPwr { t.pwr with tj := l }) = g t)
    (hpage : pageInfo s.variant (thmPg die) ≠ none)
    (h : ∀ x, x ∈ temps → excluded (median2 temps) x = true ∨ x < 920) :
    g (s.thermalSample die temps) = g (s.setPwr { s.pwr with temps := SMap.put die temps s.pwr.temps }) := by
  have herr (t : State) p b i : g (t.err p b i) = g t := State.err_leaves t g hreg htold p b i
  have hcount (t : State) p o n : g (t.count p o n) = g t := State.count_leaves g hreg t p o n
  unfold State.thermalSample
  rw [if_neg (by simpa [Option.isNone_iff_eq_none] using hpage)]
  extract_lets med ix bad hot cap old t wasHot isHot pwr noted excl capped shown faulty throttled tripped
  rw [if_neg (show ¬ (hot.isSome = true ∧ t ≥ 920) from validHot_below h)]
  have hnoted : g noted = g (s.setPwr { s.pwr with temps := SMap.put die temps s.pwr.temps }) :=
    htj (s.setPwr { s.pwr with temps := SMap.put die temps s.pwr.temps }) _
  have hshown : g shown = g noted := (hreg ..).trans ((hreg ..).trans (hreg ..))
  have hfaulty : g faulty = g shown := by
    unfold faulty
    split
    · exact herr ..
    · rfl
  have hthrottled : g throttled = g faulty := by
    unfold throttled
    split
    · exact herr ..
    · rfl
  have htripped : g tripped = g throttled := by
    unfold tripped
    split
    · exact (herr ..).trans (hcount ..)
    · rfl
  rw [htripped, hthrottled, hfaulty, hshown, hnoted]

/-- A report of a present stack notes its temperature. -/
theorem State.stackTemp_present {s : State} {st : Nat} {t : Int} (h : st < s.variant.stacks) :
    ∃ v, s.stackTemp st t =
      (s.setPwr { s.pwr with stackT := SMap.put st t s.pwr.stackT }).setReg (thmPg (st / 2)) THM.THM_STATE v :=
  ⟨_, if_pos h⟩

/-- Settles O58: RECAL and INVALIDATE are writes that their page allows; the others are followed by the lemma above that
names them. -/
theorem heatAndTrimComplete : Obligations.HeatAndTrimComplete := by
  refine ⟨fun s secure ha => ⟨?recal, ?invalidate⟩, fun s b n hr hn => ?done, fun s msq slack hp ha hs => ⟨fun hlow => ?raise,
    fun htop => ?derate⟩, fun s die h => ?settled, fun s die temps hpage h => ?sample, fun s stack temp h => ?stack⟩
  case recal => exact congrArg Host.Outcome.next (State.guardWrite_allows _ ha)
  case invalidate => exact congrArg Host.Outcome.next (State.guardWrite_allows _ ha)
  case done =>
    refine ⟨_, congrArg Host.Outcome.next (State.recalDone_gathered hr hn), ?_, ?_, ?_, ?_, ?_⟩
    · rw [State.count_pwr]; rfl
    · rw [State.count_pwr]; exact Option.isSome_iff_exists.mpr ⟨_, SMap.find_put_same ..⟩
    · rw [State.count_pwr, State.count_keep]
      exact (SMap.find_put_same ..).trans (SMap.find_put_same ..).symm
    · rw [State.count_mem]; rfl
    · rw [State.count_cmds]; rfl
  case raise =>
    refine ⟨_, congrArg Host.Outcome.next ((State.trimRaise_low hp ha hs).trans (if_pos hlow)), ?_, fun d hd => ?_, ?_, ?_⟩
    · show SMap.get 25 _ (State.count _ _ _ _).pwr.trim = _
      rw [State.count_pwr]
      exact SMap.get_set_same ..
    · show SMap.get 25 _ (State.count _ _ _ _).pwr.trim = _
      rw [State.count_pwr]
      exact SMap.get_set_other _ hd _ _
    · show (State.count _ _ _ _).pwr.derate = _
      rw [State.count_pwr]; rfl
    · show (State.count _ _ _ _).mem = _
      rw [State.count_mem]; rfl
  case derate =>
    refine ⟨_, congrArg Host.Outcome.next ((State.trimRaise_low hp ha hs).trans (if_neg (Int.not_lt.mpr htop))), ?_, ?_, ?_⟩
    · rw [State.err_pwr]; exact SMap.get_put_same ..
    · rw [State.err_pwr]; rfl
    · rw [State.err_mem]; rfl
  case settled => exact congrArg Host.Outcome.next (if_pos h)
  case sample =>
    refine ⟨_, rfl, ?_, ?_, ?_, ?_⟩
    · exact (s.thermalSample_leaves (fun t => SMap.find die t.pwr.temps) (fun _ _ _ _ => rfl) (fun _ _ => rfl)
        (fun _ _ => rfl) hpage h).trans (SMap.find_put_same ..)
    · exact s.thermalSample_leaves State.mem (fun _ _ _ _ => rfl) (fun _ _ => rfl) (fun _ _ => rfl) hpage h
    · exact s.thermalSample_leaves State.cmds (fun _ _ _ _ => rfl) (fun _ _ => rfl) (fun _ _ => rfl) hpage h
    · exact s.thermalSample_leaves State.keep (fun _ _ _ _ => rfl) (fun _ _ => rfl) (fun _ _ => rfl) hpage h
  case stack =>
    obtain ⟨v, hrun⟩ := State.stackTemp_present (t := temp) h
    exact ⟨_, congrArg Host.Outcome.next hrun, SMap.find_put_same .., fun st hst => SMap.find_put_other hst _ _, rfl, rfl⟩

end Sys2Proof.Machine
end

section
/-! PROOFS. Commits (R241, R367, R441 to R443): when a scheduled commit and the steps of a castling act, and what arming,
CANCEL and DISCARD change of a page. -/

namespace Sys2Proof.Machine

/-! ## Commits and castling that complete -/

section
variable {s : State} {page : Nat}

/-- An armed commit whose beat has come takes effect and disarms. -/
theorem exec_scheduledCommit_due {a : Arm} (h : s.armed page = some a) (hb : a.beat ≤ s.beat) :
    exec (.scheduledCommit page) s = .next
      (({ s with regs := { s.regs with armed := s.regs.armed.filter fun x => x.page != page } } : State).commit page
        a.secure (a.late || decide (a.beat < s.beat))) := by
  show Host.Outcome.next (s.scheduled page) = _
  unfold State.scheduled
  rw [h]
  exact congrArg Host.Outcome.next (if_pos hb)

/-- A write of COMMIT with GO that its page and world allow commits at once and disarms. -/
theorem exec_commitGo_allowed {v : Word} {secure : Bool} (hc : s.canCommit page = true)
    (ho : s.pageOpen page true secure = true) (hcl : s.pageClosed page secure = false) (hv : v.toNat.testBit 0 = true) :
    exec (.commitGo page v secure) s = .next { s.commit page secure false with
      regs := { (s.commit page secure false).regs with
        armed := (s.commit page secure false).regs.armed.filter fun a => a.page != page } } := by
  show Host.Outcome.next (s.commitGo page v.toNat secure) = _
  unfold State.commitGo
  simp only [hc, ho, hcl, hv, Bool.not_true, Bool.false_eq_true, Bool.and_self, if_false, if_true]

/-- A castling whose bindings are in effect, and that waits for nothing more, completes. -/
theorem exec_castleComplete_due {c : Castle} (h : s.bnd.castle = some c) (hb : c.bound = true)
    (hbeat : c.beat + 2 ≤ s.beat) (hwait : c.waiting = [] ∨ c.beat + 2000 ≤ s.beat) {u w : State}
    (hu : u = (s.setReg bndPg BND.CASTLE_BEATS (s.beat - c.beat)).count bndPg BND.CASTLES_DONE 1)
    (hw : w = (u.memWrite (castleReq c.secure) (c.base + 8) (leBytes 8 s.beat)).st) :
    exec .castleComplete s = .next { w with bnd := { w.bnd with castle := none } } := by
  have hub : u.beat = s.beat := by rw [hu, State.count_beat, State.setReg_beat]
  subst hw
  rw [← hub]
  subst hu
  show Host.Outcome.next s.castleComplete = _
  unfold State.castleComplete
  rw [h]
  exact congrArg Host.Outcome.next (if_pos ⟨hb, hbeat, hwait.imp_left List.isEmpty_iff.mpr⟩)

/-- The new bindings of a castling take effect once beat B + 1 has come. -/
theorem State.castleBind_due {c : Castle} (h : s.bnd.castle = some c) (hb : c.bound = false)
    (hbeat : c.beat + 1 ≤ s.beat) {u v w : State}
    (hu : u = (s.cmds.filter fun x => x.done && x.castledBy c.entries).foldl State.complete s)
    (hv : v = ((boundJobs (bindAll c.entries u.bnd.bound)).filter fun j =>
      !((boundJobs u.bnd.bound).contains j)).foldl State.dropJob u)
    (hw : w = c.entries.foldl (fun s e => (List.range e.count).foldl (fun s i => s.bindOne e (e.first + i)) s)
      ({ v with bnd := { v.bnd with
        bound := bindAll c.entries u.bnd.bound, castle := some ({ c with bound := true }) } } : State)) :
    s.castleBind = ((boundJobs u.bnd.bound ++ shareJobs c.entries).filter fun j =>
      !((boundJobs (bindAll c.entries u.bnd.bound)).contains j)).foldl State.dropJob w := by
  subst hw hv hu
  unfold State.castleBind
  rw [h]
  exact if_neg (by simp only [hb, Bool.false_eq_true, false_or]; omega)

end

/-- Settles O30, by the four lemmas above. -/
theorem commitsComplete : Obligations.CommitsComplete := by
  refine ⟨fun s page a h hb => exec_scheduledCommit_due h hb, fun s page v secure hc ho hcl hv t ht => ?_,
    fun s u w c h hb hbeat hwait hu hw => exec_castleComplete_due h hb hbeat hwait hu hw,
    fun s u v w c h hb hbeat hu hv hw => congrArg Host.Outcome.next (State.castleBind_due h hb hbeat hu hv hw)⟩
  rw [ht]
  exact exec_commitGo_allowed hc ho hcl hv

/-! ## Arming and disarming (R442, R443) -/

section
variable {s : State} {page : Nat}

/-- The secure world meets no closed page. -/
theorem State.pageClosed_secure (s : State) (page : Nat) : s.pageClosed page true = false := rfl

/-- The scheduled commits without those of a page. -/
def State.unarmed (s : State) (page : Nat) : State :=
  { s with regs := { s.regs with armed := s.regs.armed.filter fun a => a.page != page } }

/-- The scheduled commits with one added. -/
def State.addArm (s : State) (a : Arm) : State := { s with regs := { s.regs with armed := s.regs.armed ++ [a] } }

theorem State.unarmed_armed_same (s : State) (page : Nat) : (s.unarmed page).armed page = none :=
  List.find?_eq_none.mpr fun a ha => by
    have hne := (List.mem_filter.mp ha).2
    simpa using hne

theorem State.unarmed_armed_other {p : Nat} (h : p ≠ page) : (s.unarmed page).armed p = s.armed p := by
  unfold State.armed State.unarmed
  rw [List.find?_filter]
  refine congrArg (fun f => List.find? f s.regs.armed) (funext fun a => ?_)
  by_cases ha : a.page = p
  · simp [ha, h]
  · simp [ha]

theorem State.addArm_armed_same {a : Arm} (h : s.armed a.page = none) : (s.addArm a).armed a.page = some a := by
  unfold State.armed State.addArm at *
  rw [List.find?_append, h]
  simp

theorem State.addArm_armed_other {a : Arm} {p : Nat} (h : p ≠ a.page) : (s.addArm a).armed p = s.armed p := by
  unfold State.armed State.addArm
  rw [List.find?_append]
  simp [Ne.symm h]

/-- Arming for a beat to come schedules one commit of the page, at that beat. -/
theorem State.arm_ahead {secure : Bool} (hp : page ≠ bndPg) (hv : s.beat < s.reg page HDR.COMMIT_BEAT) :
    s.arm page secure = ((s.unarmed page).addArm
      { page := page, beat := s.reg page HDR.COMMIT_BEAT, secure := secure, late := false }).commitStatus page 3 false 0 0 := by
  unfold State.arm
  rw [if_neg (by omega)]
  extract_lets b a regs t u
  have ha : a = { page := page, beat := s.reg page HDR.COMMIT_BEAT, secure := secure, late := false } := by
    unfold a b
    rw [Nat.max_eq_left hv, decide_eq_false (Nat.not_le.mpr hv)]
  rw [if_neg hp, ← ha]
  rfl

/-- A secure write of COMMIT_BEAT that reaches the upper word of a page that commits arms it. -/
theorem exec_commitArm_secure {v : DWord} (hc : s.canCommit page = true) (ho : s.pageOpen page true true = true) :
    exec (.commitArm page v true true) s = .next ((s.setReg page HDR.COMMIT_BEAT v.toNat).arm page true) := by
  show execCommitArm page v true true s = _
  unfold execCommitArm State.commitBeat
  simp only [hc, ho, State.pageClosed_secure, Bool.not_true, Bool.false_eq_true, Bool.false_and, if_false, if_true]

theorem State.setReg_armed (s : State) (p o v w q : Nat) : (s.setReg p o v w).armed q = s.armed q := rfl

theorem State.commitStatus_armed (s : State) (page result : Nat) (late : Bool) (field code p : Nat) :
    (s.commitStatus page result late field code).armed p = s.armed p := State.setReg_armed ..

/-- Disarming a page takes its scheduled commit away; the BND page's also drops the moves of a list. -/
theorem State.disarm_eq (hp : page ≠ bndPg) : s.disarm page = if (s.armed page).isSome then s.unarmed page else s := by
  unfold State.disarm
  cases h : s.armed page with
  | none => rfl
  | some a => exact if_neg hp

/-- What is disarmed for the secure world is disarmed whoever armed it. -/
theorem State.cancel_secure : s.cancel page true = s.disarm page := by
  unfold State.cancel
  cases h : s.armed page with
  | none => simp only [State.disarm, h]
  | some a => rfl

theorem State.disarm_armed_same (hp : page ≠ bndPg) : (s.disarm page).armed page = none := by
  rw [State.disarm_eq hp]
  cases h : s.armed page with
  | none => exact h
  | some a => exact s.unarmed_armed_same page

theorem State.disarm_armed_other (hp : page ≠ bndPg) {p : Nat} (h : p ≠ page) : (s.disarm page).armed p = s.armed p := by
  rw [State.disarm_eq hp]
  split
  · exact State.unarmed_armed_other h
  · rfl

/-- What does not look at the scheduled commits, disarming leaves alone. -/
theorem State.disarm_leaves {α : Type} (g : State → α) (hg : ∀ t : State, g (t.unarmed page) = g t) (hp : page ≠ bndPg) :
    g (s.disarm page) = g s := by
  rw [State.disarm_eq hp]
  split
  · exact hg s
  · rfl

/-- The shadows that a world adopts on a page are dropped. -/
def State.undrafted (s : State) (page : Nat) (secure : Bool) : State :=
  { s with regs := { s.regs with
    shadow := s.regs.shadow.filter fun p => !(((s.adopted page secure).map (·.1)).contains p.1) } }

/-- CANCEL of the secure world disarms its page. -/
theorem exec_cancel_secure (h : s.allows page false true = true) :
    exec (.cancel page true) s = .next (s.disarm page) := by
  refine congrArg Host.Outcome.next ((State.guardWrite_allows _ h).trans ?_)
  exact State.cancel_secure

/-- DISCARD of the secure world also drops the shadows it may adopt. -/
theorem exec_discard_secure (h : s.allows page false true = true) :
    exec (.discard page true) s = .next ((s.undrafted page true).disarm page) := by
  refine congrArg Host.Outcome.next ((State.guardWrite_allows _ h).trans ?_)
  exact State.cancel_secure

end

/-- Settles O31: arming by `State.arm_ahead`; CANCEL and DISCARD by `State.disarm_leaves` and its companions. -/
theorem commitArming : Obligations.CommitArming := by
  refine ⟨fun s page v hc ho hp hv => ?arm, fun s page ha hp => ?cancel, fun s page ha hp => ?discard⟩
  case arm =>
    have hreg : (s.setReg page HDR.COMMIT_BEAT v.toNat).reg page HDR.COMMIT_BEAT = v.toNat :=
      s.reg_setReg_same _ _ _ _ v.isLt
    have harm := State.arm_ahead (s := s.setReg page HDR.COMMIT_BEAT v.toNat) (secure := true) hp (hreg.symm ▸ hv)
    rw [hreg] at harm
    refine ⟨_, (exec_commitArm_secure hc ho).trans (congrArg Host.Outcome.next harm), ?_, ?_, fun p hne => ?_, rfl, rfl⟩
    · exact (State.reg_setReg_other _ _ (regKey_ne_off (by decide) (by decide) (by decide))).trans hreg
    · rw [State.commitStatus_armed]
      exact State.addArm_armed_same (State.unarmed_armed_same ..)
    · rw [State.commitStatus_armed]
      exact (State.addArm_armed_other hne).trans (State.unarmed_armed_other hne)
  case cancel =>
    exact ⟨_, exec_cancel_secure ha, State.disarm_armed_same hp, State.disarm_leaves (·.regs.live) (fun _ => rfl) hp,
      State.disarm_leaves (·.regs.shadow) (fun _ => rfl) hp, fun p hne => State.disarm_armed_other hp hne,
      State.disarm_leaves State.mem (fun _ => rfl) hp⟩
  case discard =>
    refine ⟨_, exec_discard_secure ha, State.disarm_armed_same hp, State.disarm_leaves (·.regs.live) (fun _ => rfl) hp,
      fun k hk => ?_, fun p hne => State.disarm_armed_other hp hne, State.disarm_leaves State.mem (fun _ => rfl) hp⟩
    rw [State.disarm_leaves (·.regs.shadow) (fun _ => rfl) hp]
    exact SMap.find_filter_dropped (fun v => by simpa using hk) _

end Sys2Proof.Machine
end

section
/-! PROOFS. The twin's heartbeats and TWIN_SENSE (R380, R381, R455, R456), the boundary-scan port and the I3C address (R460,
R462). -/

namespace Sys2Proof.Machine

/-! ## Heartbeats (R380, R456) -/

section
variable {s : State}

/-- The heartbeats of a module's twin ports, which all tell its present state. -/
theorem State.foldl_emit_heartbeat (u : State) (ports : List Nat) :
    ports.foldl (fun t p => t.emit (.heartbeat p t.twin (if t.twin = 3 then t.twinId else 0))) u =
      ports.foldl (fun t p => t.emit (.heartbeat p u.twin (if u.twin = 3 then u.twinId else 0))) u := by
  have hgen : ∀ (ports : List Nat) (v : State), v.twin = u.twin → v.twinId = u.twinId →
      ports.foldl (fun t p => t.emit (.heartbeat p t.twin (if t.twin = 3 then t.twinId else 0))) v =
        ports.foldl (fun t p => t.emit (.heartbeat p u.twin (if u.twin = 3 then u.twinId else 0))) v := by
    intro ports
    induction ports with
    | nil => exact fun _ _ _ => rfl
    | cons p ports ih =>
      intro v ht hid
      simp only [List.foldl_cons, ht, hid]
      exact ih _ ht hid
  exact hgen ports u rfl rfl

/-- Once HB_PERIOD beats are over, or with none sent yet, each twin port that carries packets carries a heartbeat. -/
theorem State.heartbeatSend_due
    (h : s.twinSt.sentHb = none ∨ ∃ b, s.twinSt.sentHb = some b ∧ b + s.hbPeriod ≤ s.beat) :
    s.heartbeatSend = ((List.range 2).filter fun p => (s.port p).carries).foldl
      (fun t p => t.emit (.heartbeat p s.twin (if s.twin = 3 then s.twinId else 0)))
      (s.setTw { s.twinSt with sentHb := some s.beat }) := by
  have hports := State.foldl_emit_heartbeat (s.setTw { s.twinSt with sentHb := some s.beat })
    ((List.range 2).filter fun p => (s.port p).carries)
  unfold State.heartbeatSend
  rcases h with h | ⟨b, h, hb⟩
  · rw [h]
    exact hports
  · rw [h]
    exact (if_pos (decide_eq_true hb)).trans hports

theorem State.heartbeatSend_early {b : Nat} (h : s.twinSt.sentHb = some b) (hb : s.beat < b + s.hbPeriod) :
    s.heartbeatSend = s := by
  unfold State.heartbeatSend
  rw [h]
  exact if_neg (by simpa using hb)

/-- A heartbeat has been received. -/
def State.heartbeatHeard (s : State) : State := s.setTw { s.twinSt with lastHb := s.beat, missed := 0, waitTo := none }

/-- A heartbeat on a twin port ends the wait of stage 8, or acts by the TWIN state. -/
theorem State.heartbeatRx_heard {port : Nat} (state assumed : Nat) (hp : port < 2) :
    s.heartbeatRx port state assumed =
      if s.twinSt.waitTo.isSome then s.heartbeatHeard.pairFrom state assumed
      else match s.twin with
        | 1 => if s.twinSt.sense then s.heartbeatHeard.setTwin 0 else s.heartbeatHeard
        | 2 => if s.isLost s.twinId then s.heartbeatHeard else s.heartbeatHeard.pairFrom state assumed
        | 5 => if state = 0 then s.heartbeatHeard.setTwin 0 else s.heartbeatHeard
        | _ => s.heartbeatHeard :=
  if_neg (Nat.not_le.mpr hp)

theorem State.heartbeatTimeout_quiet {n : Nat} (h0 : 0 < s.hbPeriod) (hn : n = (s.beat - s.twinSt.lastHb) / s.hbPeriod)
    (h : n ≤ s.twinSt.missed) : s.heartbeatTimeout = s := by
  unfold State.heartbeatTimeout
  extract_lets x m
  have hm : m = n := (if_neg (Nat.ne_of_gt h0)).trans hn.symm
  rw [hm]
  exact if_pos (by simp [x, h])

/-- Missed heartbeats are counted, and HB_MISS of them silence a PAIRED module's twin. -/
theorem State.heartbeatTimeout_missed {n : Nat} (hr : s.ready = true) (hw : s.twinSt.waitTo = none)
    (h0 : 0 < s.hbPeriod) (hn : n = (s.beat - s.twinSt.lastHb) / s.hbPeriod) (h : s.twinSt.missed < n) {u : State}
    (hu : u = (s.setTw { s.twinSt with missed := n }).count bndPg BND.HB_MISSED (n - s.twinSt.missed)) :
    s.heartbeatTimeout = if s.hbMiss ≤ n ∧ s.twin = 0 then u.twinSilent else u := by
  have hreg {o : Nat} (ho : o < 4096) (hne : o ≠ BND.HB_MISSED) : u.reg bndPg o = s.reg bndPg o := by
    rw [hu]
    exact State.reg_count_other _ _ (regKey_ne_off ho (by decide) hne)
  have hmiss : u.hbMiss = s.hbMiss := congrArg (bits · 23 16) (hreg (by decide) (by decide))
  have htwin : u.twin = s.twin := congrArg (bits · 27 24) (hreg (by decide) (by decide))
  have hacts : ¬ (!s.ready || n ≤ s.twinSt.missed || s.twinSt.waitTo.isSome) = true := by
    simp [hr, hw, Nat.not_le.mpr h]
  unfold State.heartbeatTimeout
  extract_lets x m t
  have hm : m = n := (if_neg (Nat.ne_of_gt h0)).trans hn.symm
  have ht : t = u := by
    unfold t
    rw [hm, hu]
  rw [hm, ht, hmiss, htwin]
  exact if_neg hacts

theorem State.twinWaitEnd_over {b : Nat} (h : s.twinSt.waitTo = some b) (hb : b ≤ s.beat) :
    s.twinWaitEnd = (s.setTw { s.twinSt with waitTo := none }).twinSilent := by
  unfold State.twinWaitEnd
  rw [h]
  exact if_pos hb

theorem State.twinWaitEnd_waits (h : s.twinSt.waitTo = none ∨ ∃ b, s.twinSt.waitTo = some b ∧ s.beat < b) :
    s.twinWaitEnd = s := by
  unfold State.twinWaitEnd
  rcases h with h | ⟨b, h, hb⟩
  · rw [h]
  · rw [h]
    exact if_neg (Nat.not_le.mpr hb)

/-! ## TWIN_SENSE (R455 to R457) -/

/-- A fall of TWIN_SENSE acts once, and only on a PAIRED module that is READY. -/
theorem State.twinFall_fell (h : s.twinSt.fell = true) : s.twinFall =
    if s.twin = 0 ∧ s.ready = true then (s.setTw { s.twinSt with fell := false }).twinSilent
    else s.setTw { s.twinSt with fell := false } := by
  unfold State.twinFall
  rw [h]
  rfl

theorem State.twinFall_still (h : s.twinSt.fell = false) : s.twinFall = s := by
  unfold State.twinFall
  rw [h]
  rfl

end

/-- Settles O40: each way of a heartbeat, of a wait and of TWIN_SENSE is followed by the lemma above that names it. -/
theorem heartbeatComplete : Obligations.HeartbeatComplete := by
  refine ⟨fun s h => congrArg Host.Outcome.next (State.heartbeatSend_due h),
    fun s b h hb => congrArg Host.Outcome.next (State.heartbeatSend_early h hb), fun s u port state assumed hp hu => ?rx,
    fun s n hr hw ht h0 hn hm hmiss => ?silent, fun s n hr hw h0 hn => ⟨fun hm h => ?missed, fun hm => ?quiet⟩,
    fun s b h hb => congrArg Host.Outcome.next (State.twinWaitEnd_over h hb),
    fun s h => congrArg Host.Outcome.next (State.twinWaitEnd_waits h),
    fun s level => ⟨fun h => congrArg Host.Outcome.next (if_pos h), fun h => congrArg Host.Outcome.next (if_neg h)⟩,
    fun s => ⟨fun hf ht hr => ?fell, fun hf ht => ?other, State.twinFall_still⟩⟩
  case rx =>
    have hrx : exec (.heartbeatRx port state assumed) s = .next _ :=
      congrArg Host.Outcome.next (State.heartbeatRx_heard state assumed hp)
    have hheard : s.heartbeatHeard = u := hu.symm
    have hpair : u.pairFrom state assumed = u.setTwin (if state = 3 ∧ assumed = s.modId then 5 else 0) := by
      rw [hu]
      rfl
    rw [hrx, hheard, hpair]
    refine ⟨fun hw => ?_, fun hw ht => ?_, fun hw ht => ?_, fun hw ht hl => ?_, fun hw ht => ?_⟩
    · rw [if_pos (Option.isSome_iff_ne_none.mpr hw)]
    · rw [hw, ht]
      rfl
    · rcases ht with ht | ht | ht
      all_goals
        rw [hw, ht]
        rfl
    · rw [hw, ht, hl]
      rfl
    · rw [hw, ht]
      rfl
  case silent =>
    exact congrArg Host.Outcome.next ((State.heartbeatTimeout_missed hr hw h0 hn hm rfl).trans (if_pos ⟨hmiss, ht⟩))
  case missed =>
    exact congrArg Host.Outcome.next ((State.heartbeatTimeout_missed hr hw h0 hn hm rfl).trans (if_neg (by omega)))
  case quiet => exact congrArg Host.Outcome.next (State.heartbeatTimeout_quiet h0 hn hm)
  case fell => exact (State.twinFall_fell hf).trans (if_pos ⟨ht, hr⟩)
  case other => exact (State.twinFall_fell hf).trans (if_neg fun h => ht h.1)

/-! ## The boundary-scan port (R462) -/

section
variable {s : State} {die : Nat}

/-- The TAP of a present die takes an instruction while the management island is powered; one that touches pins loads as
BYPASS while MOD_RESET_N is high. -/
theorem State.tapLoad_present (hd : diePresent s.variant die = true) (hs : s.boot.switch_ = true) (instr : Nat)
    (pins : Bool) : s.tapLoad die instr pins =
      s.setBoot { s.boot with tap := SMap.put die (if pins && s.boot.resetN then 0 else instr) s.boot.tap } := by
  unfold State.tapLoad
  rw [hd, hs]
  rfl

/-- IDCODE is answered on TDO. -/
theorem exec_idcode_present (hd : diePresent s.variant die = true) (hs : s.boot.switch_ = true) :
    exec (.idcode die) s = .next ((s.setBoot { s.boot with tap := SMap.put die 1 s.boot.tap }).emit
      (.jtag die "IDCODE" (Config.idcode die))) := by
  have hacts : ¬ (!diePresent s.variant die || !s.boot.switch_) = true := by simp [hd, hs]
  refine congrArg Host.Outcome.next ((if_neg hacts).trans ?_)
  rw [State.tapLoad_present hd hs]
  rfl

end

/-- Settles O46: every load of a TAP is `State.tapLoad_present`. -/
theorem jtagAndI3cComplete : Obligations.JtagAndI3cComplete := by
  refine ⟨fun s die hd hs => ?_, fun s => rfl, fun s addr h => congrArg Host.Outcome.next (if_neg h)⟩
  have hload (instr : Nat) : s.tapLoad die instr true =
      s.setBoot { s.boot with tap := SMap.put die (if s.boot.resetN then 0 else instr) s.boot.tap } :=
    State.tapLoad_present hd hs instr true
  exact ⟨congrArg Host.Outcome.next (State.tapLoad_present hd hs 0 false), exec_idcode_present hd hs,
    congrArg Host.Outcome.next (hload 2), congrArg Host.Outcome.next (hload 3), congrArg Host.Outcome.next (hload 4),
    congrArg Host.Outcome.next (hload 5)⟩

end Sys2Proof.Machine
end

section
/-! PROOFS. Firmware (R419 to R424): what the commands of FWU_CMD do while management firmware runs, and how an image that
has been received is verified, forwarded and written. -/

namespace Sys2Proof.Machine

/-! ## The commands of FWU_CMD (R419, R420, R423, R424) -/

section
variable {s : State} (hrun : s.firmwareRuns = true)
include hrun

/-- An image meets a busy module. -/
theorem State.fwuStart_busy (hb : s.fwuBusy = true) : s.fwuStart =
    (s.openRead (s.reg fwuPg FWU.FWU_SRC) 12).1.setBusy.reportOutcome
      (s.openRead (s.reg fwuPg FWU.FWU_SRC) 12).1.modId 8 (imgSvn (s.openRead (s.reg fwuPg FWU.FWU_SRC) 12).2) := by
  unfold State.fwuStart
  simp only [hrun, hb, Bool.not_true, Bool.false_eq_true, if_false, if_true]

/-- A free module takes the image at FWU_SRC, or ends at once where its length or its range is bad. -/
theorem State.fwuStart_free (hb : s.fwuBusy = false) {u : State} (hu : u = s.setReg fwuPg FWU.REPORT_COUNT 0) {x : FwuSt}
    (hx : x = { u.boot.fwu with image := [], whole := true, origin := s.modId, src := s.modId }) : s.fwuStart =
      if outside (s.reg fwuPg FWU.FWU_LEN) 36864 67108864 ||
          !(u.inOpenRegion (s.reg fwuPg FWU.FWU_SRC) (s.reg fwuPg FWU.FWU_LEN)) then (u.setFwu x).fwuEnd 6 1
      else ((u.openRead (s.reg fwuPg FWU.FWU_SRC) (s.reg fwuPg FWU.FWU_LEN)).1.setFwu
        { x with image := (u.openRead (s.reg fwuPg FWU.FWU_SRC) (s.reg fwuPg FWU.FWU_LEN)).2 }).setFwuState 1 := by
  have hid : u.modId = s.modId := by
    rw [hu]
    exact congrArg (· % 2 ^ 15) (s.reg_setReg_other _ (regKey_ne_off (by decide) (by decide) (by decide)))
  rw [← hid] at hx
  rw [hx, hu]
  unfold State.fwuStart
  simp only [hrun, hb, Bool.not_true, Bool.false_eq_true, if_false]

/-- ENROLL blows the digest of the owner key once. -/
theorem State.enroll_set (h : s.keep.ownerDigest ≠ none) : s.enroll = s.err fwuPg FWU.E_OWNER_SET s.modId := by
  unfold State.enroll
  rw [if_neg (by simp [hrun]), if_pos (Option.isSome_iff_ne_none.mpr h)]

theorem State.enroll_open (h : s.keep.ownerDigest = none) : s.enroll.keep.ownerDigest =
    some (digestBytes (Config.shake256 (s.openRead (s.reg fwuPg FWU.FWU_SRC) 64).2)) := by
  unfold State.enroll
  rw [if_neg (by simp [hrun]), if_neg (by simp [h])]

theorem State.serveRecovery_running {n : Nat} (h : s.boot.running = some n) (m : Nat) :
    s.serveRecovery m = s.sendImage m s.modId ((s.slot n).take (hdrBytes + imgBodyLen (s.slot n))) := by
  unfold State.serveRecovery
  rw [h]
  exact if_pos hrun

/-- RAISE_SVN blows the SVN of the running image, at most 64. -/
theorem State.raiseSvn_running {n : Nat} (h : s.boot.running = some n) : s.raiseSvn =
    ({ s with keep := { s.keep with svn := max s.keep.svn (min 64 (imgSvn (s.slot n))) } } : State).showSlots := by
  unfold State.raiseSvn
  rw [h]
  exact if_pos hrun

/-- LOCK applies a good message and flags any other; the nonce is renewed. -/
theorem State.lockCmd_runs {u v : State} {b : List Byte} (hu : (u, b) = s.openRead (s.reg fwuPg FWU.FWU_SRC) (96 + 29792))
    (hv : v = if u.lockGood b then (u.bootWrite fun r => { r with lock := imgNat b 0 4 == 1 }).showSlots
      else u.err fwuPg FWU.E_LOCK_AUTH u.modId) :
    s.lockCmd = (v.draw.2.setReg fwuPg FWU.FWU_NONCE (v.draw.1 % 2 ^ 64)).fwuRecheck := by
  unfold State.lockCmd
  rw [if_neg (by simp [hrun]), ← hu, hv]

end

/-- What the FWU and MGT pages show of the slots is registers only. -/
theorem State.showSlots_keep (s : State) : s.showSlots.keep = s.keep := by
  unfold State.showSlots
  simp only [State.setReg_keep]

/-! ## An image received (R420 to R422) -/

section
variable {s : State}

theorem State.fwuComplete_received (h : s.fwuState = 1) :
    s.fwuComplete = (s.count fwuPg FWU.IMAGES_RX 1).setFwuState 2 := if_pos h

section
variable (h : s.fwuState = 2)
include h

/-- An image that does not verify ends with what it fails by. -/
theorem State.fwuVerified_bad (hv : imageStatus s.variant s.keep.svn s.boot.fwu.image ≠ 0) :
    s.fwuVerified = s.fwuEnd 6 (imageStatus s.variant s.keep.svn s.boot.fwu.image) := by
  unfold State.fwuVerified
  rw [if_neg (by simp [h])]
  dsimp only
  split
  · next e => exact absurd e hv
  · rfl

/-- An image that verifies and is staged already ends as such. -/
theorem State.fwuVerified_staged (hv : imageStatus s.variant s.keep.svn s.boot.fwu.image = 0)
    (hs : s.boot.fwu.staged = some (imgDigest s.boot.fwu.image, imgSvn s.boot.fwu.image)) :
    s.fwuVerified = s.fwuEnd 4 9 := by
  unfold State.fwuVerified
  rw [if_neg (by simp [h])]
  simp only [hv]
  exact if_pos hs

/-- Any other that verifies is forwarded, and written unless that is refused. -/
theorem State.fwuVerified_new (hv : imageStatus s.variant s.keep.svn s.boot.fwu.image = 0)
    (hs : s.boot.fwu.staged ≠ some (imgDigest s.boot.fwu.image, imgSvn s.boot.fwu.image)) {u : State}
    (hu : u = s.forwardImage) : s.fwuVerified = if u.writeRefused = 0 then
        (((u.setSlot u.idleSlot (eraseHeader (u.slot u.idleSlot))).measureSlot u.idleSlot).showSlots.setFwu
          { u.boot.fwu with staged := none, stop := 0 }).setFwuState 3
      else u.fwuEnd 5 u.writeRefused := by
  unfold State.fwuVerified
  rw [if_neg (by simp [h])]
  simp only [hv]
  rw [if_neg hs, ← hu]
  split
  · next e => exact (if_pos e).symm
  · next e => exact (if_neg e).symm

end

section
variable (h : s.fwuState = 3)
include h

/-- A write that a condition stopped ends with that condition. -/
theorem State.fwuWritten_stopped (hs : s.writeStopped ≠ 0) (ok : Bool) :
    s.fwuWritten ok = s.fwuEnd 5 s.writeStopped := by
  unfold State.fwuWritten
  rw [if_neg (by simp [h])]
  split
  · next e => exact absurd e hs
  · rfl

/-- A write that nothing stopped fails with the flash, or ends by the slot as it reads back. -/
theorem State.fwuWritten_whole (hs : s.writeStopped = 0) (ok : Bool) {v u : State}
    (hv : v = s.setSlot s.idleSlot s.boot.fwu.image)
    (hu : u = (v.bootWrite fun r => { r with next := s.idleSlot }).measureSlot s.idleSlot) :
    s.fwuWritten ok = if ok then
        if v.slotStatus s.idleSlot = 0 then (u.showSlots.setFwu { u.boot.fwu with
          staged := some (imgDigest s.boot.fwu.image, imgSvn s.boot.fwu.image) }).fwuEnd 4 0
        else (v.measureSlot s.idleSlot).showSlots.fwuEnd 6 7
      else s.fwuEnd 6 7 := by
  subst hu hv
  unfold State.fwuWritten
  rw [if_neg (by simp [h]), hs]
  rfl

end

/-- HOLDUP_N is sampled outside RESET; its level stops a write only while one runs. -/
theorem exec_holdupChange_sampled (hm : s.mgtState ≠ 0) (hw : s.fwuState ≠ 3) (level : Bool) :
    exec (.holdupChange level) s = .next (s.setBoot { s.boot with holdupN := level }) := by
  have hs : s.sampled = true := bne_iff_ne.mpr hm
  refine congrArg Host.Outcome.next ((if_pos hs).trans ?_)
  exact if_pos (c := (s.setBoot { s.boot with holdupN := level }).fwuState ≠ 3) hw

end

/-- Settles O42: every command of FWU_CMD is a write that its page allows, and each step of an update is followed by the
lemma above that names it. -/
theorem firmwareCommandsComplete : Obligations.FirmwareCommandsComplete := by
  refine ⟨fun s secure ha hrun => ⟨fun hb => ?busy, fun hb u x hu hx => ⟨fun hlen => ?badLength, fun hlo hhi hopen => ?taken⟩,
      fun ho => ?enrolled, fun ho => ?enroll, fun n target hr => ?serve⟩,
    fun s secure n ha hrun hr => ?raise, fun s u v secure b ha hrun hu hv => ?lock,
    fun s h => congrArg Host.Outcome.next (State.fwuComplete_received h),
    fun s h => ⟨fun hv => congrArg Host.Outcome.next (State.fwuVerified_bad h hv),
      fun hv hs => congrArg Host.Outcome.next (State.fwuVerified_staged h hv hs), fun hv hs u hu => ⟨fun hw => ?refused,
        fun hw => ?written⟩⟩,
    fun s ok h hs => congrArg Host.Outcome.next (State.fwuWritten_stopped h hs ok),
    fun s h hs => ⟨congrArg Host.Outcome.next ((State.fwuWritten_whole h hs false rfl rfl).trans
      (if_neg Bool.false_ne_true)), fun v hv => ⟨fun hst u hu => ?good,
      fun hst => ?bad⟩⟩,
    fun s level hm hw => exec_holdupChange_sampled hm hw level⟩
  case busy =>
    exact congrArg Host.Outcome.next ((State.guardWrite_allows _ ha).trans (State.fwuStart_busy hrun hb))
  case badLength =>
    refine congrArg Host.Outcome.next
      ((State.guardWrite_allows _ ha).trans ((State.fwuStart_free hrun hb hu hx).trans (if_pos ?_)))
    have hout : outside (s.reg fwuPg FWU.FWU_LEN) 36864 67108864 = true := by
      unfold outside
      simpa using hlen
    rw [hout, Bool.true_or]
  case taken =>
    refine congrArg Host.Outcome.next
      ((State.guardWrite_allows _ ha).trans ((State.fwuStart_free hrun hb hu hx).trans (if_neg ?_)))
    have hin : outside (s.reg fwuPg FWU.FWU_LEN) 36864 67108864 = false := by
      unfold outside
      simpa using ⟨hlo, hhi⟩
    rw [hin, hopen]
    decide
  case enrolled =>
    exact congrArg Host.Outcome.next ((State.guardWrite_allows _ ha).trans (State.enroll_set hrun ho))
  case enroll =>
    exact ⟨_, congrArg Host.Outcome.next (State.guardWrite_allows _ ha), State.enroll_open hrun ho⟩
  case serve =>
    exact congrArg Host.Outcome.next ((State.guardWrite_allows _ ha).trans (State.serveRecovery_running hrun hr target))
  case raise =>
    refine ⟨_, congrArg Host.Outcome.next ((State.guardWrite_allows _ ha).trans (State.raiseSvn_running hrun hr)), ?_⟩
    rw [State.showSlots_keep]
  case lock =>
    exact congrArg Host.Outcome.next ((State.guardWrite_allows _ ha).trans (State.lockCmd_runs hrun hu hv))
  case refused =>
    exact congrArg Host.Outcome.next ((State.fwuVerified_new h hv hs hu).trans (if_neg hw))
  case written =>
    exact congrArg Host.Outcome.next ((State.fwuVerified_new h hv hs hu).trans (if_pos hw))
  case good =>
    exact congrArg Host.Outcome.next ((State.fwuWritten_whole h hs true hv hu).trans ((if_pos rfl).trans (if_pos hst)))
  case bad =>
    exact congrArg Host.Outcome.next ((State.fwuWritten_whole h hs true hv rfl).trans ((if_pos rfl).trans (if_neg hst)))

end Sys2Proof.Machine
end

section
/-! PROOFS. Start-up (R413, R424, R425, R461): how a stage hands over to the next or fails, when the module record is taken,
and what ROM recovery announces and takes. -/

namespace Sys2Proof.Machine

/-! ## Stages (R413) -/

section
variable {s : State} {i : StageIn}

/-- What a stage that finishes within its budget does, where its condition holds. -/
def State.stageHandsOver (s : State) (i : StageIn) : Nat → State
  | 0 => (s.stageMs i.ms).stageRom
  | 1 => (s.stageMs i.ms).stageRails
  | 2 => (s.stageMs i.ms).stageFirmware i.calValid
  | 3 => (s.stageMs i.ms).stageHbm i
  | 4 => (s.stageMs i.ms).stageUcie
  | 5 => if (List.range 24).any fun p => (s.port p).st == .training then s else (s.stageMs i.ms).setMgt 1 6 0
  | 6 => if s.boot.submitted then (s.stageMs i.ms).stageRecord i else s
  | 7 => if s.tempoSt = 2 ∨ s.tempoSt = 4 then (s.stageMs i.ms).setMgt 1 8 0 else s
  | _ => if s.tempoSt = 2 ∨ s.tempoSt = 4 then (s.stageMs i.ms).stageOpen i else s

theorem exec_bootStageDone_inTime (hb : s.budgetRuns = true) (ht : i.ms ≤ stageBudget s.mgtStage) {n : Nat}
    (hn : s.mgtStage = n) : exec (.bootStageDone i) s = .next (s.stageHandsOver i n) := by
  subst hn
  show Host.Outcome.next (s.stageDone i) = _
  unfold State.stageDone
  rw [hb]
  exact congrArg Host.Outcome.next (if_neg (Nat.not_lt.mpr ht))

theorem exec_stageBudgetExpire_late {ms : Nat} (hb : s.budgetRuns = true) (ht : stageBudget s.mgtStage < ms) :
    exec (.stageBudgetExpire ms) s = .next ((s.stageMs ms).stageFail 1) := by
  refine congrArg Host.Outcome.next (if_pos ?_)
  rw [hb, decide_eq_true ht]
  rfl

theorem exec_stageFailed_starting {reason : Nat} (hst : s.mgtState = 1) (hstage : s.mgtStage ≠ 5) :
    exec (.stageFailed reason) s = .next ((s.stageFail 2).emit (.inform "stage failed" reason)) :=
  congrArg Host.Outcome.next (if_pos ⟨hst, hstage⟩)

/-! ## The module record (R461) -/

/-- Outside stage 5 a record is taken and nothing more. -/
theorem exec_recordSubmit_taken {rec : List Byte} (h0 : s.mgtState ≠ 0) (ha : s.boot.accepted = false)
    (h5 : s.mgtState ≠ 1 ∨ s.mgtStage ≠ 5) : exec (.recordSubmit rec) s =
      .next (s.setBoot { s.boot with record := rec, submitted := true, refused := false }) := by
  have htake : ¬ (s.mgtState = 0 ∨ s.boot.accepted = true) := by simp [h0, ha]
  have hwait : ¬ (s.mgtState = 1 ∧ s.mgtStage = 5 ∧ recordBad rec = false) := fun ⟨h1, h2, _⟩ =>
    h5.elim (fun h => h h1) (fun h => h h2)
  exact congrArg Host.Outcome.next ((if_neg htake).trans (if_neg hwait))

/-! ## ROM recovery (R424, R425) -/

/-- With P0 alone carrying packets, P0 alone carries the announcement. -/
theorem exec_recoveryAnnounce_first (hst : s.mgtState = 4) (h0 : (s.port 0).carries = true)
    (h1 : (s.port 1).carries = false) : exec .recoveryAnnounce s =
      .next (s.emit (.packet 0 { hdr := { dstMod := s.twinId, srcMod := s.modId, vc := 7 }, body := .announce })) := by
  refine congrArg Host.Outcome.next ((if_pos hst).trans ?_)
  have hsent (o : Out) : ¬ ((s.emit o).port 1).carries = true := Bool.eq_false_iff.mp h1
  simp only [List.foldl_cons, List.foldl_nil, h0, if_true]
  exact if_neg (hsent _)

/-- An image taken while HOLDUP_N is high is checked by its header, then by its body. -/
theorem exec_recoveryImageDone_taken (hst : s.mgtState = 4) (hh : s.boot.holdupN = true) {host b : List Byte}
    (hb : b = if s.boot.fwu.image.isEmpty then host else s.boot.fwu.image) {u : State}
    (hu : u = s.setBoot { s.boot with fwu := {} }) : exec (.recoveryImageDone host) s = .next
      (if headerStatus s.variant s.keep.svn b ≠ 0 then
        u.emit (.inform "recovery image refused" (headerStatus s.variant s.keep.svn b))
      else if bodyGood b then ((((u.setSlot 0 b).bootWrite fun r => { r with next := 0 }).enterReset).tryStart)
      else (((u.setSlot 0 (eraseHeader b)).measureSlot 0).showSlots).emit (.inform "recovery image failed" 1)) := by
  subst hb hu
  show Host.Outcome.next (s.recoveryImage host) = _
  unfold State.recoveryImage
  have hopen : ¬ ((s.setBoot { s.boot with fwu := {} }).mgtState ≠ 4 ∨
      (s.setBoot { s.boot with fwu := {} }).boot.holdupN = false) := by
    rintro (h | h)
    · exact h hst
    · exact absurd (hh.symm.trans h) (by decide)
  rw [if_pos (show s.mgtState = 4 ∧ s.boot.holdupN = true from ⟨hst, hh⟩)]
  exact congrArg Host.Outcome.next (if_neg hopen)

end

/-- Settles O45: a stage within its budget does what `State.stageHandsOver` says of it; the rest by the lemma above that
names it. -/
theorem startUpComplete : Obligations.StartUpComplete := by
  refine ⟨fun s i hb ht => ?stages, fun s ms hb ht => exec_stageBudgetExpire_late hb ht,
    fun s reason hst hstage => exec_stageFailed_starting hst hstage,
    fun s rec h0 ha h5 => exec_recordSubmit_taken h0 ha h5, fun s hst h0 h1 => exec_recoveryAnnounce_first hst h0 h1,
    fun s u host b hst hh hb hu => ?image⟩
  case stages =>
    have hdone {n : Nat} (hn : s.mgtStage = n) := exec_bootStageDone_inTime hb ht hn
    refine ⟨hdone, hdone, hdone, hdone, hdone, fun hn hports => ?_, fun hn hsub => ?_, fun hn htempo => ?_,
      fun hn htempo => ?_⟩
    · have hnone : ¬ ((List.range 24).any fun p => (s.port p).st == .training) = true := by
        simpa using hports
      exact (hdone hn).trans (congrArg Host.Outcome.next (if_neg hnone))
    · exact (hdone hn).trans (congrArg Host.Outcome.next (if_pos hsub))
    · exact (hdone hn).trans (congrArg Host.Outcome.next (if_pos htempo))
    · exact (hdone hn).trans (congrArg Host.Outcome.next (if_pos htempo))
  case image =>
    have hrun := exec_recoveryImageDone_taken hst hh hb hu
    refine ⟨fun hv => ?_, fun hv hbody => ?_, fun hv hbody => ?_⟩
    · rw [hrun, if_pos hv]
    · rw [hrun, if_neg (not_not_intro hv), hbody, if_neg Bool.false_ne_true]
    · rw [hrun, if_neg (not_not_intro hv), hbody, if_pos rfl]

end Sys2Proof.Machine
end

section
/-! PROOFS. Resets and the supply (R373, R412 to R414, R449, R458, R460): what RESET leaves, what a die reset leaves of the
die, what lets the module start again, and what a warning of the input sets. -/

namespace Sys2Proof.Machine

/-! ## RESET (R412, R449) -/

section
variable (s : State)

/-- The levels and latches that RESET leaves of the start-up's state. -/
def State.bootKept (s : State) : BootState := {
  resetN := s.boot.resetN
  pwrGood := s.boot.pwrGood
  coolant := s.boot.coolant && !s.halted
  holdupN := s.boot.holdupN
  refclk := s.boot.refclk
  switch_ := s.boot.switch_
  inputOk := s.boot.inputOk
  ovLatch := s.boot.ovLatch
  ovLow := s.boot.ovLow
  tap := s.boot.tap
  cages := s.boot.cages }

/-- What RESET leaves of the state before registers are set. -/
def State.fresh (s : State) : State := {
  pending := s.pending
  outbox := s.outbox
  rsp := s.rsp
  told := s.told
  free := s.free + 1
  variant := s.variant
  keep := s.keep
  boot := s.bootKept
  twinSt := { sense := s.twinSt.sense } }

/-- What looks neither at registers nor at what leaves the module sees in RESET what RESET leaves. -/
theorem State.enterReset_sees {α : Type} (g : State → α) (hreg : ∀ (t : State) p o v, g (t.setReg p o v) = g t)
    (hemit : ∀ (t : State) o, g (t.emit o) = g t) : g s.enterReset = g s.fresh := by
  have hset (a b : Nat) : g ((s.fresh.setReg mgtPg MGT.MGT_STATE a).setReg fwuPg FWU.FWU_NONCE b) = g s.fresh :=
    (hreg ..).trans (hreg ..)
  by_cases h : s.mgtState = 0
  · exact (congrArg g (if_pos h)).trans (hset ..)
  · exact (congrArg g (if_neg h)).trans ((hemit ..).trans (hset ..))

/-- No command is in flight in RESET. -/
@[simp] theorem State.enterReset_cmds : s.enterReset.cmds = [] :=
  s.enterReset_sees State.cmds (fun _ _ _ _ => rfl) (fun _ _ => rfl)
@[simp] theorem State.enterReset_keep : s.enterReset.keep = s.keep :=
  s.enterReset_sees State.keep (fun _ _ _ _ => rfl) (fun _ _ => rfl)
@[simp] theorem State.enterReset_boot : s.enterReset.boot = s.bootKept :=
  s.enterReset_sees State.boot (fun _ _ _ _ => rfl) (fun _ _ => rfl)

/-- What looks neither at registers, nor at the start-up's state, nor at what leaves the module, leaving RESET leaves
alone. -/
theorem State.tryStart_leaves {α : Type} (g : State → α) (hreg : ∀ (t : State) p o v, g (t.setReg p o v) = g t)
    (hboot : ∀ (t : State) b, g (t.setBoot b) = g t) (hemit : ∀ (t : State) o, g (t.emit o) = g t) :
    g s.tryStart = g s := by
  unfold State.tryStart
  split
  · exact (State.setMgt_reg _ g hemit ..).trans ((hreg ..).trans (hboot ..))
  · rfl

theorem State.moduleReset_cmds : s.moduleReset.cmds = [] :=
  (s.enterReset.tryStart_leaves State.cmds (fun _ _ _ _ => rfl) (fun _ _ => rfl) (fun _ _ => rfl)).trans
    s.enterReset_cmds
theorem State.moduleReset_keep : s.moduleReset.keep = s.keep :=
  (s.enterReset.tryStart_leaves State.keep (fun _ _ _ _ => rfl) (fun _ _ => rfl) (fun _ _ => rfl)).trans
    s.enterReset_keep

/-- The open input switch takes the module to RESET with the cause of its trip. -/
theorem State.openInput_eq (cause : Nat) : s.openInput cause =
    ((({ s with keep := { s.keep with cause := cause } } : State).setBoot
      { s.boot with switch_ := false, inputOk := false, tap := [] }).enterReset) := rfl

end

/-! ## A die reset (R373, R414) -/

/-- The squares in which commands are in flight. -/
def State.cmdSquares (s : State) : List Nat := s.cmds.map (·.msq)

section
variable (s : State)

theorem State.cmdSquares_congr {t : State} (h : t.cmds = s.cmds) : t.cmdSquares = s.cmdSquares := by
  unfold State.cmdSquares
  rw [h]

/-- The end of a command leaves its square. -/
theorem State.endCmd_cmdSquares (id : Nat) (st : Status) : (s.endCmd id st).cmdSquares = s.cmdSquares := by
  unfold State.endCmd State.mapCmd State.cmdSquares
  rw [List.map_map]
  refine List.map_congr_left fun c _ => ?_
  dsimp only [Function.comp_apply]
  split
  · split <;> rfl
  · rfl

theorem State.orphanAll_cmdSquares (ids : List Nat) : (s.orphanAll ids).cmdSquares = s.cmdSquares :=
  foldl_leaves State.cmdSquares (fun t i => t.endCmd i .orphan) ids s fun t i => t.endCmd_cmdSquares i _

theorem State.uninit_cmdSquares (key : Nat) : (s.uninit key).cmdSquares = s.cmdSquares :=
  ((s.clearBarriers key).orphanAll_cmdSquares (s.objWaiters key)).trans rfl

theorem State.orphan_cmdSquares (key : Nat) : (s.orphan key).cmdSquares = s.cmdSquares := by
  unfold State.orphan
  extract_lets ws pg o t u v
  have hv : v.cmdSquares = s.cmdSquares :=
    (State.cmdSquares_congr _ (State.count_cmds ..)).trans (t.orphanAll_cmdSquares ws)
  split
  · exact hv
  · exact (State.cmdSquares_congr _ (State.err_cmds ..)).trans hv

theorem State.orphanOwned_cmdSquares (msq : Nat) : (s.orphanOwned msq).cmdSquares = s.cmdSquares := by
  unfold State.orphanOwned
  exact foldl_leaves State.cmdSquares _ _ s fun t p => t.orphan_cmdSquares p.1

theorem State.staleOne_cmdSquares (u cause : Nat) : (s.staleOne u cause).cmdSquares = s.cmdSquares := by
  unfold State.staleOne
  extract_lets _ t t'
  have ht : t'.cmdSquares = s.cmdSquares := State.cmdSquares_congr s ((State.err_cmds ..).trans (State.count_cmds ..))
  split
  · exact (t'.orphanOwned_cmdSquares u).trans ht
  · exact ht

theorem State.wipeDie_cmds (die : Nat) : (s.wipeDie die).cmds = s.cmds := by
  unfold State.wipeDie
  extract_lets pages t u _ v
  have hu : u.cmds = t.cmds := foldl_leaves State.cmds _ pages t fun _ _ => rfl
  have hv : v.cmds = s.cmds := hu
  rw [← hv]
  exact foldl_leaves State.cmds _ _ v fun _ _ => rfl

/-- A unit that is STALE stays so when another becomes STALE. -/
theorem State.isStale_staleOne_of {m : Nat} (h : s.isStale m = true) (u cause : Nat) :
    (s.staleOne u cause).isStale m = true := by
  unfold State.isStale at *
  rw [State.staleOne_bnd]
  show (if s.bnd.stale.contains u then s.bnd.stale else s.bnd.stale ++ [u]).contains m = true
  split
  · exact h
  · simp only [List.contains_append, h, Bool.true_or]

/-- A square of a die that is reset takes its power state of reset and becomes STALE. -/
def State.squareReset (s : State) (m : Nat) : State := (s.setSqp m {}).staleOne m 1

theorem State.squareResets_stale {m : Nat} (squares : List Nat) (h : m ∈ squares ∨ s.isStale m = true) :
    (squares.foldl State.squareReset s).isStale m = true := by
  induction squares generalizing s with
  | nil => exact h.resolve_left (List.not_mem_nil)
  | cons n squares ih =>
    rw [List.foldl_cons]
    apply ih
    rw [State.squareReset]
    rcases h with h | h
    · rcases List.mem_cons.mp h with rfl | h
      · exact .inr ((s.setSqp m {}).isStale_staleOne m 1)
      · exact .inl h
    · exact .inr ((s.setSqp n {}).isStale_staleOne_of h n 1)

/-- The squares of a die. -/
def dieSquares (die : Nat) : List Nat := (List.range 64).map fun i => die * 64 + i

theorem mem_dieSquares {die m : Nat} (h : m / 64 = die) : m ∈ dieSquares die :=
  List.mem_map.mpr ⟨m % 64, List.mem_range.mpr (Nat.mod_lt _ (by decide)), by omega⟩

/-- No command is in flight in a square of a die. -/
def State.DieFree (s : State) (die : Nat) : Prop := ∀ m ∈ s.cmdSquares, m / 64 ≠ die

theorem State.DieFree.of_squares {t : State} {die : Nat} (h : s.DieFree die) (e : t.cmdSquares = s.cmdSquares) :
    t.DieFree die := by
  unfold State.DieFree
  rw [e]
  exact h

theorem State.DieFree.of_cmds {t : State} {die : Nat} (h : s.DieFree die) (e : t.cmds = s.cmds) : t.DieFree die :=
  h.of_squares s (s.cmdSquares_congr e)

theorem State.squareResets_cmdSquares (squares : List Nat) :
    (squares.foldl State.squareReset s).cmdSquares = s.cmdSquares :=
  foldl_leaves State.cmdSquares State.squareReset squares s fun t m => (t.setSqp m {}).staleOne_cmdSquares m 1

/-- A die reset drops the die's commands first, and nothing after it adds one; at its end the die's squares become
STALE. -/
theorem State.dieReset_leaves {die : Nat} (h : die < s.variant.computeDies) :
    (s.dieReset die).DieFree die ∧ ∀ m, m / 64 = die → (s.dieReset die).isStale m = true := by
  unfold State.dieReset
  rw [if_neg (Nat.not_le.mpr h)]
  extract_lets sts old flushed squares gone freed dropped lost rookless wiped pwr ungated stale
  have hsquares : squares = dieSquares die := rfl
  have hdropped : dropped.DieFree die := fun m hm => by
    obtain ⟨c, hc, rfl⟩ := List.mem_map.mp hm
    simpa using (List.mem_filter.mp hc).2
  clear_value sts old flushed squares gone freed dropped
  have hlost : lost.DieFree die := hdropped.of_cmds _ (foldl_leaves State.cmds _ squares dropped fun _ _ => rfl)
  clear_value lost
  have hrookless : rookless.DieFree die := hlost.of_cmds _ rfl
  clear_value rookless
  have hwiped : wiped.DieFree die := hrookless.of_squares _
    ((State.cmdSquares_congr _ (State.wipeDie_cmds _ die)).trans
      (foldl_leaves State.cmdSquares State.uninit _ rookless State.uninit_cmdSquares))
  clear_value wiped
  have hungated : ungated.DieFree die := hwiped.of_cmds _ rfl
  clear_value ungated
  have hstale : stale.DieFree die := hungated.of_squares _ (ungated.squareResets_cmdSquares squares)
  have hall : ∀ m, m / 64 = die → stale.isStale m = true := fun m hm =>
    ungated.squareResets_stale squares (.inl (hsquares ▸ mem_dieSquares hm))
  clear_value stale
  exact ⟨hstale.of_cmds _ (foldl_leaves State.cmds _ _ stale fun _ _ => rfl), fun m hm =>
    Eq.trans (foldl_leaves (fun t : State => t.isStale m) _ _ stale fun _ _ => rfl) (hall m hm)⟩

end

/-! ## What lets the module start, and the warnings of the input (R413, R449) -/

section
variable (s : State)

/-- Outside RESET a measured input is in V_IN and touches neither memory nor commands; the warning it may send reads none
of these. -/
theorem State.warnInput_sets (mV : Nat) (h : s.mgtState ≠ 0) : (s.warnInput mV).reg pwrPg PWR.V_IN = mV % 2 ^ 16 ∧
    (s.warnInput mV).mem = s.mem ∧ (s.warnInput mV).cmds = s.cmds := by
  unfold State.warnInput
  extract_lets ok _ old ranged set
  have hset : set.reg pwrPg PWR.V_IN = mV % 2 ^ 16 ∧ set.mem = s.mem ∧ set.cmds = s.cmds :=
    ⟨ranged.reg_setReg_same _ _ _ _ (Nat.lt_trans (Nat.mod_lt _ (by decide)) (by decide)), rfl, rfl⟩
  rw [if_neg h]
  split
  · exact hset
  · exact hset

/-- A trip opens the input switch and leaves its cause and an over-voltage latch behind. -/
theorem State.openInput_trips (cause : Nat) : (s.openInput cause).cmds = [] ∧ (s.openInput cause).boot.switch_ = false ∧
    (s.openInput cause).boot.ovLatch = s.boot.ovLatch ∧ (s.openInput cause).keep = { s.keep with cause := cause } := by
  rw [State.openInput_eq, State.enterReset_cmds, State.enterReset_boot, State.enterReset_keep]
  exact ⟨rfl, rfl, rfl, rfl⟩

theorem State.resetLow_resets : s.resetLow.cmds = [] ∧ s.resetLow.boot.resetN = false ∧
    s.resetLow.keep = { s.keep with cause := s.keep.cause ||| 2 ^ 5 } := by
  rw [State.resetLow, State.enterReset_cmds, State.enterReset_boot, State.enterReset_keep]
  exact ⟨rfl, rfl, rfl⟩

theorem State.pwrGoodLow_resets : s.pwrGoodLow.cmds = [] ∧ s.pwrGoodLow.boot.pwrGood = false ∧
    s.pwrGoodLow.keep = { s.keep with cause := s.keep.cause ||| 2 ^ 4 } := by
  rw [State.pwrGoodLow, State.enterReset_cmds, State.enterReset_boot, State.enterReset_keep]
  exact ⟨rfl, rfl, rfl⟩

theorem exec_underVoltageTrip_below {mV : Nat} (h : mV < 46000) :
    exec (.underVoltageTrip mV) s = .next (s.openInput 1) := congrArg Host.Outcome.next (if_pos h)

theorem exec_overVoltageTrip_trips {mV : Nat} (h : 62000 < mV) (h' : mV ≤ 65000) : exec (.overVoltageTrip mV) s =
    .next ((s.setBoot { s.boot with ovLatch := true, ovLow := !s.boot.resetN }).openInput 2) :=
  (exec_overVoltageTrip_within s h').trans (congrArg Host.Outcome.next (if_pos h))

theorem exec_mgtModuleReset_allowed {secure : Bool} (h : s.allows mgtPg true secure = true) :
    exec (.mgtModuleReset secure) s = .next s.moduleReset := congrArg Host.Outcome.next (State.guardWrite_allows _ h)

theorem exec_mgtDieReset_allowed {die : Nat} {secure : Bool} (h : s.allows mgtPg true secure = true) :
    exec (.mgtDieReset die secure) s = .next (s.dieReset die) :=
  congrArg Host.Outcome.next (State.guardWrite_allows (fun t => t.dieReset die) h)

theorem State.dieReset_absent {die : Nat} (h : s.variant.computeDies ≤ die) : s.dieReset die = s := if_pos h

theorem exec_uvWarn_between {mV : Nat} (h : 46000 ≤ mV) (h' : mV < 50000) :
    exec (.uvWarn mV) s = .next (s.warnInput mV) := congrArg Host.Outcome.next (if_pos ⟨h, h'⟩)

theorem exec_ovWarn_between {mV : Nat} (h : 60000 < mV) (h' : mV ≤ 62000) :
    exec (.ovWarn mV) s = .next (s.warnInput mV) := congrArg Host.Outcome.next (if_pos ⟨h, h'⟩)

theorem exec_modResetRelease_low (h : s.boot.resetN = false) :
    exec .modResetRelease s = .next ((s.setBoot { s.boot with resetN := true, tap := [] }).tryStart) :=
  congrArg Host.Outcome.next (if_neg (by simp [h]))

theorem exec_startThreshold_inRange {mV : Nat} (h : 50000 ≤ mV) (hov : s.boot.ovLatch = true → mV ≤ 60000) :
    exec (.startThreshold mV) s = .next ((s.setBoot { s.boot with inputOk := true, switch_ := true }).tryStart) :=
  congrArg Host.Outcome.next (if_neg fun hout => hout.elim (Nat.not_lt.mpr h) fun ⟨hl, hm⟩ => Nat.not_lt.mpr (hov hl) hm)

end

/-- Settles O44: each way into RESET by what `State.enterReset` leaves, a die reset by `State.dieReset_leaves`, the start
and the warnings by the equations above. -/
theorem resetsAndSupplyComplete : Obligations.ResetsAndSupplyComplete := by
  unfold Obligations.ResetsAndSupplyComplete
  refine ⟨⟨⟨?_, ?_, ?_, ?_, ?_, ?_⟩, ?_⟩, ?_, ?_, ?_, ?_, ?_⟩
  · exact fun s => ⟨_, rfl, s.resetLow_resets⟩
  · exact fun s => ⟨_, rfl, s.pwrGoodLow_resets⟩
  · intro s mV h
    obtain ⟨hcmds, hswitch, -, hkeep⟩ := s.openInput_trips 1
    exact ⟨_, exec_underVoltageTrip_below s h, hcmds, hswitch, hkeep⟩
  · exact fun s mV h h' => ⟨_, exec_overVoltageTrip_trips s h h', State.openInput_trips _ 2⟩
  · intro s
    obtain ⟨hcmds, hswitch, -, hkeep⟩ := s.openInput_trips 0
    exact ⟨_, rfl, hcmds, hswitch, hkeep⟩
  · exact fun s secure h => ⟨_, exec_mgtModuleReset_allowed s h, s.moduleReset_cmds, s.moduleReset_keep⟩
  · intro s die secure h
    rw [exec_mgtDieReset_allowed s h]
    refine ⟨fun hdie => ?_, fun hdie => congrArg Host.Outcome.next (s.dieReset_absent hdie)⟩
    obtain ⟨hfree, hstale⟩ := s.dieReset_leaves hdie
    exact ⟨_, rfl, fun c hc => hfree c.msq (List.mem_map_of_mem hc), hstale⟩
  · exact exec_modResetRelease_low
  · exact fun s mV => exec_startThreshold_inRange s
  · exact fun s h hmay => if_pos ⟨h, hmay⟩
  · exact fun s mV h h' hst => ⟨_, exec_uvWarn_between s h h', s.warnInput_sets mV hst⟩
  · exact fun s mV h h' hst => ⟨_, exec_ovWarn_between s h h', s.warnInput_sets mV hst⟩

end Sys2Proof.Machine
end
